-- ==== Sys2Proof/Word.lean ====
section
/-! DEFINITION. The word types of the part and their plainest arithmetic: bytes, 32-bit lanes, 64-bit
registers and instruction words. -/

namespace Sys2Proof

/-- One byte of memory. -/
abbrev Byte := BitVec 8
/-- One lane of a vector register; one accumulator word. -/
abbrev W32 := BitVec 32
/-- A scalar or gaffer register, a latch lane, an instruction word. -/
abbrev W64 := BitVec 64

/-- The bits `[hi:lo]` of a natural number. -/
abbrev nbits (x hi lo : Nat) : Nat := x / 2 ^ lo % 2 ^ (hi + 1 - lo)
/-- Bit `i` of a natural number. -/
abbrev nbit (x i : Nat) : Bool := x.testBit i
/-- A natural number as a 64-bit word. -/
abbrev w64 (n : Nat) : W64 := BitVec.ofNat 64 n
/-- A natural number as a 32-bit word. -/
abbrev w32 (n : Nat) : W32 := BitVec.ofNat 32 n

end Sys2Proof
end

