-- ==== Sys2Proof/Syntax.lean ====
section
/-! DEFINITION. The steps of the part as syntax: the operand and modifier types of the Efgor instruction
word (chapter 12), the arguments of the device's events, and the one inductive `Instr`. -/

namespace Sys2Proof

/-- R294: the engine class of a clause. -/
inductive Cls where
  | strand
  | gaffer
deriving DecidableEq, Repr

/-- R309: the operand type codes 0 to 15, in code order. -/
inductive Ty where
  | i8 | i16 | i32 | i64 | n8 | n16 | n32 | n64
  | f32 | f16 | bf16 | e4m3 | e5m2 | e3m2 | e2m3 | e2m1
deriving DecidableEq, Repr

/-- R247: the rounding modes, in code order. -/
inductive Rnd where
  | rne | rtz | rdn | rup | rmm
deriving DecidableEq, Repr

/-- R310: the compare conditions. -/
inductive Cond where
  | eq | ne | lt | le | gt | ge
  | equ | neu | ltu | leu | gtu | geu
  | num | nan
deriving DecidableEq, Repr

/-- R304: the special constants, in code order. -/
inductive Konst where
  | zero | one | mone | fone | fmone | fhalf | ones | lane
deriving DecidableEq, Repr

/-- R303: a source operand. Class 00 is a vector register in strand code and a gaffer register in gaffer code. -/
inductive Src where
  | vreg (i : Nat)
  | greg (i : Nat)
  | sreg (i : Nat)
  | latch (n : Nat)
  | konst (k : Konst)
  | imm (v : BitVec 10)
deriving DecidableEq, Repr

/-- R302: one guard, a predicate number and its negation. -/
structure Guard where
  neg : Bool
  p : Nat
deriving DecidableEq, Repr

/-- R301: the fields every instruction word has: two guards, K and the destination index. -/
structure Head where
  g1 : Guard
  g2 : Guard
  k : Bool
  d : Nat
deriving DecidableEq, Repr

/-- R311, R394: the ordering of a memory access. -/
inductive Ord where
  | plain | acq | rel | acqrel
deriving DecidableEq, Repr

/-- R394: the atomic operations, in code order. -/
inductive AOp where
  | add | min | max | and | or | xor | exch | cas
deriving DecidableEq, Repr

/-- R366: the predicate tests of FCLASS, in code order. -/
inductive ClassTest where
  | isnan | issnan | isinf | iszero | issub | isnorm | isfin | isneg | isnzf
deriving DecidableEq, Repr

/-- R378: the modes of VOTE. -/
inductive VoteMode where
  | any | all | uni | ballot
deriving DecidableEq, Repr

/-- R378: the modes of SHFL. -/
inductive ShflMode where
  | idx | up | down | xor
deriving DecidableEq, Repr

/-- R407: the selectors of GRPQ. -/
inductive GrpSel where
  | memb | arr | pend | phase | gcount
deriving DecidableEq, Repr

/-- R436: the selectors of CHSEQ. -/
inductive ChSel where
  | comp | tail | esw
deriving DecidableEq, Repr

/-- One constructor per row of the opcode table: the steps of the part, each whole and indivisible.
The instructions of the Efgor set come first, then the device's own events, each in the table's order. An event
carries no fields: the particulars of its occurrence (which island, packet, thread ...) stand in the state's
`occ` when it takes place. -/
inductive Instr where
  /-- R332: Vector form: adds per lane, wrapping or saturating. -/
  | iaddVector (h : Head) (ty : Ty) (sat : Bool) (a : Src) (b : Src)
  /-- R332: Scalar form: adds once, wrapping or saturating. -/
  | iaddScalar (h : Head) (ty : Ty) (sat : Bool) (a : Src) (b : Src)
  /-- R332: Vector form: subtracts per lane. -/
  | isubVector (h : Head) (ty : Ty) (sat : Bool) (a : Src) (b : Src)
  /-- R332: Scalar form: subtracts once. -/
  | isubScalar (h : Head) (ty : Ty) (sat : Bool) (a : Src) (b : Src)
  /-- R334: Vector form: adds with carry-in and carry-out predicates. -/
  | iaddcVector (h : Head) (ty : Ty) (co : Nat) (cie : Bool) (ci : Nat) (a : Src) (b : Src)
  /-- R334: Scalar form: adds with carry predicates. -/
  | iaddcScalar (h : Head) (ty : Ty) (co : Nat) (cie : Bool) (ci : Nat) (a : Src) (b : Src)
  /-- R332: Vector form: negates per lane. -/
  | inegVector (h : Head) (ty : Ty) (sat : Bool) (a : Src)
  /-- R332: Scalar form: negates once. -/
  | inegScalar (h : Head) (ty : Ty) (sat : Bool) (a : Src)
  /-- R332: Vector form: low half of the product per lane. -/
  | imulVector (h : Head) (ty : Ty) (a : Src) (b : Src)
  /-- R332: Scalar form: low half of the product. -/
  | imulScalar (h : Head) (ty : Ty) (a : Src) (b : Src)
  /-- R332: Vector form: high half of the product per lane. -/
  | imulhVector (h : Head) (ty : Ty) (a : Src) (b : Src)
  /-- R332: Scalar form: high half of the product. -/
  | imulhScalar (h : Head) (ty : Ty) (a : Src) (b : Src)
  /-- R333: Vector form: 32-bit multiply-add. -/
  | imadVector (h : Head) (a : Src) (b : Src) (c : Src)
  /-- R333: Scalar form: 64-bit multiply-add. -/
  | imadScalar (h : Head) (a : Src) (b : Src) (c : Src)
  /-- R333: Vector form: signed widening multiply-add into a pair. -/
  | imadwI32Vector (h : Head) (a : Src) (b : Src) (c : Src)
  /-- R333: Scalar form: signed widening multiply-add. -/
  | imadwI32Scalar (h : Head) (a : Src) (b : Src) (c : Src)
  /-- R333: Vector form: unsigned widening multiply-add into a pair. -/
  | imadwN32Vector (h : Head) (a : Src) (b : Src) (c : Src)
  /-- R333: Scalar form: unsigned widening multiply-add. -/
  | imadwN32Scalar (h : Head) (a : Src) (b : Src) (c : Src)
  /-- R335: Vector form: truncating divide, variable latency. -/
  | idivVector (h : Head) (ty : Ty) (a : Src) (b : Src)
  /-- R335: Scalar form: truncating divide. -/
  | idivScalar (h : Head) (ty : Ty) (a : Src) (b : Src)
  /-- R335: Vector form: remainder of the truncating divide. -/
  | iremVector (h : Head) (ty : Ty) (a : Src) (b : Src)
  /-- R335: Scalar form: remainder. -/
  | iremScalar (h : Head) (ty : Ty) (a : Src) (b : Src)
  /-- R332: Vector form: minimum per lane. -/
  | iminVector (h : Head) (ty : Ty) (a : Src) (b : Src)
  /-- R332: Scalar form: minimum. -/
  | iminScalar (h : Head) (ty : Ty) (a : Src) (b : Src)
  /-- R332: Vector form: maximum per lane. -/
  | imaxVector (h : Head) (ty : Ty) (a : Src) (b : Src)
  /-- R332: Scalar form: maximum. -/
  | imaxScalar (h : Head) (ty : Ty) (a : Src) (b : Src)
  /-- R332: Vector form: absolute value per lane. -/
  | iabsVector (h : Head) (ty : Ty) (sat : Bool) (a : Src)
  /-- R332: Scalar form: absolute value. -/
  | iabsScalar (h : Head) (ty : Ty) (sat : Bool) (a : Src)
  /-- R336: Vector form: integer compare into a predicate per lane. -/
  | icmpVector (h : Head) (ty : Ty) (cond : Cond) (a : Src) (b : Src)
  /-- R336: Scalar form: integer compare into a predicate. -/
  | icmpScalar (h : Head) (ty : Ty) (cond : Cond) (a : Src) (b : Src)
  /-- R337: Vector form: selects A or B by a predicate. -/
  | selVector (h : Head) (ty : Ty) (pr : Nat) (neg : Bool) (a : Src) (b : Src)
  /-- R337: Scalar form: selects by a predicate. -/
  | selScalar (h : Head) (ty : Ty) (pr : Nat) (neg : Bool) (a : Src) (b : Src)
  /-- R337: Vector form: move. -/
  | movVector (h : Head) (ty : Ty) (a : Src)
  /-- R337: Scalar form: move. -/
  | movScalar (h : Head) (ty : Ty) (a : Src)
  /-- R338: Vector form: loads a sign-extended 24-bit immediate. -/
  | moviVector (h : Head) (w : BitVec 24)
  /-- R338: Scalar form: loads a sign-extended 24-bit immediate. -/
  | moviScalar (h : Head) (w : BitVec 24)
  /-- R338: Vector form: replaces a 16-bit field at position 0 or 1. -/
  | movhVector (h : Head) (q : Nat) (w : BitVec 16) (a : Src)
  /-- R338: Scalar form: replaces a 16-bit field at position 0–3. -/
  | movhScalar (h : Head) (q : Nat) (w : BitVec 16) (a : Src)
  /-- R339: Vector form: bitwise AND. -/
  | andVector (h : Head) (ty : Ty) (a : Src) (b : Src)
  /-- R339: Scalar form: bitwise AND. -/
  | andScalar (h : Head) (ty : Ty) (a : Src) (b : Src)
  /-- R339: Vector form: bitwise OR. -/
  | orVector (h : Head) (ty : Ty) (a : Src) (b : Src)
  /-- R339: Scalar form: bitwise OR. -/
  | orScalar (h : Head) (ty : Ty) (a : Src) (b : Src)
  /-- R339: Vector form: bitwise XOR. -/
  | xorVector (h : Head) (ty : Ty) (a : Src) (b : Src)
  /-- R339: Scalar form: bitwise XOR. -/
  | xorScalar (h : Head) (ty : Ty) (a : Src) (b : Src)
  /-- R339: Vector form: A and not B. -/
  | andnVector (h : Head) (ty : Ty) (a : Src) (b : Src)
  /-- R339: Scalar form: A and not B. -/
  | andnScalar (h : Head) (ty : Ty) (a : Src) (b : Src)
  /-- R340: Vector form: shift left. -/
  | shlVector (h : Head) (ty : Ty) (a : Src) (b : Src)
  /-- R340: Scalar form: shift left. -/
  | shlScalar (h : Head) (ty : Ty) (a : Src) (b : Src)
  /-- R340: Vector form: logical shift right. -/
  | shrVector (h : Head) (ty : Ty) (a : Src) (b : Src)
  /-- R340: Scalar form: logical shift right. -/
  | shrScalar (h : Head) (ty : Ty) (a : Src) (b : Src)
  /-- R340: Vector form: arithmetic shift right. -/
  | sarVector (h : Head) (ty : Ty) (a : Src) (b : Src)
  /-- R340: Scalar form: arithmetic shift right. -/
  | sarScalar (h : Head) (ty : Ty) (a : Src) (b : Src)
  /-- R341: Vector form: right funnel shift. -/
  | shfVector (h : Head) (a : Src) (b : Src) (c : Src)
  /-- R341: Scalar form: right funnel shift. -/
  | shfScalar (h : Head) (a : Src) (b : Src) (c : Src)
  /-- R342: Vector form: bit-field extract. -/
  | bfxVector (h : Head) (ty : Ty) (a : Src) (b : Src)
  /-- R342: Scalar form: bit-field extract. -/
  | bfxScalar (h : Head) (ty : Ty) (a : Src) (b : Src)
  /-- R342: Vector form: 32-bit bit-field insert. -/
  | bfiVector (h : Head) (a : Src) (b : Src) (c : Src)
  /-- R342: Scalar form: 64-bit bit-field insert. -/
  | bfiScalar (h : Head) (a : Src) (b : Src) (c : Src)
  /-- R343: Vector form: population count. -/
  | popcVector (h : Head) (ty : Ty) (a : Src)
  /-- R343: Scalar form: population count. -/
  | popcScalar (h : Head) (ty : Ty) (a : Src)
  /-- R343: Vector form: count leading zeros. -/
  | clzVector (h : Head) (ty : Ty) (a : Src)
  /-- R343: Scalar form: count leading zeros. -/
  | clzScalar (h : Head) (ty : Ty) (a : Src)
  /-- R343: Vector form: bit reverse. -/
  | brevVector (h : Head) (ty : Ty) (a : Src)
  /-- R343: Scalar form: bit reverse. -/
  | brevScalar (h : Head) (ty : Ty) (a : Src)
  /-- R344: Vector form: byte permute. -/
  | permVector (h : Head) (a : Src) (b : Src) (c : Src)
  /-- R344: Scalar form: byte permute. -/
  | permScalar (h : Head) (a : Src) (b : Src) (c : Src)
  /-- R345: Vector form: 64-bit scaled address sum. -/
  | leaVector (h : Head) (ty : Ty) (sh : Nat) (a : Src) (b : Src)
  /-- R345: Scalar form: 64-bit scaled address sum. -/
  | leaScalar (h : Head) (ty : Ty) (sh : Nat) (a : Src) (b : Src)
  /-- R345: Vector form: sign- or zero-extends to 32 or 64 bits. -/
  | sxtVector (h : Head) (ty : Ty) (w64 : Bool) (a : Src)
  /-- R345: Scalar form: extends to 64 bits. -/
  | sxtScalar (h : Head) (ty : Ty) (w64 : Bool) (a : Src)
  /-- R346: Vector form: three-input predicate lookup. -/
  | plopVector (h : Head) (pa : Nat) (pb : Nat) (pc : Nat) (lut : BitVec 8)
  /-- R346: Scalar form: predicate lookup. -/
  | plopScalar (h : Head) (pa : Nat) (pb : Nat) (pc : Nat) (lut : BitVec 8)
  /-- R346: Vector form: predicates to register bits. -/
  | p2vVector (h : Head) (mask : BitVec 8)
  /-- R346: Scalar form: predicates to register bits. -/
  | p2vScalar (h : Head) (mask : BitVec 8)
  /-- R346: Vector form: register bit n to a predicate. -/
  | v2pVector (h : Head) (n : Nat) (a : Src)
  /-- R346: Scalar form: register bit n to a predicate. -/
  | v2pScalar (h : Head) (n : Nat) (a : Src)
  /-- R362: Vector form: floating-point add, one rounding. -/
  | faddVector (h : Head) (ty : Ty) (rnd : Rnd) (a : Src) (b : Src)
  /-- R362: Scalar form: floating-point add. -/
  | faddScalar (h : Head) (ty : Ty) (rnd : Rnd) (a : Src) (b : Src)
  /-- R362: Vector form: floating-point subtract. -/
  | fsubVector (h : Head) (ty : Ty) (rnd : Rnd) (a : Src) (b : Src)
  /-- R362: Scalar form: floating-point subtract. -/
  | fsubScalar (h : Head) (ty : Ty) (rnd : Rnd) (a : Src) (b : Src)
  /-- R362: Vector form: floating-point multiply. -/
  | fmulVector (h : Head) (ty : Ty) (rnd : Rnd) (a : Src) (b : Src)
  /-- R362: Scalar form: floating-point multiply. -/
  | fmulScalar (h : Head) (ty : Ty) (rnd : Rnd) (a : Src) (b : Src)
  /-- R362: Vector form: F32 fused multiply-add under RNE. -/
  | ffmaVector (h : Head) (a : Src) (b : Src) (c : Src)
  /-- R362: Scalar form: F32 fused multiply-add. -/
  | ffmaScalar (h : Head) (a : Src) (b : Src) (c : Src)
  /-- R363: Vector form: minimumNumber. -/
  | fminVector (h : Head) (ty : Ty) (a : Src) (b : Src)
  /-- R363: Scalar form: minimumNumber. -/
  | fminScalar (h : Head) (ty : Ty) (a : Src) (b : Src)
  /-- R363: Vector form: maximumNumber. -/
  | fmaxVector (h : Head) (ty : Ty) (a : Src) (b : Src)
  /-- R363: Scalar form: maximumNumber. -/
  | fmaxScalar (h : Head) (ty : Ty) (a : Src) (b : Src)
  /-- R364: Vector form: clears the sign bit. -/
  | fabsVector (h : Head) (ty : Ty) (a : Src)
  /-- R364: Scalar form: clears the sign bit. -/
  | fabsScalar (h : Head) (ty : Ty) (a : Src)
  /-- R364: Vector form: inverts the sign bit. -/
  | fnegVector (h : Head) (ty : Ty) (a : Src)
  /-- R364: Scalar form: inverts the sign bit. -/
  | fnegScalar (h : Head) (ty : Ty) (a : Src)
  /-- R365: Vector form: quiet compare into a predicate. -/
  | fcmpVector (h : Head) (ty : Ty) (cond : Cond) (a : Src) (b : Src)
  /-- R365: Scalar form: quiet compare into a predicate. -/
  | fcmpScalar (h : Head) (ty : Ty) (cond : Cond) (a : Src) (b : Src)
  /-- R366: Vector form: class mask or class test predicate. -/
  | fclassVector (h : Head) (ty : Ty) (test : Option ClassTest) (a : Src)
  /-- R366: Scalar form: class mask or class test. -/
  | fclassScalar (h : Head) (ty : Ty) (test : Option ClassTest) (a : Src)
  /-- R367: Vector form: rounds to an integral value. -/
  | frndVector (h : Head) (ty : Ty) (rnd : Rnd) (a : Src)
  /-- R367: Scalar form: rounds to an integral value. -/
  | frndScalar (h : Head) (ty : Ty) (rnd : Rnd) (a : Src)
  /-- R369: Vector form: converts between floating-point formats. -/
  | fcvtVector (h : Head) (ty : Ty) (rnd : Rnd) (sat : Bool) (src : Ty) (a : Src)
  /-- R369: Scalar form: converts between floating-point formats. -/
  | fcvtScalar (h : Head) (ty : Ty) (rnd : Rnd) (sat : Bool) (src : Ty) (a : Src)
  /-- R370: Vector form: float to integer, clamping with NV. -/
  | f2iVector (h : Head) (ty : Ty) (rnd : Rnd) (src : Ty) (a : Src)
  /-- R370: Scalar form: float to integer. -/
  | f2iScalar (h : Head) (ty : Ty) (rnd : Rnd) (src : Ty) (a : Src)
  /-- R371: Vector form: integer to float. -/
  | i2fVector (h : Head) (ty : Ty) (rnd : Rnd) (src : Ty) (a : Src)
  /-- R371: Scalar form: integer to float. -/
  | i2fScalar (h : Head) (ty : Ty) (rnd : Rnd) (src : Ty) (a : Src)
  /-- R368: Vector form: multiplies by 2^n. -/
  | fscaleVector (h : Head) (ty : Ty) (rnd : Rnd) (a : Src) (b : Src)
  /-- R368: Scalar form: multiplies by 2^n. -/
  | fscaleScalar (h : Head) (ty : Ty) (rnd : Rnd) (a : Src) (b : Src)
  /-- R368: Vector form: exponent as a value. -/
  | fgetexpVector (h : Head) (ty : Ty) (a : Src)
  /-- R368: Scalar form: exponent as a value. -/
  | fgetexpScalar (h : Head) (ty : Ty) (a : Src)
  /-- R372: Vector form: correctly rounded reciprocal, variable latency. -/
  | frcpVector (h : Head) (ty : Ty) (rnd : Rnd) (a : Src)
  /-- R372: Scalar form: reciprocal. -/
  | frcpScalar (h : Head) (ty : Ty) (rnd : Rnd) (a : Src)
  /-- R373: Vector form: faithfully rounded reciprocal square root. -/
  | frsqVector (h : Head) (ty : Ty) (a : Src)
  /-- R373: Scalar form: reciprocal square root. -/
  | frsqScalar (h : Head) (ty : Ty) (a : Src)
  /-- R372: Vector form: correctly rounded square root. -/
  | fsqrtVector (h : Head) (ty : Ty) (rnd : Rnd) (a : Src)
  /-- R372: Scalar form: square root. -/
  | fsqrtScalar (h : Head) (ty : Ty) (rnd : Rnd) (a : Src)
  /-- R372: Vector form: correctly rounded divide. -/
  | fdivVector (h : Head) (ty : Ty) (rnd : Rnd) (a : Src) (b : Src)
  /-- R372: Scalar form: divide. -/
  | fdivScalar (h : Head) (ty : Ty) (rnd : Rnd) (a : Src) (b : Src)
  /-- R373: Vector form: faithfully rounded 2^A. -/
  | fexp2Vector (h : Head) (ty : Ty) (a : Src)
  /-- R373: Scalar form: 2^A. -/
  | fexp2Scalar (h : Head) (ty : Ty) (a : Src)
  /-- R373: Vector form: faithfully rounded log2. -/
  | flog2Vector (h : Head) (ty : Ty) (a : Src)
  /-- R373: Scalar form: log2. -/
  | flog2Scalar (h : Head) (ty : Ty) (a : Src)
  /-- R373: Vector form: faithfully rounded sine. -/
  | fsinVector (h : Head) (ty : Ty) (a : Src)
  /-- R373: Scalar form: sine. -/
  | fsinScalar (h : Head) (ty : Ty) (a : Src)
  /-- R373: Vector form: faithfully rounded cosine. -/
  | fcosVector (h : Head) (ty : Ty) (a : Src)
  /-- R373: Scalar form: cosine. -/
  | fcosScalar (h : Head) (ty : Ty) (a : Src)
  /-- R373: Vector form: faithfully rounded tanh. -/
  | ftanhVector (h : Head) (ty : Ty) (a : Src)
  /-- R373: Scalar form: tanh. -/
  | ftanhScalar (h : Head) (ty : Ty) (a : Src)
  /-- R375: Vector form: packed-pair add or subtract. -/
  | hadd2Vector (h : Head) (ty : Ty) (rnd : Rnd) (negb : Bool) (a : Src) (b : Src)
  /-- R375: Scalar form: packed-pair add or subtract. -/
  | hadd2Scalar (h : Head) (ty : Ty) (rnd : Rnd) (negb : Bool) (a : Src) (b : Src)
  /-- R375: Vector form: packed-pair multiply. -/
  | hmul2Vector (h : Head) (ty : Ty) (rnd : Rnd) (a : Src) (b : Src)
  /-- R375: Scalar form: packed-pair multiply. -/
  | hmul2Scalar (h : Head) (ty : Ty) (rnd : Rnd) (a : Src) (b : Src)
  /-- R375: Vector form: packed F16 fused multiply-add. -/
  | hfma2F16Vector (h : Head) (a : Src) (b : Src) (c : Src)
  /-- R375: Scalar form: packed F16 fused multiply-add. -/
  | hfma2F16Scalar (h : Head) (a : Src) (b : Src) (c : Src)
  /-- R375: Vector form: packed BF16 fused multiply-add. -/
  | hfma2Bf16Vector (h : Head) (a : Src) (b : Src) (c : Src)
  /-- R375: Scalar form: packed BF16 fused multiply-add. -/
  | hfma2Bf16Scalar (h : Head) (a : Src) (b : Src) (c : Src)
  /-- R375: Vector form: packed-pair minimum. -/
  | hmin2Vector (h : Head) (ty : Ty) (a : Src) (b : Src)
  /-- R375: Scalar form: packed-pair minimum. -/
  | hmin2Scalar (h : Head) (ty : Ty) (a : Src) (b : Src)
  /-- R375: Vector form: packed-pair maximum. -/
  | hmax2Vector (h : Head) (ty : Ty) (a : Src) (b : Src)
  /-- R375: Scalar form: packed-pair maximum. -/
  | hmax2Scalar (h : Head) (ty : Ty) (a : Src) (b : Src)
  /-- R376: Vector form: INT32 to RN24, wrapping or saturating. -/
  | rnencVector (h : Head) (sat : Bool) (a : Src)
  /-- R376: Scalar form: INT32 to RN24. -/
  | rnencScalar (h : Head) (sat : Bool) (a : Src)
  /-- R376: Vector form: RN24 to INT32 by Crt24. -/
  | rndecVector (h : Head) (a : Src)
  /-- R376: Scalar form: RN24 to a sign-extended integer. -/
  | rndecScalar (h : Head) (a : Src)
  /-- R379: Evaluates ANY, ALL, UNI or BALLOT over the participants. -/
  | vote (h : Head) (mode : VoteMode) (neg : Bool) (pa : Nat)
  /-- R380: Moves values between participants within segments. -/
  | shfl (h : Head) (ty : Ty) (mode : ShflMode) (lg : Nat) (a : Src) (b : Src)
  /-- R381: Reduces the participants' values and writes the result to each of them. -/
  | redux (h : Head) (ty : Ty) (rnd : Rnd) (op : AOp) (a : Src)
  /-- R381: Inclusive or exclusive prefix over the participants. -/
  | scan (h : Head) (ty : Ty) (rnd : Rnd) (op : AOp) (excl : Bool) (a : Src)
  /-- R382: Writes a mask of the participants with equal values. -/
  | match (h : Head) (ty : Ty) (a : Src)
  /-- R387: Vector form: global load per lane, optionally acquiring. -/
  | ldVector (h : Head) (ty : Ty) (ord : Ord) (x2 : Bool) (ofs : Nat) (a : Src) (b : Src)
  /-- R387: Scalar form: global load, optionally acquiring. -/
  | ldScalar (h : Head) (ty : Ty) (ord : Ord) (x2 : Bool) (ofs : Nat) (a : Src) (b : Src)
  /-- R388: Vector form: global store per lane, optionally releasing. -/
  | stVector (h : Head) (ty : Ty) (ord : Ord) (x2 : Bool) (ofs : Nat) (a : Src) (b : Src)
  /-- R388: Scalar form: global store. -/
  | stScalar (h : Head) (ty : Ty) (ord : Ord) (x2 : Bool) (ofs : Nat) (a : Src) (b : Src)
  /-- R387: Vector form: own-scratchpad load. -/
  | ldsVector (h : Head) (ty : Ty) (ord : Ord) (x2 : Bool) (ofs : Nat) (a : Src) (b : Src)
  /-- R387: Scalar form: own-scratchpad load. -/
  | ldsScalar (h : Head) (ty : Ty) (ord : Ord) (x2 : Bool) (ofs : Nat) (a : Src) (b : Src)
  /-- R388: Vector form: own-scratchpad store. -/
  | stsVector (h : Head) (ty : Ty) (ord : Ord) (x2 : Bool) (ofs : Nat) (a : Src) (b : Src)
  /-- R388: Scalar form: own-scratchpad store. -/
  | stsScalar (h : Head) (ty : Ty) (ord : Ord) (x2 : Bool) (ofs : Nat) (a : Src) (b : Src)
  /-- R389: Vector form: cluster-peer scratchpad load. -/
  | ldxVector (h : Head) (ty : Ty) (ord : Ord) (x2 : Bool) (q : Nat) (ofs : Nat) (a : Src) (b : Src)
  /-- R389: Scalar form: cluster-peer scratchpad load. -/
  | ldxScalar (h : Head) (ty : Ty) (ord : Ord) (x2 : Bool) (q : Nat) (ofs : Nat) (a : Src) (b : Src)
  /-- R389: Vector form: cluster-peer scratchpad store. -/
  | stxVector (h : Head) (ty : Ty) (ord : Ord) (x2 : Bool) (q : Nat) (ofs : Nat) (a : Src) (b : Src)
  /-- R389: Scalar form: cluster-peer scratchpad store. -/
  | stxScalar (h : Head) (ty : Ty) (ord : Ord) (x2 : Bool) (q : Nat) (ofs : Nat) (a : Src) (b : Src)
  /-- R390: Vector form: constant load through the constant cache or L1. -/
  | ldcVector (h : Head) (ty : Ty) (ord : Ord) (x2 : Bool) (ofs : Nat) (a : Src) (b : Src)
  /-- R390: Scalar form: constant load. -/
  | ldcScalar (h : Head) (ty : Ty) (ord : Ord) (x2 : Bool) (ofs : Nat) (a : Src) (b : Src)
  /-- R393: Vector form, element mode: writes FP4 or FP6 elements as sub-byte writes. -/
  | stsbElementVector (h : Head) (ty : Ty) (ord : Ord) (ofs : Nat) (a : Src) (b : Src)
  /-- R393: Scalar form, element mode: writes one element. -/
  | stsbElementScalar (h : Head) (ty : Ty) (ord : Ord) (ofs : Nat) (a : Src) (b : Src)
  /-- R393: Vector form, mask mode: masked 64-bit sub-byte writes. -/
  | stsbMaskVector (h : Head) (ord : Ord) (ofs : Nat) (a : Src) (b : Src)
  /-- R393: Scalar form, mask mode: one masked sub-byte write. -/
  | stsbMaskScalar (h : Head) (ord : Ord) (ofs : Nat) (a : Src) (b : Src)
  /-- R391: Vector form: prefetch that is dropped on any problem. -/
  | prfVector (h : Head) (ty : Ty) (ord : Ord) (x2 : Bool) (ofs : Nat) (a : Src) (b : Src)
  /-- R391: Scalar form: prefetch. -/
  | prfScalar (h : Head) (ty : Ty) (ord : Ord) (x2 : Bool) (ofs : Nat) (a : Src) (b : Src)
  /-- R395: Vector form: global atomic per lane, returning the old value. -/
  | atomVector (h : Head) (ty : Ty) (ord : Ord) (op : AOp) (ofs : Nat) (a : Src) (b : Src)
  /-- R395: Scalar form: global atomic. -/
  | atomScalar (h : Head) (ty : Ty) (ord : Ord) (op : AOp) (ofs : Nat) (a : Src) (b : Src)
  /-- R395: Vector form: scratchpad atomic per lane. -/
  | atomsVector (h : Head) (ty : Ty) (ord : Ord) (op : AOp) (ofs : Nat) (a : Src) (b : Src)
  /-- R395: Scalar form: scratchpad atomic. -/
  | atomsScalar (h : Head) (ty : Ty) (ord : Ord) (op : AOp) (ofs : Nat) (a : Src) (b : Src)
  /-- R395: Vector form: global reduction, returning nothing. -/
  | redVector (h : Head) (ty : Ty) (ord : Ord) (op : AOp) (ofs : Nat) (a : Src) (b : Src)
  /-- R395: Scalar form: global reduction. -/
  | redScalar (h : Head) (ty : Ty) (ord : Ord) (op : AOp) (ofs : Nat) (a : Src) (b : Src)
  /-- R354: No effect beyond the slot's scoreboard and latch behaviour. -/
  | nop (h : Head)
  /-- R349: Offset branch that may divide the split. -/
  | br (h : Head) (w : BitVec 24)
  /-- R351: Uniform branch decided by the lowest active lane. -/
  | bru (h : Head) (w : BitVec 24)
  /-- R349: Indirect branch that groups lanes by target. -/
  | brx (h : Head) (a : Src)
  /-- R349: Offset branch that writes a link. -/
  | call (h : Head) (w : BitVec 24)
  /-- R349: Indirect call that writes a link. -/
  | callx (h : Head) (a : Src)
  /-- R349: Indirect branch marked as a return. -/
  | ret (h : Head) (a : Src)
  /-- R352: Branches to X and holds the lanes there until every live split is held at X and the stack is empty. -/
  | join (h : Head) (w : BitVec 24)
  /-- R353: Removes lanes from the split, ends a gaffer context, or completes a save routine. -/
  | exit (h : Head)
  /-- R354: Makes the split ineligible for 16 × N clocks after its clause. -/
  | yield (h : Head) (n : Nat)
  /-- R441: Raises SOFTWARE with the operand in TVAL. -/
  | trap (h : Head) (a : Src)
  /-- R182: Returns from a handler to EPC, restoring latches and mask. -/
  | rte (h : Head)
  /-- R443: Copies a special register into a register. -/
  | sysrd (h : Head) (reg : Nat)
  /-- R443: Write to a special register with no row of its own; a read-only register raises PERMISSION. -/
  | syswr (h : Head) (reg : Nat) (a : Src)
  /-- R443: Writes EPC inside a handler so that RTE branches there; outside a handler raises PERMISSION. -/
  | syswrEpc (h : Head) (a : Src)
  /-- R250: Clears the FSTAT flags written as 1. -/
  | syswrFstat (h : Head) (a : Src)
  /-- R211: Clears AMSTAT.UR when bit 0 is written as 1. -/
  | syswrAmstat (h : Head) (a : Src)
  /-- R444: Makes the split ineligible for A clocks or until a pre-emption request. -/
  | sleep (h : Head) (a : Src)
  /-- R445: Marks a safe point; under an open SAVE request it calls the save routine at clause end. -/
  | safept (h : Head) (id : Nat)
  /-- R441: Raises BREAKPOINT with the code in TVAL. -/
  | brkpt (h : Head) (code : Nat)
  /-- R396: Invalidates the issuing core's instruction cache. -/
  | cctlIinv (h : Head)
  /-- R396: Invalidates the instruction caches of the partition's cores on the island. -/
  | cctlIinvp (h : Head)
  /-- R396: Invalidates unowned words of one line in the issuing core's L1. -/
  | cctlL1inv (h : Head) (a : Src)
  /-- R396: Invalidates every unowned, unsealed L1 word of the core. -/
  | cctlL1all (h : Head)
  /-- R203: Checks the range, releases, sets SL and invalidates translations and L1 copies. -/
  | seal (h : Head) (a : Src) (b : Src)
  /-- R206: Clears SL and invalidates translations, L1 and constant-cache lines. -/
  | unseal (h : Head) (a : Src) (b : Src)
  /-- R398: Acquire fence. -/
  | fenceAcq (h : Head)
  /-- R398: Release fence. -/
  | fenceRel (h : Head)
  /-- R398: Release, then acquire. -/
  | fenceAcqrel (h : Head)
  /-- R399: Arms a watch on a 256-byte line. -/
  | monitor (h : Head) (a : Src) (b : Option Src)
  /-- R400: Sleeps until the watch fires or is lost, a timeout, or a pre-emption, then acquires. -/
  | mwait (h : Head) (a : Src)
  /-- R403: Releases and arrives at a group, returning the phase. -/
  | bararr (h : Head) (a : Src)
  /-- R403: Holds the split until the phase changes, then acquires. -/
  | barwait (h : Head) (a : Src) (b : Src)
  /-- R403: Arrives and waits in one instruction. -/
  | barsync (h : Head) (a : Src)
  /-- R404: Sets a group's member count when no phase is open. -/
  | barinit (h : Head) (a : Src) (b : Src)
  /-- R405: Releases and attaches up to n new strands. -/
  | attach (h : Head) (a : Src)
  /-- R406: Ends the strand at clause end after leaving its groups. -/
  | detach (h : Head)
  /-- R407: Reads a group's state at the barrier unit. -/
  | grpq (h : Head) (sel : GrpSel) (a : Src)
  /-- R412: Register form: writes each participant's data to a remote address. -/
  | put (h : Head) (ty : Ty) (och : Option Nat) (a : Src) (b : Src)
  /-- R412: Block form: writes a local buffer to a remote address in packets. -/
  | putBlk (h : Head) (scr : Bool) (och : Option Nat) (a : Src) (b : Option Src)
  /-- R413: Reads remote bytes into a local destination. -/
  | get (h : Head) (scr : Bool) (och : Option Nat) (a : Src) (b : Option Src)
  /-- R414: Remote atomic per participant, returning old values. -/
  | ratom (h : Head) (ty : Ty) (op : AOp) (och : Option Nat) (a : Src) (b : Src)
  /-- R414: Remote reduction per participant. -/
  | rred (h : Head) (ty : Ty) (op : AOp) (och : Option Nat) (a : Src) (b : Src)
  /-- R415: Sends a remote join decrement, raising REMOTE_ERROR on an already recorded failure. -/
  | notify (h : Head) (och : Option Nat) (a : Src) (b : Src)
  /-- R282: Releases, waits for earlier remote writes, then sends the decrement or raises REMOTE_ERROR. -/
  | notifyRel (h : Head) (och : Option Nat) (a : Src) (b : Src)
  /-- R410: Binds an ordered channel to an island and sends OCH_RESET. -/
  | ochopen (h : Head) (a : Src) (b : Src)
  /-- R410: Waits for the channel's operations to complete, then closes it. -/
  | ochclose (h : Head) (b : Src)
  /-- R416: Waits for remote operations and delivers REMOTE_ERROR from the failure record. -/
  | rfence (h : Head)
  /-- R422: Dense matrix multiply-accumulate into a bank through the matrix input queue. -/
  | mma (h : Head) (a : Src) (b : Src) (c : Src)
  /-- R422: 2:4-sparse matrix multiply-accumulate. -/
  | mmasp (h : Head) (a : Src) (b : Src) (c : Src)
  /-- R424: Matrix-vector product from global weight rows into banks. -/
  | mvm (h : Head) (a : Src) (b : Src) (c : Src)
  /-- R427: Allocates a zeroed run of accumulator banks or reports failure. -/
  | amalloc (h : Head) (a : Src)
  /-- R428: Ends the team's allocation; the banks are freed after queued work completes. -/
  | amfree (h : Head)
  /-- R429: Sets band grants of a bank. -/
  | amgrant (h : Head) (mask : BitVec 4) (a : Src) (b : Src)
  /-- R430: Loads one band into four vector registers, subject to the band grant. -/
  | amld (h : Head) (band : Nat) (a : Src)
  /-- R430: Stores four vector registers into one band. -/
  | amst (h : Head) (band : Nat) (a : Src)
  /-- R431: Writes a band to global memory, optionally converting and zeroing it. -/
  | amdrain (h : Head) (ty : Ty) (rnd : Rnd) (band : Nat) (z : Bool) (a : Src) (b : Src)
  /-- R432: Zeroes the bands in the mask. -/
  | amzero (h : Head) (mask : BitVec 4)
  /-- R435: Releases and appends one record to an engine chain, binding it if needed. -/
  | chput (h : Head) (a : Src) (b : Src)
  /-- R435: Releases and appends n pre-linked records. -/
  | chadv (h : Head) (a : Src) (b : Src) (c : Src)
  /-- R436: Reads COMP, TAIL or ESW at the home bank, optionally acquiring. -/
  | chseq (h : Head) (acq : Bool) (sel : ChSel) (a : Src)
  /-- R437: Builds a task record and writes its join word. -/
  | spawn (h : Head) (a : Src) (b : Src) (c : Src)
  /-- R438: Releases and applies a local join decrement. -/
  | joindec (h : Head) (a : Src) (b : Src)
  /-- R439: Releases and appends to the decision queue. -/
  | pushdq (h : Head) (a : Src)
  /-- R439: Removes the oldest decision-queue entry or reports a closed queue, then acquires. -/
  | popdq (h : Head) (pr : Nat)
  /-- R439: Returns the decision-queue status word. -/
  | dqstat (h : Head)
  /-- R17: Every 1 ms the power arbiter reads each running island's demand, gives floor shares, divides the rest of the module cap and sends each island its share. -/
  | budgetRound
  /-- R20: An island's die temperature reaches its throttle limit, and the island drops to the lowest clock step. -/
  | throttleLimit
  /-- R20: The die temperature falls back, and the island returns to its share-based clock step. -/
  | throttleRecover
  /-- R20: An island has stayed at its throttle limit for 100 consecutive budget rounds; the hub fences it as failed and reports it through Redfish. -/
  | throttleFence
  /-- R21: Input falls below 42 V; the hub puts every island at the lowest clock step and reports a power fault. -/
  | inputUndervoltage
  /-- R21: Input falls below 38 V or is lost; the module powers off without saving state or writing a lehr token. -/
  | inputPowerLoss
  /-- R22: The hub senses that coolant flow has stopped and treats it as the overtemperature case for every island at once. -/
  | coolantFlowStop
  /-- R24: RESET_IN cold-resets the whole module, ends every tenant without a scrub token and starts the boot ROM. -/
  | resetIn
  /-- R79: Every 30 s until an image verifies, the boot ROM retries HTTPS boot on port 0 and then on port 1. -/
  | httpsBootRetry
  /-- R80: A Redfish update is verified by the anchor and replaces the single flash image, taking effect at the next cold reset. -/
  | firmwareUpdate
  /-- R78: The service firmware stops; the anchor restarts it from the verified image, and TOPOSET, MAP, UNMAP and Redfish wait until the restart is done. -/
  | serviceFirmwareStop
  /-- R33: The anchor installs a new key, with the other phase, in a key slot before PCTR overflows or when a partition id passes to a new tenant. -/
  | keyPhaseChange
  /-- R33: The anchor retires the old key phase of a slot, after which packets that carry it fail with AUTH. -/
  | keyPhaseRetire
  /-- R36: A router receives a packet, increments HIDX and forwards it on the hop's output port; it discards reserved headers and answers MISROUTE, UNREACHABLE, ISLAND_DOWN and stale-generation cases. -/
  | packetHop
  /-- R412: The destination fabric interface verifies the GCM tag, orders the packet on its channel, translates it and writes the payload at the home bank, then answers PUT_ACK or ERROR. -/
  | putPacket
  /-- R280: A PUT_ACK arrives at the source and completes the PUT packet's share of the operation. -/
  | putAck
  /-- R283: The target reads the requested bytes at its home bank and returns GET_DATA, or an ERROR. -/
  | getReq
  /-- R413: GET_DATA arrives at the source and its bytes are written to the GET's local destination. -/
  | getData
  /-- R284: The target applies a remote atomic at its home bank and returns RATOM_RES with the old value. -/
  | ratomPacket
  /-- R414: RATOM_RES arrives at the source and delivers the old value to the RATOM's lane. -/
  | ratomRes
  /-- R284: The target applies a remote reduction at its home bank and returns RRED_ACK. -/
  | rredPacket
  /-- R414: RRED_ACK arrives at the source and completes that step of the RRED. -/
  | rredAck
  /-- R415: The target translates the join word and applies a join decrement, then returns NOTIFY_ACK or ERROR. -/
  | notifyPacket
  /-- R415: NOTIFY_ACK arrives at the source and completes the NOTIFY. -/
  | notifyAck
  /-- R34: An ERROR reply arrives at the source, completes the operation with its fabric status and records the failure in the split's failure record. -/
  | errorPacket
  /-- R41: The destination discards every packet it holds for the channel key with DRAINED, sets the expected sequence to 1 and returns OCH_RESET_ACK. -/
  | ochReset
  /-- R41: OCH_RESET_ACK arrives at the source, completes OCHOPEN and releases the channel's waiting operations. -/
  | ochResetAck
  /-- R41: A packet held early for 10 ms is discarded without being applied and is answered with ERROR DRAINED. -/
  | heldPacketTimeout
  /-- R35: A request's response timer expires, the operation completes with TIMEOUT, and a later response is discarded. -/
  | responseTimerExpiry
  /-- R47: The blocked-packet timer of a router input buffer expires, and the packet at its head becomes timed out. -/
  | blockedPacketTimer
  /-- R48: A router receives the belay token and either passes it on or moves its oldest timed-out packet onto the rope lane and keeps the token. -/
  | belay
  /-- R49: ROPE_ACK reaches the token holder, which passes the belay token on. -/
  | ropeAck
  /-- R45: A link enters TRAIN, on power-up, re-admission, the end of an optics switch or release, and sends its proposal. -/
  | linkTrainingStart
  /-- R44: A training proposal or echo is received; the intersection is echoed, and the link enters UP on a match or MISMATCH otherwise. -/
  | trainingHandshake
  /-- R44: Every 1 ms a link in MISMATCH repeats a handshake from the intersection of the echoes. -/
  | thirdHandshakeTimer
  /-- R45: A link in TRAIN gets no reply within 10 ms and returns to DOWN. -/
  | trainReplyTimeout
  /-- R45: A link that has spent 100 ms in DOWN without a cause, and is eligible, enters TRAIN. -/
  | linkDownRetryTimer
  /-- R45: Loss of light or an error rate above threshold sends an UP link back to TRAIN; queued packets are answered UNREACHABLE. -/
  | linkLoss
  /-- R45: System software forces a link down through Redfish, and the link enters FORCED. -/
  | linkForce
  /-- R45: System software releases a FORCED link, and the link enters DOWN. -/
  | linkRelease
  /-- R11: The compute-die–OED UCIe link goes down or up; while it is down the island can send and receive nothing on the fabric. -/
  | ucieLinkChange
  /-- R51: A TOPOSET record is checked (REFUSED, SAME), and the PCP quiesces injection on every island to begin a topology switch. -/
  | toposet
  /-- R52: At the drain limit, routers discard the remaining requests and their sources complete them with DRAINED. -/
  | toposetDrainLimit
  /-- R52: When the drain has ended, express ports move to their new positions and the express links retrain. -/
  | toposetSwitch
  /-- R53: Once retraining ends, routes are recomputed, XCODE and the switch generation are set, TOPOGEN is published, injection resumes, and the record completes with DONE or PARTIAL. -/
  | toposetPublish
  /-- R55: A Redfish-requested or hub-started warm reset fences an island, ends its teams with ISLAND_RESET, publishes, writes back its cache and retrains its links. -/
  | warmResetRequest
  /-- R55: The UCIe link has been down for 100 ms, and the hub starts a warm reset of the island. -/
  | ucieDownTimeout
  /-- R55: An uncorrectable error in an island's fabric interface makes the hub start a warm reset of that island. -/
  | fabricInterfaceError
  /-- R55: After the lehr tokens are written, the PCP re-admits the island, publishes, rewrites ready-queue STAMPs, and dispatch resumes. -/
  | warmResetReadmit
  /-- R62: The hub filters the frame, translates the RDMA WRITE, applies it to panel memory in queue-pair order and releases after its last byte. -/
  | rdmaWrite
  /-- R60: An RDMA WRITE with immediate is applied and its immediate is placed in a posted receive buffer. -/
  | rdmaWriteWithImmediate
  /-- R62: An RDMA READ returns data once every earlier write on its queue pair has been applied, or NAKs on faults or poison. -/
  | rdmaRead
  /-- R60: An incoming SEND is placed in a receive buffer that the host posted on the same queue pair. -/
  | send
  /-- R60: An RDMA atomic request is answered with a NAK for an invalid request. -/
  | rdmaAtomicRequest
  /-- R84: System software creates a partition through Redfish; the anchor checks LegalShape and ownership and starts the lehr with REASON 2. -/
  | partitionCreate
  /-- R84: System software changes a partition's parameters through Redfish, after the anchor's checks pass. -/
  | partitionChange
  /-- R112: A partition is deleted by a function-level reset followed by the return of its slices, copy engines and frames to partition 0. -/
  | partitionDelete
  /-- R89: System software grants FREE frames to a partition as OWNED or TABLE. -/
  | frameGrant
  /-- R89: System software revokes a frame, which passes to SCRUB, is zeroed and becomes FREE; the anchor refuses mapped or live-table frames. -/
  | frameRevoke
  /-- R89: The lehr finishes zeroing a SCRUB frame and sets it FREE, or OWNED after a function-level reset. -/
  | frameScrubDone
  /-- R64: A tenant registers a command chain through Redfish, which sets HEAD, clears TAIL and COMP, and sets STATE to RUN. -/
  | chainRegistration
  /-- R94: A tenant registers its service chain, which accepts only MAP and UNMAP. -/
  | serviceChainRegistration
  /-- R104: A tenant registers a fault chain, which clears WIDX and RIDX, and any held fault records are posted at once. -/
  | faultChainRegistration
  /-- R61: A tenant registers a 64 KiB-aligned memory region on an island, and the anchor checks it. -/
  | memoryRegionRegistration
  /-- R82: A tenant gives a nonce through Redfish and receives a signed attestation report for its partition. -/
  | attestationRequest
  /-- R120: The anchor serves the latest lehr token of a slice, or of an island's engines, with the attestation-key certificate. -/
  | tokenFetch
  /-- R113: System software forms or changes a rotation of partitions with ORDER, QUANTUM, DEADLINE and GANG through Redfish. -/
  | rotationSetup
  /-- R85: System software moves an idle copy engine between partitions; the lehr scrubs its buffers with REASON 6 and its chains become UNBOUND. -/
  | copyEngineMove
  /-- R63: System software sets a tunable parameter through Redfish, such as floors, module cap, timers, thresholds, weights, QCAP or AGEI. -/
  | redfishSetting
  /-- R110: A partition is stopped, its work ended, its key rotated, its tables cleared, and its slices and frames scrubbed. -/
  | functionLevelReset
  /-- R68: The PCP's monitor on a chain's TAIL line wakes, and the PCP re-reads TAIL and starts each new record in sequence, subject to FENCE. -/
  | pcpTailWake
  /-- R137: The PCP checks TREC, builds the task record, writes the join word and, with JOIN = 0, runs MakeReady. -/
  | launch
  /-- R73: The PCP releases and decrements a join counter on an island by COUNT. -/
  | notifyCommand
  /-- R97: The anchor checks every page and, all or nothing, installs the leaf entries, then releases. -/
  | map
  /-- R99: The anchor clears leaf entries, drops cached translations and waits for accesses already translated through them before the record completes. -/
  | unmap
  /-- R107: Frees a pending-fault entry and releases every agent parked on it to replay its access. -/
  | resume
  /-- R69: The PCP writes STATUS, DETAIL and INFO into a record, releases, raises COMP, and may send a chain event. -/
  | commandRecordCompletion
  /-- R105: 1,024 clocks after an entry is created, the fault unit posts its record to the fault chain when there is room, releases and advances WIDX. -/
  | faultRecordPost
  /-- R105: Every 65,536 core clocks the fault unit retries posting records held by a failed access. -/
  | faultPostRetry
  /-- R114: At the end of a quantum each island raises pre-emption requests and makes the pre-emption decision, giving up unissued teams and handling copy engines. -/
  | switchTick
  /-- R117: At DEADLINE, teams still running set OVR; in a gang rotation the island's outgoing context is discarded. -/
  | deadlineExpiry
  /-- R117: At 16 × DEADLINE every team still running ends with PREEMPT_LOST and LCAUSE 1. -/
  | overrunLimit
  /-- R126: When every member is saved, ended or recorded, the device writes the team's control state, the PSW and MAPVALID, and the record enters SAVED. -/
  | resumeMapWrite
  /-- R119: Once a slice is free of the outgoing partition, the lehr fences, writes back, clears and checks it, then increments the scrub sequence and signs a token. -/
  | lehrEvent
  /-- R142: The task unit dispatches a record of a partition, reads and checks the header, chooses a span, assigns a team id, fills the group table and starts the team. -/
  | teamPlacement
  /-- R128: Once every restore routine has issued its first clause, the device clears MAPVALID and writes the PSW with RESTORED = 1. -/
  | restoreComplete
  /-- R147: When the last member has ended, the task unit waits for the team's operations, releases, sends completion decrements, writes ENDST and STATE, and completes the LAUNCH. -/
  | teamEnd
  /-- R149: A producer blocked 2,048 clocks on a queue sends a probe along the waits-on chain; on return the queue grants its bivouac entry. -/
  | cairnProbe
  /-- R159: An eligible split or context whose wait mask is satisfied is given a port and begins its next clause. -/
  | clauseStart
  /-- R161: A variable-latency instruction completes, writes its result and decrements its scoreboard. -/
  | variableLatencyCompletion
  /-- R185: A team's watchdog budget expires; every split and context stops at once, and the team ends with WATCHDOG. -/
  | watchdogExpiry
  /-- R354: YIELD's 16 × N clocks of ineligibility end. -/
  | yieldExpiry
  /-- R444: SLEEP's clock count ends, and the split becomes eligible again. -/
  | sleepExpiry
  /-- R400: MWAIT's timeout expires; it returns with TIMEOUT, disarms the watch and acquires. -/
  | mwaitTimeout
  /-- R197: An island-cache line is evicted, and only its marked bytes are written to HBM, with masked writes. -/
  | lineEviction
  /-- R214: An uncorrectable ECC error discards a clean copy or poisons its sector, and is reported through Redfish. -/
  | uncorrectableEccError
  /-- R228: A copy engine starts a COPY record: it reads the layouts, converts and writes elements in visiting order, and stops at its first failure. -/
  | copy
  /-- R227: An engine starts a NOP record, which does no work and completes with OK. -/
  | nopRecord
  /-- R233: The matrix engine performs an MMA record for STEPS steps into a bank, after checking span, ranges and allocation. -/
  | mmaRecord
  /-- R236: The matrix engine streams the weight rows past the resident vectors and writes the results row by row. -/
  | mvmRecord
  /-- R226: An engine writes STATUS, releases if REL, sends its join decrement if OK, raises COMP, and halts the chain on failure. -/
  | engineRecordCompletion
  /-- R223: A copy chain with COMP = TAIL and no append for 65,536 clocks is written back and becomes UNBOUND. -/
  | copyChainIdleUnbind
  /-- R276: A sleeping MWAIT returns for no stated reason, disarms its watch and acquires. -/
  | mwaitReturnNoReason
  /-- R21: Input power returns after a loss and the module boots as a cold boot, starting the boot ROM. -/
  | coldBoot
  /-- R21: Input voltage rises back to 42 V or above and the islands leave the forced lowest clock step. -/
  | inputVoltageRecovery
  /-- R22: The hub senses that coolant flow has resumed, ending the overtemperature case that it applied to every island. -/
  | coolantFlowResume
  /-- R213: ECC corrects a single-bit error in an SRAM or HBM access and the structure's Redfish counter is incremented. -/
  | correctedEccError
  /-- R78: The restarted service firmware finishes starting, and the waiting TOPOSET, MAP, UNMAP and Redfish work proceeds. -/
  | serviceFirmwareRestarted
deriving DecidableEq, Repr

end Sys2Proof
end

