-- ==== Sys2Proof/Config.lean ====
section
/-! DEFINITION. What the spec leaves open: constants without a body, so that no proof can see their value, each named
in the assumption log (entries 2, 9 to 12 and 18). -/

namespace Sys2Proof.Config

/-- A fresh 64-bit value for each count of the free-value counter (log entry 2). -/
opaque freeWord : Nat → BitVec 64

/-- R162: a fresh choice for each count of the free-value counter and place of use (log entry 2). -/
opaque freeBit : Nat → Nat → Bool

/-- R373: which bracketing value a faithfully rounded function returns, by opcode, type and operand bits: true for the
greater (log entry 12). -/
opaque faithful : Nat → Ty → BitVec 32 → Bool

/-- R18: the predicted power, in watts, of an island at a clock step, by island, step and the demand it measured (log
entry 11). -/
opaque predictedPower : Nat → Nat → Nat → Nat

/-- R82: SHA-512 of a byte string, its first byte in bits 7 to 0 (log entry 10). -/
opaque sha512 : List Byte → BitVec 512

/-- R81: the fresh P-521 key of a boot, by a count of boots (log entry 10). -/
opaque newKey : Nat → Nat

/-- R81: the public half of a key (log entry 10). -/
opaque publicKey : Nat → Nat

/-- R82, R120: an ECDSA P-521 signature under a key, r and s, of a digest (log entry 10). -/
opaque sign : Nat → BitVec 512 → Nat × Nat

/-- R38: which of several shortest routes the service firmware takes, by generation, holder and destination (log entry
18). -/
opaque routeTie : Nat → Nat → Nat → Nat

/-- R50: the ring that the firmware chooses at a publication, where it is a ring (log entry 18). -/
opaque ringChoice : Nat → List Nat

/-- R47: how many packets an input buffer of a router holds, where it holds more than one (log entry 37). -/
opaque bufferPackets : Nat

/-- R88: the frames of an island that hold system structures, by island and frame (log entry 28). -/
opaque sysFrame : Nat → Nat → Bool

end Sys2Proof.Config
end

