-- ==== Sys2Proof/WellFormed.lean ====
section
/-! DEFINITION. Well-formed instructions: the operand ranges of R306 and R307 and the accepted modifier
values of each entry, as checks on the syntax for an engine class and a vector register count VR. -/

namespace Sys2Proof

namespace Ty
/-- R309: the type codes 0 to 7. -/
def isInt : Ty → Bool
  | i8 | i16 | i32 | i64 | n8 | n16 | n32 | n64 => true
  | _ => false
/-- R309: the type codes 8 to 15. -/
def isFp (t : Ty) : Bool := !t.isInt
/-- R328: W-types, the codes 2, 3, 6 and 7. -/
def isW : Ty → Bool
  | i32 | i64 | n32 | n64 => true
  | _ => false
/-- R328: S-types, the codes 2 and 3. -/
def isS : Ty → Bool
  | i32 | i64 => true
  | _ => false
/-- R331: the types SXT accepts. -/
def isSxt : Ty → Bool
  | i8 | i16 | i32 | n8 | n16 | n32 => true
  | _ => false
/-- R361: the types 8, 9 and 10. -/
def isF3 : Ty → Bool
  | f32 | f16 | bf16 => true
  | _ => false
/-- R361: the packed types 9 and 10. -/
def isH2 : Ty → Bool
  | f16 | bf16 => true
  | _ => false
/-- R378: the types 6 and 7. -/
def isN : Ty → Bool
  | n32 | n64 => true
  | _ => false
/-- R378, R394: the types 2, 3, 6, 7 and 8. -/
def isAtom : Ty → Bool
  | i32 | i64 | n32 | n64 | f32 => true
  | _ => false
/-- R392: the sub-byte element types 13, 14 and 15. -/
def isSub : Ty → Bool
  | e3m2 | e2m3 | e2m1 => true
  | _ => false
/-- R426: the types AMDRAIN accepts. -/
def isDrain : Ty → Bool
  | n32 | f32 | f16 | bf16 => true
  | _ => false
/-- R309: an .I type. -/
def signed : Ty → Bool
  | i8 | i16 | i32 | i64 => true
  | _ => false
/-- R156: the vector registers a value of the type occupies: a 64-bit value takes an even-odd pair. -/
def words : Ty → Nat
  | i64 | n64 => 2
  | _ => 1
/-- R311: the access size in bytes of an integer type code. -/
def size : Ty → Nat
  | i8 | n8 => 1
  | i16 | n16 => 2
  | i64 | n64 => 8
  | _ => 4
end Ty

/-- R336: the conditions ICMP accepts. -/
def Cond.isInt : Cond → Bool
  | .eq | .ne | .lt | .le | .gt | .ge => true
  | _ => false

namespace Ord
/-- R386: the orderings of a load. -/
def isLoad : Ord → Bool
  | plain | acq => true
  | _ => false
/-- R386: the orderings of a store. -/
def isStore : Ord → Bool
  | plain | rel => true
  | _ => false
/-- R386: no ordering. -/
def isPlain : Ord → Bool
  | plain => true
  | _ => false
/-- R269: whether the access acquires. -/
def acquires : Ord → Bool
  | acq | acqrel => true
  | _ => false
/-- R269: whether the access releases. -/
def releases : Ord → Bool
  | rel | acqrel => true
  | _ => false
end Ord

/-- R394: the operations of a reduction. -/
def AOp.isRed : AOp → Bool
  | .exch | .cas => false
  | _ => true
/-- R378: the operations REDUX and SCAN take with .F32. -/
def AOp.isRedF : AOp → Bool
  | .add | .min | .max => true
  | _ => false

/-- R443: the numbers of the special registers. -/
def sysNumber (n : Nat) : Bool :=
  n ≤ 9 || (0x10 ≤ n && n ≤ 0x14) || (0x18 ≤ n && n ≤ 0x1A)

/-- R314: whether a form acts lane by lane on vector registers. -/
inductive Form where
  | vec
  | sca
deriving DecidableEq, Repr

/-- Whether the form is the vector form. -/
def Form.isVec : Form → Bool
  | .vec => true
  | .sca => false

/-- R307: the destination kinds. `reg w` is a register of `w` lane words in a vector form; `data w` the same,
read as store data. -/
inductive DstKind where
  | none
  | reg (w : Nat)
  | data (w : Nat)
  | pred
  | bank
  | spair
  | quad
deriving DecidableEq, Repr

/-- R307: the kinds for which K must be 0. -/
def DstKind.noK : DstKind → Bool
  | none | data _ | bank | spair => true
  | _ => false

/-- The kinds of source operand the entries name: `src w` any class, of `w` lane words; `base w` no immediate
(R311); `pair` an even scalar pair (R420); `quad` four vector registers (R426); `ssrc` read as a scalar form
reads (R418). -/
inductive SrcKind where
  | src (w : Nat)
  | base (w : Nat)
  | pair
  | quad
  | ssrc
deriving DecidableEq, Repr

/-- R303, R306: a source operand names a register that exists for the class and form. -/
def Src.wf (cls : Cls) (form : Form) (vr : Nat) (k : SrcKind) (s : Src) : Bool :=
  let vecs (i w : Nat) := cls == .strand && form.isVec && i < vr && i % w == 0
  match k, s with
  | .src w, .vreg i | .base w, .vreg i => vecs i w
  | .quad, .vreg i => cls == .strand && i % 4 == 0 && i + 3 < vr
  | .src _, .greg i | .base _, .greg i | .ssrc, .greg i => cls == .gaffer && i < 64
  | .src _, .sreg i | .base _, .sreg i | .ssrc, .sreg i => cls == .strand && i < 192
  | .pair, .greg i => cls == .gaffer && i < 64 && i % 2 == 0
  | .pair, .sreg i => cls == .strand && i < 192 && i % 2 == 0
  | .src _, .latch n | .base _, .latch n | .ssrc, .latch n => n < 8
  | .src _, .konst _ | .base _, .konst _ | .ssrc, .konst _ => true
  | .src _, .imm _ | .ssrc, .imm _ => true
  | _, _ => false

/-- R399, R409: an optional index, which strand code may leave out. -/
def Src.wfOpt (cls : Cls) (vr : Nat) : Option Src → Bool
  | none => cls == .strand
  | some s => s.wf cls .sca vr (.src 1)

/-- R306, R307: the destination index is in the range of its kind. -/
def DstKind.wf (cls : Cls) (form : Form) (vr : Nat) (k : DstKind) (d : Nat) : Bool :=
  match k with
  | .none => d == 0
  | .reg w | .data w =>
    match cls, form with
    | .strand, .vec => d < vr && d % w == 0
    | .strand, .sca => d < 192 && (w != 4 || d % 2 == 0)
    | .gaffer, _ => d < 64 && (w != 4 || d % 2 == 0)
  | .pred => d < 8
  | .bank => d < 128
  | .spair => cls == .strand && d < 192 && d % 2 == 0
  | .quad => cls == .strand && d % 4 == 0 && d + 3 < vr

/-- R301, R307: the fields common to every word. -/
def Head.wf (cls : Cls) (form : Form) (vr : Nat) (k : DstKind) (h : Head) : Bool :=
  h.g1.p < 8 && h.g2.p < 8 && (!h.k || !k.noK) && k.wf cls form vr h.d

/-- R409: the ordered channel of a remote instruction. -/
def ochWf : Option Nat → Bool
  | none => true
  | some c => c < 16

/-- A well-formed instruction of the Efgor set for an engine class and a vector register count (R306, R307, R315).
An event of the device is no instruction word and is not well-formed in this sense. -/
def Instr.wf (cls : Cls) (vr : Nat) : Instr → Bool
  | .budgetRound => false
  | .throttleLimit => false
  | .throttleRecover => false
  | .throttleFence => false
  | .inputUndervoltage => false
  | .inputPowerLoss => false
  | .coolantFlowStop => false
  | .resetIn => false
  | .httpsBootRetry => false
  | .firmwareUpdate => false
  | .serviceFirmwareStop => false
  | .keyPhaseChange => false
  | .keyPhaseRetire => false
  | .packetHop => false
  | .putPacket => false
  | .putAck => false
  | .getReq => false
  | .getData => false
  | .ratomPacket => false
  | .ratomRes => false
  | .rredPacket => false
  | .rredAck => false
  | .notifyPacket => false
  | .notifyAck => false
  | .errorPacket => false
  | .ochReset => false
  | .ochResetAck => false
  | .heldPacketTimeout => false
  | .responseTimerExpiry => false
  | .blockedPacketTimer => false
  | .belay => false
  | .ropeAck => false
  | .linkTrainingStart => false
  | .trainingHandshake => false
  | .thirdHandshakeTimer => false
  | .trainReplyTimeout => false
  | .linkDownRetryTimer => false
  | .linkLoss => false
  | .linkForce => false
  | .linkRelease => false
  | .ucieLinkChange => false
  | .toposet => false
  | .toposetDrainLimit => false
  | .toposetSwitch => false
  | .toposetPublish => false
  | .warmResetRequest => false
  | .ucieDownTimeout => false
  | .fabricInterfaceError => false
  | .warmResetReadmit => false
  | .rdmaWrite => false
  | .rdmaWriteWithImmediate => false
  | .rdmaRead => false
  | .send => false
  | .rdmaAtomicRequest => false
  | .partitionCreate => false
  | .partitionChange => false
  | .partitionDelete => false
  | .frameGrant => false
  | .frameRevoke => false
  | .frameScrubDone => false
  | .chainRegistration => false
  | .serviceChainRegistration => false
  | .faultChainRegistration => false
  | .memoryRegionRegistration => false
  | .attestationRequest => false
  | .tokenFetch => false
  | .rotationSetup => false
  | .copyEngineMove => false
  | .redfishSetting => false
  | .functionLevelReset => false
  | .pcpTailWake => false
  | .launch => false
  | .notifyCommand => false
  | .map => false
  | .unmap => false
  | .resume => false
  | .commandRecordCompletion => false
  | .faultRecordPost => false
  | .faultPostRetry => false
  | .switchTick => false
  | .deadlineExpiry => false
  | .overrunLimit => false
  | .resumeMapWrite => false
  | .lehrEvent => false
  | .teamPlacement => false
  | .restoreComplete => false
  | .teamEnd => false
  | .cairnProbe => false
  | .clauseStart => false
  | .variableLatencyCompletion => false
  | .watchdogExpiry => false
  | .yieldExpiry => false
  | .sleepExpiry => false
  | .mwaitTimeout => false
  | .lineEviction => false
  | .uncorrectableEccError => false
  | .copy => false
  | .nopRecord => false
  | .mmaRecord => false
  | .mvmRecord => false
  | .engineRecordCompletion => false
  | .copyChainIdleUnbind => false
  | .iaddVector h ty _ a b =>
    cls == .strand && h.wf cls .vec vr (.reg ty.words) && a.wf cls .vec vr (.src ty.words) && b.wf cls .vec vr (.src ty.words) && ty.isW
  | .iaddScalar h ty _ a b =>
    h.wf cls .sca vr (.reg ty.words) && a.wf cls .sca vr (.src ty.words) && b.wf cls .sca vr (.src ty.words) && ty.isW
  | .isubVector h ty _ a b =>
    cls == .strand && h.wf cls .vec vr (.reg ty.words) && a.wf cls .vec vr (.src ty.words) && b.wf cls .vec vr (.src ty.words) && ty.isW
  | .isubScalar h ty _ a b =>
    h.wf cls .sca vr (.reg ty.words) && a.wf cls .sca vr (.src ty.words) && b.wf cls .sca vr (.src ty.words) && ty.isW
  | .iaddcVector h ty co _ ci a b =>
    cls == .strand && h.wf cls .vec vr (.reg ty.words) && a.wf cls .vec vr (.src ty.words) && b.wf cls .vec vr (.src ty.words) && ty.isW && co < 8 && ci < 8
  | .iaddcScalar h ty co _ ci a b =>
    h.wf cls .sca vr (.reg ty.words) && a.wf cls .sca vr (.src ty.words) && b.wf cls .sca vr (.src ty.words) && ty.isW && co < 8 && ci < 8
  | .inegVector h ty sat a =>
    cls == .strand && h.wf cls .vec vr (.reg ty.words) && a.wf cls .vec vr (.src ty.words) && ty.isW && (!sat || ty.signed)
  | .inegScalar h ty sat a =>
    h.wf cls .sca vr (.reg ty.words) && a.wf cls .sca vr (.src ty.words) && ty.isW && (!sat || ty.signed)
  | .imulVector h ty a b =>
    cls == .strand && h.wf cls .vec vr (.reg ty.words) && a.wf cls .vec vr (.src ty.words) && b.wf cls .vec vr (.src ty.words) && ty.isW
  | .imulScalar h ty a b =>
    h.wf cls .sca vr (.reg ty.words) && a.wf cls .sca vr (.src ty.words) && b.wf cls .sca vr (.src ty.words) && ty.isW
  | .imulhVector h ty a b =>
    cls == .strand && h.wf cls .vec vr (.reg ty.words) && a.wf cls .vec vr (.src ty.words) && b.wf cls .vec vr (.src ty.words) && ty.isW
  | .imulhScalar h ty a b =>
    h.wf cls .sca vr (.reg ty.words) && a.wf cls .sca vr (.src ty.words) && b.wf cls .sca vr (.src ty.words) && ty.isW
  | .imadVector h a b c =>
    cls == .strand && h.wf cls .vec vr (.reg 1) && a.wf cls .vec vr (.src 1) && b.wf cls .vec vr (.src 1) && c.wf cls .vec vr (.src 1)
  | .imadScalar h a b c =>
    h.wf cls .sca vr (.reg 1) && a.wf cls .sca vr (.src 1) && b.wf cls .sca vr (.src 1) && c.wf cls .sca vr (.src 1)
  | .imadwI32Vector h a b c =>
    cls == .strand && h.wf cls .vec vr (.reg 2) && a.wf cls .vec vr (.src 1) && b.wf cls .vec vr (.src 1) && c.wf cls .vec vr (.src 2)
  | .imadwI32Scalar h a b c =>
    h.wf cls .sca vr (.reg 2) && a.wf cls .sca vr (.src 1) && b.wf cls .sca vr (.src 1) && c.wf cls .sca vr (.src 2)
  | .imadwN32Vector h a b c =>
    cls == .strand && h.wf cls .vec vr (.reg 2) && a.wf cls .vec vr (.src 1) && b.wf cls .vec vr (.src 1) && c.wf cls .vec vr (.src 2)
  | .imadwN32Scalar h a b c =>
    h.wf cls .sca vr (.reg 2) && a.wf cls .sca vr (.src 1) && b.wf cls .sca vr (.src 1) && c.wf cls .sca vr (.src 2)
  | .idivVector h ty a b =>
    cls == .strand && h.wf cls .vec vr (.reg ty.words) && a.wf cls .vec vr (.src ty.words) && b.wf cls .vec vr (.src ty.words) && ty.isW
  | .idivScalar h ty a b =>
    h.wf cls .sca vr (.reg ty.words) && a.wf cls .sca vr (.src ty.words) && b.wf cls .sca vr (.src ty.words) && ty.isW
  | .iremVector h ty a b =>
    cls == .strand && h.wf cls .vec vr (.reg ty.words) && a.wf cls .vec vr (.src ty.words) && b.wf cls .vec vr (.src ty.words) && ty.isW
  | .iremScalar h ty a b =>
    h.wf cls .sca vr (.reg ty.words) && a.wf cls .sca vr (.src ty.words) && b.wf cls .sca vr (.src ty.words) && ty.isW
  | .iminVector h ty a b =>
    cls == .strand && h.wf cls .vec vr (.reg ty.words) && a.wf cls .vec vr (.src ty.words) && b.wf cls .vec vr (.src ty.words) && ty.isW
  | .iminScalar h ty a b =>
    h.wf cls .sca vr (.reg ty.words) && a.wf cls .sca vr (.src ty.words) && b.wf cls .sca vr (.src ty.words) && ty.isW
  | .imaxVector h ty a b =>
    cls == .strand && h.wf cls .vec vr (.reg ty.words) && a.wf cls .vec vr (.src ty.words) && b.wf cls .vec vr (.src ty.words) && ty.isW
  | .imaxScalar h ty a b =>
    h.wf cls .sca vr (.reg ty.words) && a.wf cls .sca vr (.src ty.words) && b.wf cls .sca vr (.src ty.words) && ty.isW
  | .iabsVector h ty _ a =>
    cls == .strand && h.wf cls .vec vr (.reg ty.words) && a.wf cls .vec vr (.src ty.words) && ty.isS
  | .iabsScalar h ty _ a => h.wf cls .sca vr (.reg ty.words) && a.wf cls .sca vr (.src ty.words) && ty.isS
  | .icmpVector h ty cond a b =>
    cls == .strand && h.wf cls .vec vr .pred && a.wf cls .vec vr (.src ty.words) && b.wf cls .vec vr (.src ty.words) && ty.isW && cond.isInt
  | .icmpScalar h ty cond a b =>
    h.wf cls .sca vr .pred && a.wf cls .sca vr (.src ty.words) && b.wf cls .sca vr (.src ty.words) && ty.isW && cond.isInt
  | .selVector h ty pr _ a b =>
    cls == .strand && h.wf cls .vec vr (.reg ty.words) && a.wf cls .vec vr (.src ty.words) && b.wf cls .vec vr (.src ty.words) && ty.isW && pr < 8
  | .selScalar h ty pr _ a b =>
    h.wf cls .sca vr (.reg ty.words) && a.wf cls .sca vr (.src ty.words) && b.wf cls .sca vr (.src ty.words) && ty.isW && pr < 8
  | .movVector h ty a =>
    cls == .strand && h.wf cls .vec vr (.reg ty.words) && a.wf cls .vec vr (.src ty.words) && ty.isW
  | .movScalar h ty a => h.wf cls .sca vr (.reg ty.words) && a.wf cls .sca vr (.src ty.words) && ty.isW
  | .moviVector h _ => cls == .strand && h.wf cls .vec vr (.reg 1)
  | .moviScalar h _ => h.wf cls .sca vr (.reg 1)
  | .movhVector h q _ a => cls == .strand && h.wf cls .vec vr (.reg 1) && a.wf cls .vec vr (.src 1) && q < 2
  | .movhScalar h q _ a => h.wf cls .sca vr (.reg 1) && a.wf cls .sca vr (.src 1) && q < 4
  | .andVector h ty a b =>
    cls == .strand && h.wf cls .vec vr (.reg ty.words) && a.wf cls .vec vr (.src ty.words) && b.wf cls .vec vr (.src ty.words) && ty.isW
  | .andScalar h ty a b =>
    h.wf cls .sca vr (.reg ty.words) && a.wf cls .sca vr (.src ty.words) && b.wf cls .sca vr (.src ty.words) && ty.isW
  | .orVector h ty a b =>
    cls == .strand && h.wf cls .vec vr (.reg ty.words) && a.wf cls .vec vr (.src ty.words) && b.wf cls .vec vr (.src ty.words) && ty.isW
  | .orScalar h ty a b =>
    h.wf cls .sca vr (.reg ty.words) && a.wf cls .sca vr (.src ty.words) && b.wf cls .sca vr (.src ty.words) && ty.isW
  | .xorVector h ty a b =>
    cls == .strand && h.wf cls .vec vr (.reg ty.words) && a.wf cls .vec vr (.src ty.words) && b.wf cls .vec vr (.src ty.words) && ty.isW
  | .xorScalar h ty a b =>
    h.wf cls .sca vr (.reg ty.words) && a.wf cls .sca vr (.src ty.words) && b.wf cls .sca vr (.src ty.words) && ty.isW
  | .andnVector h ty a b =>
    cls == .strand && h.wf cls .vec vr (.reg ty.words) && a.wf cls .vec vr (.src ty.words) && b.wf cls .vec vr (.src ty.words) && ty.isW
  | .andnScalar h ty a b =>
    h.wf cls .sca vr (.reg ty.words) && a.wf cls .sca vr (.src ty.words) && b.wf cls .sca vr (.src ty.words) && ty.isW
  | .shlVector h ty a b =>
    cls == .strand && h.wf cls .vec vr (.reg ty.words) && a.wf cls .vec vr (.src ty.words) && b.wf cls .vec vr (.src ty.words) && ty.isW
  | .shlScalar h ty a b =>
    h.wf cls .sca vr (.reg ty.words) && a.wf cls .sca vr (.src ty.words) && b.wf cls .sca vr (.src ty.words) && ty.isW
  | .shrVector h ty a b =>
    cls == .strand && h.wf cls .vec vr (.reg ty.words) && a.wf cls .vec vr (.src ty.words) && b.wf cls .vec vr (.src ty.words) && ty.isW
  | .shrScalar h ty a b =>
    h.wf cls .sca vr (.reg ty.words) && a.wf cls .sca vr (.src ty.words) && b.wf cls .sca vr (.src ty.words) && ty.isW
  | .sarVector h ty a b =>
    cls == .strand && h.wf cls .vec vr (.reg ty.words) && a.wf cls .vec vr (.src ty.words) && b.wf cls .vec vr (.src ty.words) && ty.isW
  | .sarScalar h ty a b =>
    h.wf cls .sca vr (.reg ty.words) && a.wf cls .sca vr (.src ty.words) && b.wf cls .sca vr (.src ty.words) && ty.isW
  | .shfVector h a b c =>
    cls == .strand && h.wf cls .vec vr (.reg 1) && a.wf cls .vec vr (.src 1) && b.wf cls .vec vr (.src 1) && c.wf cls .vec vr (.src 1)
  | .shfScalar h a b c =>
    h.wf cls .sca vr (.reg 1) && a.wf cls .sca vr (.src 1) && b.wf cls .sca vr (.src 1) && c.wf cls .sca vr (.src 1)
  | .bfxVector h ty a b =>
    cls == .strand && h.wf cls .vec vr (.reg ty.words) && a.wf cls .vec vr (.src ty.words) && b.wf cls .vec vr (.src ty.words) && ty.isW
  | .bfxScalar h ty a b =>
    h.wf cls .sca vr (.reg ty.words) && a.wf cls .sca vr (.src ty.words) && b.wf cls .sca vr (.src ty.words) && ty.isW
  | .bfiVector h a b c =>
    cls == .strand && h.wf cls .vec vr (.reg 1) && a.wf cls .vec vr (.src 1) && b.wf cls .vec vr (.src 1) && c.wf cls .vec vr (.src 1)
  | .bfiScalar h a b c =>
    h.wf cls .sca vr (.reg 1) && a.wf cls .sca vr (.src 1) && b.wf cls .sca vr (.src 1) && c.wf cls .sca vr (.src 1)
  | .popcVector h ty a =>
    cls == .strand && h.wf cls .vec vr (.reg ty.words) && a.wf cls .vec vr (.src ty.words) && ty.isW
  | .popcScalar h ty a => h.wf cls .sca vr (.reg ty.words) && a.wf cls .sca vr (.src ty.words) && ty.isW
  | .clzVector h ty a =>
    cls == .strand && h.wf cls .vec vr (.reg ty.words) && a.wf cls .vec vr (.src ty.words) && ty.isW
  | .clzScalar h ty a => h.wf cls .sca vr (.reg ty.words) && a.wf cls .sca vr (.src ty.words) && ty.isW
  | .brevVector h ty a =>
    cls == .strand && h.wf cls .vec vr (.reg ty.words) && a.wf cls .vec vr (.src ty.words) && ty.isW
  | .brevScalar h ty a => h.wf cls .sca vr (.reg ty.words) && a.wf cls .sca vr (.src ty.words) && ty.isW
  | .permVector h a b c =>
    cls == .strand && h.wf cls .vec vr (.reg 1) && a.wf cls .vec vr (.src 1) && b.wf cls .vec vr (.src 1) && c.wf cls .vec vr (.src 1)
  | .permScalar h a b c =>
    h.wf cls .sca vr (.reg 1) && a.wf cls .sca vr (.src 1) && b.wf cls .sca vr (.src 1) && c.wf cls .sca vr (.src 1)
  | .leaVector h ty sh a b =>
    cls == .strand && h.wf cls .vec vr (.reg 2) && a.wf cls .vec vr (.src 2) && b.wf cls .vec vr (.src ty.words) && ty.isW && sh < 8
  | .leaScalar h ty sh a b =>
    h.wf cls .sca vr (.reg 2) && a.wf cls .sca vr (.src 2) && b.wf cls .sca vr (.src ty.words) && ty.isW && sh < 8
  | .sxtVector h ty w64 a =>
    cls == .strand && h.wf cls .vec vr (.reg (if w64 then 2 else 1)) && a.wf cls .vec vr (.src 1) && ty.isSxt && (!w64 || Form.vec.isVec)
  | .sxtScalar h ty w64 a =>
    h.wf cls .sca vr (.reg (if w64 then 2 else 1)) && a.wf cls .sca vr (.src 1) && ty.isSxt && (!w64 || Form.sca.isVec)
  | .plopVector h pa pb pc _ => cls == .strand && h.wf cls .vec vr .pred && pa < 8 && pb < 8 && pc < 8
  | .plopScalar h pa pb pc _ => h.wf cls .sca vr .pred && pa < 8 && pb < 8 && pc < 8
  | .p2vVector h _ => cls == .strand && h.wf cls .vec vr (.reg 1)
  | .p2vScalar h _ => h.wf cls .sca vr (.reg 1)
  | .v2pVector h n a =>
    cls == .strand && h.wf cls .vec vr .pred && a.wf cls .vec vr (.src 1) && n < 64 && (n < 32 || !Form.vec.isVec)
  | .v2pScalar h n a => h.wf cls .sca vr .pred && a.wf cls .sca vr (.src 1) && n < 64 && (n < 32 || !Form.sca.isVec)
  | .faddVector h ty _ a b =>
    cls == .strand && h.wf cls .vec vr (.reg 1) && a.wf cls .vec vr (.src 1) && b.wf cls .vec vr (.src 1) && ty.isF3
  | .faddScalar h ty _ a b =>
    h.wf cls .sca vr (.reg 1) && a.wf cls .sca vr (.src 1) && b.wf cls .sca vr (.src 1) && ty.isF3
  | .fsubVector h ty _ a b =>
    cls == .strand && h.wf cls .vec vr (.reg 1) && a.wf cls .vec vr (.src 1) && b.wf cls .vec vr (.src 1) && ty.isF3
  | .fsubScalar h ty _ a b =>
    h.wf cls .sca vr (.reg 1) && a.wf cls .sca vr (.src 1) && b.wf cls .sca vr (.src 1) && ty.isF3
  | .fmulVector h ty _ a b =>
    cls == .strand && h.wf cls .vec vr (.reg 1) && a.wf cls .vec vr (.src 1) && b.wf cls .vec vr (.src 1) && ty.isF3
  | .fmulScalar h ty _ a b =>
    h.wf cls .sca vr (.reg 1) && a.wf cls .sca vr (.src 1) && b.wf cls .sca vr (.src 1) && ty.isF3
  | .ffmaVector h a b c =>
    cls == .strand && h.wf cls .vec vr (.reg 1) && a.wf cls .vec vr (.src 1) && b.wf cls .vec vr (.src 1) && c.wf cls .vec vr (.src 1)
  | .ffmaScalar h a b c =>
    h.wf cls .sca vr (.reg 1) && a.wf cls .sca vr (.src 1) && b.wf cls .sca vr (.src 1) && c.wf cls .sca vr (.src 1)
  | .fminVector h ty a b =>
    cls == .strand && h.wf cls .vec vr (.reg 1) && a.wf cls .vec vr (.src 1) && b.wf cls .vec vr (.src 1) && ty.isF3
  | .fminScalar h ty a b =>
    h.wf cls .sca vr (.reg 1) && a.wf cls .sca vr (.src 1) && b.wf cls .sca vr (.src 1) && ty.isF3
  | .fmaxVector h ty a b =>
    cls == .strand && h.wf cls .vec vr (.reg 1) && a.wf cls .vec vr (.src 1) && b.wf cls .vec vr (.src 1) && ty.isF3
  | .fmaxScalar h ty a b =>
    h.wf cls .sca vr (.reg 1) && a.wf cls .sca vr (.src 1) && b.wf cls .sca vr (.src 1) && ty.isF3
  | .fabsVector h ty a => cls == .strand && h.wf cls .vec vr (.reg 1) && a.wf cls .vec vr (.src 1) && ty.isF3
  | .fabsScalar h ty a => h.wf cls .sca vr (.reg 1) && a.wf cls .sca vr (.src 1) && ty.isF3
  | .fnegVector h ty a => cls == .strand && h.wf cls .vec vr (.reg 1) && a.wf cls .vec vr (.src 1) && ty.isF3
  | .fnegScalar h ty a => h.wf cls .sca vr (.reg 1) && a.wf cls .sca vr (.src 1) && ty.isF3
  | .fcmpVector h ty _ a b =>
    cls == .strand && h.wf cls .vec vr .pred && a.wf cls .vec vr (.src 1) && b.wf cls .vec vr (.src 1) && ty.isF3
  | .fcmpScalar h ty _ a b =>
    h.wf cls .sca vr .pred && a.wf cls .sca vr (.src 1) && b.wf cls .sca vr (.src 1) && ty.isF3
  | .fclassVector h ty test a =>
    cls == .strand && h.wf cls .vec vr (if test.isSome then .pred else .reg 1) && a.wf cls .vec vr (.src 1) && ty.isF3
  | .fclassScalar h ty test a =>
    h.wf cls .sca vr (if test.isSome then .pred else .reg 1) && a.wf cls .sca vr (.src 1) && ty.isF3
  | .frndVector h ty _ a => cls == .strand && h.wf cls .vec vr (.reg 1) && a.wf cls .vec vr (.src 1) && ty.isF3
  | .frndScalar h ty _ a => h.wf cls .sca vr (.reg 1) && a.wf cls .sca vr (.src 1) && ty.isF3
  | .fcvtVector h ty _ _ src a =>
    cls == .strand && h.wf cls .vec vr (.reg 1) && a.wf cls .vec vr (.src 1) && ty.isFp && (src.isFp && src != ty)
  | .fcvtScalar h ty _ _ src a =>
    h.wf cls .sca vr (.reg 1) && a.wf cls .sca vr (.src 1) && ty.isFp && (src.isFp && src != ty)
  | .f2iVector h ty _ src a =>
    cls == .strand && h.wf cls .vec vr (.reg ty.words) && a.wf cls .vec vr (.src 1) && ty.isInt && src.isF3
  | .f2iScalar h ty _ src a => h.wf cls .sca vr (.reg ty.words) && a.wf cls .sca vr (.src 1) && ty.isInt && src.isF3
  | .i2fVector h ty _ src a =>
    cls == .strand && h.wf cls .vec vr (.reg 1) && a.wf cls .vec vr (.src src.words) && ty.isF3 && src.isInt
  | .i2fScalar h ty _ src a => h.wf cls .sca vr (.reg 1) && a.wf cls .sca vr (.src src.words) && ty.isF3 && src.isInt
  | .fscaleVector h ty _ a b =>
    cls == .strand && h.wf cls .vec vr (.reg 1) && a.wf cls .vec vr (.src 1) && b.wf cls .vec vr (.src 1) && ty.isF3
  | .fscaleScalar h ty _ a b =>
    h.wf cls .sca vr (.reg 1) && a.wf cls .sca vr (.src 1) && b.wf cls .sca vr (.src 1) && ty.isF3
  | .fgetexpVector h ty a => cls == .strand && h.wf cls .vec vr (.reg 1) && a.wf cls .vec vr (.src 1) && ty.isF3
  | .fgetexpScalar h ty a => h.wf cls .sca vr (.reg 1) && a.wf cls .sca vr (.src 1) && ty.isF3
  | .frcpVector h ty _ a => cls == .strand && h.wf cls .vec vr (.reg 1) && a.wf cls .vec vr (.src 1) && ty.isF3
  | .frcpScalar h ty _ a => h.wf cls .sca vr (.reg 1) && a.wf cls .sca vr (.src 1) && ty.isF3
  | .frsqVector h ty a => cls == .strand && h.wf cls .vec vr (.reg 1) && a.wf cls .vec vr (.src 1) && ty.isF3
  | .frsqScalar h ty a => h.wf cls .sca vr (.reg 1) && a.wf cls .sca vr (.src 1) && ty.isF3
  | .fsqrtVector h ty _ a => cls == .strand && h.wf cls .vec vr (.reg 1) && a.wf cls .vec vr (.src 1) && ty.isF3
  | .fsqrtScalar h ty _ a => h.wf cls .sca vr (.reg 1) && a.wf cls .sca vr (.src 1) && ty.isF3
  | .fdivVector h ty _ a b =>
    cls == .strand && h.wf cls .vec vr (.reg 1) && a.wf cls .vec vr (.src 1) && b.wf cls .vec vr (.src 1) && ty.isF3
  | .fdivScalar h ty _ a b =>
    h.wf cls .sca vr (.reg 1) && a.wf cls .sca vr (.src 1) && b.wf cls .sca vr (.src 1) && ty.isF3
  | .fexp2Vector h ty a => cls == .strand && h.wf cls .vec vr (.reg 1) && a.wf cls .vec vr (.src 1) && ty.isF3
  | .fexp2Scalar h ty a => h.wf cls .sca vr (.reg 1) && a.wf cls .sca vr (.src 1) && ty.isF3
  | .flog2Vector h ty a => cls == .strand && h.wf cls .vec vr (.reg 1) && a.wf cls .vec vr (.src 1) && ty.isF3
  | .flog2Scalar h ty a => h.wf cls .sca vr (.reg 1) && a.wf cls .sca vr (.src 1) && ty.isF3
  | .fsinVector h ty a => cls == .strand && h.wf cls .vec vr (.reg 1) && a.wf cls .vec vr (.src 1) && ty.isF3
  | .fsinScalar h ty a => h.wf cls .sca vr (.reg 1) && a.wf cls .sca vr (.src 1) && ty.isF3
  | .fcosVector h ty a => cls == .strand && h.wf cls .vec vr (.reg 1) && a.wf cls .vec vr (.src 1) && ty.isF3
  | .fcosScalar h ty a => h.wf cls .sca vr (.reg 1) && a.wf cls .sca vr (.src 1) && ty.isF3
  | .ftanhVector h ty a => cls == .strand && h.wf cls .vec vr (.reg 1) && a.wf cls .vec vr (.src 1) && ty.isF3
  | .ftanhScalar h ty a => h.wf cls .sca vr (.reg 1) && a.wf cls .sca vr (.src 1) && ty.isF3
  | .hadd2Vector h ty _ _ a b =>
    cls == .strand && h.wf cls .vec vr (.reg 1) && a.wf cls .vec vr (.src 1) && b.wf cls .vec vr (.src 1) && ty.isH2
  | .hadd2Scalar h ty _ _ a b =>
    h.wf cls .sca vr (.reg 1) && a.wf cls .sca vr (.src 1) && b.wf cls .sca vr (.src 1) && ty.isH2
  | .hmul2Vector h ty _ a b =>
    cls == .strand && h.wf cls .vec vr (.reg 1) && a.wf cls .vec vr (.src 1) && b.wf cls .vec vr (.src 1) && ty.isH2
  | .hmul2Scalar h ty _ a b =>
    h.wf cls .sca vr (.reg 1) && a.wf cls .sca vr (.src 1) && b.wf cls .sca vr (.src 1) && ty.isH2
  | .hfma2F16Vector h a b c =>
    cls == .strand && h.wf cls .vec vr (.reg 1) && a.wf cls .vec vr (.src 1) && b.wf cls .vec vr (.src 1) && c.wf cls .vec vr (.src 1)
  | .hfma2F16Scalar h a b c =>
    h.wf cls .sca vr (.reg 1) && a.wf cls .sca vr (.src 1) && b.wf cls .sca vr (.src 1) && c.wf cls .sca vr (.src 1)
  | .hfma2Bf16Vector h a b c =>
    cls == .strand && h.wf cls .vec vr (.reg 1) && a.wf cls .vec vr (.src 1) && b.wf cls .vec vr (.src 1) && c.wf cls .vec vr (.src 1)
  | .hfma2Bf16Scalar h a b c =>
    h.wf cls .sca vr (.reg 1) && a.wf cls .sca vr (.src 1) && b.wf cls .sca vr (.src 1) && c.wf cls .sca vr (.src 1)
  | .hmin2Vector h ty a b =>
    cls == .strand && h.wf cls .vec vr (.reg 1) && a.wf cls .vec vr (.src 1) && b.wf cls .vec vr (.src 1) && ty.isH2
  | .hmin2Scalar h ty a b =>
    h.wf cls .sca vr (.reg 1) && a.wf cls .sca vr (.src 1) && b.wf cls .sca vr (.src 1) && ty.isH2
  | .hmax2Vector h ty a b =>
    cls == .strand && h.wf cls .vec vr (.reg 1) && a.wf cls .vec vr (.src 1) && b.wf cls .vec vr (.src 1) && ty.isH2
  | .hmax2Scalar h ty a b =>
    h.wf cls .sca vr (.reg 1) && a.wf cls .sca vr (.src 1) && b.wf cls .sca vr (.src 1) && ty.isH2
  | .rnencVector h _ a => cls == .strand && h.wf cls .vec vr (.reg 1) && a.wf cls .vec vr (.src 1)
  | .rnencScalar h _ a => h.wf cls .sca vr (.reg 1) && a.wf cls .sca vr (.src 1)
  | .rndecVector h a => cls == .strand && h.wf cls .vec vr (.reg 1) && a.wf cls .vec vr (.src 1)
  | .rndecScalar h a => h.wf cls .sca vr (.reg 1) && a.wf cls .sca vr (.src 1)
  | .vote h mode _ pa => cls == .strand && h.wf cls .vec vr (if mode == .ballot then .reg 1 else .pred) && pa < 8
  | .shfl h ty _ lg a b =>
    cls == .strand && h.wf cls .vec vr (.reg ty.words) && a.wf cls .vec vr (.src ty.words) && b.wf cls .vec vr (.src 1) && ty.isN && lg < 8 && (lg ≤ 5)
  | .redux h ty rnd op a =>
    cls == .strand && h.wf cls .vec vr (.reg ty.words) && a.wf cls .vec vr (.src ty.words) && ty.isAtom && ((ty == .f32 && op == .add) || rnd == .rne) && (op.isRed && (ty != .f32 || op.isRedF))
  | .scan h ty rnd op _ a =>
    cls == .strand && h.wf cls .vec vr (.reg ty.words) && a.wf cls .vec vr (.src ty.words) && ty.isAtom && ((ty == .f32 && op == .add) || rnd == .rne) && (op.isRed && (ty != .f32 || op.isRedF))
  | .match h ty a => cls == .strand && h.wf cls .vec vr (.reg 1) && a.wf cls .vec vr (.src ty.words) && ty.isN
  | .ldVector h ty ord x2 ofs a b =>
    cls == .strand && h.wf cls .vec vr (.reg (if x2 then 4 else ty.words)) && a.wf cls .vec vr (.base 1) && b.wf cls .vec vr (.src 1) && ty.isInt && ord.isLoad && (!x2 || ty.words == 2) && ofs < 32
  | .ldScalar h ty ord x2 ofs a b =>
    h.wf cls .sca vr (.reg (if x2 then 4 else ty.words)) && a.wf cls .sca vr (.base 1) && b.wf cls .sca vr (.src 1) && ty.isInt && ord.isLoad && (!x2 || ty.words == 2) && ofs < 32
  | .stVector h ty ord x2 ofs a b =>
    cls == .strand && h.wf cls .vec vr (.data (if x2 then 4 else ty.words)) && a.wf cls .vec vr (.base 1) && b.wf cls .vec vr (.src 1) && ty.isInt && ord.isStore && (!x2 || ty.words == 2) && ofs < 32
  | .stScalar h ty ord x2 ofs a b =>
    h.wf cls .sca vr (.data (if x2 then 4 else ty.words)) && a.wf cls .sca vr (.base 1) && b.wf cls .sca vr (.src 1) && ty.isInt && ord.isStore && (!x2 || ty.words == 2) && ofs < 32
  | .ldsVector h ty ord x2 ofs a b =>
    cls == .strand && h.wf cls .vec vr (.reg (if x2 then 4 else ty.words)) && a.wf cls .vec vr (.base 1) && b.wf cls .vec vr (.src 1) && ty.isInt && ord.isLoad && (!x2 || ty.words == 2) && ofs < 32
  | .ldsScalar h ty ord x2 ofs a b =>
    h.wf cls .sca vr (.reg (if x2 then 4 else ty.words)) && a.wf cls .sca vr (.base 1) && b.wf cls .sca vr (.src 1) && ty.isInt && ord.isLoad && (!x2 || ty.words == 2) && ofs < 32
  | .stsVector h ty ord x2 ofs a b =>
    cls == .strand && h.wf cls .vec vr (.data (if x2 then 4 else ty.words)) && a.wf cls .vec vr (.base 1) && b.wf cls .vec vr (.src 1) && ty.isInt && ord.isStore && (!x2 || ty.words == 2) && ofs < 32
  | .stsScalar h ty ord x2 ofs a b =>
    h.wf cls .sca vr (.data (if x2 then 4 else ty.words)) && a.wf cls .sca vr (.base 1) && b.wf cls .sca vr (.src 1) && ty.isInt && ord.isStore && (!x2 || ty.words == 2) && ofs < 32
  | .ldxVector h ty ord x2 q ofs a b =>
    cls == .strand && h.wf cls .vec vr (.reg (if x2 then 4 else ty.words)) && a.wf cls .vec vr (.base 1) && b.wf cls .vec vr (.src 1) && ty.isInt && ord.isLoad && (!x2 || ty.words == 2) && q < 4 && ofs < 8
  | .ldxScalar h ty ord x2 q ofs a b =>
    h.wf cls .sca vr (.reg (if x2 then 4 else ty.words)) && a.wf cls .sca vr (.base 1) && b.wf cls .sca vr (.src 1) && ty.isInt && ord.isLoad && (!x2 || ty.words == 2) && q < 4 && ofs < 8
  | .stxVector h ty ord x2 q ofs a b =>
    cls == .strand && h.wf cls .vec vr (.data (if x2 then 4 else ty.words)) && a.wf cls .vec vr (.base 1) && b.wf cls .vec vr (.src 1) && ty.isInt && ord.isStore && (!x2 || ty.words == 2) && q < 4 && ofs < 8
  | .stxScalar h ty ord x2 q ofs a b =>
    h.wf cls .sca vr (.data (if x2 then 4 else ty.words)) && a.wf cls .sca vr (.base 1) && b.wf cls .sca vr (.src 1) && ty.isInt && ord.isStore && (!x2 || ty.words == 2) && q < 4 && ofs < 8
  | .ldcVector h ty ord x2 ofs a b =>
    cls == .strand && h.wf cls .vec vr (.reg (if x2 then 4 else ty.words)) && a.wf cls .vec vr (.base 1) && b.wf cls .vec vr (.src 1) && ty.isInt && ord.isPlain && (!x2 || ty.words == 2) && ofs < 32
  | .ldcScalar h ty ord x2 ofs a b =>
    h.wf cls .sca vr (.reg (if x2 then 4 else ty.words)) && a.wf cls .sca vr (.base 1) && b.wf cls .sca vr (.src 1) && ty.isInt && ord.isPlain && (!x2 || ty.words == 2) && ofs < 32
  | .stsbElementVector h ty ord ofs a b =>
    cls == .strand && h.wf cls .vec vr (.data 1) && a.wf cls .vec vr (.base 1) && b.wf cls .vec vr (.src 1) && ty.isSub && ord.isStore && ofs < 32
  | .stsbElementScalar h ty ord ofs a b =>
    h.wf cls .sca vr (.data 1) && a.wf cls .sca vr (.base 1) && b.wf cls .sca vr (.src 1) && ty.isSub && ord.isStore && ofs < 32
  | .stsbMaskVector h ord ofs a b =>
    cls == .strand && h.wf cls .vec vr (.data 2) && a.wf cls .vec vr (.base 1) && b.wf cls .vec vr (.src 2) && ord.isStore && ofs < 32
  | .stsbMaskScalar h ord ofs a b =>
    h.wf cls .sca vr (.data 2) && a.wf cls .sca vr (.base 1) && b.wf cls .sca vr (.src 2) && ord.isStore && ofs < 32
  | .prfVector h ty ord x2 ofs a b =>
    cls == .strand && h.wf cls .vec vr .none && a.wf cls .vec vr (.base 1) && b.wf cls .vec vr (.src 1) && ty.isInt && ord.isPlain && (!x2 || ty.words == 2) && ofs < 32
  | .prfScalar h ty ord x2 ofs a b =>
    h.wf cls .sca vr .none && a.wf cls .sca vr (.base 1) && b.wf cls .sca vr (.src 1) && ty.isInt && ord.isPlain && (!x2 || ty.words == 2) && ofs < 32
  | .atomVector h ty _ op ofs a b =>
    cls == .strand && h.wf cls .vec vr (.reg ty.words) && a.wf cls .vec vr (.base 2) && b.wf cls .vec vr (.src ty.words) && ty.isAtom && (ty != .f32 || op == .add) && ofs < 8
  | .atomScalar h ty _ op ofs a b =>
    h.wf cls .sca vr (.reg ty.words) && a.wf cls .sca vr (.base 2) && b.wf cls .sca vr (.src ty.words) && ty.isAtom && (ty != .f32 || op == .add) && ofs < 8
  | .atomsVector h ty _ op ofs a b =>
    cls == .strand && h.wf cls .vec vr (.reg ty.words) && a.wf cls .vec vr (.base 1) && b.wf cls .vec vr (.src ty.words) && ty.isAtom && (ty != .f32 || op == .add) && ofs < 8
  | .atomsScalar h ty _ op ofs a b =>
    h.wf cls .sca vr (.reg ty.words) && a.wf cls .sca vr (.base 1) && b.wf cls .sca vr (.src ty.words) && ty.isAtom && (ty != .f32 || op == .add) && ofs < 8
  | .redVector h ty ord op ofs a b =>
    cls == .strand && h.wf cls .vec vr .none && a.wf cls .vec vr (.base 2) && b.wf cls .vec vr (.src ty.words) && ty.isAtom && ord.isStore && (op.isRed && (ty != .f32 || op == .add)) && ofs < 8
  | .redScalar h ty ord op ofs a b =>
    h.wf cls .sca vr .none && a.wf cls .sca vr (.base 2) && b.wf cls .sca vr (.src ty.words) && ty.isAtom && ord.isStore && (op.isRed && (ty != .f32 || op == .add)) && ofs < 8
  | .nop h => h.wf cls .vec vr .none
  | .br h _ => h.wf cls .vec vr .none
  | .bru h _ => h.wf cls .vec vr .none
  | .brx h a => h.wf cls .vec vr .none && a.wf cls .vec vr (.src 1)
  | .call h _ => h.wf cls .vec vr (.reg 1)
  | .callx h a => h.wf cls .vec vr (.reg 1) && a.wf cls .vec vr (.src 1)
  | .ret h a => h.wf cls .vec vr .none && a.wf cls .vec vr (.src 1)
  | .join h _ => h.wf cls .vec vr .none
  | .exit h => h.wf cls .vec vr .none
  | .yield h n => h.wf cls .sca vr .none && n < 1024
  | .trap h a => h.wf cls .sca vr .none && a.wf cls .sca vr (.src 1)
  | .rte h => h.wf cls .sca vr .none
  | .sysrd h reg => h.wf cls .sca vr (.reg 1) && reg < 256 && sysNumber reg
  | .syswr h reg a =>
    h.wf cls .sca vr .none && a.wf cls .sca vr (.src 1) && sysNumber reg && reg != 0x11 && reg != 0x13 && reg != 0x14
  | .syswrEpc h a => h.wf cls .sca vr .none && a.wf cls .sca vr (.src 1)
  | .syswrFstat h a => h.wf cls .sca vr .none && a.wf cls .sca vr (.src 1)
  | .syswrAmstat h a => h.wf cls .sca vr .none && a.wf cls .sca vr (.src 1)
  | .sleep h a => h.wf cls .sca vr .none && a.wf cls .sca vr (.src 1)
  | .safept h id => h.wf cls .sca vr .none && id < 4096
  | .brkpt h code => h.wf cls .sca vr .none && code < 1024
  | .cctlIinv h => h.wf cls .sca vr .none
  | .cctlIinvp h => h.wf cls .sca vr .none
  | .cctlL1inv h a => h.wf cls .sca vr .none && a.wf cls .sca vr (.src 1)
  | .cctlL1all h => h.wf cls .sca vr .none
  | .seal h a b => h.wf cls .sca vr .none && a.wf cls .sca vr (.src 1) && b.wf cls .sca vr (.src 1)
  | .unseal h a b => h.wf cls .sca vr .none && a.wf cls .sca vr (.src 1) && b.wf cls .sca vr (.src 1)
  | .fenceAcq h => h.wf cls .sca vr .none
  | .fenceRel h => h.wf cls .sca vr .none
  | .fenceAcqrel h => h.wf cls .sca vr .none
  | .monitor h a b => h.wf cls .sca vr .none && a.wf cls .sca vr (.src 1) && Src.wfOpt cls vr b
  | .mwait h a => h.wf cls .sca vr (.reg 1) && a.wf cls .sca vr (.src 1)
  | .bararr h a => cls == .strand && h.wf cls .sca vr (.reg 1) && a.wf cls .sca vr (.src 1)
  | .barwait h a b =>
    cls == .strand && h.wf cls .sca vr .none && a.wf cls .sca vr (.src 1) && b.wf cls .sca vr (.src 1)
  | .barsync h a => cls == .strand && h.wf cls .sca vr .none && a.wf cls .sca vr (.src 1)
  | .barinit h a b =>
    cls == .strand && h.wf cls .sca vr .none && a.wf cls .sca vr (.src 1) && b.wf cls .sca vr (.src 1)
  | .attach h a => h.wf cls .sca vr (.reg 1) && a.wf cls .sca vr (.src 1)
  | .detach h => cls == .strand && h.wf cls .sca vr .none
  | .grpq h _ a => h.wf cls .sca vr (.reg 1) && a.wf cls .sca vr (.src 1)
  | .put h ty och a b =>
    cls == .strand && h.wf cls .vec vr (.data ty.words) && a.wf cls .vec vr (.base 2) && b.wf cls .vec vr (.src 1) && ty.isInt && ochWf och
  | .putBlk h _ och a b =>
    cls == .strand && h.wf cls .sca vr .spair && a.wf cls .sca vr (.base 1) && Src.wfOpt cls vr b && ochWf och
  | .get h _ och a b =>
    cls == .strand && h.wf cls .sca vr .spair && a.wf cls .sca vr (.base 1) && Src.wfOpt cls vr b && ochWf och
  | .ratom h ty _ och a b =>
    cls == .strand && h.wf cls .vec vr (.reg ty.words) && a.wf cls .vec vr (.base 2) && b.wf cls .vec vr (.src ty.words) && ty.isW && ochWf och
  | .rred h ty op och a b =>
    cls == .strand && h.wf cls .vec vr .none && a.wf cls .vec vr (.base 2) && b.wf cls .vec vr (.src ty.words) && ty.isW && op.isRed && ochWf och
  | .notify h och a b =>
    cls == .strand && h.wf cls .sca vr .none && a.wf cls .sca vr (.base 1) && b.wf cls .sca vr (.src 1) && ochWf och
  | .notifyRel h och a b =>
    cls == .strand && h.wf cls .sca vr .none && a.wf cls .sca vr (.base 1) && b.wf cls .sca vr (.src 1) && ochWf och
  | .ochopen h a b =>
    cls == .strand && h.wf cls .sca vr .none && a.wf cls .sca vr (.src 1) && b.wf cls .sca vr (.src 1)
  | .ochclose h b => cls == .strand && h.wf cls .sca vr .none && b.wf cls .sca vr (.src 1)
  | .rfence h => cls == .strand && h.wf cls .sca vr .none
  | .mma h a b c =>
    h.wf cls .sca vr .bank && a.wf cls .sca vr (.src 1) && b.wf cls .sca vr (.src 1) && c.wf cls .sca vr .pair
  | .mmasp h a b c =>
    h.wf cls .sca vr .bank && a.wf cls .sca vr (.src 1) && b.wf cls .sca vr (.src 1) && c.wf cls .sca vr .pair
  | .mvm h a b c =>
    h.wf cls .sca vr .bank && a.wf cls .sca vr (.base 1) && b.wf cls .sca vr .pair && c.wf cls .sca vr .pair
  | .amalloc h a => h.wf cls .sca vr (.reg 1) && a.wf cls .sca vr (.src 1)
  | .amfree h => h.wf cls .sca vr .none
  | .amgrant h _ a b => h.wf cls .sca vr .none && a.wf cls .sca vr (.src 1) && b.wf cls .sca vr (.src 1)
  | .amld h band a => cls == .strand && h.wf cls .vec vr .quad && a.wf cls .vec vr .ssrc && band < 4
  | .amst h band a => cls == .strand && h.wf cls .vec vr .bank && a.wf cls .vec vr .quad && band < 4
  | .amdrain h ty rnd band _ a b =>
    cls == .strand && h.wf cls .sca vr .none && a.wf cls .sca vr .pair && b.wf cls .sca vr (.src 1) && ty.isDrain && ((ty != .n32 && ty != .f32) || rnd == .rne) && band < 4
  | .amzero h _ => cls == .strand && h.wf cls .sca vr .bank
  | .chput h a b => h.wf cls .sca vr (.reg 1) && a.wf cls .sca vr (.src 1) && b.wf cls .sca vr (.src 1)
  | .chadv h a b c =>
    h.wf cls .sca vr (.reg 1) && a.wf cls .sca vr (.src 1) && b.wf cls .sca vr (.src 1) && c.wf cls .sca vr (.src 1)
  | .chseq h _ _ a => h.wf cls .sca vr (.reg 1) && a.wf cls .sca vr (.src 1)
  | .spawn h a b c =>
    h.wf cls .sca vr (.reg 1) && a.wf cls .sca vr (.src 1) && b.wf cls .sca vr .pair && c.wf cls .sca vr (.src 1)
  | .joindec h a b => h.wf cls .sca vr .none && a.wf cls .sca vr (.src 1) && b.wf cls .sca vr (.src 1)
  | .pushdq h a => cls == .gaffer && h.wf cls .sca vr .none && a.wf cls .sca vr (.src 1)
  | .popdq h pr => cls == .strand && h.wf cls .sca vr (.reg 1) && pr < 8
  | .dqstat h => h.wf cls .sca vr (.reg 1)
  | .mwaitReturnNoReason => false
  | .coldBoot => false
  | .inputVoltageRecovery => false
  | .coolantFlowResume => false
  | .correctedEccError => false
  | .serviceFirmwareRestarted => false

/-- Well-formedness as a proposition. -/
abbrev Instr.WellFormed (cls : Cls) (vr : Nat) (i : Instr) : Prop := i.wf cls vr = true

end Sys2Proof
end

