-- ==== Sys2Proof/Machine/Numbers.lean ====
section
/-! DEFINITION. Chapter 10: the number formats to the bit, rounding and conversion, the exact element operations of
chapter 14, RN24, and the faithfully rounded functions with their open choice (log entry 12). -/

namespace Sys2Proof

/-! ### Exact values -/

/-- The value of an encoding: a NaN with its sign and whether it signals, an infinity, or the number
(-1)^neg * m * 2^e; a zero keeps its sign. -/
inductive FVal where
  | nan (neg sig : Bool)
  | inf (neg : Bool)
  | num (neg : Bool) (m : Nat) (e : Int)
deriving DecidableEq, Repr

/-- R240: a format: exponent and significand widths, bias, and the magnitudes of its largest number, infinity and
canonical NaN. -/
structure Fmt where
  eb : Nat
  mb : Nat
  bias : Nat
  top : Nat
  inf : Option Nat
  nan : Option Nat
deriving DecidableEq, Repr

/-- R240: the format of a type; integers have none and answer FP32's. -/
def Ty.fmt : Ty → Fmt
  | .f16 => ⟨5, 10, 15, 0x7BFF, some 0x7C00, some 0x7E00⟩
  | .bf16 => ⟨8, 7, 127, 0x7F7F, some 0x7F80, some 0x7FC0⟩
  | .e4m3 => ⟨4, 3, 7, 0x7E, none, some 0x7F⟩
  | .e5m2 => ⟨5, 2, 15, 0x7B, some 0x7C, some 0x7E⟩
  | .e3m2 => ⟨3, 2, 3, 0x1F, none, none⟩
  | .e2m3 => ⟨2, 3, 1, 0x1F, none, none⟩
  | .e2m1 => ⟨2, 1, 1, 0x7, none, none⟩
  | _ => ⟨8, 23, 127, 0x7F7FFFFF, some 0x7F800000, some 0x7FC00000⟩

/-- The position of the sign bit. -/
def Fmt.sb (f : Fmt) : Nat := f.eb + f.mb

/-- A magnitude with a sign. -/
def Fmt.sign (f : Fmt) (neg : Bool) (x : Nat) : Nat := x + neg.toNat * 2 ^ f.sb

/-- R357: the canonical NaN. -/
def Fmt.cnan (f : Fmt) : Nat := f.nan.getD 0

/-- R240: the value of an encoding. -/
def Fmt.val (f : Fmt) (x : Nat) : FVal :=
  let neg := nbit x f.sb
  let e := nbits x (f.sb - 1) f.mb
  let m := nbits x (f.mb - 1) 0
  let mag := x % 2 ^ f.sb
  if f.inf = some mag then .inf neg
  else if f.inf.isSome ∧ e = 2 ^ f.eb - 1 then .nan neg (f.mb != 2 && !nbit m (f.mb - 1))
  else if f.nan = some mag then .nan neg false
  else if e = 0 then .num neg m (1 - f.bias - f.mb : Int)
  else .num neg (2 ^ f.mb + m) (e - f.bias - f.mb : Int)

/-! ### Rounding -/

/-- R250: the flag bits of FSTAT. -/
def flagNV : Nat := 16
/-- R250. -/
def flagDZ : Nat := 8
/-- R250. -/
def flagOF : Nat := 4
/-- R250. -/
def flagUF : Nat := 2
/-- R250. -/
def flagNX : Nat := 1

/-- R247: whether a magnitude with remainder `rem` of `2 * half` rounds up. -/
def Rnd.up (r : Rnd) (neg : Bool) (m rem half : Nat) : Bool :=
  match r with
  | .rne => half < rem || (rem == half && m % 2 == 1)
  | .rtz => false
  | .rdn => neg && rem != 0
  | .rup => !neg && rem != 0
  | .rmm => half ≤ rem

/-- R248: a nonzero magnitude m * 2^e rounded to a multiple of 2^q: the multiple, and whether it is inexact. -/
def roundAt (rnd : Rnd) (neg : Bool) (m : Nat) (e q : Int) : Nat × Bool :=
  if q ≤ e then (m * 2 ^ (e - q).toNat, false)
  else
    let sh := (q - e).toNat
    let rem := m % 2 ^ sh
    (m / 2 ^ sh + (rnd.up neg (m / 2 ^ sh) rem (2 ^ (sh - 1))).toNat, rem != 0)

/-- R248 to R250: a number rounded to a format, with its flags. -/
def Fmt.round (f : Fmt) (rnd : Rnd) (sat : Bool) (neg : Bool) (m : Nat) (e : Int) : Nat × Nat :=
  if m = 0 then (f.sign neg 0, 0)
  else
    let q := max ((Nat.log2 m : Int) + e - f.mb) (1 - f.bias - f.mb : Int)
    let r := roundAt rnd neg m e q
    let x := (q + f.mb + f.bias - 1).toNat * 2 ^ f.mb + r.1
    if f.top < x then
      let toInf := match rnd with
        | .rne | .rmm => true
        | .rtz => false
        | .rdn => neg
        | .rup => !neg
      let y := if sat || !toInf then f.top else (f.inf.orElse fun _ => f.nan).getD f.top
      (f.sign neg y, flagOF + flagNX)
    else
      (f.sign neg x, if r.2 then flagNX + (if x ≠ 0 ∧ x < 2 ^ f.mb then flagUF else 0) else 0)

/-- R249: an infinity with its sign. -/
def Fmt.infOf (f : Fmt) (neg : Bool) : Nat := f.sign neg (f.inf.getD f.top)

/-- A zero with its sign. -/
def Fmt.zero (f : Fmt) (neg : Bool) : Nat := f.sign neg 0

/-! ### Element operations -/

/-- R357: the flag of NaN operands. -/
def FVal.sigFlag : FVal → Nat
  | .nan _ true => flagNV
  | _ => 0

/-- A NaN. -/
def FVal.isNan : FVal → Bool
  | .nan .. => true
  | _ => false

/-- The value with its sign inverted where asked. -/
def FVal.negate (b : Bool) : FVal → FVal
  | .nan n s => .nan n s
  | .inf n => .inf (n != b)
  | .num n m e => .num (n != b) m e

/-- A signed magnitude at an exponent no greater than its own. -/
def signedAt (neg : Bool) (m : Nat) (e e0 : Int) : Int :=
  let v : Int := (m * 2 ^ (e - e0).toNat : Nat)
  if neg then -v else v

/-- R360, R362: the rounded sum of two values. -/
def Fmt.add (f : Fmt) (rnd : Rnd) (a b : FVal) : Nat × Nat :=
  match a, b with
  | .nan .., _ | _, .nan .. => (f.cnan, a.sigFlag ||| b.sigFlag)
  | .inf x, .inf y => if x = y then (f.infOf x, 0) else (f.cnan, flagNV)
  | .inf x, _ => (f.infOf x, 0)
  | _, .inf y => (f.infOf y, 0)
  | .num x ma ea, .num y mb eb =>
    let e := min ea eb
    let t := signedAt x ma ea e + signedAt y mb eb e
    if t = 0 then
      (f.zero (if ma = 0 ∧ mb = 0 ∧ x = y then x else rnd == .rdn), 0)
    else f.round rnd false (t < 0) t.natAbs e

/-- The exact product of two values, neither a NaN; none when invalid. -/
def FVal.mul (a b : FVal) : Option FVal :=
  match a, b with
  | .inf x, .inf y => some (.inf (x != y))
  | .inf x, .num y m _ | .num x m _, .inf y => if m = 0 then none else some (.inf (x != y))
  | .num x ma ea, .num y mb eb => some (.num (x != y) (ma * mb) (ea + eb))
  | _, _ => none

/-- R362: the rounded product. -/
def Fmt.mulR (f : Fmt) (rnd : Rnd) (a b : FVal) : Nat × Nat :=
  if a.isNan || b.isNan then (f.cnan, a.sigFlag ||| b.sigFlag)
  else
    match a.mul b with
    | some (.num n m e) => f.round rnd false n m e
    | some (.inf n) => (f.infOf n, 0)
    | _ => (f.cnan, flagNV)

/-- R362: a product and an infinite C of opposite signs: invalid in FFMA, the product finite or not. -/
def FVal.opposed (p c : FVal) : Bool :=
  match p, c with
  | .num x _ _, .inf y | .inf x, .inf y => x != y
  | _, _ => false

/-- R362: the fused multiply-add, rounded once under RNE. -/
def Fmt.fma (f : Fmt) (a b c : FVal) : Nat × Nat :=
  if a.isNan || b.isNan then (f.cnan, a.sigFlag ||| b.sigFlag ||| c.sigFlag)
  else
    match a.mul b with
    | some p => if p.opposed c then (f.cnan, flagNV) else f.add .rne p c
    | none => (f.cnan, flagNV)

/-- The order of two numbers, infinities included: -1, 0 or 1; zeros are equal. -/
def FVal.cmp (a b : FVal) : Int :=
  let key : FVal → Bool × Nat × Int := fun
    | .inf n => (n, 1, 1000)
    | .num n m e => (n, m, e)
    | .nan n _ => (n, 0, 0)
  let (x, ma, ea) := key a
  let (y, mb, eb) := key b
  let e := min ea eb
  let s := signedAt x ma ea e - signedAt y mb eb e
  if s < 0 then -1 else if 0 < s then 1 else 0

/-- The sign of a value. -/
def FVal.neg : FVal → Bool
  | .nan n _ | .inf n | .num n _ _ => n

/-- R363: minimumNumber, or maximumNumber. -/
def Fmt.minmax (f : Fmt) (isMax : Bool) (x y : Nat) : Nat × Nat :=
  let a := f.val x
  let b := f.val y
  let fl := a.sigFlag ||| b.sigFlag
  if a.isNan && b.isNan then (f.cnan, fl)
  else if a.isNan then (y, fl)
  else if b.isNan then (x, fl)
  else
    let c := a.cmp b
    let less := c < 0 || (c == 0 && a.neg)
    (if less != isMax then x else y, 0)

/-- R310, R365: a floating-point comparison, with its flags. -/
def Fmt.compare (f : Fmt) (cond : Cond) (x y : Nat) : Bool × Nat :=
  let a := f.val x
  let b := f.val y
  let un := a.isNan || b.isNan
  let c := a.cmp b
  (match cond with
    | .eq => !un && c == 0
    | .ne => un || c != 0
    | .lt => !un && c == -1
    | .le => !un && c != 1
    | .gt => !un && c == 1
    | .ge => !un && c != -1
    | .equ => un || c == 0
    | .neu => un || c != 0
    | .ltu => un || c == -1
    | .leu => un || c != 1
    | .gtu => un || c == 1
    | .geu => un || c != -1
    | .num => !un
    | .nan => un, a.sigFlag ||| b.sigFlag)

/-- R366: the class number of an encoding. -/
def Fmt.cls (f : Fmt) (x : Nat) : Nat :=
  match f.val x with
  | .nan _ s => if s then 8 else 9
  | .inf n => if n then 0 else 7
  | .num n m _ =>
    let k := if m = 0 then 3 else if m < 2 ^ f.mb then 2 else 1
    if n then k else 7 - k

/-- R366: the predicate tests. -/
def Fmt.test (f : Fmt) (t : ClassTest) (x : Nat) : Bool :=
  let k := f.cls x
  match t with
  | .isnan => k == 8 || k == 9
  | .issnan => k == 8
  | .isinf => k == 0 || k == 7
  | .iszero => k == 3 || k == 4
  | .issub => k == 2 || k == 5
  | .isnorm => k == 1 || k == 6
  | .isfin => 1 ≤ k && k ≤ 6
  | .isneg => nbit x f.sb
  | .isnzf => k == 1 || k == 2 || k == 5 || k == 6

/-- R367, R370: a number rounded to an integer, and whether it is inexact. -/
def integral (rnd : Rnd) (neg : Bool) (m : Nat) (e : Int) : Int × Bool :=
  let r := roundAt rnd neg m e 0
  (if neg then -(r.1 : Int) else r.1, r.2)

/-- R367: FRND. -/
def Fmt.rnd (f : Fmt) (r : Rnd) (x : Nat) : Nat × Nat :=
  match f.val x with
  | .nan n s => (f.cnan, (FVal.nan n s).sigFlag)
  | .inf _ => (x, 0)
  | .num n m e =>
    let y := integral r n m e
    ((f.round .rne false n y.1.natAbs 0).1, if y.2 then flagNX else 0)

/-- R368: FSCALE; beyond 2^1000 only overflow or a result too small to see remains. -/
def Fmt.scale (f : Fmt) (r : Rnd) (x : Nat) (n : Int) : Nat × Nat :=
  match f.val x with
  | .nan a s => (f.cnan, (FVal.nan a s).sigFlag)
  | .inf _ => (x, 0)
  | .num a m e => f.round r false a m (e + max (-1000) (min 1000 n))

/-- R368: FGETEXP. -/
def Fmt.getexp (f : Fmt) (x : Nat) : Nat × Nat :=
  match f.val x with
  | .nan a s => (f.cnan, (FVal.nan a s).sigFlag)
  | .inf _ => (f.infOf false, 0)
  | .num _ m e =>
    if m = 0 then (f.infOf true, flagDZ)
    else
      let k := (Nat.log2 m : Int) + e
      f.round .rne false (k < 0) k.natAbs 0

/-- R248: the pairs whose conversion is exact and ignores the mode and the saturation choice. -/
def widening (target source : Ty) : Bool :=
  match target, source with
  | .f32, s => s != .f32
  | .f16, s | .bf16, s => s != .f32 && s != .f16 && s != .bf16
  | _, _ => false

/-- R249: what an infinity becomes in a saturating form, or in a format without one. -/
def Fmt.cvtInf (f : Fmt) (sat neg : Bool) : Nat × Nat :=
  match f.inf with
  | some i => if sat then (f.sign neg f.top, flagNX) else (f.sign neg i, 0)
  | none =>
    match f.nan with
    | some n => if sat then (f.sign neg f.top, flagNX) else (f.sign neg n, flagNV)
    | none => (f.sign neg f.top, flagNX)

/-- R249, R250, R369: FCVT. A NaN raises NV when it signals, when the target is without a NaN, and when the target is
E4M3 (R383). -/
def convert (target source : Ty) (rnd : Rnd) (sat : Bool) (x : Nat) : Nat × Nat :=
  let f := target.fmt
  let sat := sat && !widening target source
  match source.fmt.val (x % 2 ^ (source.fmt.sb + 1)) with
  | .nan n s => (f.sign n (f.nan.getD 0), if s ∨ f.inf = none then flagNV else 0)
  | .inf n => f.cvtInf sat n
  | .num n m e => f.round rnd sat n m e

/-- Width of an integer type in bits. -/
def Ty.bits : Ty → Nat
  | .i8 | .n8 => 8
  | .i16 | .n16 => 16
  | .i64 | .n64 => 64
  | _ => 32

/-- The least value of an integer type. -/
def Ty.minOf (t : Ty) : Int := if t.signed then -2 ^ (t.bits - 1) else 0

/-- The greatest value of an integer type. -/
def Ty.maxOf (t : Ty) : Int := if t.signed then 2 ^ (t.bits - 1) - 1 else 2 ^ t.bits - 1

/-- The low bits of a word read as an integer of a type. -/
def Ty.read (t : Ty) (x : Nat) : Int :=
  let y := x % 2 ^ t.bits
  if t.signed ∧ 2 ^ (t.bits - 1) ≤ y then (y : Int) - 2 ^ t.bits else y

/-- R370: F2I, as an integer. -/
def Fmt.toInt (f : Fmt) (t : Ty) (rnd : Rnd) (x : Nat) : Int × Nat :=
  match f.val x with
  | .nan .. => (0, flagNV)
  | .inf n => (if n then t.minOf else t.maxOf, flagNV)
  | .num n m e =>
    let y := integral rnd n m e
    if y.1 < t.minOf then (t.minOf, flagNV)
    else if t.maxOf < y.1 then (t.maxOf, flagNV)
    else (y.1, if y.2 then flagNX else 0)

/-- R305, R371: an integer rounded to a format. -/
def Fmt.ofInt (f : Fmt) (rnd : Rnd) (x : Int) : Nat × Nat := f.round rnd false (x < 0) x.natAbs 0

/-! ### Correctly rounded division and square root (R372) -/

/-- The greatest integer whose square is at most `n`, for `n` below 2^(2k). -/
def isqrt (k n : Nat) : Nat :=
  (List.range k).foldl (fun r i =>
    let t := r + 2 ^ (k - 1 - i)
    if t * t ≤ n then t else r) 0

/-- The quotient of two nonzero magnitudes, with a last bit that is odd when it is inexact. -/
def quotient (ma mb : Nat) : Nat × Int :=
  let k := Nat.log2 mb + 66
  let n := ma * 2 ^ k
  (2 * (n / mb) + (if n % mb = 0 then 0 else 1), -(k : Int) - 1)

/-- The square root of a nonzero magnitude m * 2^e, with such a last bit. -/
def rootOf (m : Nat) (e : Int) : Nat × Int :=
  let m' := if e % 2 = 0 then m else 2 * m
  let e' := if e % 2 = 0 then e else e - 1
  let n := m' * 2 ^ 128
  let r := isqrt 96 n
  (2 * r + (if r * r = n then 0 else 1), e' / 2 - 65)

/-- R372: FDIV. -/
def Fmt.div (f : Fmt) (rnd : Rnd) (a b : FVal) : Nat × Nat :=
  match a, b with
  | .nan .., _ | _, .nan .. => (f.cnan, a.sigFlag ||| b.sigFlag)
  | .inf _, .inf _ => (f.cnan, flagNV)
  | .inf x, .num y _ _ => (f.infOf (x != y), 0)
  | .num x _ _, .inf y => (f.zero (x != y), 0)
  | .num x ma ea, .num y mb eb =>
    if mb = 0 then (if ma = 0 then (f.cnan, flagNV) else (f.infOf (x != y), flagDZ))
    else if ma = 0 then (f.zero (x != y), 0)
    else
      let q := quotient ma mb
      f.round rnd false (x != y) q.1 (q.2 + ea - eb)

/-- R372: FSQRT. -/
def Fmt.sqrt (f : Fmt) (rnd : Rnd) (a : FVal) : Nat × Nat :=
  match a with
  | .nan .. => (f.cnan, a.sigFlag)
  | .inf n => if n then (f.cnan, flagNV) else (f.infOf false, 0)
  | .num n m e =>
    if m = 0 then (f.zero n, 0)
    else if n then (f.cnan, flagNV)
    else
      let r := rootOf m e
      f.round rnd false false r.1 r.2

/-! ### Faithfully rounded functions (R373) -/

/-- The faithfully rounded functions. -/
inductive Fun where
  | rsq | exp2 | log2 | sin | cos | tanh
deriving DecidableEq, Repr

/-- The vector opcode of a function, which the open choice depends on. -/
def Fun.code : Fun → Nat
  | .rsq => 0x0D1
  | .exp2 => 0x0D4
  | .log2 => 0x0D5
  | .sin => 0x0D6
  | .cos => 0x0D7
  | .tanh => 0x0D8

/-- ln 2 in units of 2^-320. -/
def ln2 : Nat := 0xb17217f7d1cf79abc9e3b39803f2f6af40f343267298b62d8a0d175b8baafa2be7b876206debac98
/-- pi in units of 2^-512. -/
def piC : Nat :=
  0x3243f6a8885a308d313198a2e03707344a4093822299f31d0082efa98ec4e6c89452821e638d01377be5466cf34e90c6cc0ac29b7c97c50dd3f84d5b5b5470917

/-- exp x in units of 2^-320, for 0 <= x < 1 in the same units. -/
def expFix (x : Nat) : Nat :=
  ((List.range 90).foldl (fun (p : Nat × Nat) i =>
    let t := p.1 * x / 2 ^ 320 / (i + 1)
    (t, p.2 + t)) (2 ^ 320, 2 ^ 320)).2

/-- 2^(x / 2^320) as a magnitude and exponent. -/
def exp2Fix (x : Int) : Nat × Int :=
  let n := x / 2 ^ 320
  let fr := (x % 2 ^ 320).toNat
  (expFix (fr * ln2 / 2 ^ 320), n - 320)

/-- ln y in units of 2^-320 for 1 <= y < 2 in the same units. -/
def lnFix (y : Nat) : Nat :=
  let z := (y - 2 ^ 320) * 2 ^ 320 / (y + 2 ^ 320)
  let z2 := z * z / 2 ^ 320
  2 * ((List.range 110).foldl (fun (p : Nat × Nat) i =>
    (p.1 * z2 / 2 ^ 320, p.2 + p.1 / (2 * i + 1))) (z, 0)).2

/-- sin r and cos r in units of 2^-320 for |r| <= pi / 4 in the same units. -/
def sinCosFix (r : Int) : Int × Int :=
  let r2 := r * r / 2 ^ 320
  let go (t0 : Int) (k0 : Nat) : Int :=
    ((List.range 45).foldl (fun (p : Int × Int) i =>
      let k : Int := (2 * i + k0 : Nat)
      let t := -(p.1 * r2 / 2 ^ 320) / ((k + 1) * (k + 2))
      (t, p.2 + t)) (t0, t0)).2
  (go r 1, go (2 ^ 320) 0)

/-- A number at 2^-320, rounded down. -/
def fix320 (m : Nat) (e : Int) : Nat :=
  if 0 ≤ e + 320 then m * 2 ^ (e + 320).toNat else m / 2 ^ (-(e + 320)).toNat

/-- The exact result of a function on a nonzero number where it is no representable value: its sign, and a magnitude
whose last bits stand for the rest. Arguments so small that the result lies just below the argument, or just below 1,
and so great that FTANH lies just below 1, answer that. -/
def Fun.open (fn : Fun) (neg : Bool) (m : Nat) (e : Int) : Bool × Nat × Int :=
  let lg := (Nat.log2 m : Int) + e
  let below (neg : Bool) (m : Nat) (e : Int) := (neg, m * 2 ^ 64 - 1, e - 64)
  match fn with
  | .rsq =>
    let m' := if e % 2 = 0 then m else 2 * m
    let e' := if e % 2 = 0 then e else e - 1
    (false, 2 * isqrt 130 (2 ^ 256 / m') + 1, -(e' / 2) - 129)
  | .exp2 =>
    let x : Int := if 10 ≤ lg then 2 ^ 330 else (fix320 m e : Nat)
    let r := exp2Fix (if neg then -x else x)
    (false, 2 * r.1 + 1, r.2 - 1)
  | .log2 =>
    let l : Nat := lnFix (fix320 m (-(Nat.log2 m : Int))) * 2 ^ 320 / ln2
    let t : Int := lg * 2 ^ 320 + l
    (t < 0, if t < 0 then 2 * t.natAbs - 1 else 2 * t.natAbs + 1, -321)
  | .sin | .cos =>
    if lg < -20 then (if fn = .sin then below neg m e else below false 1 0)
    else
      let x : Nat := if 0 ≤ e + 512 then m * 2 ^ (e + 512).toNat else m / 2 ^ (-(e + 512)).toNat
      let k := (2 * x + piC / 2) / piC
      let r : Int := ((x : Int) - (k * piC / 2 : Nat)) / 2 ^ 192
      let sc := sinCosFix r
      let s := if fn = .sin then k % 4 else (k + 1) % 4
      let v := if s % 2 = 0 then sc.1 else sc.2
      let v := if s / 2 = 0 then v else -v
      let v := if fn = .sin && neg then -v else v
      (v < 0, 2 * v.natAbs + 1, -321)
  | .tanh =>
    if lg < -20 then below neg m e
    else if 6 ≤ lg then below neg 1 0
    else
      let r := exp2Fix (Int.ofNat (2 * fix320 m e * 2 ^ 320 / ln2))
      let y := fix320 r.1 r.2
      (neg, 2 * ((y - 2 ^ 320) * 2 ^ 320 / (y + 2 ^ 320)) + 1, -321)

/-- R373: the result of a function on an encoding, with its flags: exact where it is representable, else one of the two
bracketing values, which Config leaves open. -/
def Fun.apply (fn : Fun) (t : Ty) (x : Nat) : Nat × Nat :=
  let f := t.fmt
  let one := (f.round .rne false false 1 0).1
  let faithful (neg : Bool) (m : Nat) (e : Int) : Nat × Nat :=
    let near := f.round .rne false neg m e
    let lo := (f.round .rdn false neg m e).1
    let hi := (f.round .rup false neg m e).1
    if near.2 &&& flagOF ≠ 0 then near
    else (if Config.faithful fn.code t (BitVec.ofNat 32 x) then hi else lo, near.2 ||| flagNX)
  match f.val x with
  | .nan n s => (f.cnan, (FVal.nan n s).sigFlag)
  | .inf n =>
    match fn with
    | .rsq => if n then (f.cnan, flagNV) else (f.zero false, 0)
    | .exp2 => if n then (f.zero false, 0) else (f.infOf false, 0)
    | .log2 => if n then (f.cnan, flagNV) else (f.infOf false, 0)
    | .sin | .cos => (f.cnan, flagNV)
    | .tanh => (f.sign n one, 0)
  | .num n m e =>
    if m = 0 then
      match fn with
      | .rsq => (f.infOf n, flagDZ)
      | .exp2 | .cos => (one, 0)
      | .log2 => (f.infOf true, flagDZ)
      | .sin | .tanh => (x, 0)
    else
      let lg := (Nat.log2 m : Int) + e
      let pow2 := m == 2 ^ Nat.log2 m
      match fn with
      | .rsq =>
        if n then (f.cnan, flagNV)
        else if pow2 && lg % 2 == 0 then f.round .rne false false 1 (-(lg / 2))
        else
          let r := fn.open n m e
          faithful r.1 r.2.1 r.2.2
      | .log2 =>
        if n then (f.cnan, flagNV)
        else if pow2 then f.round .rne false (lg < 0) lg.natAbs 0
        else
          let r := fn.open n m e
          faithful r.1 r.2.1 r.2.2
      | .exp2 =>
        let k := integral .rtz n m e
        if k.2 then
          let r := fn.open n m e
          faithful r.1 r.2.1 r.2.2
        else
          let e := max (-1000) (min 1000 k.1)
          let r := f.round .rne false false 1 e
          if r.2 &&& flagNX = 0 then r else faithful false 1 e
      | _ =>
        let r := fn.open n m e
        faithful r.1 r.2.1 r.2.2

/-! ### RN24 (R244, R245) -/

/-- R245: Crt24. -/
def crt24 (x : Nat) : Int :=
  let c0 := nbits x 7 0 % 253
  let c1 := nbits x 15 8 % 254
  let c2 := nbits x 23 16 % 255
  let v := (c0 * 8225790 + c1 * 16322295 + c2 * 8225536) % 16386810
  if 8193405 ≤ v then (v : Int) - 16386810 else v

/-- R245: RnEncode. -/
def rnEncode (x : Int) : Nat := (x % 255).toNat * 65536 + (x % 254).toNat * 256 + (x % 253).toNat

end Sys2Proof
end

