-- ==== Sys2Proof/Machine/MatrixDot.lean ====
section
/-! DEFINITION. Chapter 10: the format block (R252 to R254) and the dot product of the matrix engine (R255 to R261). -/

namespace Sys2Proof

/-! ### The format block -/

/-- R252: AFMT. -/
def fbA (fb : Nat) : Nat := nbits fb 3 0
/-- R252: BFMT. -/
def fbB (fb : Nat) : Nat := nbits fb 7 4
/-- R252: the INT32 accumulator. -/
def fbInt (fb : Nat) : Bool := nbits fb 15 14 == 1
/-- R252: FZ. -/
def fbFz (fb : Nat) : Bool := nbit fb 12
/-- R252: SP. -/
def fbSp (fb : Nat) : Bool := nbit fb 13
/-- R252: the block length; 0 for none. -/
def fbBlk (fb : Nat) : Nat :=
  match nbits fb 9 8 with
  | 1 => 16
  | 2 => 32
  | _ => 0
/-- R252: the byte offset of the A scales. -/
def fbAs (fb : Nat) : Nat := 8 * nbits fb 47 32
/-- R252: the byte offset of the B scales. -/
def fbBs (fb : Nat) : Nat := 8 * nbits fb 63 48

/-- R421: the element width of a format code. -/
def fmtBits (code : Nat) : Nat :=
  match code with
  | 1 | 2 => 16
  | 3 | 4 | 8 => 8
  | 5 | 6 => 6
  | 7 => 4
  | _ => 32

/-- R254: K. -/
def fbK (fb : Nat) : Nat :=
  let w := max (fmtBits (fbA fb)) (fmtBits (fbB fb))
  if w = 32 then 16 else if w = 16 then 32 else if w = 8 then 64 else 128

/-- R253: what uses a format block. -/
inductive FbUse where
  | mma
  | mmasp
  | mvm
  /-- An MMA record: SP selects the form. -/
  | mmaRec
deriving DecidableEq, Repr

/-- R253: the offending bit of an invalid format block. -/
def fbBad (fb : Nat) (use : FbUse) : Option Nat :=
  let a := fbA fb
  let b := fbB fb
  let blk := nbits fb 9 8
  let sf := nbits fb 11 10
  let int (x : Nat) : Bool := x == 8 || x == 9
  if a = 0 ∨ 9 < a then some 0
  else if b = 0 ∨ 9 < b then some 4
  else
    match (List.range 32).find? fun i => (i == 8 && blk == 3) || (i == 10 && 2 ≤ sf) || (i == 14 && 2 ≤ nbits fb 15 14) ||
        (16 ≤ i && nbit fb i) with
    | some i => some i
    | none =>
      if (blk == 0) != (sf == 0) then some 8
      else if int a != int b || (int a && a != b) then some 4
      else if fbInt fb && (!int a || blk != 0) then some 14
      else if use ≠ .mvm ∧ fbK fb < fbBlk fb then some 8
      else if (fbSp fb && (use == .mvm || use == .mma)) || (!fbSp fb && use == .mmasp) then some 13
      else none

/-! ### Terms -/

/-- R240, R241: the value of an element of a format code. -/
def fmtVal (code x : Nat) : FVal :=
  match code with
  | 1 => Ty.bf16.fmt.val x
  | 2 => Ty.f16.fmt.val x
  | 3 => Ty.e4m3.fmt.val x
  | 4 => Ty.e5m2.fmt.val x
  | 5 => Ty.e3m2.fmt.val x
  | 6 => Ty.e2m3.fmt.val x
  | 7 => Ty.e2m1.fmt.val x
  | _ => if nbit x 7 then .num true (256 - x % 256) 0 else .num false (x % 256) 0

/-- R241: the value of an E8M0 scale. -/
def scaleVal (x : Nat) : FVal := if x % 256 = 255 then .nan false false else .num false 1 (x % 256 - 127 : Int)

/-- R256, R257: an exact product; a NaN where a factor is one, or an infinity meets a zero. -/
def FVal.times (a b : FVal) : FVal := if a.isNan || b.isNan then .nan false false else (a.mul b).getD (.nan false false)

/-- R257: a term that is an infinity of the sign. -/
def FVal.isInf (v : FVal) (neg : Bool) : Bool := v == .inf neg

/-- R256: floor log2 of the magnitude of a nonzero term. -/
def FVal.exponent : FVal → Option Int
  | .num _ m e => if m = 0 then none else some (Nat.log2 m + e)
  | _ => none

/-- R256: a term truncated toward zero to a multiple of 2^q. -/
def FVal.truncAt (q : Int) : FVal → Int
  | .num n m e =>
    let x := if q ≤ e then m * 2 ^ (e - q).toNat else m / 2 ^ (q - e).toNat
    if n then -(x : Int) else x
  | _ => 0

/-- R256 to R258: GroupSum. -/
def groupSum (ts : List FVal) (fz : Bool) : Nat :=
  let f := Ty.f32.fmt
  if ts.any (·.isNan) || (ts.any (·.isInf false) && ts.any (·.isInf true)) then f.cnan
  else if ts.any (·.isInf false) then f.infOf false
  else if ts.any (·.isInf true) then f.infOf true
  else
    match ts.filterMap (·.exponent) with
    | [] => f.zero (ts.all (·.neg))
    | e :: es =>
      let q := es.foldl max e - 60
      let sum : Int := (ts.map (·.truncAt q)).foldl (· + ·) 0
      if sum = 0 then 0
      else
        let y : Nat := (f.round .rne false (decide (sum < 0)) sum.natAbs q).1
        if fz = true ∧ nbits y 30 0 < 0x800000 then f.zero (decide (sum < 0)) else y

/-! ### The dot product -/

/-- R255: the scale of term `k` from a row's scales. -/
def scaleAt (fb : Nat) (sc : List Nat) (k : Nat) : FVal :=
  if fbBlk fb = 0 then .num false 1 0 else scaleVal (sc.getD (k / fbBlk fb) 0)

/-- R259: the value of a group of 16 RN24 products. -/
def rnGroup (a b : List Nat) : Int :=
  let ch (sh md : Nat) : Nat := ((a.zip b).map fun p => (p.1 / 2 ^ sh % 256 % md) * (p.2 / 2 ^ sh % 256 % md)).sum % md
  crt24 (ch 0 253 + ch 8 254 * 256 + ch 16 255 * 65536)

/-- An integer as a term. -/
def intTerm (v : Int) : FVal := .num (v < 0) v.natAbs 0

/-- R256, R259: one group of 16 terms. -/
def dotGroup (fb : Nat) (a b sa sb : List Nat) (x g : Nat) : Nat :=
  let ag := (a.drop (16 * g)).take 16
  let bg := (b.drop (16 * g)).take 16
  let scale (k : Nat) : FVal := (scaleAt fb sa k).times (scaleAt fb sb k)
  if fbA fb = 9 then
    let v := rnGroup ag bg
    if fbInt fb then ((x : Int) + v).emod (2 ^ 32) |>.toNat
    else groupSum (Ty.f32.fmt.val x :: (intTerm v).times (scale (16 * g)) :: List.replicate 15 (.num false 0 0)) (fbFz fb)
  else
    let ts := (ag.zip bg).zipIdx.map fun p =>
      ((fmtVal (fbA fb) p.1.1).times (fmtVal (fbB fb) p.1.2)).times (scale (16 * g + p.2))
    if fbInt fb then ((x : Int) + (ts.map (·.truncAt 0)).foldl (· + ·) 0).emod (2 ^ 32) |>.toNat
    else groupSum (Ty.f32.fmt.val x :: ts) (fbFz fb)

/-- R256, R259, R260: a dot product over the elements of two rows, with its incoming value and the rows' scales. -/
def dotProduct (fb c : Nat) (a b sa sb : List Nat) : Nat :=
  (List.range (a.length / 16)).foldl (dotGroup fb a b sa sb) c

/-- R242, R421: `n` elements of a format packed in a row. -/
def unpack (code n row : Nat) : List Nat :=
  (List.range n).map fun i => row / 2 ^ (i * fmtBits code) % 2 ^ fmtBits code

/-- R261, R421: a stored 2:4 sparse row expanded by its metadata. -/
def expand (k : Nat) (stored : List Nat) (md : Nat) : List Nat :=
  (List.range k).map fun i =>
    let nib := md / 2 ^ (i / 4 * 4) % 16
    if nib % 4 = i % 4 then stored.getD (i / 4 * 2) 0
    else if nib / 4 = i % 4 then stored.getD (i / 4 * 2 + 1) 0
    else 0

/-- R421: the first group of a metadata row whose positions are not in order. -/
def badMeta (k md : Nat) : Bool := (List.range (k / 4)).any fun g => md / 2 ^ (4 * g) % 16 / 4 ≤ md / 2 ^ (4 * g) % 16 % 4

end Sys2Proof
end

