-- ==== Sys2Proof/Decode.lean ====
section
/-! DEFINITION. Decoding and encoding of the 64-bit instruction word (R301 to R315 and the encoding tables of
chapters 13 to 16). `decode` is total: it answers an instruction or the decode fault of R315 by name. -/

namespace Sys2Proof

/-- R315: why a word is no instruction, in the order of its table. The bit of a reserved field and the field and
bits of an operand out of range are what TVAL reports. -/
inductive DecErr where
  | illegalOpcode
  | reservedField (bit : Nat)
  | operandRange (field bits : Nat)
deriving DecidableEq, Repr

/-- R301: the fields of the instruction word. -/
structure Raw where
  opc : Nat
  g1n : Bool
  g1p : Nat
  g2n : Bool
  g2p : Nat
  k : Bool
  d : Nat
  a : Nat
  b : Nat
  c : Nat
deriving DecidableEq, Repr

/-- R301: the fields of a word. -/
def Raw.ofWord (w : Nat) : Raw where
  opc := nbits w 63 55
  g1n := nbits w 54 54 == 1
  g1p := nbits w 53 51
  g2n := nbits w 50 50 == 1
  g2p := nbits w 49 47
  k := nbits w 46 46 == 1
  d := nbits w 45 36
  a := nbits w 35 24
  b := nbits w 23 12
  c := nbits w 11 0

/-- R301: the word of its fields. -/
def Raw.toWord (r : Raw) : Nat :=
  r.c + 2 ^ 12 * (r.b + 2 ^ 12 * (r.a + 2 ^ 12 * (r.d + 2 ^ 10 * (r.k.toNat + 2 * (r.g2p + 2 ^ 3 * (r.g2n.toNat +
    2 * (r.g1p + 2 ^ 3 * (r.g1n.toNat + 2 * r.opc))))))))

/-! ### Field codes -/

/-- R309: the type of a TYPE code. -/
def Ty.ofCode (n : Nat) : Ty :=
  match n with
  | 0 => .i8 | 1 => .i16 | 2 => .i32 | 3 => .i64 | 4 => .n8 | 5 => .n16 | 6 => .n32 | 7 => .n64
  | 8 => .f32 | 9 => .f16 | 10 => .bf16 | 11 => .e4m3 | 12 => .e5m2 | 13 => .e3m2 | 14 => .e2m3 | _ => .e2m1
/-- R309: the TYPE code of a type. -/
def Ty.code : Ty → Nat
  | .i8 => 0 | .i16 => 1 | .i32 => 2 | .i64 => 3 | .n8 => 4 | .n16 => 5 | .n32 => 6 | .n64 => 7
  | .f32 => 8 | .f16 => 9 | .bf16 => 10 | .e4m3 => 11 | .e5m2 => 12 | .e3m2 => 13 | .e2m3 => 14 | .e2m1 => 15
/-- R247: the mode of an RND code; codes 5 to 7 are refused by the decoder. -/
def Rnd.ofCode (n : Nat) : Rnd :=
  match n with
  | 0 => .rne | 1 => .rtz | 2 => .rdn | 3 => .rup | _ => .rmm
/-- R247: the RND code of a mode. -/
def Rnd.code : Rnd → Nat
  | .rne => 0 | .rtz => 1 | .rdn => 2 | .rup => 3 | .rmm => 4
/-- R310: the condition of an OPX code; the reserved codes are refused by the decoder. -/
def Cond.ofCode (n : Nat) : Cond :=
  match n with
  | 0 => .eq | 1 => .ne | 2 => .lt | 3 => .le | 4 => .gt | 5 => .ge
  | 8 => .equ | 9 => .neu | 10 => .ltu | 11 => .leu | 12 => .gtu | 13 => .geu | 14 => .num | _ => .nan
/-- R310: the OPX code of a condition. -/
def Cond.code : Cond → Nat
  | .eq => 0 | .ne => 1 | .lt => 2 | .le => 3 | .gt => 4 | .ge => 5
  | .equ => 8 | .neu => 9 | .ltu => 10 | .leu => 11 | .gtu => 12 | .geu => 13 | .num => 14 | .nan => 15
/-- R310: the OPX codes that name a condition. -/
def condCode (n : Nat) : Bool := n ≤ 5 || (8 ≤ n && n ≤ 15)
/-- R304: the constant of a code. -/
def Konst.ofCode (n : Nat) : Konst :=
  match n with
  | 0 => .zero | 1 => .one | 2 => .mone | 3 => .fone | 4 => .fmone | 5 => .fhalf | 6 => .ones | _ => .lane
/-- R304: the code of a constant. -/
def Konst.code : Konst → Nat
  | .zero => 0 | .one => 1 | .mone => 2 | .fone => 3 | .fmone => 4 | .fhalf => 5 | .ones => 6 | .lane => 7
/-- R311, R394: the ordering of an ORD code. -/
def Ord.ofCode (n : Nat) : Ord :=
  match n with
  | 0 => .plain | 1 => .acq | 2 => .rel | _ => .acqrel
/-- R311, R394: the ORD code of an ordering. -/
def Ord.code : Ord → Nat
  | .plain => 0 | .acq => 1 | .rel => 2 | .acqrel => 3
/-- R394: the operation of an OP code. -/
def AOp.ofCode (n : Nat) : AOp :=
  match n with
  | 0 => .add | 1 => .min | 2 => .max | 3 => .and | 4 => .or | 5 => .xor | 6 => .exch | _ => .cas
/-- R394: the OP code of an operation. -/
def AOp.code : AOp → Nat
  | .add => 0 | .min => 1 | .max => 2 | .and => 3 | .or => 4 | .xor => 5 | .exch => 6 | .cas => 7
/-- R366: the test of an FCLASS code. -/
def ClassTest.ofCode (n : Nat) : ClassTest :=
  match n with
  | 0 => .isnan | 1 => .issnan | 2 => .isinf | 3 => .iszero | 4 => .issub | 5 => .isnorm | 6 => .isfin
  | 7 => .isneg | _ => .isnzf
/-- R366: the FCLASS code of a test. -/
def ClassTest.code : ClassTest → Nat
  | .isnan => 0 | .issnan => 1 | .isinf => 2 | .iszero => 3 | .issub => 4 | .isnorm => 5 | .isfin => 6
  | .isneg => 7 | .isnzf => 8
/-- R378: the mode of a VOTE code. -/
def VoteMode.ofCode (n : Nat) : VoteMode :=
  match n with
  | 0 => .any | 1 => .all | 2 => .uni | _ => .ballot
/-- R378: the code of a VOTE mode. -/
def VoteMode.code : VoteMode → Nat
  | .any => 0 | .all => 1 | .uni => 2 | .ballot => 3
/-- R378: the mode of a SHFL code. -/
def ShflMode.ofCode (n : Nat) : ShflMode :=
  match n with
  | 0 => .idx | 1 => .up | 2 => .down | _ => .xor
/-- R378: the code of a SHFL mode. -/
def ShflMode.code : ShflMode → Nat
  | .idx => 0 | .up => 1 | .down => 2 | .xor => 3
/-- R407: the selector of a GRPQ code. -/
def GrpSel.ofCode (n : Nat) : GrpSel :=
  match n with
  | 0 => .memb | 1 => .arr | 2 => .pend | 3 => .phase | _ => .gcount
/-- R407: the code of a GRPQ selector. -/
def GrpSel.code : GrpSel → Nat
  | .memb => 0 | .arr => 1 | .pend => 2 | .phase => 3 | .gcount => 4
/-- R436: the selector of a CHSEQ code. -/
def ChSel.ofCode (n : Nat) : ChSel :=
  match n with
  | 0 => .comp | 1 => .tail | _ => .esw
/-- R436: the code of a CHSEQ selector. -/
def ChSel.code : ChSel → Nat
  | .comp => 0 | .tail => 1 | .esw => 2

/-! ### Fields and operands -/

/-- The lowest set bit of a field of at most 24 bits. -/
def lowBit (x : Nat) : Option Nat := (List.range 24).find? x.testBit

/-- R315 order 2: a field `[hi:lo]` that must be zero; the answer is its lowest set bit. -/
def zf (x hi lo : Nat) : Option Nat := if nbits x hi lo = 0 then none else (lowBit (nbits x hi lo)).map (· + lo)

/-- R315 order 2: a condition on a field whose lowest bit is `bit`. -/
def need (ok : Bool) (bit : Nat) : Option Nat := if ok then none else some bit

/-- R303: the operand of a source field. -/
def Src.ofBits (cls : Cls) (f : Nat) : Src :=
  match nbits f 11 10 with
  | 0 => match cls with
    | .strand => .vreg (nbits f 9 0)
    | .gaffer => .greg (nbits f 9 0)
  | 1 => .sreg (nbits f 9 0)
  | 2 => if nbits f 9 3 = 0 then .latch (nbits f 2 0) else .konst (Konst.ofCode (nbits f 2 0))
  | _ => .imm (BitVec.ofNat 10 f)

/-- R303: the field of a source operand. -/
def Src.bits : Src → Nat
  | .vreg i => i
  | .greg i => i
  | .sreg i => 1024 + i
  | .latch n => 2048 + n
  | .konst k => 2048 + 8 + k.code
  | .imm v => 3072 + v.toNat

/-- R399, R409: field 0 of an optional index in strand code is an absent index. -/
def Src.ofBitsOpt (cls : Cls) (f : Nat) : Option Src :=
  if cls = .strand ∧ f = 0 then none else some (Src.ofBits cls f)

/-- The field of an optional index. -/
def Src.optBits : Option Src → Nat
  | none => 0
  | some s => s.bits

/-- What an entry says of a source field: a source, an optional source, a field that must be zero, a predicate
number, or bits with a layout of their own. -/
inductive FieldKind where
  | is (k : SrcKind)
  | opt
  | zero
  | pred
  | own
deriving DecidableEq, Repr

/-- R303: the lowest offending bit of a reserved class-10 code. -/
def class10Bad (f : Nat) : Option Nat :=
  if nbits f 11 10 = 2 then zf f 9 4 else none

/-- R315 order 2 for one source field. -/
def FieldKind.bad (k : FieldKind) (f : Nat) : Option Nat :=
  match k with
  | .own => none
  | .zero => zf f 11 0
  | .pred => zf f 11 3
  | .is (.base _) => if nbits f 11 10 = 3 then some 10 else class10Bad f
  | .is .pair => if nbits f 11 10 = 3 then some 10 else (class10Bad f).orElse fun _ => need (nbits f 11 10 ≠ 2) 11
  | _ => class10Bad f

/-- R306 for one source field. -/
def FieldKind.inRange (cls : Cls) (form : Form) (vr : Nat) (k : FieldKind) (f : Nat) : Bool :=
  let i := nbits f 9 0
  match k with
  | .own | .zero | .pred => true
  | .is .quad => nbits f 11 10 == 0 && cls == .strand && i % 4 == 0 && i + 3 < vr
  | .opt =>
    match cls, nbits f 11 10 with
    | .strand, 0 => f == 0
    | .strand, 1 => i < 192
    | .gaffer, 0 => i < 64
    | .gaffer, 1 => false
    | _, _ => true
  | .is k =>
    let w := match k with | .src w | .base w => w | _ => 1
    let sca := match k with | .pair | .ssrc => true | _ => !form.isVec
    let even := match k with | .pair => i % 2 == 0 | _ => true
    match cls, nbits f 11 10 with
    | .strand, 0 => !sca && i < vr && i % w == 0
    | .strand, 1 => i < 192 && even
    | .gaffer, 0 => i < 64 && even
    | .gaffer, 1 => false
    | _, _ => true

/-- R306, R307 for the destination index. -/
def DstKind.inRange (cls : Cls) (form : Form) (vr : Nat) (k : DstKind) (d : Nat) : Bool :=
  match k with
  | .none => true
  | .reg w | .data w =>
    match cls, form with
    | .strand, .vec => d < vr && d % w == 0
    | .strand, .sca => d < 192 && (w != 4 || d % 2 == 0)
    | .gaffer, _ => d < 64 && (w != 4 || d % 2 == 0)
  | .pred => d < 8
  | .bank => d < 128
  | .spair => d < 192 && d % 2 == 0
  | .quad => d % 4 == 0 && d + 3 < vr

/-- What the decoder knows while it reads one word. -/
structure Dec where
  cls : Cls
  vr : Nat
  form : Form
  raw : Raw
deriving DecidableEq, Repr

namespace Dec
/-- The fields common to every word. -/
def head (p : Dec) : Head := ⟨⟨p.raw.g1n, p.raw.g1p⟩, ⟨p.raw.g2n, p.raw.g2p⟩, p.raw.k, p.raw.d⟩
/-- Source A. -/
def a (p : Dec) : Src := Src.ofBits p.cls p.raw.a
/-- Source B. -/
def b (p : Dec) : Src := Src.ofBits p.cls p.raw.b
/-- Source C. -/
def c (p : Dec) : Src := Src.ofBits p.cls p.raw.c
/-- Source B where it is optional. -/
def bOpt (p : Dec) : Option Src := Src.ofBitsOpt p.cls p.raw.b
/-- R312: the wide immediate. -/
def wide (p : Dec) : BitVec 24 := BitVec.ofNat 24 (p.raw.b * 4096 + p.raw.c)
/-- The modifier field. -/
def m (p : Dec) (hi lo : Nat) : Nat := nbits p.raw.c hi lo
/-- The two forms of a mnemonic. -/
def pick (p : Dec) (v s : Instr) : Instr := if p.form.isVec then v else s

/-- R315 order 2: the offending bits of the destination field. -/
def dstBad (p : Dec) (dk : DstKind) : List (Option Nat) :=
  [need (!p.raw.k || !dk.noK) 46,
   match dk with
   | .none => (zf p.raw.d 9 0).map (· + 36)
   | _ => none]

/-- R315: reserved fields first, by the lowest offending bit, then the ranges in field order, else the
instruction. -/
def finish (p : Dec) (dk : DstKind) (ak bk ck : FieldKind) (bad : List (Option Nat)) (i : Instr) :
    Except DecErr Instr :=
  let all := (p.dstBad dk ++ [(ak.bad p.raw.a).map (· + 24), (bk.bad p.raw.b).map (· + 12), ck.bad p.raw.c] ++ bad).reduceOption
  match all with
  | b :: bs => .error (.reservedField (bs.foldl min b))
  | [] =>
    if !dk.inRange p.cls p.form p.vr p.raw.d then .error (.operandRange 0 p.raw.d)
    else if !ak.inRange p.cls p.form p.vr p.raw.a then .error (.operandRange 1 p.raw.a)
    else if !bk.inRange p.cls p.form p.vr p.raw.b then .error (.operandRange 2 p.raw.b)
    else if !ck.inRange p.cls p.form p.vr p.raw.c then .error (.operandRange 3 p.raw.c)
    else .ok i
end Dec

/-- R409: the ordered channel in C[4:0]. -/
def ochOf (c : Nat) : Option Nat := if nbits c 4 4 = 1 then some (nbits c 3 0) else none
/-- R409: CH is 0 when OC is 0. -/
def ochBad (c : Nat) : Option Nat := if nbits c 4 4 = 1 then none else zf c 3 0
/-- R409: the bits of an ordered channel. -/
def ochBits : Option Nat → Nat
  | none => 0
  | some ch => 16 + ch

/-! ### The opcode map (R313) -/

/-- R313: the mnemonics of the opcode map. -/
inductive Op where
  | nop | br | bru | brx | call | callx | ret | join | exit | yield
  | trap | rte | sysrd | syswr | sleep | safept | brkpt | iadd | isub | iaddc
  | ineg | imul | imulh | imad | imadwI32 | imadwN32 | idiv | irem | imin | imax
  | iabs | icmp | sel | mov | movi | movh | and | or | xor | andn
  | shl | shr | sar | shf | bfx | bfi | popc | clz | brev | perm
  | lea | sxt | plop | p2v | v2p | fadd | fsub | fmul | ffma | fmin
  | fmax | fabs | fneg | fcmp | fclass | frnd | fcvt | f2i | i2f | fscale
  | fgetexp | frcp | frsq | fsqrt | fdiv | fexp2 | flog2 | fsin | fcos | ftanh
  | hadd2 | hmul2 | hfma2F16 | hfma2Bf16 | hmin2 | hmax2 | rnenc | rndec | vote | shfl
  | redux | scan | match | ld | st | lds | sts | ldx | stx | ldc
  | stsb | prf | atom | atoms | red | cctl | seal | unseal | fence | monitor
  | mwait | bararr | barwait | barsync | barinit | attach | detach | grpq | put | get
  | ratom | rred | notify | ochopen | ochclose | rfence | mma | mmasp | mvm | amalloc
  | amfree | amgrant | amld | amst | amdrain | amzero | chput | chadv | chseq | spawn
  | joindec | pushdq | popdq | dqstat
deriving DecidableEq, Repr

/-- R313, R314: the runs of the map, each from its first opcode, in slot order, with the form of the run. -/
def opBanks : List (Nat × List (Op × Form)) := [
  (0x001, [(.nop, .vec), (.br, .vec), (.bru, .vec), (.brx, .vec), (.call, .vec), (.callx, .vec),
    (.ret, .vec), (.join, .vec), (.exit, .vec), (.yield, .sca), (.trap, .sca), (.rte, .sca),
    (.sysrd, .sca), (.syswr, .sca), (.sleep, .sca), (.safept, .sca), (.brkpt, .sca)]),
  (0x040, [(.iadd, .vec), (.isub, .vec), (.iaddc, .vec), (.ineg, .vec), (.imul, .vec), (.imulh, .vec),
    (.imad, .vec), (.imadwI32, .vec), (.imadwN32, .vec), (.idiv, .vec), (.irem, .vec), (.imin, .vec),
    (.imax, .vec), (.iabs, .vec), (.icmp, .vec), (.sel, .vec), (.mov, .vec), (.movi, .vec),
    (.movh, .vec), (.and, .vec), (.or, .vec), (.xor, .vec), (.andn, .vec), (.shl, .vec),
    (.shr, .vec), (.sar, .vec), (.shf, .vec), (.bfx, .vec), (.bfi, .vec), (.popc, .vec),
    (.clz, .vec), (.brev, .vec), (.perm, .vec), (.lea, .vec), (.sxt, .vec), (.plop, .vec),
    (.p2v, .vec), (.v2p, .vec)]),
  (0x080, [(.iadd, .sca), (.isub, .sca), (.iaddc, .sca), (.ineg, .sca), (.imul, .sca), (.imulh, .sca),
    (.imad, .sca), (.imadwI32, .sca), (.imadwN32, .sca), (.idiv, .sca), (.irem, .sca), (.imin, .sca),
    (.imax, .sca), (.iabs, .sca), (.icmp, .sca), (.sel, .sca), (.mov, .sca), (.movi, .sca),
    (.movh, .sca), (.and, .sca), (.or, .sca), (.xor, .sca), (.andn, .sca), (.shl, .sca),
    (.shr, .sca), (.sar, .sca), (.shf, .sca), (.bfx, .sca), (.bfi, .sca), (.popc, .sca),
    (.clz, .sca), (.brev, .sca), (.perm, .sca), (.lea, .sca), (.sxt, .sca), (.plop, .sca),
    (.p2v, .sca), (.v2p, .sca)]),
  (0x0C0, [(.fadd, .vec), (.fsub, .vec), (.fmul, .vec), (.ffma, .vec), (.fmin, .vec), (.fmax, .vec),
    (.fabs, .vec), (.fneg, .vec), (.fcmp, .vec), (.fclass, .vec), (.frnd, .vec), (.fcvt, .vec),
    (.f2i, .vec), (.i2f, .vec), (.fscale, .vec), (.fgetexp, .vec), (.frcp, .vec), (.frsq, .vec),
    (.fsqrt, .vec), (.fdiv, .vec), (.fexp2, .vec), (.flog2, .vec), (.fsin, .vec), (.fcos, .vec),
    (.ftanh, .vec), (.hadd2, .vec), (.hmul2, .vec), (.hfma2F16, .vec), (.hfma2Bf16, .vec), (.hmin2, .vec),
    (.hmax2, .vec), (.rnenc, .vec), (.rndec, .vec)]),
  (0x100, [(.fadd, .sca), (.fsub, .sca), (.fmul, .sca), (.ffma, .sca), (.fmin, .sca), (.fmax, .sca),
    (.fabs, .sca), (.fneg, .sca), (.fcmp, .sca), (.fclass, .sca), (.frnd, .sca), (.fcvt, .sca),
    (.f2i, .sca), (.i2f, .sca), (.fscale, .sca), (.fgetexp, .sca), (.frcp, .sca), (.frsq, .sca),
    (.fsqrt, .sca), (.fdiv, .sca), (.fexp2, .sca), (.flog2, .sca), (.fsin, .sca), (.fcos, .sca),
    (.ftanh, .sca), (.hadd2, .sca), (.hmul2, .sca), (.hfma2F16, .sca), (.hfma2Bf16, .sca), (.hmin2, .sca),
    (.hmax2, .sca), (.rnenc, .sca), (.rndec, .sca)]),
  (0x140, [(.vote, .vec), (.shfl, .vec), (.redux, .vec), (.scan, .vec), (.match, .vec)]),
  (0x160, [(.ld, .vec), (.st, .vec), (.lds, .vec), (.sts, .vec), (.ldx, .vec), (.stx, .vec),
    (.ldc, .vec), (.stsb, .vec), (.prf, .vec), (.atom, .vec), (.atoms, .vec), (.red, .vec)]),
  (0x170, [(.ld, .sca), (.st, .sca), (.lds, .sca), (.sts, .sca), (.ldx, .sca), (.stx, .sca),
    (.ldc, .sca), (.stsb, .sca), (.prf, .sca), (.atom, .sca), (.atoms, .sca), (.red, .sca)]),
  (0x180, [(.cctl, .sca), (.seal, .sca), (.unseal, .sca), (.fence, .sca), (.monitor, .sca), (.mwait, .sca)]),
  (0x190, [(.bararr, .sca), (.barwait, .sca), (.barsync, .sca), (.barinit, .sca), (.attach, .sca), (.detach, .sca),
    (.grpq, .sca)]),
  (0x1A0, [(.put, .vec), (.get, .sca), (.ratom, .vec), (.rred, .vec), (.notify, .sca), (.ochopen, .sca),
    (.ochclose, .sca), (.rfence, .sca)]),
  (0x1C0, [(.mma, .sca), (.mmasp, .sca), (.mvm, .sca)]),
  (0x1C8, [(.amalloc, .sca), (.amfree, .sca), (.amgrant, .sca), (.amld, .vec), (.amst, .vec), (.amdrain, .sca),
    (.amzero, .sca)]),
  (0x1D0, [(.chput, .sca), (.chadv, .sca), (.chseq, .sca)]),
  (0x1D8, [(.spawn, .sca), (.joindec, .sca)]),
  (0x1E0, [(.pushdq, .sca), (.popdq, .sca), (.dqstat, .sca)])]

/-- R313: the mnemonic and form of an opcode; none for a reserved slot. -/
def opEntry (opc : Nat) : Option (Op × Form) :=
  opBanks.findSome? fun b => if b.1 ≤ opc then b.2[opc - b.1]? else none

/-- R314: the engine classes that may execute an entry. -/
def Op.runsIn (o : Op) (f : Form) (cls : Cls) : Bool :=
  match cls, o with
  | .strand, .pushdq => false
  | .strand, _ => true
  | .gaffer, .nop | .gaffer, .br | .gaffer, .bru | .gaffer, .brx | .gaffer, .call | .gaffer, .callx | .gaffer, .ret
  | .gaffer, .join | .gaffer, .exit => true
  | .gaffer, .bararr | .gaffer, .barwait | .gaffer, .barsync | .gaffer, .barinit | .gaffer, .detach => false
  | .gaffer, .get | .gaffer, .notify | .gaffer, .ochopen | .gaffer, .ochclose | .gaffer, .rfence => false
  | .gaffer, .amdrain | .gaffer, .amzero | .gaffer, .popdq => false
  | .gaffer, _ => f == .sca

/-! ### One entry at a time -/

/-- The layout of each entry: its destination kind, its source kinds, its modifier checks and its instruction
(R331, R347, R361, R378, R386, R389, R392, R394, R396 to R409, R420, R426, R434, R437 to R440). -/
def parse (p : Dec) (o : Op) : Except DecErr Instr :=
  match o with
  | .nop =>
    p.finish .none .zero .zero .own [zf p.raw.c 11 0]
      (.nop p.head)
  | .br =>
    p.finish .none .zero .own .own []
      (.br p.head p.wide)
  | .bru =>
    p.finish .none .zero .own .own []
      (.bru p.head p.wide)
  | .brx =>
    p.finish .none (.is (.src 1)) .zero .own [zf p.raw.c 11 0]
      (.brx p.head p.a)
  | .call =>
    p.finish (.reg 1) .zero .own .own []
      (.call p.head p.wide)
  | .callx =>
    p.finish (.reg 1) (.is (.src 1)) .zero .own [zf p.raw.c 11 0]
      (.callx p.head p.a)
  | .ret =>
    p.finish .none (.is (.src 1)) .zero .own [zf p.raw.c 11 0]
      (.ret p.head p.a)
  | .join =>
    p.finish .none .zero .own .own []
      (.join p.head p.wide)
  | .exit =>
    p.finish .none .zero .zero .own [zf p.raw.c 11 0]
      (.exit p.head)
  | .yield =>
    let n := p.m 9 0
    p.finish .none .zero .zero .own [zf p.raw.c 11 10]
      (.yield p.head n)
  | .trap =>
    p.finish .none (.is (.src 1)) .zero .own [zf p.raw.c 11 0]
      (.trap p.head p.a)
  | .rte =>
    p.finish .none .zero .zero .own [zf p.raw.c 11 0]
      (.rte p.head)
  | .sysrd =>
    let reg := p.m 7 0
    p.finish (.reg 1) .zero .zero .own [zf p.raw.c 11 8, need (sysNumber reg) 0]
      (.sysrd p.head reg)
  | .syswr =>
    let reg := p.m 7 0
    p.finish .none (.is (.src 1)) .zero .own [zf p.raw.c 11 8, need (sysNumber reg) 0]
      (match reg with
       | 0x11 => .syswrEpc p.head p.a
       | 0x13 => .syswrFstat p.head p.a
       | 0x14 => .syswrAmstat p.head p.a
       | _ => .syswr p.head reg p.a)
  | .sleep =>
    p.finish .none (.is (.src 1)) .zero .own [zf p.raw.c 11 0]
      (.sleep p.head p.a)
  | .safept =>
    let id := p.m 11 0
    p.finish .none .zero .zero .own []
      (.safept p.head id)
  | .brkpt =>
    let code := p.m 9 0
    p.finish .none .zero .zero .own [zf p.raw.c 11 10]
      (.brkpt p.head code)
  | .iadd =>
    let ty := Ty.ofCode (p.m 11 8)
    let sat := p.m 0 0 == 1
    p.finish (.reg ty.words) (.is (.src ty.words)) (.is (.src ty.words)) .own [need ty.isW 8, zf p.raw.c 7 5, zf p.raw.c 4 1]
      (p.pick (.iaddVector p.head ty sat p.a p.b) (.iaddScalar p.head ty sat p.a p.b))
  | .isub =>
    let ty := Ty.ofCode (p.m 11 8)
    let sat := p.m 0 0 == 1
    p.finish (.reg ty.words) (.is (.src ty.words)) (.is (.src ty.words)) .own [need ty.isW 8, zf p.raw.c 7 5, zf p.raw.c 4 1]
      (p.pick (.isubVector p.head ty sat p.a p.b) (.isubScalar p.head ty sat p.a p.b))
  | .iaddc =>
    let ty := Ty.ofCode (p.m 11 8)
    let co := p.m 7 5
    let cie := p.m 3 3 == 1
    let ci := p.m 2 0
    p.finish (.reg ty.words) (.is (.src ty.words)) (.is (.src ty.words)) .own [need ty.isW 8, zf p.raw.c 4 4]
      (p.pick (.iaddcVector p.head ty co cie ci p.a p.b) (.iaddcScalar p.head ty co cie ci p.a p.b))
  | .ineg =>
    let ty := Ty.ofCode (p.m 11 8)
    let sat := p.m 0 0 == 1
    p.finish (.reg ty.words) (.is (.src ty.words)) .zero .own [need ty.isW 8, zf p.raw.c 7 5, zf p.raw.c 4 1, need (!sat || ty.signed) 0]
      (p.pick (.inegVector p.head ty sat p.a) (.inegScalar p.head ty sat p.a))
  | .imul =>
    let ty := Ty.ofCode (p.m 11 8)
    p.finish (.reg ty.words) (.is (.src ty.words)) (.is (.src ty.words)) .own [need ty.isW 8, zf p.raw.c 7 5, zf p.raw.c 4 0]
      (p.pick (.imulVector p.head ty p.a p.b) (.imulScalar p.head ty p.a p.b))
  | .imulh =>
    let ty := Ty.ofCode (p.m 11 8)
    p.finish (.reg ty.words) (.is (.src ty.words)) (.is (.src ty.words)) .own [need ty.isW 8, zf p.raw.c 7 5, zf p.raw.c 4 0]
      (p.pick (.imulhVector p.head ty p.a p.b) (.imulhScalar p.head ty p.a p.b))
  | .imad =>
    p.finish (.reg 1) (.is (.src 1)) (.is (.src 1)) (.is (.src 1)) []
      (p.pick (.imadVector p.head p.a p.b p.c) (.imadScalar p.head p.a p.b p.c))
  | .imadwI32 =>
    p.finish (.reg 2) (.is (.src 1)) (.is (.src 1)) (.is (.src 2)) []
      (p.pick (.imadwI32Vector p.head p.a p.b p.c) (.imadwI32Scalar p.head p.a p.b p.c))
  | .imadwN32 =>
    p.finish (.reg 2) (.is (.src 1)) (.is (.src 1)) (.is (.src 2)) []
      (p.pick (.imadwN32Vector p.head p.a p.b p.c) (.imadwN32Scalar p.head p.a p.b p.c))
  | .idiv =>
    let ty := Ty.ofCode (p.m 11 8)
    p.finish (.reg ty.words) (.is (.src ty.words)) (.is (.src ty.words)) .own [need ty.isW 8, zf p.raw.c 7 5, zf p.raw.c 4 0]
      (p.pick (.idivVector p.head ty p.a p.b) (.idivScalar p.head ty p.a p.b))
  | .irem =>
    let ty := Ty.ofCode (p.m 11 8)
    p.finish (.reg ty.words) (.is (.src ty.words)) (.is (.src ty.words)) .own [need ty.isW 8, zf p.raw.c 7 5, zf p.raw.c 4 0]
      (p.pick (.iremVector p.head ty p.a p.b) (.iremScalar p.head ty p.a p.b))
  | .imin =>
    let ty := Ty.ofCode (p.m 11 8)
    p.finish (.reg ty.words) (.is (.src ty.words)) (.is (.src ty.words)) .own [need ty.isW 8, zf p.raw.c 7 5, zf p.raw.c 4 0]
      (p.pick (.iminVector p.head ty p.a p.b) (.iminScalar p.head ty p.a p.b))
  | .imax =>
    let ty := Ty.ofCode (p.m 11 8)
    p.finish (.reg ty.words) (.is (.src ty.words)) (.is (.src ty.words)) .own [need ty.isW 8, zf p.raw.c 7 5, zf p.raw.c 4 0]
      (p.pick (.imaxVector p.head ty p.a p.b) (.imaxScalar p.head ty p.a p.b))
  | .iabs =>
    let ty := Ty.ofCode (p.m 11 8)
    let sat := p.m 0 0 == 1
    p.finish (.reg ty.words) (.is (.src ty.words)) .zero .own [need ty.isS 8, zf p.raw.c 7 5, zf p.raw.c 4 1]
      (p.pick (.iabsVector p.head ty sat p.a) (.iabsScalar p.head ty sat p.a))
  | .icmp =>
    let ty := Ty.ofCode (p.m 11 8)
    let cond := Cond.ofCode (p.m 4 0)
    p.finish .pred (.is (.src ty.words)) (.is (.src ty.words)) .own [need ty.isW 8, zf p.raw.c 7 5, need (condCode (p.m 4 0)) 0, need cond.isInt 0]
      (p.pick (.icmpVector p.head ty cond p.a p.b) (.icmpScalar p.head ty cond p.a p.b))
  | .sel =>
    let ty := Ty.ofCode (p.m 11 8)
    let neg := p.m 3 3 == 1
    let pr := p.m 2 0
    p.finish (.reg ty.words) (.is (.src ty.words)) (.is (.src ty.words)) .own [need ty.isW 8, zf p.raw.c 7 5, zf p.raw.c 4 4]
      (p.pick (.selVector p.head ty pr neg p.a p.b) (.selScalar p.head ty pr neg p.a p.b))
  | .mov =>
    let ty := Ty.ofCode (p.m 11 8)
    p.finish (.reg ty.words) (.is (.src ty.words)) .zero .own [need ty.isW 8, zf p.raw.c 7 5, zf p.raw.c 4 0]
      (p.pick (.movVector p.head ty p.a) (.movScalar p.head ty p.a))
  | .movi =>
    p.finish (.reg 1) .zero .own .own []
      (p.pick (.moviVector p.head p.wide) (.moviScalar p.head p.wide))
  | .movh =>
    let q := nbits (p.raw.b * 4096 + p.raw.c) 17 16
    let w := BitVec.ofNat 16 (p.raw.b * 4096 + p.raw.c)
    p.finish (.reg 1) (.is (.src 1)) .own .own
      [zf (p.raw.b * 4096 + p.raw.c) 23 18, need (q < 2 || !p.form.isVec) 16]
      (p.pick (.movhVector p.head q w p.a) (.movhScalar p.head q w p.a))
  | .and =>
    let ty := Ty.ofCode (p.m 11 8)
    p.finish (.reg ty.words) (.is (.src ty.words)) (.is (.src ty.words)) .own [need ty.isW 8, zf p.raw.c 7 5, zf p.raw.c 4 0]
      (p.pick (.andVector p.head ty p.a p.b) (.andScalar p.head ty p.a p.b))
  | .or =>
    let ty := Ty.ofCode (p.m 11 8)
    p.finish (.reg ty.words) (.is (.src ty.words)) (.is (.src ty.words)) .own [need ty.isW 8, zf p.raw.c 7 5, zf p.raw.c 4 0]
      (p.pick (.orVector p.head ty p.a p.b) (.orScalar p.head ty p.a p.b))
  | .xor =>
    let ty := Ty.ofCode (p.m 11 8)
    p.finish (.reg ty.words) (.is (.src ty.words)) (.is (.src ty.words)) .own [need ty.isW 8, zf p.raw.c 7 5, zf p.raw.c 4 0]
      (p.pick (.xorVector p.head ty p.a p.b) (.xorScalar p.head ty p.a p.b))
  | .andn =>
    let ty := Ty.ofCode (p.m 11 8)
    p.finish (.reg ty.words) (.is (.src ty.words)) (.is (.src ty.words)) .own [need ty.isW 8, zf p.raw.c 7 5, zf p.raw.c 4 0]
      (p.pick (.andnVector p.head ty p.a p.b) (.andnScalar p.head ty p.a p.b))
  | .shl =>
    let ty := Ty.ofCode (p.m 11 8)
    p.finish (.reg ty.words) (.is (.src ty.words)) (.is (.src ty.words)) .own [need ty.isW 8, zf p.raw.c 7 5, zf p.raw.c 4 0]
      (p.pick (.shlVector p.head ty p.a p.b) (.shlScalar p.head ty p.a p.b))
  | .shr =>
    let ty := Ty.ofCode (p.m 11 8)
    p.finish (.reg ty.words) (.is (.src ty.words)) (.is (.src ty.words)) .own [need ty.isW 8, zf p.raw.c 7 5, zf p.raw.c 4 0]
      (p.pick (.shrVector p.head ty p.a p.b) (.shrScalar p.head ty p.a p.b))
  | .sar =>
    let ty := Ty.ofCode (p.m 11 8)
    p.finish (.reg ty.words) (.is (.src ty.words)) (.is (.src ty.words)) .own [need ty.isW 8, zf p.raw.c 7 5, zf p.raw.c 4 0]
      (p.pick (.sarVector p.head ty p.a p.b) (.sarScalar p.head ty p.a p.b))
  | .shf =>
    p.finish (.reg 1) (.is (.src 1)) (.is (.src 1)) (.is (.src 1)) []
      (p.pick (.shfVector p.head p.a p.b p.c) (.shfScalar p.head p.a p.b p.c))
  | .bfx =>
    let ty := Ty.ofCode (p.m 11 8)
    p.finish (.reg ty.words) (.is (.src ty.words)) (.is (.src ty.words)) .own [need ty.isW 8, zf p.raw.c 7 5, zf p.raw.c 4 0]
      (p.pick (.bfxVector p.head ty p.a p.b) (.bfxScalar p.head ty p.a p.b))
  | .bfi =>
    p.finish (.reg 1) (.is (.src 1)) (.is (.src 1)) (.is (.src 1)) []
      (p.pick (.bfiVector p.head p.a p.b p.c) (.bfiScalar p.head p.a p.b p.c))
  | .popc =>
    let ty := Ty.ofCode (p.m 11 8)
    p.finish (.reg ty.words) (.is (.src ty.words)) .zero .own [need ty.isW 8, zf p.raw.c 7 5, zf p.raw.c 4 0]
      (p.pick (.popcVector p.head ty p.a) (.popcScalar p.head ty p.a))
  | .clz =>
    let ty := Ty.ofCode (p.m 11 8)
    p.finish (.reg ty.words) (.is (.src ty.words)) .zero .own [need ty.isW 8, zf p.raw.c 7 5, zf p.raw.c 4 0]
      (p.pick (.clzVector p.head ty p.a) (.clzScalar p.head ty p.a))
  | .brev =>
    let ty := Ty.ofCode (p.m 11 8)
    p.finish (.reg ty.words) (.is (.src ty.words)) .zero .own [need ty.isW 8, zf p.raw.c 7 5, zf p.raw.c 4 0]
      (p.pick (.brevVector p.head ty p.a) (.brevScalar p.head ty p.a))
  | .perm =>
    p.finish (.reg 1) (.is (.src 1)) (.is (.src 1)) (.is (.src 1)) []
      (p.pick (.permVector p.head p.a p.b p.c) (.permScalar p.head p.a p.b p.c))
  | .lea =>
    let ty := Ty.ofCode (p.m 11 8)
    let sh := p.m 2 0
    p.finish (.reg 2) (.is (.src 2)) (.is (.src ty.words)) .own [need ty.isW 8, zf p.raw.c 7 5, zf p.raw.c 4 3]
      (p.pick (.leaVector p.head ty sh p.a p.b) (.leaScalar p.head ty sh p.a p.b))
  | .sxt =>
    let ty := Ty.ofCode (p.m 11 8)
    let w64 := p.m 0 0 == 1
    p.finish (.reg (if w64 then 2 else 1)) (.is (.src 1)) .zero .own [need ty.isSxt 8, zf p.raw.c 7 5, zf p.raw.c 4 1, need (!w64 || p.form.isVec) 0]
      (p.pick (.sxtVector p.head ty w64 p.a) (.sxtScalar p.head ty w64 p.a))
  | .plop =>
    let pa := nbits p.raw.a 2 0
    let pb := nbits p.raw.b 2 0
    let pc := p.m 10 8
    let lut := BitVec.ofNat 8 (p.m 7 0)
    p.finish .pred .pred .pred .own [zf p.raw.c 11 11]
      (p.pick (.plopVector p.head pa pb pc lut) (.plopScalar p.head pa pb pc lut))
  | .p2v =>
    let mask := BitVec.ofNat 8 (p.m 7 0)
    p.finish (.reg 1) .zero .zero .own [zf p.raw.c 11 8]
      (p.pick (.p2vVector p.head mask) (.p2vScalar p.head mask))
  | .v2p =>
    let n := p.m 5 0
    p.finish .pred (.is (.src 1)) .zero .own [zf p.raw.c 11 6, need (n < 32 || !p.form.isVec) 5]
      (p.pick (.v2pVector p.head n p.a) (.v2pScalar p.head n p.a))
  | .fadd =>
    let ty := Ty.ofCode (p.m 11 8)
    let rnd := Rnd.ofCode (p.m 7 5)
    p.finish (.reg 1) (.is (.src 1)) (.is (.src 1)) .own [need ty.isF3 8, need (p.m 7 5 ≤ 4) 5, zf p.raw.c 4 0]
      (p.pick (.faddVector p.head ty rnd p.a p.b) (.faddScalar p.head ty rnd p.a p.b))
  | .fsub =>
    let ty := Ty.ofCode (p.m 11 8)
    let rnd := Rnd.ofCode (p.m 7 5)
    p.finish (.reg 1) (.is (.src 1)) (.is (.src 1)) .own [need ty.isF3 8, need (p.m 7 5 ≤ 4) 5, zf p.raw.c 4 0]
      (p.pick (.fsubVector p.head ty rnd p.a p.b) (.fsubScalar p.head ty rnd p.a p.b))
  | .fmul =>
    let ty := Ty.ofCode (p.m 11 8)
    let rnd := Rnd.ofCode (p.m 7 5)
    p.finish (.reg 1) (.is (.src 1)) (.is (.src 1)) .own [need ty.isF3 8, need (p.m 7 5 ≤ 4) 5, zf p.raw.c 4 0]
      (p.pick (.fmulVector p.head ty rnd p.a p.b) (.fmulScalar p.head ty rnd p.a p.b))
  | .ffma =>
    p.finish (.reg 1) (.is (.src 1)) (.is (.src 1)) (.is (.src 1)) []
      (p.pick (.ffmaVector p.head p.a p.b p.c) (.ffmaScalar p.head p.a p.b p.c))
  | .fmin =>
    let ty := Ty.ofCode (p.m 11 8)
    p.finish (.reg 1) (.is (.src 1)) (.is (.src 1)) .own [need ty.isF3 8, zf p.raw.c 7 5, zf p.raw.c 4 0]
      (p.pick (.fminVector p.head ty p.a p.b) (.fminScalar p.head ty p.a p.b))
  | .fmax =>
    let ty := Ty.ofCode (p.m 11 8)
    p.finish (.reg 1) (.is (.src 1)) (.is (.src 1)) .own [need ty.isF3 8, zf p.raw.c 7 5, zf p.raw.c 4 0]
      (p.pick (.fmaxVector p.head ty p.a p.b) (.fmaxScalar p.head ty p.a p.b))
  | .fabs =>
    let ty := Ty.ofCode (p.m 11 8)
    p.finish (.reg 1) (.is (.src 1)) .zero .own [need ty.isF3 8, zf p.raw.c 7 5, zf p.raw.c 4 0]
      (p.pick (.fabsVector p.head ty p.a) (.fabsScalar p.head ty p.a))
  | .fneg =>
    let ty := Ty.ofCode (p.m 11 8)
    p.finish (.reg 1) (.is (.src 1)) .zero .own [need ty.isF3 8, zf p.raw.c 7 5, zf p.raw.c 4 0]
      (p.pick (.fnegVector p.head ty p.a) (.fnegScalar p.head ty p.a))
  | .fcmp =>
    let ty := Ty.ofCode (p.m 11 8)
    let cond := Cond.ofCode (p.m 4 0)
    p.finish .pred (.is (.src 1)) (.is (.src 1)) .own [need ty.isF3 8, zf p.raw.c 7 5, need (condCode (p.m 4 0)) 0]
      (p.pick (.fcmpVector p.head ty cond p.a p.b) (.fcmpScalar p.head ty cond p.a p.b))
  | .fclass =>
    let ty := Ty.ofCode (p.m 11 8)
    let t := ClassTest.ofCode (p.m 3 0)
    let test := if p.m 4 4 = 1 then some t else none
    p.finish (if p.m 4 4 = 1 then .pred else .reg 1) (.is (.src 1)) .zero .own
      [need ty.isF3 8, zf p.raw.c 7 5, need (if p.m 4 4 = 1 then p.m 3 0 ≤ 8 else p.m 3 0 = 0) 0]
      (p.pick (.fclassVector p.head ty test p.a) (.fclassScalar p.head ty test p.a))
  | .frnd =>
    let ty := Ty.ofCode (p.m 11 8)
    let rnd := Rnd.ofCode (p.m 7 5)
    p.finish (.reg 1) (.is (.src 1)) .zero .own [need ty.isF3 8, need (p.m 7 5 ≤ 4) 5, zf p.raw.c 4 0]
      (p.pick (.frndVector p.head ty rnd p.a) (.frndScalar p.head ty rnd p.a))
  | .fcvt =>
    let ty := Ty.ofCode (p.m 11 8)
    let rnd := Rnd.ofCode (p.m 7 5)
    let sat := p.m 4 4 == 1
    let src := Ty.ofCode (p.m 3 0)
    p.finish (.reg 1) (.is (.src 1)) .zero .own [need ty.isFp 8, need (p.m 7 5 ≤ 4) 5, need (src.isFp && src != ty) 0]
      (p.pick (.fcvtVector p.head ty rnd sat src p.a) (.fcvtScalar p.head ty rnd sat src p.a))
  | .f2i =>
    let ty := Ty.ofCode (p.m 11 8)
    let rnd := Rnd.ofCode (p.m 7 5)
    let src := Ty.ofCode (p.m 3 0)
    p.finish (.reg ty.words) (.is (.src 1)) .zero .own [need ty.isInt 8, need (p.m 7 5 ≤ 4) 5, zf p.raw.c 4 4, need src.isF3 0]
      (p.pick (.f2iVector p.head ty rnd src p.a) (.f2iScalar p.head ty rnd src p.a))
  | .i2f =>
    let ty := Ty.ofCode (p.m 11 8)
    let rnd := Rnd.ofCode (p.m 7 5)
    let src := Ty.ofCode (p.m 3 0)
    p.finish (.reg 1) (.is (.src src.words)) .zero .own [need ty.isF3 8, need (p.m 7 5 ≤ 4) 5, zf p.raw.c 4 4, need src.isInt 0]
      (p.pick (.i2fVector p.head ty rnd src p.a) (.i2fScalar p.head ty rnd src p.a))
  | .fscale =>
    let ty := Ty.ofCode (p.m 11 8)
    let rnd := Rnd.ofCode (p.m 7 5)
    p.finish (.reg 1) (.is (.src 1)) (.is (.src 1)) .own [need ty.isF3 8, need (p.m 7 5 ≤ 4) 5, zf p.raw.c 4 0]
      (p.pick (.fscaleVector p.head ty rnd p.a p.b) (.fscaleScalar p.head ty rnd p.a p.b))
  | .fgetexp =>
    let ty := Ty.ofCode (p.m 11 8)
    p.finish (.reg 1) (.is (.src 1)) .zero .own [need ty.isF3 8, zf p.raw.c 7 5, zf p.raw.c 4 0]
      (p.pick (.fgetexpVector p.head ty p.a) (.fgetexpScalar p.head ty p.a))
  | .frcp =>
    let ty := Ty.ofCode (p.m 11 8)
    let rnd := Rnd.ofCode (p.m 7 5)
    p.finish (.reg 1) (.is (.src 1)) .zero .own [need ty.isF3 8, need (p.m 7 5 ≤ 4) 5, zf p.raw.c 4 0]
      (p.pick (.frcpVector p.head ty rnd p.a) (.frcpScalar p.head ty rnd p.a))
  | .frsq =>
    let ty := Ty.ofCode (p.m 11 8)
    p.finish (.reg 1) (.is (.src 1)) .zero .own [need ty.isF3 8, zf p.raw.c 7 5, zf p.raw.c 4 0]
      (p.pick (.frsqVector p.head ty p.a) (.frsqScalar p.head ty p.a))
  | .fsqrt =>
    let ty := Ty.ofCode (p.m 11 8)
    let rnd := Rnd.ofCode (p.m 7 5)
    p.finish (.reg 1) (.is (.src 1)) .zero .own [need ty.isF3 8, need (p.m 7 5 ≤ 4) 5, zf p.raw.c 4 0]
      (p.pick (.fsqrtVector p.head ty rnd p.a) (.fsqrtScalar p.head ty rnd p.a))
  | .fdiv =>
    let ty := Ty.ofCode (p.m 11 8)
    let rnd := Rnd.ofCode (p.m 7 5)
    p.finish (.reg 1) (.is (.src 1)) (.is (.src 1)) .own [need ty.isF3 8, need (p.m 7 5 ≤ 4) 5, zf p.raw.c 4 0]
      (p.pick (.fdivVector p.head ty rnd p.a p.b) (.fdivScalar p.head ty rnd p.a p.b))
  | .fexp2 =>
    let ty := Ty.ofCode (p.m 11 8)
    p.finish (.reg 1) (.is (.src 1)) .zero .own [need ty.isF3 8, zf p.raw.c 7 5, zf p.raw.c 4 0]
      (p.pick (.fexp2Vector p.head ty p.a) (.fexp2Scalar p.head ty p.a))
  | .flog2 =>
    let ty := Ty.ofCode (p.m 11 8)
    p.finish (.reg 1) (.is (.src 1)) .zero .own [need ty.isF3 8, zf p.raw.c 7 5, zf p.raw.c 4 0]
      (p.pick (.flog2Vector p.head ty p.a) (.flog2Scalar p.head ty p.a))
  | .fsin =>
    let ty := Ty.ofCode (p.m 11 8)
    p.finish (.reg 1) (.is (.src 1)) .zero .own [need ty.isF3 8, zf p.raw.c 7 5, zf p.raw.c 4 0]
      (p.pick (.fsinVector p.head ty p.a) (.fsinScalar p.head ty p.a))
  | .fcos =>
    let ty := Ty.ofCode (p.m 11 8)
    p.finish (.reg 1) (.is (.src 1)) .zero .own [need ty.isF3 8, zf p.raw.c 7 5, zf p.raw.c 4 0]
      (p.pick (.fcosVector p.head ty p.a) (.fcosScalar p.head ty p.a))
  | .ftanh =>
    let ty := Ty.ofCode (p.m 11 8)
    p.finish (.reg 1) (.is (.src 1)) .zero .own [need ty.isF3 8, zf p.raw.c 7 5, zf p.raw.c 4 0]
      (p.pick (.ftanhVector p.head ty p.a) (.ftanhScalar p.head ty p.a))
  | .hadd2 =>
    let ty := Ty.ofCode (p.m 11 8)
    let rnd := Rnd.ofCode (p.m 7 5)
    let negb := p.m 0 0 == 1
    p.finish (.reg 1) (.is (.src 1)) (.is (.src 1)) .own [need ty.isH2 8, need (p.m 7 5 ≤ 4) 5, zf p.raw.c 4 1]
      (p.pick (.hadd2Vector p.head ty rnd negb p.a p.b) (.hadd2Scalar p.head ty rnd negb p.a p.b))
  | .hmul2 =>
    let ty := Ty.ofCode (p.m 11 8)
    let rnd := Rnd.ofCode (p.m 7 5)
    p.finish (.reg 1) (.is (.src 1)) (.is (.src 1)) .own [need ty.isH2 8, need (p.m 7 5 ≤ 4) 5, zf p.raw.c 4 0]
      (p.pick (.hmul2Vector p.head ty rnd p.a p.b) (.hmul2Scalar p.head ty rnd p.a p.b))
  | .hfma2F16 =>
    p.finish (.reg 1) (.is (.src 1)) (.is (.src 1)) (.is (.src 1)) []
      (p.pick (.hfma2F16Vector p.head p.a p.b p.c) (.hfma2F16Scalar p.head p.a p.b p.c))
  | .hfma2Bf16 =>
    p.finish (.reg 1) (.is (.src 1)) (.is (.src 1)) (.is (.src 1)) []
      (p.pick (.hfma2Bf16Vector p.head p.a p.b p.c) (.hfma2Bf16Scalar p.head p.a p.b p.c))
  | .hmin2 =>
    let ty := Ty.ofCode (p.m 11 8)
    p.finish (.reg 1) (.is (.src 1)) (.is (.src 1)) .own [need ty.isH2 8, zf p.raw.c 7 5, zf p.raw.c 4 0]
      (p.pick (.hmin2Vector p.head ty p.a p.b) (.hmin2Scalar p.head ty p.a p.b))
  | .hmax2 =>
    let ty := Ty.ofCode (p.m 11 8)
    p.finish (.reg 1) (.is (.src 1)) (.is (.src 1)) .own [need ty.isH2 8, zf p.raw.c 7 5, zf p.raw.c 4 0]
      (p.pick (.hmax2Vector p.head ty p.a p.b) (.hmax2Scalar p.head ty p.a p.b))
  | .rnenc =>
    let sat := p.m 0 0 == 1
    p.finish (.reg 1) (.is (.src 1)) .zero .own [zf p.raw.c 11 1]
      (p.pick (.rnencVector p.head sat p.a) (.rnencScalar p.head sat p.a))
  | .rndec =>
    p.finish (.reg 1) (.is (.src 1)) .zero .own [zf p.raw.c 11 0]
      (p.pick (.rndecVector p.head p.a) (.rndecScalar p.head p.a))
  | .vote =>
    let mode := VoteMode.ofCode (p.m 1 0)
    let neg := p.m 2 2 == 1
    p.finish (if mode = .ballot then .reg 1 else .pred) .pred .zero .own [need (p.m 11 8 = 0) 8, zf p.raw.c 7 3]
      (.vote p.head mode neg (nbits p.raw.a 2 0))
  | .shfl =>
    let ty := Ty.ofCode (p.m 11 8)
    let lg := p.m 4 2
    let mode := ShflMode.ofCode (p.m 1 0)
    p.finish (.reg ty.words) (.is (.src ty.words)) (.is (.src 1)) .own [need ty.isN 8, zf p.raw.c 7 5, need (lg ≤ 5) 2]
      (.shfl p.head ty mode lg p.a p.b)
  | .redux =>
    let ty := Ty.ofCode (p.m 11 8)
    let rnd := Rnd.ofCode (p.m 7 5)
    let op := AOp.ofCode (p.m 2 0)
    p.finish (.reg ty.words) (.is (.src ty.words)) .zero .own [need ty.isAtom 8, (if (ty == .f32 && op == .add) then need (p.m 7 5 ≤ 4) 5 else zf p.raw.c 7 5), zf p.raw.c 4 3, need (op.isRed && (ty != .f32 || op.isRedF)) 0]
      (.redux p.head ty rnd op p.a)
  | .scan =>
    let ty := Ty.ofCode (p.m 11 8)
    let rnd := Rnd.ofCode (p.m 7 5)
    let excl := p.m 3 3 == 1
    let op := AOp.ofCode (p.m 2 0)
    p.finish (.reg ty.words) (.is (.src ty.words)) .zero .own [need ty.isAtom 8, (if (ty == .f32 && op == .add) then need (p.m 7 5 ≤ 4) 5 else zf p.raw.c 7 5), zf p.raw.c 4 4, need (op.isRed && (ty != .f32 || op.isRedF)) 0]
      (.scan p.head ty rnd op excl p.a)
  | .match =>
    let ty := Ty.ofCode (p.m 11 8)
    p.finish (.reg 1) (.is (.src ty.words)) .zero .own [need ty.isN 8, zf p.raw.c 7 5, zf p.raw.c 4 0]
      (.match p.head ty p.a)
  | .ld =>
    let ty := Ty.ofCode (p.m 11 8)
    let ord := Ord.ofCode (p.m 7 6)
    let x2 := p.m 5 5 == 1
    let ofs := p.m 4 0
    p.finish (.reg (if x2 then 4 else ty.words)) (.is (.base 1)) (.is (.src 1)) .own [need ty.isInt 8, need ord.isLoad 6, need (!x2 || ty.words == 2) 5]
      (p.pick (.ldVector p.head ty ord x2 ofs p.a p.b) (.ldScalar p.head ty ord x2 ofs p.a p.b))
  | .st =>
    let ty := Ty.ofCode (p.m 11 8)
    let ord := Ord.ofCode (p.m 7 6)
    let x2 := p.m 5 5 == 1
    let ofs := p.m 4 0
    p.finish (.data (if x2 then 4 else ty.words)) (.is (.base 1)) (.is (.src 1)) .own [need ty.isInt 8, need ord.isStore 6, need (!x2 || ty.words == 2) 5]
      (p.pick (.stVector p.head ty ord x2 ofs p.a p.b) (.stScalar p.head ty ord x2 ofs p.a p.b))
  | .lds =>
    let ty := Ty.ofCode (p.m 11 8)
    let ord := Ord.ofCode (p.m 7 6)
    let x2 := p.m 5 5 == 1
    let ofs := p.m 4 0
    p.finish (.reg (if x2 then 4 else ty.words)) (.is (.base 1)) (.is (.src 1)) .own [need ty.isInt 8, need ord.isLoad 6, need (!x2 || ty.words == 2) 5]
      (p.pick (.ldsVector p.head ty ord x2 ofs p.a p.b) (.ldsScalar p.head ty ord x2 ofs p.a p.b))
  | .sts =>
    let ty := Ty.ofCode (p.m 11 8)
    let ord := Ord.ofCode (p.m 7 6)
    let x2 := p.m 5 5 == 1
    let ofs := p.m 4 0
    p.finish (.data (if x2 then 4 else ty.words)) (.is (.base 1)) (.is (.src 1)) .own [need ty.isInt 8, need ord.isStore 6, need (!x2 || ty.words == 2) 5]
      (p.pick (.stsVector p.head ty ord x2 ofs p.a p.b) (.stsScalar p.head ty ord x2 ofs p.a p.b))
  | .ldx =>
    let ty := Ty.ofCode (p.m 11 8)
    let ord := Ord.ofCode (p.m 7 6)
    let x2 := p.m 5 5 == 1
    let q := p.m 4 3
    let ofs := p.m 2 0
    p.finish (.reg (if x2 then 4 else ty.words)) (.is (.base 1)) (.is (.src 1)) .own [need ty.isInt 8, need ord.isLoad 6, need (!x2 || ty.words == 2) 5]
      (p.pick (.ldxVector p.head ty ord x2 q ofs p.a p.b) (.ldxScalar p.head ty ord x2 q ofs p.a p.b))
  | .stx =>
    let ty := Ty.ofCode (p.m 11 8)
    let ord := Ord.ofCode (p.m 7 6)
    let x2 := p.m 5 5 == 1
    let q := p.m 4 3
    let ofs := p.m 2 0
    p.finish (.data (if x2 then 4 else ty.words)) (.is (.base 1)) (.is (.src 1)) .own [need ty.isInt 8, need ord.isStore 6, need (!x2 || ty.words == 2) 5]
      (p.pick (.stxVector p.head ty ord x2 q ofs p.a p.b) (.stxScalar p.head ty ord x2 q ofs p.a p.b))
  | .ldc =>
    let ty := Ty.ofCode (p.m 11 8)
    let ord := Ord.ofCode (p.m 7 6)
    let x2 := p.m 5 5 == 1
    let ofs := p.m 4 0
    p.finish (.reg (if x2 then 4 else ty.words)) (.is (.base 1)) (.is (.src 1)) .own [need ty.isInt 8, need ord.isPlain 6, need (!x2 || ty.words == 2) 5]
      (p.pick (.ldcVector p.head ty ord x2 ofs p.a p.b) (.ldcScalar p.head ty ord x2 ofs p.a p.b))
  | .stsb =>
    if p.m 11 8 = 7 then
      let ord := Ord.ofCode (p.m 7 6)
      let ofs := p.m 4 0
      p.finish (.data 2) (.is (.base 1)) (.is (.src 2)) .own [need ord.isStore 6, zf p.raw.c 5 5]
        (p.pick (.stsbMaskVector p.head ord ofs p.a p.b) (.stsbMaskScalar p.head ord ofs p.a p.b))
    else
      let ty := Ty.ofCode (p.m 11 8)
      let ord := Ord.ofCode (p.m 7 6)
      let ofs := p.m 4 0
      p.finish (.data 1) (.is (.base 1)) (.is (.src 1)) .own [need ty.isSub 8, need ord.isStore 6, zf p.raw.c 5 5]
        (p.pick (.stsbElementVector p.head ty ord ofs p.a p.b) (.stsbElementScalar p.head ty ord ofs p.a p.b))
  | .prf =>
    let ty := Ty.ofCode (p.m 11 8)
    let ord := Ord.ofCode (p.m 7 6)
    let x2 := p.m 5 5 == 1
    let ofs := p.m 4 0
    p.finish .none (.is (.base 1)) (.is (.src 1)) .own [need ty.isInt 8, need ord.isPlain 6, need (!x2 || ty.words == 2) 5]
      (p.pick (.prfVector p.head ty ord x2 ofs p.a p.b) (.prfScalar p.head ty ord x2 ofs p.a p.b))
  | .atom =>
    let ty := Ty.ofCode (p.m 11 8)
    let ord := Ord.ofCode (p.m 7 6)
    let op := AOp.ofCode (p.m 5 3)
    let ofs := p.m 2 0
    p.finish (.reg ty.words) (.is (.base 2)) (.is (.src ty.words)) .own [need ty.isAtom 8, need (ty != .f32 || op == .add) 3]
      (p.pick (.atomVector p.head ty ord op ofs p.a p.b) (.atomScalar p.head ty ord op ofs p.a p.b))
  | .atoms =>
    let ty := Ty.ofCode (p.m 11 8)
    let ord := Ord.ofCode (p.m 7 6)
    let op := AOp.ofCode (p.m 5 3)
    let ofs := p.m 2 0
    p.finish (.reg ty.words) (.is (.base 1)) (.is (.src ty.words)) .own [need ty.isAtom 8, need (ty != .f32 || op == .add) 3]
      (p.pick (.atomsVector p.head ty ord op ofs p.a p.b) (.atomsScalar p.head ty ord op ofs p.a p.b))
  | .red =>
    let ty := Ty.ofCode (p.m 11 8)
    let ord := Ord.ofCode (p.m 7 6)
    let op := AOp.ofCode (p.m 5 3)
    let ofs := p.m 2 0
    p.finish .none (.is (.base 2)) (.is (.src ty.words)) .own [need ty.isAtom 8, need ord.isStore 6, need (op.isRed && (ty != .f32 || op == .add)) 3]
      (p.pick (.redVector p.head ty ord op ofs p.a p.b) (.redScalar p.head ty ord op ofs p.a p.b))
  | .cctl =>
    let fin (ak : FieldKind) (i : Instr) := p.finish .none ak .zero .own [need (p.m 11 8 = 0) 8, zf p.raw.c 7 2] i
    match p.m 1 0 with
    | 0 => fin .zero (.cctlIinv p.head)
    | 1 => fin .zero (.cctlIinvp p.head)
    | 2 => fin (.is (.src 1)) (.cctlL1inv p.head p.a)
    | _ => fin .zero (.cctlL1all p.head)
  | .seal =>
    p.finish .none (.is (.src 1)) (.is (.src 1)) .own [zf p.raw.c 11 0]
      (.seal p.head p.a p.b)
  | .unseal =>
    p.finish .none (.is (.src 1)) (.is (.src 1)) .own [zf p.raw.c 11 0]
      (.unseal p.head p.a p.b)
  | .fence =>
    p.finish .none .zero .zero .own [need (p.m 11 8 = 0) 8, zf p.raw.c 7 2, need (p.m 1 0 ≠ 0) 0]
      (match p.m 1 0 with
       | 1 => .fenceAcq p.head
       | 2 => .fenceRel p.head
       | _ => .fenceAcqrel p.head)
  | .monitor =>
    p.finish .none (.is (.src 1)) .opt .own [zf p.raw.c 11 0]
      (.monitor p.head p.a p.bOpt)
  | .mwait =>
    p.finish (.reg 1) (.is (.src 1)) .zero .own [zf p.raw.c 11 0]
      (.mwait p.head p.a)
  | .bararr =>
    p.finish (.reg 1) (.is (.src 1)) .zero .own [zf p.raw.c 11 0]
      (.bararr p.head p.a)
  | .barwait =>
    p.finish .none (.is (.src 1)) (.is (.src 1)) .own [zf p.raw.c 11 0]
      (.barwait p.head p.a p.b)
  | .barsync =>
    p.finish .none (.is (.src 1)) .zero .own [zf p.raw.c 11 0]
      (.barsync p.head p.a)
  | .barinit =>
    p.finish .none (.is (.src 1)) (.is (.src 1)) .own [zf p.raw.c 11 0]
      (.barinit p.head p.a p.b)
  | .attach =>
    p.finish (.reg 1) (.is (.src 1)) .zero .own [zf p.raw.c 11 0]
      (.attach p.head p.a)
  | .detach =>
    p.finish .none .zero .zero .own [zf p.raw.c 11 0]
      (.detach p.head)
  | .grpq =>
    let sel := GrpSel.ofCode (p.m 4 0)
    p.finish (.reg 1) (.is (.src 1)) .zero .own [need (p.m 11 8 = 0) 8, zf p.raw.c 7 5, need (p.m 4 0 ≤ 4) 0]
      (.grpq p.head sel p.a)
  | .put =>
    if p.m 7 7 = 1 then
      let scr := p.m 6 6 == 1
      let och := ochOf p.raw.c
      ({ p with form := .sca } : Dec).finish .spair (.is (.base 1)) .opt .own [zf p.raw.c 11 8, zf p.raw.c 5 5, ochBad p.raw.c]
        (.putBlk p.head scr och p.a p.bOpt)
    else
      let ty := Ty.ofCode (p.m 11 8)
      let och := ochOf p.raw.c
      p.finish (.data ty.words) (.is (.base 2)) (.is (.src 1)) .own [need ty.isInt 8, zf p.raw.c 6 5, ochBad p.raw.c]
        (.put p.head ty och p.a p.b)
  | .get =>
    let scr := p.m 6 6 == 1
    let och := ochOf p.raw.c
    p.finish .spair (.is (.base 1)) .opt .own [zf p.raw.c 11 7, zf p.raw.c 5 5, ochBad p.raw.c]
      (.get p.head scr och p.a p.bOpt)
  | .ratom =>
    let ty := Ty.ofCode (p.m 11 8)
    let op := AOp.ofCode (p.m 7 5)
    let och := ochOf p.raw.c
    p.finish (.reg ty.words) (.is (.base 2)) (.is (.src ty.words)) .own [need ty.isW 8, ochBad p.raw.c]
      (.ratom p.head ty op och p.a p.b)
  | .rred =>
    let ty := Ty.ofCode (p.m 11 8)
    let op := AOp.ofCode (p.m 7 5)
    let och := ochOf p.raw.c
    p.finish .none (.is (.base 2)) (.is (.src ty.words)) .own [need ty.isW 8, need op.isRed 5, ochBad p.raw.c]
      (.rred p.head ty op och p.a p.b)
  | .notify =>
    if p.m 7 7 = 1 then
      let och := ochOf p.raw.c
      p.finish .none (.is (.base 1)) (.is (.src 1)) .own [zf p.raw.c 11 8, zf p.raw.c 6 5, ochBad p.raw.c]
        (.notifyRel p.head och p.a p.b)
    else
      let och := ochOf p.raw.c
      p.finish .none (.is (.base 1)) (.is (.src 1)) .own [zf p.raw.c 11 8, zf p.raw.c 6 5, ochBad p.raw.c]
        (.notify p.head och p.a p.b)
  | .ochopen =>
    p.finish .none (.is (.src 1)) (.is (.src 1)) .own [zf p.raw.c 11 0]
      (.ochopen p.head p.a p.b)
  | .ochclose =>
    p.finish .none .zero (.is (.src 1)) .own [zf p.raw.c 11 0]
      (.ochclose p.head p.b)
  | .rfence =>
    p.finish .none .zero .zero .own [zf p.raw.c 11 0]
      (.rfence p.head)
  | .mma =>
    p.finish .bank (.is (.src 1)) (.is (.src 1)) (.is .pair) []
      (.mma p.head p.a p.b p.c)
  | .mmasp =>
    p.finish .bank (.is (.src 1)) (.is (.src 1)) (.is .pair) []
      (.mmasp p.head p.a p.b p.c)
  | .mvm =>
    p.finish .bank (.is (.base 1)) (.is .pair) (.is .pair) []
      (.mvm p.head p.a p.b p.c)
  | .amalloc =>
    p.finish (.reg 1) (.is (.src 1)) .zero .own [zf p.raw.c 11 0]
      (.amalloc p.head p.a)
  | .amfree =>
    p.finish .none .zero .zero .own [zf p.raw.c 11 0]
      (.amfree p.head)
  | .amgrant =>
    let mask := BitVec.ofNat 4 (p.m 3 0)
    p.finish .none (.is (.src 1)) (.is (.src 1)) .own [zf p.raw.c 11 4]
      (.amgrant p.head mask p.a p.b)
  | .amld =>
    let band := p.m 1 0
    p.finish .quad (.is .ssrc) .zero .own [zf p.raw.c 11 2]
      (.amld p.head band p.a)
  | .amst =>
    let band := p.m 1 0
    p.finish .bank (.is .quad) .zero .own [zf p.raw.c 11 2]
      (.amst p.head band p.a)
  | .amdrain =>
    let ty := Ty.ofCode (p.m 11 8)
    let rnd := Rnd.ofCode (p.m 7 5)
    let band := p.m 4 3
    let z := p.m 2 2 == 1
    p.finish .none (.is .pair) (.is (.src 1)) .own [need ty.isDrain 8, (if (ty != .n32 && ty != .f32) then need (p.m 7 5 ≤ 4) 5 else zf p.raw.c 7 5), zf p.raw.c 1 0]
      (.amdrain p.head ty rnd band z p.a p.b)
  | .amzero =>
    let mask := BitVec.ofNat 4 (p.m 3 0)
    p.finish .bank .zero .zero .own [zf p.raw.c 11 4]
      (.amzero p.head mask)
  | .chput =>
    p.finish (.reg 1) (.is (.src 1)) (.is (.src 1)) .own [zf p.raw.c 11 0]
      (.chput p.head p.a p.b)
  | .chadv =>
    p.finish (.reg 1) (.is (.src 1)) (.is (.src 1)) (.is (.src 1)) []
      (.chadv p.head p.a p.b p.c)
  | .chseq =>
    let acq := p.m 2 2 == 1
    let sel := ChSel.ofCode (p.m 1 0)
    p.finish (.reg 1) (.is (.src 1)) .zero .own [need (p.m 11 8 = 0) 8, zf p.raw.c 7 3, need (p.m 1 0 ≤ 2) 0]
      (.chseq p.head acq sel p.a)
  | .spawn =>
    p.finish (.reg 1) (.is (.src 1)) (.is .pair) (.is (.src 1)) []
      (.spawn p.head p.a p.b p.c)
  | .joindec =>
    p.finish .none (.is (.src 1)) (.is (.src 1)) .own [zf p.raw.c 11 0]
      (.joindec p.head p.a p.b)
  | .pushdq =>
    p.finish .none (.is (.src 1)) .zero .own [zf p.raw.c 11 0]
      (.pushdq p.head p.a)
  | .popdq =>
    let pr := p.m 2 0
    p.finish (.reg 1) .zero .zero .own [need (p.m 11 8 = 0) 8, zf p.raw.c 7 3]
      (.popdq p.head pr)
  | .dqstat =>
    p.finish (.reg 1) .zero .zero .own [zf p.raw.c 11 0]
      (.dqstat p.head)

/-- R315: decode one word for an engine class and a vector register count. -/
def decode (cls : Cls) (vr : Nat) (w : W64) : Except DecErr Instr :=
  let r := Raw.ofWord w.toNat
  match opEntry r.opc with
  | none => .error .illegalOpcode
  | some (o, f) => if o.runsIn f cls then parse ⟨cls, vr, f, r⟩ o else .error .illegalOpcode

/-! ### Encoding -/

/-- The word of its fields: opcode, common fields and the three source fields. -/
def Head.raw (h : Head) (opc a b c : Nat) : Raw :=
  ⟨opc, h.g1.neg, h.g1.p, h.g2.neg, h.g2.p, h.k, h.d, a, b, c⟩

/-- The fields of an instruction of the Efgor set; none for an event of the device. -/
def encodeRaw : Instr → Option Raw
  | .iaddVector h ty sat a b => some (h.raw 0x040 a.bits b.bits (ty.code * 256 + sat.toNat))
  | .iaddScalar h ty sat a b => some (h.raw 0x080 a.bits b.bits (ty.code * 256 + sat.toNat))
  | .isubVector h ty sat a b => some (h.raw 0x041 a.bits b.bits (ty.code * 256 + sat.toNat))
  | .isubScalar h ty sat a b => some (h.raw 0x081 a.bits b.bits (ty.code * 256 + sat.toNat))
  | .iaddcVector h ty co cie ci a b => some (h.raw 0x042 a.bits b.bits (ty.code * 256 + co * 32 + cie.toNat * 8 + ci))
  | .iaddcScalar h ty co cie ci a b => some (h.raw 0x082 a.bits b.bits (ty.code * 256 + co * 32 + cie.toNat * 8 + ci))
  | .inegVector h ty sat a => some (h.raw 0x043 a.bits 0 (ty.code * 256 + sat.toNat))
  | .inegScalar h ty sat a => some (h.raw 0x083 a.bits 0 (ty.code * 256 + sat.toNat))
  | .imulVector h ty a b => some (h.raw 0x044 a.bits b.bits (ty.code * 256))
  | .imulScalar h ty a b => some (h.raw 0x084 a.bits b.bits (ty.code * 256))
  | .imulhVector h ty a b => some (h.raw 0x045 a.bits b.bits (ty.code * 256))
  | .imulhScalar h ty a b => some (h.raw 0x085 a.bits b.bits (ty.code * 256))
  | .imadVector h a b c => some (h.raw 0x046 a.bits b.bits c.bits)
  | .imadScalar h a b c => some (h.raw 0x086 a.bits b.bits c.bits)
  | .imadwI32Vector h a b c => some (h.raw 0x047 a.bits b.bits c.bits)
  | .imadwI32Scalar h a b c => some (h.raw 0x087 a.bits b.bits c.bits)
  | .imadwN32Vector h a b c => some (h.raw 0x048 a.bits b.bits c.bits)
  | .imadwN32Scalar h a b c => some (h.raw 0x088 a.bits b.bits c.bits)
  | .idivVector h ty a b => some (h.raw 0x049 a.bits b.bits (ty.code * 256))
  | .idivScalar h ty a b => some (h.raw 0x089 a.bits b.bits (ty.code * 256))
  | .iremVector h ty a b => some (h.raw 0x04A a.bits b.bits (ty.code * 256))
  | .iremScalar h ty a b => some (h.raw 0x08A a.bits b.bits (ty.code * 256))
  | .iminVector h ty a b => some (h.raw 0x04B a.bits b.bits (ty.code * 256))
  | .iminScalar h ty a b => some (h.raw 0x08B a.bits b.bits (ty.code * 256))
  | .imaxVector h ty a b => some (h.raw 0x04C a.bits b.bits (ty.code * 256))
  | .imaxScalar h ty a b => some (h.raw 0x08C a.bits b.bits (ty.code * 256))
  | .iabsVector h ty sat a => some (h.raw 0x04D a.bits 0 (ty.code * 256 + sat.toNat))
  | .iabsScalar h ty sat a => some (h.raw 0x08D a.bits 0 (ty.code * 256 + sat.toNat))
  | .icmpVector h ty cond a b => some (h.raw 0x04E a.bits b.bits (ty.code * 256 + cond.code))
  | .icmpScalar h ty cond a b => some (h.raw 0x08E a.bits b.bits (ty.code * 256 + cond.code))
  | .selVector h ty pr neg a b => some (h.raw 0x04F a.bits b.bits (ty.code * 256 + neg.toNat * 8 + pr))
  | .selScalar h ty pr neg a b => some (h.raw 0x08F a.bits b.bits (ty.code * 256 + neg.toNat * 8 + pr))
  | .movVector h ty a => some (h.raw 0x050 a.bits 0 (ty.code * 256))
  | .movScalar h ty a => some (h.raw 0x090 a.bits 0 (ty.code * 256))
  | .moviVector h w => some (h.raw 0x051 0 (w.toNat / 4096) (w.toNat % 4096))
  | .moviScalar h w => some (h.raw 0x091 0 (w.toNat / 4096) (w.toNat % 4096))
  | .movhVector h q w a => some (h.raw 0x052 a.bits ((q * 65536 + w.toNat) / 4096) ((q * 65536 + w.toNat) % 4096))
  | .movhScalar h q w a => some (h.raw 0x092 a.bits ((q * 65536 + w.toNat) / 4096) ((q * 65536 + w.toNat) % 4096))
  | .andVector h ty a b => some (h.raw 0x053 a.bits b.bits (ty.code * 256))
  | .andScalar h ty a b => some (h.raw 0x093 a.bits b.bits (ty.code * 256))
  | .orVector h ty a b => some (h.raw 0x054 a.bits b.bits (ty.code * 256))
  | .orScalar h ty a b => some (h.raw 0x094 a.bits b.bits (ty.code * 256))
  | .xorVector h ty a b => some (h.raw 0x055 a.bits b.bits (ty.code * 256))
  | .xorScalar h ty a b => some (h.raw 0x095 a.bits b.bits (ty.code * 256))
  | .andnVector h ty a b => some (h.raw 0x056 a.bits b.bits (ty.code * 256))
  | .andnScalar h ty a b => some (h.raw 0x096 a.bits b.bits (ty.code * 256))
  | .shlVector h ty a b => some (h.raw 0x057 a.bits b.bits (ty.code * 256))
  | .shlScalar h ty a b => some (h.raw 0x097 a.bits b.bits (ty.code * 256))
  | .shrVector h ty a b => some (h.raw 0x058 a.bits b.bits (ty.code * 256))
  | .shrScalar h ty a b => some (h.raw 0x098 a.bits b.bits (ty.code * 256))
  | .sarVector h ty a b => some (h.raw 0x059 a.bits b.bits (ty.code * 256))
  | .sarScalar h ty a b => some (h.raw 0x099 a.bits b.bits (ty.code * 256))
  | .shfVector h a b c => some (h.raw 0x05A a.bits b.bits c.bits)
  | .shfScalar h a b c => some (h.raw 0x09A a.bits b.bits c.bits)
  | .bfxVector h ty a b => some (h.raw 0x05B a.bits b.bits (ty.code * 256))
  | .bfxScalar h ty a b => some (h.raw 0x09B a.bits b.bits (ty.code * 256))
  | .bfiVector h a b c => some (h.raw 0x05C a.bits b.bits c.bits)
  | .bfiScalar h a b c => some (h.raw 0x09C a.bits b.bits c.bits)
  | .popcVector h ty a => some (h.raw 0x05D a.bits 0 (ty.code * 256))
  | .popcScalar h ty a => some (h.raw 0x09D a.bits 0 (ty.code * 256))
  | .clzVector h ty a => some (h.raw 0x05E a.bits 0 (ty.code * 256))
  | .clzScalar h ty a => some (h.raw 0x09E a.bits 0 (ty.code * 256))
  | .brevVector h ty a => some (h.raw 0x05F a.bits 0 (ty.code * 256))
  | .brevScalar h ty a => some (h.raw 0x09F a.bits 0 (ty.code * 256))
  | .permVector h a b c => some (h.raw 0x060 a.bits b.bits c.bits)
  | .permScalar h a b c => some (h.raw 0x0A0 a.bits b.bits c.bits)
  | .leaVector h ty sh a b => some (h.raw 0x061 a.bits b.bits (ty.code * 256 + sh))
  | .leaScalar h ty sh a b => some (h.raw 0x0A1 a.bits b.bits (ty.code * 256 + sh))
  | .sxtVector h ty w64 a => some (h.raw 0x062 a.bits 0 (ty.code * 256 + w64.toNat))
  | .sxtScalar h ty w64 a => some (h.raw 0x0A2 a.bits 0 (ty.code * 256 + w64.toNat))
  | .plopVector h pa pb pc lut => some (h.raw 0x063 pa pb (pc * 256 + lut.toNat))
  | .plopScalar h pa pb pc lut => some (h.raw 0x0A3 pa pb (pc * 256 + lut.toNat))
  | .p2vVector h mask => some (h.raw 0x064 0 0 (mask.toNat))
  | .p2vScalar h mask => some (h.raw 0x0A4 0 0 (mask.toNat))
  | .v2pVector h n a => some (h.raw 0x065 a.bits 0 (n))
  | .v2pScalar h n a => some (h.raw 0x0A5 a.bits 0 (n))
  | .faddVector h ty rnd a b => some (h.raw 0x0C0 a.bits b.bits (ty.code * 256 + rnd.code * 32))
  | .faddScalar h ty rnd a b => some (h.raw 0x100 a.bits b.bits (ty.code * 256 + rnd.code * 32))
  | .fsubVector h ty rnd a b => some (h.raw 0x0C1 a.bits b.bits (ty.code * 256 + rnd.code * 32))
  | .fsubScalar h ty rnd a b => some (h.raw 0x101 a.bits b.bits (ty.code * 256 + rnd.code * 32))
  | .fmulVector h ty rnd a b => some (h.raw 0x0C2 a.bits b.bits (ty.code * 256 + rnd.code * 32))
  | .fmulScalar h ty rnd a b => some (h.raw 0x102 a.bits b.bits (ty.code * 256 + rnd.code * 32))
  | .ffmaVector h a b c => some (h.raw 0x0C3 a.bits b.bits c.bits)
  | .ffmaScalar h a b c => some (h.raw 0x103 a.bits b.bits c.bits)
  | .fminVector h ty a b => some (h.raw 0x0C4 a.bits b.bits (ty.code * 256))
  | .fminScalar h ty a b => some (h.raw 0x104 a.bits b.bits (ty.code * 256))
  | .fmaxVector h ty a b => some (h.raw 0x0C5 a.bits b.bits (ty.code * 256))
  | .fmaxScalar h ty a b => some (h.raw 0x105 a.bits b.bits (ty.code * 256))
  | .fabsVector h ty a => some (h.raw 0x0C6 a.bits 0 (ty.code * 256))
  | .fabsScalar h ty a => some (h.raw 0x106 a.bits 0 (ty.code * 256))
  | .fnegVector h ty a => some (h.raw 0x0C7 a.bits 0 (ty.code * 256))
  | .fnegScalar h ty a => some (h.raw 0x107 a.bits 0 (ty.code * 256))
  | .fcmpVector h ty cond a b => some (h.raw 0x0C8 a.bits b.bits (ty.code * 256 + cond.code))
  | .fcmpScalar h ty cond a b => some (h.raw 0x108 a.bits b.bits (ty.code * 256 + cond.code))
  | .fclassVector h ty test a => some (h.raw 0x0C9 a.bits 0 (ty.code * 256 + match test with | none => 0 | some t => 16 + t.code))
  | .fclassScalar h ty test a => some (h.raw 0x109 a.bits 0 (ty.code * 256 + match test with | none => 0 | some t => 16 + t.code))
  | .frndVector h ty rnd a => some (h.raw 0x0CA a.bits 0 (ty.code * 256 + rnd.code * 32))
  | .frndScalar h ty rnd a => some (h.raw 0x10A a.bits 0 (ty.code * 256 + rnd.code * 32))
  | .fcvtVector h ty rnd sat src a => some (h.raw 0x0CB a.bits 0 (ty.code * 256 + rnd.code * 32 + sat.toNat * 16 + src.code))
  | .fcvtScalar h ty rnd sat src a => some (h.raw 0x10B a.bits 0 (ty.code * 256 + rnd.code * 32 + sat.toNat * 16 + src.code))
  | .f2iVector h ty rnd src a => some (h.raw 0x0CC a.bits 0 (ty.code * 256 + rnd.code * 32 + src.code))
  | .f2iScalar h ty rnd src a => some (h.raw 0x10C a.bits 0 (ty.code * 256 + rnd.code * 32 + src.code))
  | .i2fVector h ty rnd src a => some (h.raw 0x0CD a.bits 0 (ty.code * 256 + rnd.code * 32 + src.code))
  | .i2fScalar h ty rnd src a => some (h.raw 0x10D a.bits 0 (ty.code * 256 + rnd.code * 32 + src.code))
  | .fscaleVector h ty rnd a b => some (h.raw 0x0CE a.bits b.bits (ty.code * 256 + rnd.code * 32))
  | .fscaleScalar h ty rnd a b => some (h.raw 0x10E a.bits b.bits (ty.code * 256 + rnd.code * 32))
  | .fgetexpVector h ty a => some (h.raw 0x0CF a.bits 0 (ty.code * 256))
  | .fgetexpScalar h ty a => some (h.raw 0x10F a.bits 0 (ty.code * 256))
  | .frcpVector h ty rnd a => some (h.raw 0x0D0 a.bits 0 (ty.code * 256 + rnd.code * 32))
  | .frcpScalar h ty rnd a => some (h.raw 0x110 a.bits 0 (ty.code * 256 + rnd.code * 32))
  | .frsqVector h ty a => some (h.raw 0x0D1 a.bits 0 (ty.code * 256))
  | .frsqScalar h ty a => some (h.raw 0x111 a.bits 0 (ty.code * 256))
  | .fsqrtVector h ty rnd a => some (h.raw 0x0D2 a.bits 0 (ty.code * 256 + rnd.code * 32))
  | .fsqrtScalar h ty rnd a => some (h.raw 0x112 a.bits 0 (ty.code * 256 + rnd.code * 32))
  | .fdivVector h ty rnd a b => some (h.raw 0x0D3 a.bits b.bits (ty.code * 256 + rnd.code * 32))
  | .fdivScalar h ty rnd a b => some (h.raw 0x113 a.bits b.bits (ty.code * 256 + rnd.code * 32))
  | .fexp2Vector h ty a => some (h.raw 0x0D4 a.bits 0 (ty.code * 256))
  | .fexp2Scalar h ty a => some (h.raw 0x114 a.bits 0 (ty.code * 256))
  | .flog2Vector h ty a => some (h.raw 0x0D5 a.bits 0 (ty.code * 256))
  | .flog2Scalar h ty a => some (h.raw 0x115 a.bits 0 (ty.code * 256))
  | .fsinVector h ty a => some (h.raw 0x0D6 a.bits 0 (ty.code * 256))
  | .fsinScalar h ty a => some (h.raw 0x116 a.bits 0 (ty.code * 256))
  | .fcosVector h ty a => some (h.raw 0x0D7 a.bits 0 (ty.code * 256))
  | .fcosScalar h ty a => some (h.raw 0x117 a.bits 0 (ty.code * 256))
  | .ftanhVector h ty a => some (h.raw 0x0D8 a.bits 0 (ty.code * 256))
  | .ftanhScalar h ty a => some (h.raw 0x118 a.bits 0 (ty.code * 256))
  | .hadd2Vector h ty rnd negb a b => some (h.raw 0x0D9 a.bits b.bits (ty.code * 256 + rnd.code * 32 + negb.toNat))
  | .hadd2Scalar h ty rnd negb a b => some (h.raw 0x119 a.bits b.bits (ty.code * 256 + rnd.code * 32 + negb.toNat))
  | .hmul2Vector h ty rnd a b => some (h.raw 0x0DA a.bits b.bits (ty.code * 256 + rnd.code * 32))
  | .hmul2Scalar h ty rnd a b => some (h.raw 0x11A a.bits b.bits (ty.code * 256 + rnd.code * 32))
  | .hfma2F16Vector h a b c => some (h.raw 0x0DB a.bits b.bits c.bits)
  | .hfma2F16Scalar h a b c => some (h.raw 0x11B a.bits b.bits c.bits)
  | .hfma2Bf16Vector h a b c => some (h.raw 0x0DC a.bits b.bits c.bits)
  | .hfma2Bf16Scalar h a b c => some (h.raw 0x11C a.bits b.bits c.bits)
  | .hmin2Vector h ty a b => some (h.raw 0x0DD a.bits b.bits (ty.code * 256))
  | .hmin2Scalar h ty a b => some (h.raw 0x11D a.bits b.bits (ty.code * 256))
  | .hmax2Vector h ty a b => some (h.raw 0x0DE a.bits b.bits (ty.code * 256))
  | .hmax2Scalar h ty a b => some (h.raw 0x11E a.bits b.bits (ty.code * 256))
  | .rnencVector h sat a => some (h.raw 0x0DF a.bits 0 (sat.toNat))
  | .rnencScalar h sat a => some (h.raw 0x11F a.bits 0 (sat.toNat))
  | .rndecVector h a => some (h.raw 0x0E0 a.bits 0 0)
  | .rndecScalar h a => some (h.raw 0x120 a.bits 0 0)
  | .vote h mode neg pa => some (h.raw 0x140 pa 0 (neg.toNat * 4 + mode.code))
  | .shfl h ty mode lg a b => some (h.raw 0x141 a.bits b.bits (ty.code * 256 + lg * 4 + mode.code))
  | .redux h ty rnd op a => some (h.raw 0x142 a.bits 0 (ty.code * 256 + rnd.code * 32 + op.code))
  | .scan h ty rnd op excl a => some (h.raw 0x143 a.bits 0 (ty.code * 256 + rnd.code * 32 + excl.toNat * 8 + op.code))
  | .match h ty a => some (h.raw 0x144 a.bits 0 (ty.code * 256))
  | .ldVector h ty ord x2 ofs a b => some (h.raw 0x160 a.bits b.bits (ty.code * 256 + ord.code * 64 + x2.toNat * 32 + ofs))
  | .ldScalar h ty ord x2 ofs a b => some (h.raw 0x170 a.bits b.bits (ty.code * 256 + ord.code * 64 + x2.toNat * 32 + ofs))
  | .stVector h ty ord x2 ofs a b => some (h.raw 0x161 a.bits b.bits (ty.code * 256 + ord.code * 64 + x2.toNat * 32 + ofs))
  | .stScalar h ty ord x2 ofs a b => some (h.raw 0x171 a.bits b.bits (ty.code * 256 + ord.code * 64 + x2.toNat * 32 + ofs))
  | .ldsVector h ty ord x2 ofs a b => some (h.raw 0x162 a.bits b.bits (ty.code * 256 + ord.code * 64 + x2.toNat * 32 + ofs))
  | .ldsScalar h ty ord x2 ofs a b => some (h.raw 0x172 a.bits b.bits (ty.code * 256 + ord.code * 64 + x2.toNat * 32 + ofs))
  | .stsVector h ty ord x2 ofs a b => some (h.raw 0x163 a.bits b.bits (ty.code * 256 + ord.code * 64 + x2.toNat * 32 + ofs))
  | .stsScalar h ty ord x2 ofs a b => some (h.raw 0x173 a.bits b.bits (ty.code * 256 + ord.code * 64 + x2.toNat * 32 + ofs))
  | .ldxVector h ty ord x2 q ofs a b => some (h.raw 0x164 a.bits b.bits (ty.code * 256 + ord.code * 64 + x2.toNat * 32 + q * 8 + ofs))
  | .ldxScalar h ty ord x2 q ofs a b => some (h.raw 0x174 a.bits b.bits (ty.code * 256 + ord.code * 64 + x2.toNat * 32 + q * 8 + ofs))
  | .stxVector h ty ord x2 q ofs a b => some (h.raw 0x165 a.bits b.bits (ty.code * 256 + ord.code * 64 + x2.toNat * 32 + q * 8 + ofs))
  | .stxScalar h ty ord x2 q ofs a b => some (h.raw 0x175 a.bits b.bits (ty.code * 256 + ord.code * 64 + x2.toNat * 32 + q * 8 + ofs))
  | .ldcVector h ty ord x2 ofs a b => some (h.raw 0x166 a.bits b.bits (ty.code * 256 + ord.code * 64 + x2.toNat * 32 + ofs))
  | .ldcScalar h ty ord x2 ofs a b => some (h.raw 0x176 a.bits b.bits (ty.code * 256 + ord.code * 64 + x2.toNat * 32 + ofs))
  | .stsbElementVector h ty ord ofs a b => some (h.raw 0x167 a.bits b.bits (ty.code * 256 + ord.code * 64 + ofs))
  | .stsbElementScalar h ty ord ofs a b => some (h.raw 0x177 a.bits b.bits (ty.code * 256 + ord.code * 64 + ofs))
  | .stsbMaskVector h ord ofs a b => some (h.raw 0x167 a.bits b.bits (1792 + ord.code * 64 + ofs))
  | .stsbMaskScalar h ord ofs a b => some (h.raw 0x177 a.bits b.bits (1792 + ord.code * 64 + ofs))
  | .prfVector h ty ord x2 ofs a b => some (h.raw 0x168 a.bits b.bits (ty.code * 256 + ord.code * 64 + x2.toNat * 32 + ofs))
  | .prfScalar h ty ord x2 ofs a b => some (h.raw 0x178 a.bits b.bits (ty.code * 256 + ord.code * 64 + x2.toNat * 32 + ofs))
  | .atomVector h ty ord op ofs a b => some (h.raw 0x169 a.bits b.bits (ty.code * 256 + ord.code * 64 + op.code * 8 + ofs))
  | .atomScalar h ty ord op ofs a b => some (h.raw 0x179 a.bits b.bits (ty.code * 256 + ord.code * 64 + op.code * 8 + ofs))
  | .atomsVector h ty ord op ofs a b => some (h.raw 0x16A a.bits b.bits (ty.code * 256 + ord.code * 64 + op.code * 8 + ofs))
  | .atomsScalar h ty ord op ofs a b => some (h.raw 0x17A a.bits b.bits (ty.code * 256 + ord.code * 64 + op.code * 8 + ofs))
  | .redVector h ty ord op ofs a b => some (h.raw 0x16B a.bits b.bits (ty.code * 256 + ord.code * 64 + op.code * 8 + ofs))
  | .redScalar h ty ord op ofs a b => some (h.raw 0x17B a.bits b.bits (ty.code * 256 + ord.code * 64 + op.code * 8 + ofs))
  | .nop h => some (h.raw 0x001 0 0 0)
  | .br h w => some (h.raw 0x002 0 (w.toNat / 4096) (w.toNat % 4096))
  | .bru h w => some (h.raw 0x003 0 (w.toNat / 4096) (w.toNat % 4096))
  | .brx h a => some (h.raw 0x004 a.bits 0 0)
  | .call h w => some (h.raw 0x005 0 (w.toNat / 4096) (w.toNat % 4096))
  | .callx h a => some (h.raw 0x006 a.bits 0 0)
  | .ret h a => some (h.raw 0x007 a.bits 0 0)
  | .join h w => some (h.raw 0x008 0 (w.toNat / 4096) (w.toNat % 4096))
  | .exit h => some (h.raw 0x009 0 0 0)
  | .yield h n => some (h.raw 0x00A 0 0 (n))
  | .trap h a => some (h.raw 0x00B a.bits 0 0)
  | .rte h => some (h.raw 0x00C 0 0 0)
  | .sysrd h reg => some (h.raw 0x00D 0 0 (reg))
  | .syswr h reg a => some (h.raw 0x00E a.bits 0 reg)
  | .syswrEpc h a => some (h.raw 0x00E a.bits 0 0x11)
  | .syswrFstat h a => some (h.raw 0x00E a.bits 0 0x13)
  | .syswrAmstat h a => some (h.raw 0x00E a.bits 0 0x14)
  | .sleep h a => some (h.raw 0x00F a.bits 0 0)
  | .safept h id => some (h.raw 0x010 0 0 (id))
  | .brkpt h code => some (h.raw 0x011 0 0 (code))
  | .cctlIinv h => some (h.raw 0x180 0 0 0)
  | .cctlIinvp h => some (h.raw 0x180 0 0 1)
  | .cctlL1inv h a => some (h.raw 0x180 a.bits 0 2)
  | .cctlL1all h => some (h.raw 0x180 0 0 3)
  | .seal h a b => some (h.raw 0x181 a.bits b.bits 0)
  | .unseal h a b => some (h.raw 0x182 a.bits b.bits 0)
  | .fenceAcq h => some (h.raw 0x183 0 0 1)
  | .fenceRel h => some (h.raw 0x183 0 0 2)
  | .fenceAcqrel h => some (h.raw 0x183 0 0 3)
  | .monitor h a b => some (h.raw 0x184 a.bits (Src.optBits b) 0)
  | .mwait h a => some (h.raw 0x185 a.bits 0 0)
  | .bararr h a => some (h.raw 0x190 a.bits 0 0)
  | .barwait h a b => some (h.raw 0x191 a.bits b.bits 0)
  | .barsync h a => some (h.raw 0x192 a.bits 0 0)
  | .barinit h a b => some (h.raw 0x193 a.bits b.bits 0)
  | .attach h a => some (h.raw 0x194 a.bits 0 0)
  | .detach h => some (h.raw 0x195 0 0 0)
  | .grpq h sel a => some (h.raw 0x196 a.bits 0 (sel.code))
  | .put h ty och a b => some (h.raw 0x1A0 a.bits b.bits (ty.code * 256 + ochBits och))
  | .putBlk h scr och a b => some (h.raw 0x1A0 a.bits (Src.optBits b) (128 + scr.toNat * 64 + ochBits och))
  | .get h scr och a b => some (h.raw 0x1A1 a.bits (Src.optBits b) (scr.toNat * 64 + ochBits och))
  | .ratom h ty op och a b => some (h.raw 0x1A2 a.bits b.bits (ty.code * 256 + op.code * 32 + ochBits och))
  | .rred h ty op och a b => some (h.raw 0x1A3 a.bits b.bits (ty.code * 256 + op.code * 32 + ochBits och))
  | .notify h och a b => some (h.raw 0x1A4 a.bits b.bits (ochBits och))
  | .notifyRel h och a b => some (h.raw 0x1A4 a.bits b.bits (128 + ochBits och))
  | .ochopen h a b => some (h.raw 0x1A5 a.bits b.bits 0)
  | .ochclose h b => some (h.raw 0x1A6 0 b.bits 0)
  | .rfence h => some (h.raw 0x1A7 0 0 0)
  | .mma h a b c => some (h.raw 0x1C0 a.bits b.bits c.bits)
  | .mmasp h a b c => some (h.raw 0x1C1 a.bits b.bits c.bits)
  | .mvm h a b c => some (h.raw 0x1C2 a.bits b.bits c.bits)
  | .amalloc h a => some (h.raw 0x1C8 a.bits 0 0)
  | .amfree h => some (h.raw 0x1C9 0 0 0)
  | .amgrant h mask a b => some (h.raw 0x1CA a.bits b.bits (mask.toNat))
  | .amld h band a => some (h.raw 0x1CB a.bits 0 (band))
  | .amst h band a => some (h.raw 0x1CC a.bits 0 (band))
  | .amdrain h ty rnd band z a b => some (h.raw 0x1CD a.bits b.bits (ty.code * 256 + rnd.code * 32 + band * 8 + z.toNat * 4))
  | .amzero h mask => some (h.raw 0x1CE 0 0 (mask.toNat))
  | .chput h a b => some (h.raw 0x1D0 a.bits b.bits 0)
  | .chadv h a b c => some (h.raw 0x1D1 a.bits b.bits c.bits)
  | .chseq h acq sel a => some (h.raw 0x1D2 a.bits 0 (acq.toNat * 4 + sel.code))
  | .spawn h a b c => some (h.raw 0x1D8 a.bits b.bits c.bits)
  | .joindec h a b => some (h.raw 0x1D9 a.bits b.bits 0)
  | .pushdq h a => some (h.raw 0x1E0 a.bits 0 0)
  | .popdq h pr => some (h.raw 0x1E1 0 0 (pr))
  | .dqstat h => some (h.raw 0x1E2 0 0 0)
  | .budgetRound => none
  | .throttleLimit => none
  | .throttleRecover => none
  | .throttleFence => none
  | .inputUndervoltage => none
  | .inputPowerLoss => none
  | .coolantFlowStop => none
  | .resetIn => none
  | .httpsBootRetry => none
  | .firmwareUpdate => none
  | .serviceFirmwareStop => none
  | .keyPhaseChange => none
  | .keyPhaseRetire => none
  | .packetHop => none
  | .putPacket => none
  | .putAck => none
  | .getReq => none
  | .getData => none
  | .ratomPacket => none
  | .ratomRes => none
  | .rredPacket => none
  | .rredAck => none
  | .notifyPacket => none
  | .notifyAck => none
  | .errorPacket => none
  | .ochReset => none
  | .ochResetAck => none
  | .heldPacketTimeout => none
  | .responseTimerExpiry => none
  | .blockedPacketTimer => none
  | .belay => none
  | .ropeAck => none
  | .linkTrainingStart => none
  | .trainingHandshake => none
  | .thirdHandshakeTimer => none
  | .trainReplyTimeout => none
  | .linkDownRetryTimer => none
  | .linkLoss => none
  | .linkForce => none
  | .linkRelease => none
  | .ucieLinkChange => none
  | .toposet => none
  | .toposetDrainLimit => none
  | .toposetSwitch => none
  | .toposetPublish => none
  | .warmResetRequest => none
  | .ucieDownTimeout => none
  | .fabricInterfaceError => none
  | .warmResetReadmit => none
  | .rdmaWrite => none
  | .rdmaWriteWithImmediate => none
  | .rdmaRead => none
  | .send => none
  | .rdmaAtomicRequest => none
  | .partitionCreate => none
  | .partitionChange => none
  | .partitionDelete => none
  | .frameGrant => none
  | .frameRevoke => none
  | .frameScrubDone => none
  | .chainRegistration => none
  | .serviceChainRegistration => none
  | .faultChainRegistration => none
  | .memoryRegionRegistration => none
  | .attestationRequest => none
  | .tokenFetch => none
  | .rotationSetup => none
  | .copyEngineMove => none
  | .redfishSetting => none
  | .functionLevelReset => none
  | .pcpTailWake => none
  | .launch => none
  | .notifyCommand => none
  | .map => none
  | .unmap => none
  | .resume => none
  | .commandRecordCompletion => none
  | .faultRecordPost => none
  | .faultPostRetry => none
  | .switchTick => none
  | .deadlineExpiry => none
  | .overrunLimit => none
  | .resumeMapWrite => none
  | .lehrEvent => none
  | .teamPlacement => none
  | .restoreComplete => none
  | .teamEnd => none
  | .cairnProbe => none
  | .clauseStart => none
  | .variableLatencyCompletion => none
  | .watchdogExpiry => none
  | .yieldExpiry => none
  | .sleepExpiry => none
  | .mwaitTimeout => none
  | .lineEviction => none
  | .uncorrectableEccError => none
  | .copy => none
  | .nopRecord => none
  | .mmaRecord => none
  | .mvmRecord => none
  | .engineRecordCompletion => none
  | .copyChainIdleUnbind => none
  | .mwaitReturnNoReason => none
  | .coldBoot => none
  | .inputVoltageRecovery => none
  | .coolantFlowResume => none
  | .correctedEccError => none
  | .serviceFirmwareRestarted => none

/-- The word of an instruction of the Efgor set. -/
def encode (i : Instr) : Option W64 := (encodeRaw i).map fun r => w64 r.toWord

/-- The vector register count under which `decodeTableWord` reads a word: the greatest. -/
def tableVr : Nat := 1024

/-- The instruction the decoder reads from a table row's word: in a strand clause, and where strand code cannot hold
it, in a gaffer clause (R314). The word is one 64-bit word (R301), so its bits are numbered as the table numbers
them; a row of fewer bits leaves the rest zero. -/
def decodeTableWord (nbits w : Nat) : Option Instr :=
  let w64 := BitVec.ofNat 64 (w % 2 ^ nbits)
  match decode .strand tableVr w64 with
  | .ok i => some i
  | .error _ =>
    match decode .gaffer tableVr w64 with
    | .ok i => some i
    | .error _ => none

end Sys2Proof
end

