-- ==== Sys2Proof/Machine/State.lean ====
section
/-! DEFINITION. The state of the part as plain data: every register, table, queue and memory the spec names, the
reasons a step can stop, and the state right after a cold reset. -/

namespace Sys2Proof.Machine

open Sys2Proof

/-! ### Tables and memories -/

/-- A finite table: key and value pairs, at most one per key. -/
abbrev Tbl (κ α : Type) := List (κ × α)

/-- The canonical form of a byte memory: addresses strictly rising, and no cell holding what an unlisted address reads
as, which is zero (log entry 6). -/
def Memory.wf : List Host.Cell → Bool
  | [] => true
  | [c] => c.2 != 0
  | c :: d :: cs => c.2 != 0 && decide (c.1 < d.1) && Memory.wf (d :: cs)

/-- A byte memory in canonical form. -/
structure Mem where
  cells : List Host.Cell
  canon : Memory.wf cells = true
deriving DecidableEq, Repr

/-- The memory with nothing listed. -/
def Mem.empty : Mem := ⟨[], rfl⟩

/-! ### Names of agents -/

/-- R144, R152, R170: a member of a team: a strand by its team strand index, or a gaffer context by its span core
index. -/
structure Member where
  isl : Nat
  team : Nat
  gaffer : Bool
  idx : Nat
deriving DecidableEq, Repr

/-- R163: a thread of issue: a split of a strand, or a gaffer context (split 0). -/
structure Thread where
  m : Member
  split : Nat
deriving DecidableEq, Repr

/-- R61, R64: a record of a command chain, by partition, chain number (16 is the service chain, R94) and sequence
number. -/
structure CmdRef where
  part : Nat
  chain : Nat
  /-- The model's own: the registration of the chain. -/
  reg : Nat
  seq : Nat
deriving DecidableEq, Repr

/-- R221: an engine of an island: a copy engine, or the matrix engine of a core. -/
inductive Engine where
  | copy (ce : Nat)
  | matrix (core : Nat)
deriving DecidableEq, Repr

/-- R221: an engine chain, by island, partition and descriptor address. -/
structure ChainRef where
  isl : Nat
  part : Nat
  desc : Nat
deriving DecidableEq, Repr

/-- R221, R225: a record of an engine chain. -/
structure RecRef where
  chain : ChainRef
  seq : Nat
deriving DecidableEq, Repr

/-- R25, R27: one end of a link: a node (an island, or 31 for the hub) and a port. -/
structure LinkEnd where
  node : Nat
  port : Nat
deriving DecidableEq, Repr

/-! ### The core: threads, members, operations -/

/-- R298: a clause as its split read it: the header's address, the header and the words. -/
structure Clause where
  addr : Nat
  hdr : W64
  words : List W64
deriving DecidableEq, Repr

/-- What the instructions of a clause leave to its end: R353, R354, R444, R445, R406. -/
inductive EndAct where
  | yield (n : Nat)
  | sleep (n : Nat)
  | safept (id : Nat)
  | detach
  | exitGaffer
deriving DecidableEq, Repr

/-- R181: the trap shadow. -/
structure Shadow where
  latches : List (List W64)
  clause : Option Clause
  slot : Nat
  mask : W32
  exited : W32
  /-- What the clause's earlier slots left to its end. -/
  ends : List EndAct
deriving DecidableEq, Repr

/-- R103: the key of a pending-fault entry. -/
structure FaultKey where
  isl : Nat
  part : Nat
  page : Nat
  perm : Bool
  /-- An entry holds it; an agent that waits without a record is parked on no entry. -/
  entry : Bool
deriving DecidableEq, Repr

/-- R153: why a thread does not take its next clause: held by JOIN at an address (R167), ineligible by YIELD until a core
clock (R354), asleep until one (R444), parked on a fault (R102). -/
structure Wait where
  join : Option Nat
  yielded : Option Nat
  asleep : Option Nat
  parked : Option FaultKey
  /-- The model's own: its last attempt to issue found it held back, and nothing has moved since. -/
  stalled : Bool
  /-- R107: released by a RESUME and not yet gone on: the key and the RETRY of an entry its replay makes. -/
  replay : Option (FaultKey × Nat)
  /-- R153: it has given up its issue port within its clause, since it parked or sleeps (log entry 44). -/
  portless : Bool
deriving DecidableEq, Repr

/-- R276: the watch of a split or context. -/
structure Watch where
  isl : Nat
  line : Nat
  hit : Bool
deriving DecidableEq, Repr

/-- R416: the failure record of a split; `first` orders records in time. -/
structure FailRec where
  status : Nat
  isl : Nat
  ops : List Nat
  sat : Bool
  first : Nat
deriving DecidableEq, Repr

/-- A split or a running gaffer context. -/
structure ThreadRec where
  /-- R163: the header address of the clause it stands before or in. -/
  pc : Nat
  /-- R163: the active mask; 1 for a gaffer context. -/
  mask : W32
  /-- R153, R298: the clause in issue, none at a boundary. -/
  clause : Option Clause
  /-- R153: the next slot to issue. -/
  slot : Nat
  /-- R160: latches b0 to b7, a 64-bit value per lane. -/
  latches : List (List W64)
  /-- R161: the counts of scoreboards sb0 to sb6. -/
  sb : List Nat
  /-- R353: lanes that executed EXIT in the clause. -/
  exited : W32
  /-- Effects due at the clause's end. -/
  ends : List EndAct
  wait : Wait
  /-- R181: the trap shadow. -/
  shadow : Option Shadow
  /-- R183: the thread runs its trap handler. -/
  handler : Bool
  /-- R182: the handler has written EPC. -/
  epcSet : Bool
  /-- R443: TCAUSE. -/
  tcause : W64
  /-- R443: TVAL. -/
  tval : W64
  /-- R443: EPC. -/
  epc : W64
  watch : Option Watch
  fail : Option FailRec
  /-- R153: when its last clause started; 0 for never. -/
  lastStart : Nat
  /-- R115: core clock of its last clause start. -/
  lastClk : Nat
deriving DecidableEq, Repr

/-- R125, R144, R176: the course of a member. -/
inductive Course where
  | placed
  /-- R128: it stands before the restore routine of its safe point. -/
  | restoring (id : Nat)
  | running
  | saving (id : Nat)
  | saved (id : Nat)
  | notStarted
  | ended
deriving DecidableEq, Repr

/-- A strand or gaffer context of a team. -/
structure MemberRec where
  core : Nat
  /-- R152: the bay of a strand. -/
  bay : Nat
  course : Course
  /-- R125: it has begun to issue. -/
  issued : Bool
  /-- R144: it has begun a clause after its first. -/
  opened : Bool
  /-- R250: FSTAT. -/
  fstat : W64
  /-- R163, R164: the split stack, most recent entry first: the number and the record of each pushed path. -/
  stack : List (Nat × ThreadRec)
  /-- R146, R176: memberships, with whether each has taken effect. -/
  groups : List (Nat × Bool)
  /-- The next split number to give. -/
  nextSplit : Nat
deriving DecidableEq, Repr

/-- Where a result lands (R307). -/
inductive Dst where
  | none
  | vec (i : Nat) (w : Nat)
  | sca (i : Nat) (w : Nat)
deriving DecidableEq, Repr

/-- R188: the spaces a micro-access reaches. Global and constant addresses are physical, scratchpad addresses are offsets
in the core's 512 KiB, window addresses are offsets as the program gives them (R190). -/
inductive Space where
  | global
  | spad (core : Nat)
  | window (core : Nat)
  | const
deriving DecidableEq, Repr

/-- What one micro-access does. -/
inductive AccKind where
  | read
  /-- A read at the home bank, never from L1 (R436). -/
  | bank
  | write (v : W64)
  /-- A write at the home bank that bypasses L1 (R195). -/
  | bypass (v : W64)
  | sub (d m : W64)
  | atomic (op : AOp) (ty : Ty) (b cmp : W64)
deriving DecidableEq, Repr

/-- One single-copy atomic access (R265) of an outstanding operation. -/
structure Access where
  lane : Nat
  /-- Which 8 bytes of a 16-byte value. -/
  half : Nat
  space : Space
  addr : Nat
  size : Nat
  kind : AccKind
  /-- R202: the page is sealed. -/
  sealed : Bool
  done : Bool
  /-- What it read. -/
  val : W64
  /-- R266: lower lanes whose write to the same place this one stands for. -/
  also : W32
deriving DecidableEq, Repr

/-- R420, R424: a matrix instruction, or one step of a record, as its checks left it. Offsets are within the cores'
512 KiB. -/
structure MatJob where
  mvm : Bool
  sparse : Bool
  /-- R252: the format block. -/
  fmt : Nat
  bank : Nat
  acore : Nat
  aoff : Nat
  bcore : Nat
  /-- B, or vector 0 of an MVM. -/
  boff : Nat
  /-- R421: A's metadata, and R255: the scales of A and B, as read. -/
  metas : List Byte
  asc : List Byte
  bsc : List Byte
  rows : Nat
  klen : Nat
  /-- MVM: the runs of physical addresses and lengths that make up each weight row. -/
  wrows : List (List (Nat × Nat))
  nv : Nat
  vstr : Nat
  zacc : Bool
deriving DecidableEq, Repr

/-- What the completion of an outstanding operation does, beyond its micro-accesses. -/
inductive OpAct where
  | plain
  | load (ty : Ty) (x2 : Bool)
  | store
  | oldVal (ty : Ty)
  /-- A result known at issue: 32 lanes for each 64 bits, or one scalar. -/
  | value (vals : List W64) (flags : Nat)
  | sysrd (reg : Nat)
  | drain (flags : Nat)
  | append (desc pa rec n : Nat) (adv : Bool)
  | spawn (va pa : Nat) (khdr frame : W64) (join prio : Nat)
  | joindec (va pa n : Nat)
  | pushdq (v : W64)
  | popdq (pr : Nat)
  | dqstat
  | matrix (job : MatJob)
  /-- R203, R206: the pages, and whether the translation caches have dropped them. -/
  | seal (pages : List (Nat × Nat)) (dropped : Bool)
  | unseal (pages : List (Nat × Nat)) (dropped : Bool)
  | monitor (pa : Nat)
  | mwait (deadline : Option Nat) (nowatch : Bool)
  | barwait (g : Nat) (t : Nat)
  | put
  | get
  | ratom (ty : Ty)
  | rred
  | notify
  | ochopen (isl ch : Nat)
  | ochclose (ch : Nat)
deriving DecidableEq, Repr

/-- R161, R163: an outstanding variable-latency operation. -/
structure Op where
  id : Nat
  m : Member
  core : Nat
  part : Nat
  /-- The splits that issued or inherited it, each with its scoreboard (7 for none). -/
  holders : List (Nat × Nat)
  /-- R272: the splits in whose program order it stands, with 0, or the time at which their member ended. -/
  path : List (Nat × Nat)
  /-- Lanes that still take a result. -/
  lanes : W32
  scalar : Bool
  k : Bool
  dst : Dst
  accs : List Access
  act : OpAct
  /-- R268: it acquires. -/
  acq : Bool
  /-- R416: a remote operation. -/
  remote : Bool
  /-- R159, R384: a memory operation. -/
  mem : Bool
  /-- Packets or replies still awaited. -/
  waiting : Nat
  /-- R416: fabric status of its first failed packet. -/
  failed : Option (Nat × Nat)
  /-- R282, R410: the ordered channel it uses. -/
  chan : Option Nat
  /-- R412 to R414: values returned per lane. -/
  rets : List (Nat × W64)
  /-- R300: lanes of each destination register that a later fixed-latency instruction has written. -/
  covered : Tbl Nat W32
  /-- The instruction's slot address, for a trap found at completion. -/
  at_ : Nat
  /-- R149: core clocks at which a blocked push began to wait. -/
  since : Nat
deriving DecidableEq, Repr

/-- The registers and threads of the cores. -/
structure CoreSt where
  /-- R156: vector registers, a list of 32 lanes. -/
  vreg : Tbl (Member × Nat) (List W32)
  /-- R156: scalar registers of strands, and gaffer registers. -/
  sreg : Tbl (Member × Nat) W64
  /-- R156: predicates p0 to p6 as lane masks. -/
  pred : Tbl (Member × Nat) W32
  members : Tbl Member MemberRec
  threads : Tbl Thread ThreadRec
  ops : List Op
  nextOp : Nat
  /-- R171: decision queues by gaffer context. -/
  dq : Tbl Member (List W64)
  /-- R150: cairn counts and bivouac bits of decision queues. -/
  dqCairn : Tbl Member (Nat × Bool)
deriving DecidableEq, Repr

/-! ### Memory -/

/-- R194: one word of an L1 data cache. -/
structure L1Word where
  val : W32
  owned : Bool
  sealed : Bool
deriving DecidableEq, Repr

/-- R214: a place whose data an uncorrectable error has poisoned. -/
inductive Loc where
  | global (isl sector : Nat)
  | spad (isl core sector : Nat)
  | vreg (m : Member) (i : Nat)
  | sreg (m : Member) (i : Nat)
  | acc (isl core bank word : Nat)
  /-- A sector of HBM; `global` is one of the island cache. -/
  | hbm (isl sector : Nat)
  | pred (m : Member) (i : Nat)
  /-- R213: entry `i`, from the oldest, of a decision queue. -/
  | dq (m : Member) (i : Nat)
  /-- R213: an entry of a core's matrix input queue: a matrix instruction, by its operation, or a record. -/
  | matq (isl core : Nat) (e : Sum Nat RecRef)
  /-- R213: an entry of a ready queue, by its place in the order in which records became READY. -/
  | ready (isl order : Nat)
  /-- R213: a packet in a queue of the fabric. -/
  | packet (id : Nat)
deriving DecidableEq, Repr

/-- R208: an allocation of accumulator banks; `pending` when freed with matrix work still queued (R428). -/
structure AmAlloc where
  isl : Nat
  core : Nat
  team : Nat
  first : Nat
  count : Nat
  pending : Bool
deriving DecidableEq, Repr

/-- R99, R100, R101: the holders of translation caches on an island: a core, the fabric interface (the remote translation
cache), a copy engine, the matrix engine of a core. -/
inductive TlbAgent where
  | core (n : Nat)
  | remote
  | copy (ce : Nat)
  | matrix (core : Nat)
deriving DecidableEq, Repr

/-- R91: a page-table entry with the fields a walk uses; one with a nonzero RSVD field counts as invalid. -/
structure Pte where
  v : Bool
  l : Bool
  pfn : Nat
  sl : Bool
  x : Bool
  w : Bool
  r : Bool
deriving DecidableEq, Repr

/-- R100: an entry of a translation cache: a leaf of a partition, 64 KiB or 512 MiB, and the number of its virtual page. -/
structure TlbEntry where
  part : Nat
  page : Nat
  large : Bool
  pte : Pte
deriving DecidableEq, Repr

/-- The memories of the islands. -/
structure MemSt where
  /-- R10, R87: HBM, byte `pa` of island `i` at key `i * 2^39 + pa`. -/
  hbm : Mem
  /-- R197: bytes the island cache holds, where marked. -/
  l2 : Mem
  /-- R197: the byte mask: 1 where the byte is marked as written. -/
  l2mark : Mem
  /-- R194: owning core of a word, by island and word number. -/
  owner : Tbl (Nat × Nat) Nat
  /-- R194: L1 words, by island, core and word number. -/
  l1 : Tbl (Nat × Nat × Nat) L1Word
  /-- R199: instruction-cache sectors, by island, core and sector number. -/
  icache : Tbl (Nat × Nat × Nat) (List Byte)
  /-- R204: constant-cache sectors. -/
  ccache : Tbl (Nat × Nat × Nat) (List Byte)
  /-- R190: scratchpads, offset `o` of core `c` of island `i` at key `(i * 96 + c) * 2^19 + o`. -/
  spad : Mem
  /-- R207: accumulator words, by island, core, bank and word number. -/
  acc : Tbl (Nat × Nat × Nat × Nat) W32
  /-- R208: accumulator allocations. -/
  am : List AmAlloc
  /-- R209: band grants, by island, core, bank and band. -/
  grants : Tbl (Nat × Nat × Nat × Nat) Nat
  /-- R211: AMSTAT.UR, by island, core and team. -/
  ur : List (Nat × Nat × Nat)
  poison : List Loc
  /-- R217: the bytes of a poisoned sector that have been written since. -/
  fresh : Tbl Loc (BitVec 64)
  /-- R100, R101: translation caches, by island and holder, latest entry first. -/
  tlb : Tbl (Nat × TlbAgent) (List TlbEntry)
deriving DecidableEq, Repr

/-! ### Tasks and teams -/

/-- R131: a task record as the task unit captured it. -/
structure TaskRec where
  addr : Nat
  pa : Nat
  frame : W64
  khdr : Nat
  ji0 : Nat
  ja0 : Nat
  ji1 : Nat
  ja1 : Nat
  crec : Nat
  cisl : Nat
  part : Nat
  prio : Nat
  origin : Nat
  stamp : Nat
deriving DecidableEq, Repr

/-- R138: an entry of a ready queue. -/
structure QEntry where
  isl : Nat
  part : Nat
  task : TaskRec
  order : Nat
  /-- R141: CLK from which the record was passed over; none when it was not. -/
  passed : Option Nat
deriving DecidableEq, Repr

/-- R323: the kernel header's fields, addresses made absolute; none where an offset of 0 stands for none. -/
structure KHdr where
  tmin : Nat
  dh : Nat
  wdog : Nat
  resmap : Nat
  spb : Nat
  spcount : Nat
  gtbl : Option Nat
  spt : Nat
  strap : Option Nat
  gtrap : Option Nat
  sentry : Nat
  gentry : Option Nat
  code : Nat
  cmap : Nat
  scr : Nat
  codelen : Nat
  tokreq : Bool
  restartable : Bool
  uchk : Bool
  sregs : Nat
  vr : Nat
  smax : Nat
  sinit : Nat
deriving DecidableEq, Repr

/-- R325: an entry of the safe-point table, addresses made absolute. -/
structure SafePt where
  save : Nat
  rest : Nat
  scost : Nat
  /-- R325: RCOST, for telemetry. -/
  rcost : Nat
  gaffer : Bool
  id : Nat
deriving DecidableEq, Repr

/-- R174: the barrier state of a group. -/
structure Group where
  memb : Nat
  arr : Nat
  pend : Nat
  phase : Nat
deriving DecidableEq, Repr

/-- R118: the decisions of a pre-emption. -/
inductive Decision where
  | drain | save | saveLate | discard | lost
deriving DecidableEq, Repr

/-- R114: an open pre-emption request. -/
structure Preempt where
  decision : Decision
  /-- R117: hub time of its DEADLINE. -/
  due : Nat
  /-- R117: CLK at its DEADLINE, once that has passed. -/
  past : Option Nat
  ovr : Bool
deriving DecidableEq, Repr

/-- A placed team (R144). -/
structure Team where
  part : Nat
  task : TaskRec
  hdr : KHdr
  spts : List SafePt
  c0 : Nat
  n : Nat
  /-- R142: lane capacity C of a span core. -/
  cap : Nat
  /-- R142: base of the reservation on each span core. -/
  spad : List Nat
  /-- R142: gaffer context number on each span core. -/
  ctx : List Nat
  groups : List Group
  /-- R145: rows of the group table; none when the header has no table. -/
  rows : Option (List (List Nat))
  /-- R122: its members may issue. -/
  released : Bool
  /-- R185: CLK of the first issue. -/
  first : Option Nat
  /-- R115: core clocks since the first issue that CLK had counted when it last restarted. -/
  before : Nat
  /-- R185: watchdog clocks counted. -/
  wdog : Nat
  /-- R123: TOKSEQ. -/
  tokseq : Nat
  /-- R186: the status it is ending with, and LCAUSE. -/
  ending : Option (Nat × Nat)
  preempt : Option Preempt
  /-- R118: PCOUNT. -/
  pcount : Nat
  /-- R128: placed from a resume map, restore routines pending. -/
  restoring : Bool
  /-- R147: its end is complete; its reservations wait for its matrix work. -/
  gone : Bool
  /-- R115: the last 65,536 clause-start intervals on the lead cluster's cores, newest first. -/
  cpc : List Nat
deriving DecidableEq, Repr

/-- R126, R128: a saved team waiting for its restore placement. -/
structure SavedTeam where
  isl : Nat
  team : Nat
  /-- The team as it was saved. -/
  old : Team
  savedAt : Nat
  /-- R141: CLK from which it was passed over; none when it was not. -/
  passed : Option Nat
deriving DecidableEq, Repr

/-- R147: a team end in progress. -/
structure EndRec where
  isl : Nat
  team : Nat
  part : Nat
  task : TaskRec
  status : Nat
  lcause : Nat
  /-- Completion decrements sent and not acknowledged, by target. -/
  waiting : List Nat
  /-- Those that failed, with their fabric status. -/
  fails : List (Nat × Nat)
  /-- R147: step 4 has been made: the LAUNCH record whose completion the end still waits for. -/
  cmd : Option CmdRef
deriving DecidableEq, Repr

/-- The task units. -/
structure TaskSt where
  teams : Tbl (Nat × Nat) Team
  queue : List QEntry
  nextOrder : Nat
  saved : List SavedTeam
  ends : List EndRec
  /-- R141: the weighted round robin of an island: the partition in service, and the services left in its turn. -/
  turn : Tbl Nat (Nat × Nat)
deriving DecidableEq, Repr

/-! ### Engines -/

/-- R225: a record an engine has read and started. -/
structure EngRec where
  ref : RecRef
  eng : Engine
  team : Nat
  addr : Nat
  pa : Nat
  /-- R102: its 64 bytes have been read. -/
  known : Bool
  /-- R227: the 64 bytes as one number. -/
  bits : Nat
  /-- None while it runs; the status and DETAIL once its work is done. -/
  res : Option (Nat × Nat)
  /-- R234, R236, R237: elements, steps or rows done. -/
  step : Nat
  parked : Option FaultKey
  /-- R107: released by a RESUME: the key and the RETRY of an entry its replay makes. -/
  replay : Option (FaultKey × Nat)
  /-- R106: the access at which it parked last: its ACC code, and the elements, steps or rows done before. -/
  lastAcc : Nat × Nat
  /-- R231: a follow-on, whose record the engine always acquires for (R270). -/
  follow : Bool
  /-- R149: core clock at which it began to wait for a full chain. -/
  since : Nat
  /-- R224, R231: the chain at whose append unit its follow-on stands, and the first operation that arrived there later. -/
  turn : Option (Nat × ChainRef)
  /-- R229: the two layout records of a copy, once read. -/
  lays : Option (Nat × Nat)
deriving DecidableEq, Repr

/-- R223: a bound engine chain as the append unit keeps it. -/
structure Chain where
  eng : Engine
  team : Nat
  tail : Nat
  last : Nat
  /-- R223: HEAD, as the engine keeps it. -/
  head : Nat
  comp : Nat
  cap : Nat
  /-- R226: HALTED, its HSTAT, the record at fault and its number. -/
  halted : Bool
  hstat : Nat
  erraddr : Nat
  errseq : Nat
  /-- R225: number and address of the last record read. -/
  read : Nat
  next : Nat
  /-- Records completed out of order, above COMP. -/
  doneAbove : List Nat
  cairn : Nat
  biv : Bool
  /-- R223: CLK of the last append. -/
  lastAppend : Nat
  /-- R231: numbers of its records that are follow-ons and have not been read. -/
  follows : List Nat
  /-- R114, R223: UNBOUND, since its copy engine has passed to another partition; what the engine has yet to run again. -/
  away : Bool
deriving DecidableEq, Repr

/-- R225: an entry of a matrix engine's input queue. -/
inductive MatEntry where
  | instr (op : Nat) (m : Member) (job : MatJob)
  | record (r : RecRef)
deriving DecidableEq, Repr

/-- R225, R212: the entry a matrix engine performs, with the bank words it has yet to write. -/
structure MatRun where
  entry : MatEntry
  writes : List ((Nat × Nat) × W32)
  /-- R265: the rows of a matrix instruction whose operands have been read. -/
  rows : Nat
  /-- R433: words that an instruction has written meanwhile, and that the entry leaves as they are. -/
  passed : List (Nat × Nat)
  /-- R213: an error has spoilt the entry in its queue. -/
  bad : Bool
deriving DecidableEq, Repr

/-- R277: a write of a copy engine on its way to its home bank or scratchpad. -/
structure EngWrite where
  ref : RecRef
  eng : Engine
  /-- The core of a scratchpad write; none for global memory. -/
  core : Option Nat
  /-- A physical address, or an offset in the core's 512 KiB. -/
  addr : Nat
  val : List Byte
deriving DecidableEq, Repr

/-- The copy and matrix engines. -/
structure EngSt where
  chains : Tbl ChainRef Chain
  recs : List EngRec
  /-- R225: input queues, by island and core, oldest first. -/
  matq : Tbl (Nat × Nat) (List MatEntry)
  /-- R150: CAIRN and BIV of the input queues. -/
  matCairn : Tbl (Nat × Nat) (Nat × Bool)
  /-- R225: the entry in progress, by island and core. -/
  matRun : Tbl (Nat × Nat) MatRun
  /-- R277: sectors that an engine has read ahead: by island, engine, the core of a scratchpad, and sector number. -/
  bufs : Tbl (Nat × Engine × Option Nat × Nat) (List Byte)
  /-- R277: writes of copy engines that have not performed, oldest first. -/
  outs : List EngWrite
  /-- R225: the chain that each engine of an island served last. -/
  served : Tbl (Nat × Engine) ChainRef
deriving DecidableEq, Repr

/-! ### Partitions, faults, the lehr -/

/-- R84, R90, R113: a partition. -/
structure Part where
  islands : Nat
  slices : Nat
  /-- Copy engines owned, by island. -/
  ce : Tbl Nat Nat
  dispw : Nat
  fabw : Nat
  mac : Nat × Nat
  vlan : Nat
  qcap : Nat
  /-- R140: k of AGEI = 2^k. -/
  agei : Nat
  /-- R90: translation root, by island; the physical address of the level-1 table. -/
  roots : Tbl Nat Nat
  rotation : Option Nat
deriving DecidableEq, Repr

/-- R113: a rotation. -/
structure Rotation where
  order : List Nat
  quantum : Tbl Nat Nat
  deadline : Nat
  gang : Bool
  /-- Position of the resident member. -/
  pos : Nat
  /-- Hub time at which its quantum began. -/
  start : Nat
  /-- R117: shortening of a member's next residency, in ns. -/
  shorten : Tbl Nat Nat
  /-- A switch in progress: hub time of the tick. -/
  tick : Option Nat
  /-- R119: islands and slices whose token of the switch is still to be written. -/
  late : List (Nat × Nat)
deriving DecidableEq, Repr

/-- R88: the state of a frame. -/
inductive FrameSt where
  | free | owned | table | scrub | sys
deriving DecidableEq, Repr

/-- R103, R106: a pending-fault entry. -/
structure FaultEnt where
  key : FaultKey
  va : Nat
  core : Nat
  agent : Nat
  acc : Nat
  level : Nat
  team : Nat
  engine : Nat
  retry : Nat
  stamp : Nat
  /-- FSEQ of its posted record. -/
  fseq : Option Nat
  /-- R105: an attempt to post it failed, and the core clock of the next. -/
  held : Option Nat
  order : Nat
deriving DecidableEq, Repr

/-- R104: a registered fault chain: its descriptor, ring and WIDX. -/
structure FaultChain where
  desc : Nat
  base : Nat
  size : Nat
  widx : Nat
deriving DecidableEq, Repr

/-- R120: a lehr token. -/
structure Token where
  seq : Nat
  partIn : Nat
  partOut : Nat
  reason : Nat
  slice : Nat
  slicemask : Nat
  cemask : Nat
  classes : Nat
  stamp : Nat
  hubtime : Nat
  fwver : Nat
  sig : Nat × Nat
deriving DecidableEq, Repr

/-- Work the lehr has been given: islands' slices to scrub, or engine buffers (R121). -/
structure LehrJob where
  isl : Nat
  slices : Nat
  cemask : Nat
  reason : Nat
  partOut : Nat
  partIn : Nat
deriving DecidableEq, Repr

/-- R110: a function-level reset or deletion under way. -/
structure FlrJob where
  part : Nat
  delete : Bool
  frames : List (Nat × Nat)
deriving DecidableEq, Repr

/-- Partitions, ownership, faults and the lehr. -/
structure PartSt where
  parts : Tbl Nat Part
  rots : Tbl Nat Rotation
  /-- R88: ownership table by island and frame; an unlisted frame is FREE. -/
  frames : Tbl (Nat × Nat) (FrameSt × Nat)
  /-- R91: TABLE frames that hold a live table, by island and frame: their partition. -/
  tables : Tbl (Nat × Nat) Nat
  /-- R103: pending-fault entries, oldest first. -/
  faults : List FaultEnt
  nextFault : Nat
  /-- R104: registered fault chains by partition and island. -/
  fchains : Tbl (Nat × Nat) FaultChain
  /-- R120: scrub sequences by island and slice; slice 15 is the engine sequence. -/
  scrub : Tbl (Nat × Nat) Nat
  /-- R120: latest tokens, the same key. -/
  tokens : Tbl (Nat × Nat) Token
  jobs : List LehrJob
  /-- R119: slices that wait for an event of the lehr. -/
  fencedSlices : List (Nat × Nat)
  /-- R119: slices fenced by a failed check until their island's next warm reset. -/
  deadSlices : List (Nat × Nat)
  flr : List FlrJob
deriving DecidableEq, Repr

/-! ### The fabric -/

/-- R32: packet operations. -/
inductive PktOp where
  | put | putAck | getReq | getData | ratom | ratomRes | rred | rredAck | notify | notifyAck | error | ochReset
  | ochResetAck | belay | ropeAck
deriving DecidableEq, Repr

/-- Where a packet stands. -/
inductive PktAt where
  /-- In its source's fabric interface, not yet sent (R52, R410). -/
  | source
  /-- R47: at a router, or at the fabric interface of its destination, in the input buffer of a port; 24 is the buffer of
  the node's own fabric interface. -/
  | queue (node inp : Nat)
  /-- Held at its destination for its place in a channel's order (R40), since a hub time. -/
  | held (since : Nat)
  /-- On the rope lane (R49). -/
  | rope (node : Nat)
deriving DecidableEq, Repr

/-- R31: a packet; its protection is the key epoch it was sealed under (log entry 9). -/
structure Packet where
  id : Nat
  op : PktOp
  route : List Nat
  hidx : Nat
  dest : Nat
  src : Nat
  kslot : Nat
  len : Nat
  tag : Nat
  och : Option Nat
  chseq : Nat
  steam : Nat
  bcnt : Nat
  addr : Nat
  gen : Nat
  pctr : Nat
  kph : Bool
  epoch : Nat
  payload : List Byte
  /-- R415: the count of a NOTIFY, for which R31 names no place in the header (log entry 30). -/
  count : Nat
  /-- R265: bytes that its destination has served of it, and the physical address of its first byte. -/
  part : Option (Nat × Nat)
  status : Nat
  /-- An ERROR that answers a reply: no request at its destination waits for it (log entry 42). -/
  ofReply : Bool
  place : PktAt
  /-- R47: hub time since which it has stood at the head of its buffer and could not advance, and whether its timer has
  expired. -/
  blocked : Option Nat
  timedOut : Bool
deriving DecidableEq, Repr

/-- What a source does with the reply to a packet. -/
inductive TxnUse where
  /-- A packet of an instruction. -/
  | op (id : Nat)
  /-- R147: completion target `n` of a team's task record. -/
  | teamEnd (isl team n : Nat)
  /-- R226: an engine's join decrement. -/
  | engine
deriving DecidableEq, Repr

/-- R35: an outstanding request of a fabric interface. -/
structure Txn where
  src : Nat
  tag : Nat
  dest : Nat
  kslot : Nat
  steam : Nat
  use : TxnUse
  op : PktOp
  och : Option Nat
  /-- R413: where the bytes of a GET packet go. -/
  dst : Space × List Nat
  /-- R414: the lane and the address of a remote atomic. -/
  lane : Nat
  addr : Nat
  /-- R35: hub time at which it was sent. -/
  sentAt : Nat
  injected : Bool
deriving DecidableEq, Repr

/-- R410: an ordered channel of a team. -/
structure Chan where
  isl : Nat
  opening : Bool
  closing : Bool
  broken : Bool
  next : Nat
  unacked : Nat
deriving DecidableEq, Repr

/-- R33: a key slot: installed epochs of the two phases, the current phase. -/
structure KeySlot where
  phase : Bool
  cur : Nat
  old : Option Nat
deriving DecidableEq, Repr

/-- R45: link states. -/
inductive LinkSt where
  | down | train | up | mismatch | forced
deriving DecidableEq, Repr

/-- R44: a proposal or an echo. -/
structure LinkCfg where
  width : Nat
  lanes : BitVec 8
  speed : Nat
deriving DecidableEq, Repr

/-- R44, R45: a link, kept at its canonical end. -/
structure Link where
  st : LinkSt
  since : Nat
  /-- R45: DOWN with a cause to train: power-up, re-admission, the end of an optics switch, release by software. -/
  cause : Bool
  prop0 : Option LinkCfg
  prop1 : Option LinkCfg
  echo0 : Option LinkCfg
  echo1 : Option LinkCfg
  cfg : Option LinkCfg
deriving DecidableEq, Repr

/-- R37: one entry of a view of the topology table. -/
structure Route where
  route0 : List Nat
  route1 : List Nat
  health0 : List Bool
  health1 : List Bool
deriving DecidableEq, Repr

/-- R52: the phase of the topology event under way. -/
inductive TopoPhase where
  | drain | switch | retrain
deriving DecidableEq, Repr

/-- R52: a TOPOSET under way. -/
structure Toposet where
  cmd : CmdRef
  code : Nat
  drainNs : Nat
  since : Nat
  phase : TopoPhase
  /-- R54: islands fenced meanwhile. -/
  fences : List Nat
deriving DecidableEq, Repr

/-- R48: the belay token. -/
structure Belay where
  node : Nat
  gen : Nat
  holding : Option Nat
  /-- R49: where the packet that it moved to the rope lane last stood. -/
  rope : Nat
deriving DecidableEq, Repr

/-- The fabric. -/
structure FabSt where
  pkts : List Packet
  nextPkt : Nat
  txns : List Txn
  /-- Next tag by source. -/
  tags : Tbl Nat Nat
  /-- R33: PCTR by source and slot. -/
  pctr : Tbl (Nat × Nat) Nat
  keys : Tbl Nat KeySlot
  nextEpoch : Nat
  /-- R41: expected sequence by destination, source, slot, team and channel. -/
  expect : Tbl (Nat × Nat × Nat × Nat × Nat) Nat
  /-- R410: channels by island, team and number. -/
  chans : Tbl (Nat × Nat × Nat) Chan
  links : Tbl LinkEnd Link
  /-- R37: TOPOGEN and XCODE of the published header, its ring. -/
  topogen : Nat
  xcode : Nat
  ring : List Nat
  /-- R37: views, by holder and entry. -/
  views : Tbl (Nat × Nat) Route
  /-- R42: QUIESCE by island. -/
  quiesce : List Nat
  /-- R11: islands whose UCIe link is down, with the hub time. -/
  ucieDown : Tbl Nat Nat
  /-- R53: the routers' switch generation. -/
  switchGen : Nat
  toposet : Option Toposet
  /-- R54: waiting topology events. -/
  topoq : List (Sum CmdRef Nat)
  /-- R55: islands fenced by a warm reset, with whether their lehr work is done. -/
  fenced : Tbl Nat Bool
  belay : Option Belay
  /-- R50: counts of timer expiries and rope moves by node. -/
  ropeStats : Tbl Nat (Nat × Nat)
  /-- R32: discarded packets by node. -/
  discards : Tbl Nat Nat
  /-- R86: the deficit round robin of an island's fabric interface: the partition in turn, and the bytes each may send. -/
  drrTurn : Tbl Nat Nat
  deficit : Tbl (Nat × Nat) Nat
deriving DecidableEq, Repr

/-! ### The hub: power, hosts, chains, firmware -/

/-- R17, R18: power state of an island. -/
structure Power where
  floor : Nat
  /-- The demand that the last round read. -/
  demand : Nat
  share : Nat
  /-- Core clock in units of 25 MHz. -/
  step : Nat
  throttled : Bool
  hotRounds : Nat
  /-- R20: die temperature in degrees Celsius, as the last round read it. -/
  temp : Nat
  /-- R20: throttle events since the boot. -/
  throttles : Nat
  /-- R14: fortieths of a core clock that have passed since CLK last rose. -/
  frac : Nat
deriving DecidableEq, Repr

/-- R20: an island's telemetry, as a budget round publishes it. -/
structure Telemetry where
  share : Nat
  step : Nat
  watts : Nat
  temp : Nat
  throttles : Nat
deriving DecidableEq, Repr

/-- R23: a line of the log on the console UART. -/
inductive LogLine where
  | romStarted
  | imageVerified (version : Nat)
  | imageRejected
  | anchorStarted (version : Nat)
  | noCoolant
deriving DecidableEq, Repr

/-- R64, R65: a registered command chain. -/
structure CmdChain where
  home : Nat
  desc : Nat
  head : Nat
  consumed : Nat
  comp : Nat
  halted : Bool
  /-- Address of the last record read. -/
  last : Nat
  done : List Nat
  /-- The model's own: which registration of its number it is. -/
  reg : Nat
  /-- R66: wakes that found TAIL below the consumed count. -/
  low : Nat
deriving DecidableEq, Repr

/-- R68: a started command record. -/
structure CmdRec where
  ref : CmdRef
  addr : Nat
  bits : Nat
  /-- R70: STATUS, DETAIL and INFO once decided. -/
  res : Option (Nat × Nat × Nat)
  /-- Its command has begun to act. -/
  begun : Bool
  /-- R137: the task record built for a LAUNCH, by island and address. -/
  trec : Option (Nat × Nat)
  /-- R99: the island and physical pages whose earlier accesses an UNMAP waits for. -/
  pages : Option (Nat × List (Nat × Nat))
  /-- R99: the translation caches of the island have dropped what an UNMAP cleared. -/
  dropped : Bool
deriving DecidableEq, Repr

/-- R58, R60: a queue pair: the port it is bound to, the receive buffers that the host has posted and that no message has
taken, by size, and the messages placed, oldest first. -/
structure Qp where
  port : Nat
  posted : List Nat
  got : List (List Byte)
deriving DecidableEq, Repr

/-- R63: who asks through Redfish: a tenant's credentials, or system software's, and whether the request came on the
management VLAN. -/
structure Cred where
  tenant : Option Nat
  mgmt : Bool
deriving DecidableEq, Repr

/-- R63: system software on the management VLAN. -/
def Cred.system : Cred := ⟨none, true⟩

/-- R61: a memory region. -/
structure Region where
  isl : Nat
  va : Nat
  len : Nat
deriving DecidableEq, Repr

/-- R60: what the hub sends to hosts. -/
inductive HostMsg where
  | ack (part qp : Nat)
  | nakInvalid (part qp : Nat)
  | nakAccess (part qp : Nat)
  | nakOper (part qp : Nat)
  /-- A SEND or an immediate found no receive buffer posted (log entry 31). -/
  | nakNotReady (part qp : Nat)
  | data (part qp : Nat) (bytes : List Byte)
  | send (part qp : Nat) (bytes : List Byte)
  | redfish (part : Nat) (code : Nat) (vals : List Nat)
  | refusedRequest (code : Nat)
deriving DecidableEq, Repr

/-- R79: a firmware image. -/
structure Image where
  version : Nat
  signed : Bool
  hash : Nat
deriving DecidableEq, Repr

/-- R79: the course of a boot. -/
inductive Boot where
  | off
  | rom
  | https
  /-- R22: the anchor has started and waits for coolant before it powers the islands. -/
  | dry
  | running
deriving DecidableEq, Repr

/-- The hub. -/
structure HubSt where
  boot : Boot
  /-- R79: the flash image and the running one. -/
  flash : Image
  image : Image
  rollback : Nat
  /-- R78: the service firmware runs. -/
  service : Bool
  /-- R82: hub time in ns since cold reset. -/
  ns : Nat
  clk : Tbl Nat Nat
  power : Tbl Nat Power
  cap : Nat
  nextRound : Nat
  undervoltage : Bool
  noFlow : Bool
  /-- R20: the telemetry of the last budget round, by island. -/
  telemetry : Tbl Nat Telemetry
  /-- R23: the boot ROM's and the anchor's log, oldest first. -/
  console : List LogLine
  /-- R35, R47: response timer in ns and blocked-packet timer in ns. -/
  respNs : Nat
  blockNs : Nat
  chains : Tbl (Nat × Nat) CmdChain
  cmds : List CmdRec
  /-- R58, R60: queue pairs in use, and queue pairs in error, by partition and number. -/
  qps : Tbl (Nat × Nat) Qp
  qpError : List (Nat × Nat)
  regions : Tbl (Nat × Nat) Region
  out : List HostMsg
  /-- R11, R105: SENDs of islands' fault units that wait for their way to the hub, by island. -/
  sends : List (Nat × HostMsg)
  /-- R213: corrected errors counted by structure. -/
  corrected : Tbl Nat Nat
  /-- R86: the PCP's weighted round robin: the partition in service, and the services left in its turn. -/
  pcpTurn : Nat × Nat
  /-- R81: the attestation key of this boot, and its certificate, signed with the identity key. -/
  attKey : Nat
  attCert : Nat × Nat
deriving DecidableEq, Repr

/-- R12, R81: what manufacture fixed in one-time storage. -/
structure Manufacture where
  popmask : BitVec 24
  keyHash : Nat
  /-- R81: the unit's identity key, and Kelsum's certificate for it. -/
  identityKey : Nat
  certificate : Nat
  /-- R23: the identity record that the SMBus reads. -/
  identity : Nat
deriving DecidableEq, Repr

/-! ### Inputs and schedule -/

/-- R17: an island's demand reading. -/
structure Reading where
  isl : Nat
  watts : Nat
  flag : Bool
  /-- R20: the die temperature. -/
  temp : Nat
deriving DecidableEq, Repr

/-- R59: a frame from a host: the port's MAC address and VLAN id it carries, its queue pair. -/
structure Frame where
  /-- R58: the bytes of the longest frame of the message. -/
  len : Nat
  part : Nat
  mac : Nat
  vlan : Nat
  port : Nat
  qp : Nat
deriving DecidableEq, Repr

/-- The particulars of an event: what the outside world, or the order of events, supplies. -/
inductive Occ where
  | none
  | island (isl : Nat)
  | islandIn (isl arg : Nat)
  | link (l : LinkEnd)
  | handshake (l : LinkEnd) (first : Bool) (cfg : LinkCfg)
  | packet (id : Nat)
  /-- R265: `n` bytes of a packet. -/
  | packetSome (id n : Nat)
  | hop (id : Nat) (port : Nat)
  | txn (src tag : Nat)
  | node (n : Nat)
  | thread (t : Thread)
  | member (m : Member)
  | op (id : Nat)
  | team (isl team : Nat)
  | place (isl part : Nat)
  | cmd (r : CmdRef)
  | chain (part chain : Nat)
  | engine (r : RecRef)
  /-- R265: as much of a record's work as `n` elements, steps or rows. -/
  | engineSome (r : RecRef) (n : Nat)
  | engineChain (c : ChainRef)
  | fault (isl part order : Nat)
  | line (isl line : Nat)
  | loc (l : Loc)
  | cached (isl core sector : Nat) (kind : Nat)
  | count (structure_ : Nat)
  | part (p : Nat)
  | partition (p : Nat) (body : Part)
  | frames (isl part first count : Nat) (table : Bool)
  | register (part chain isl desc head : Nat)
  | fchain (part isl desc base size : Nat)
  | region (part n : Nat) (r : Region)
  | attest (part nonce : Nat)
  | token (part isl slice : Nat)
  | rotation (n : Nat) (r : Rotation)
  | move (isl ces from_ into : Nat)
  | setting (which part value : Nat)
  | redfishRead (which arg : Nat)
  | budget (rs : List Reading) (hub : Nat)
  | boot (bad : List LinkEnd)
  | image (i : Option Image)
  | rdmaWrite (f : Frame) (region off : Nat) (bytes : List Byte) (imm : Option (BitVec 32))
  | rdmaRead (f : Frame) (region off len : Nat)
  | send (f : Frame) (bytes : List Byte)
  | postRecv (f : Frame) (size : Nat)
  | rdmaAtomic (f : Frame)
  | lehr (job : LehrJob) (bad : Nat)
  | slot (n : Nat)
deriving DecidableEq, Repr

/-- One choice of the order in which the part's agents act. -/
inductive Choice where
  | event (i : Instr) (o : Occ)
  /-- R63: an event that a Redfish request asks for, with its credentials. -/
  | redfish (c : Cred) (i : Instr) (o : Occ)
  | issue (t : Thread)
  | perform (op : Nat) (k : Nat)
  /-- R162: an operation takes its effect and keeps its result, which lands later. -/
  | early (op : Nat)
  | inject (pkt : Nat)
  | settle (m : Member)
  | finish (t : Thread)
  | tick (n : Nat)
  | dropL1 (isl core sector : Nat)
  | dropI (isl core sector : Nat)
  | dropC (isl core sector : Nat)
  /-- R100: a translation cache takes in the translation of an address, or drops an entry. -/
  | fillTlb (isl : Nat) (ag : TlbAgent) (part va : Nat)
  | dropTlb (isl : Nat) (ag : TlbAgent) (n : Nat)
  /-- R99: the translation caches drop what an UNMAP cleared. -/
  | shootdown (r : CmdRef)
  /-- R203, R206: the same for what a SEAL or UNSEAL changed. -/
  | shootOp (op : Nat)
  /-- R277: an engine reads a sector ahead, or drops one, or a write of a copy engine performs. -/
  | fillBuf (isl : Nat) (e : Engine) (core : Option Nat) (sector : Nat)
  | dropBuf (isl : Nat) (e : Engine) (core : Option Nat) (sector : Nat)
  | drainOut (n : Nat)
  | engRead (c : ChainRef)
  | matStart (isl core : Nat)
  /-- R265: a matrix engine reads the operands of `n` rows of its instruction. -/
  | matRows (isl core n : Nat)
deriving DecidableEq, Repr

/-- The state of the part. -/
structure State where
  /-- Fixed at manufacture. -/
  unit : Manufacture
  /-- The model's own: the order in which agents act, as far as it is laid down. -/
  sched : List Choice
  /-- The model's own: the particulars of the event under way. -/
  occ : Occ
  /-- R63: the credentials of the Redfish request under way. -/
  cred : Cred
  /-- The thread whose instruction is in issue. -/
  focus : Option Thread
  /-- The model's own: a counter for free values. -/
  free : Nat
  /-- The model's own: a counter that orders clause starts and failures. -/
  serial : Nat
  core : CoreSt
  mem : MemSt
  task : TaskSt
  eng : EngSt
  par : PartSt
  fab : FabSt
  hub : HubSt
deriving DecidableEq, Repr

/-- Why a run stops with a fault: nothing in the spec does, since every trap, error and failure that it names has an effect. -/
inductive Fault where
  /-- Safe: an access to an address outside the part; raised by no meaning, since every access is translated or checked
  before it is made. -/
  | noSuchAddress (addr : Nat)
deriving DecidableEq, Repr

/-- Why a step has no meaning here. -/
inductive Refusal where
  /-- Safe: an instruction without a meaning; raised by its arm of `exec`. -/
  | notModelled (mnemonic : String)
  /-- Safe: an instruction is executed while no thread is in issue; raised by every instruction's meaning. -/
  | noIssuer
  /-- Safe: the event cannot take place in this state, since its condition in the spec does not hold; raised by the
  events' meanings. -/
  | notEnabled (mnemonic : String)
  /-- Safe: the schedule names an agent that cannot act; raised by `step`. -/
  | notReady
deriving DecidableEq, Repr

namespace State

/-- R12: the population mask of the unit modelled: every site populated (log entry 3). -/
def resetPopmask : BitVec 24 := 0xFFFFFF

/-- R79: the image in flash at delivery: it verifies (log entry 3). -/
def resetImage : Image := ⟨1, true, 0⟩

/-- The cores at reset: no member lives, so every register the spec names is absent and reads zero when a member
starts (R157). -/
def resetCore : CoreSt := ⟨[], [], [], [], [], [], 1, [], []⟩

/-- The memories at reset: nothing listed (log entry 6). -/
def resetMem : MemSt :=
  ⟨Mem.empty, Mem.empty, Mem.empty, [], [], [], [], Mem.empty, [], [], [], [], [], [], []⟩

/-- The task units at reset. -/
def resetTask : TaskSt := ⟨[], [], 1, [], [], []⟩

/-- The engines at reset. -/
def resetEng : EngSt := ⟨[], [], [], [], [], [], [], []⟩

/-- Partitions at reset: none, every frame FREE, every scrub sequence zero. -/
def resetPart : PartSt := ⟨[], [], [], [], [], 1, [], [], [], [], [], [], []⟩

/-- R42, R45: the fabric at reset: every link DOWN, the UCIe links too, no view published, XCODE 0, no token. -/
def resetFab : FabSt :=
  { pkts := [], nextPkt := 1, txns := [], tags := [], pctr := [], keys := [], nextEpoch := 1, expect := [], chans := [],
    links := [], topogen := 0, xcode := 0, ring := [], views := [], quiesce := [],
    ucieDown := (List.range 24).map fun i => (i, 0), switchGen := 0,
    toposet := none, topoq := [], fenced := [], belay := none, ropeStats := [], discards := [], drrTurn := [], deficit := [] }

/-- The hub at reset: the boot ROM stands before its checks (R79); the settings hold their defaults (R35, R47). R17 gives the
module cap a maximum of 23.5 kW and no value before software sets one: that it starts at the maximum is the model's choice
(log entry 41). -/
def resetHub : HubSt :=
  { boot := .rom, flash := resetImage, image := resetImage, rollback := 0, service := false, ns := 0, clk := [],
    power := [], cap := 23500, nextRound := 1000000, undervoltage := false, noFlow := false, respNs := 10000000,
    blockNs := 16000, chains := [], cmds := [], qps := [], qpError := [], regions := [], out := [], sends := [], corrected := [],
    telemetry := [], console := [], pcpTurn := (0, 0), attKey := 0, attCert := (0, 0) }

/-- R24, R79: the part right after a cold reset, before the boot ROM has run. -/
def reset : State :=
  { unit := ⟨resetPopmask, 0, 0, 0, 0⟩, sched := [], occ := .none, cred := Cred.system, focus := none, free := 0, serial := 1, core := resetCore,
    mem := resetMem, task := resetTask, eng := resetEng, par := resetPart, fab := resetFab, hub := resetHub }

end State

/-- An outcome of the machine. -/
abbrev Out := Host.Outcome State Fault Refusal

end Sys2Proof.Machine
end

