-- ==== Sys2Proof/Machine/Table.lean ====
section
/-! DEFINITION. Operations on tables, lanes and byte memories. -/

namespace Sys2Proof.Machine

open Sys2Proof

/-! ### Tables -/

/-- The entry of a key. -/
def Tbl.get? {κ α : Type} [DecidableEq κ] : Tbl κ α → κ → Option α
  | [], _ => none
  | (k, v) :: t, x => if k = x then some v else Tbl.get? t x

/-- The entry of a key, or a default. -/
def Tbl.getD {κ α : Type} [DecidableEq κ] (t : Tbl κ α) (x : κ) (d : α) : α := (t.get? x).getD d

/-- Replace the entry of a key, or add one. -/
def Tbl.set {κ α : Type} [DecidableEq κ] : Tbl κ α → κ → α → Tbl κ α
  | [], x, v => [(x, v)]
  | (k, w) :: t, x, v => if k = x then (k, v) :: t else (k, w) :: Tbl.set t x v

/-- Remove the entry of a key. -/
def Tbl.erase {κ α : Type} [DecidableEq κ] (t : Tbl κ α) (x : κ) : Tbl κ α := t.filter fun e => e.1 ≠ x

/-- Change the entry of a key where there is one. -/
def Tbl.modify {κ α : Type} [DecidableEq κ] (t : Tbl κ α) (x : κ) (f : α → α) : Tbl κ α :=
  match t.get? x with
  | some v => t.set x (f v)
  | none => t

/-- Remove the entries whose keys meet a condition. -/
def Tbl.drop {κ α : Type} (t : Tbl κ α) (p : κ → Bool) : Tbl κ α := t.filter fun e => !p e.1

/-! ### Lanes -/

/-- The 32 lanes of a value given lane by lane. -/
def lanesOf {α : Type} (f : Nat → α) : List α := (List.range 32).map f

/-- Lane `l` of a vector register. -/
def lane32 (v : List W32) (l : Nat) : W32 := v.getD l 0

/-- Lane `l` of a latch. -/
def lane64 (v : List W64) (l : Nat) : W64 := v.getD l 0

/-- The lanes of a mask, in ascending order. -/
def lanesIn (m : W32) : List Nat := (List.range 32).filter fun l => m.getLsbD l

/-- The mask of the lanes that meet a condition. -/
def maskOf (p : Nat → Bool) : W32 := (List.range 32).foldl (fun m l => if p l then m ||| (1#32 <<< l) else m) 0

/-- The lowest lane of a mask; 0 when there is none. -/
def lowLane (m : W32) : Nat := (lanesIn m).headD 0

/-! ### Byte memories -/

/-- Memory in raw form: one byte. -/
def Memory.get : List Host.Cell → Nat → Byte
  | [], _ => 0
  | (k, v) :: m, a => if k = a then v else if a < k then 0 else Memory.get m a

/-- Memory in raw form: write one byte, keeping the canonical form. -/
def Memory.put : List Host.Cell → Nat → Byte → List Host.Cell
  | [], a, v => if v = 0 then [] else [(a, v)]
  | (k, w) :: m, a, v =>
    if a < k then (if v = 0 then (k, w) :: m else (a, v) :: (k, w) :: m)
    else if a = k then (if v = 0 then m else (a, v) :: m)
    else (k, w) :: Memory.put m a v

/-- The canonical form of a nonempty memory is that of its head and of its rest. -/
theorem Memory.wf_cons (k : Nat) (w : Byte) (m : List Host.Cell) :
    Memory.wf ((k, w) :: m) = true ↔ w ≠ 0 ∧ (∀ c ∈ m.head?, k < c.1) ∧ Memory.wf m = true := by
  cases m with
  | nil => simp [Memory.wf]
  | cons d ds => simp [Memory.wf, Bool.and_eq_true, and_assoc]

/-- The first cell after a write is the written one or the old first. -/
theorem Memory.head_put (m : List Host.Cell) (a : Nat) (v : Byte) (b : Nat) (hab : b < a)
    (hm : ∀ c ∈ m.head?, b < c.1) (hw : Memory.wf m = true) : ∀ c ∈ (Memory.put m a v).head?, b < c.1 := by
  cases m with
  | nil => by_cases hv : v = 0#8 <;> simp [Memory.put, hv, hab]
  | cons d ds =>
    obtain ⟨k, w⟩ := d
    have hk : b < k := by simpa using hm
    have hr := ((Memory.wf_cons k w ds).1 hw).2.1
    simp only [Memory.put]
    split
    · split <;> simp [hk, hab]
    · split
      · split
        · intro c hc; have := hr c hc; omega
        · simp [hab]
      · simp [hk]

/-- Every write keeps the canonical form. -/
theorem Memory.put_wf (m : List Host.Cell) (a : Nat) (v : Byte) (h : Memory.wf m = true) :
    Memory.wf (Memory.put m a v) = true := by
  induction m with
  | nil => by_cases hv : v = 0#8 <;> simp [Memory.put, Memory.wf, hv]
  | cons d ds ih =>
    obtain ⟨k, w⟩ := d
    have hd := (Memory.wf_cons k w ds).1 h
    simp only [Memory.put]
    split
    · next hlt =>
      split
      · exact h
      · next hv => exact (Memory.wf_cons a v _).2 ⟨hv, by simpa using hlt, h⟩
    · next hge =>
      split
      · next heq =>
        split
        · exact hd.2.2
        · next hv => exact (Memory.wf_cons a v ds).2 ⟨hv, by rw [heq]; exact hd.2.1, hd.2.2⟩
      · next hne =>
        exact (Memory.wf_cons k w _).2
          ⟨hd.1, Memory.head_put ds a v k (by omega) hd.2.1 hd.2.2, ih hd.2.2⟩

/-- One byte of a memory. -/
def Mem.get (m : Mem) (a : Nat) : Byte := Memory.get m.cells a

/-- Write one byte of a memory. -/
def Mem.put (m : Mem) (a : Nat) (v : Byte) : Mem := ⟨Memory.put m.cells a v, Memory.put_wf m.cells a v m.canon⟩

/-- The bytes from an address. -/
def Mem.bytes (m : Mem) (a n : Nat) : List Byte := (List.range n).map fun i => m.get (a + i)

/-- Write bytes from an address. -/
def Mem.putBytes (m : Mem) (a : Nat) (bs : List Byte) : Mem :=
  (bs.zipIdx).foldl (fun m p => m.put (a + p.2) p.1) m

/-- Leaving out cells keeps the canonical form. -/
theorem Memory.filter_wf (m : List Host.Cell) (p : Host.Cell → Bool) (h : Memory.wf m = true) :
    Memory.wf (m.filter p) = true := by
  induction m with
  | nil => simpa using h
  | cons d ds ih =>
    obtain ⟨k, w⟩ := d
    have hd := (Memory.wf_cons k w ds).1 h
    have hall : ∀ (l : List Host.Cell) (b : Nat), (∀ c ∈ l.head?, b < c.1) → Memory.wf l = true →
        ∀ c ∈ (l.filter p).head?, b < c.1 := by
      intro l
      induction l with
      | nil => intro b _ _; simp
      | cons e es ihe =>
        obtain ⟨k', w'⟩ := e
        intro b hb hl
        have hl' := (Memory.wf_cons k' w' es).1 hl
        have hk' : b < k' := by simpa using hb
        by_cases hp : p (k', w') = true
        · simp [hp, hk']
        · simp only [List.filter_cons, hp]
          exact ihe b (fun c hc => Nat.lt_trans hk' (hl'.2.1 c hc)) hl'.2.2
    by_cases hp : p (k, w) = true
    · simp only [List.filter_cons, hp, if_true]
      exact (Memory.wf_cons k w _).2 ⟨hd.1, hall ds k hd.2.1 hd.2.2, ih hd.2.2⟩
    · simp only [List.filter_cons, hp]
      exact ih hd.2.2

/-- Clear every cell whose address meets a condition. -/
def Mem.clear (m : Mem) (p : Nat → Bool) : Mem :=
  ⟨m.cells.filter fun c => !p c.1, Memory.filter_wf m.cells _ m.canon⟩

/-- The number of little-endian bytes. -/
def leNat : List Byte → Nat
  | [] => 0
  | b :: bs => b.toNat + 256 * leNat bs

/-- The `n` little-endian bytes of a number. -/
def leBytes (n x : Nat) : List Byte := (List.range n).map fun i => BitVec.ofNat 8 (x / 256 ^ i)

end Sys2Proof.Machine
end

