-- ==== Sys2Proof/Machine/Memory.lean ====
section
/-! DEFINITION. Memory as the agents of an island reach it: the island cache and HBM behind it, the word caches of the
cores, scratchpads, poison, and the translation of virtual addresses. -/

namespace Sys2Proof.Machine

open Sys2Proof

/-! ### The island cache and HBM -/

/-- R10: the key of a physical byte of an island in the byte memories. -/
def gkey (isl pa : Nat) : Nat := isl * 2 ^ 39 + pa

/-- R190: the key of a scratchpad byte of a core. -/
def skey (isl core off : Nat) : Nat := (isl * 96 + core) * 2 ^ 19 + off

/-- R197: a byte as its home bank reads it: the marked byte of the island cache, else HBM. -/
def MemSt.byte (m : MemSt) (isl pa : Nat) : Byte :=
  if m.l2mark.get (gkey isl pa) = 0 then m.hbm.get (gkey isl pa) else m.l2.get (gkey isl pa)

/-- Bytes at the home bank. -/
def MemSt.bytes (m : MemSt) (isl pa n : Nat) : List Byte := (List.range n).map fun i => m.byte isl (pa + i)

/-- The little-endian number of `n` bytes at the home bank. -/
def MemSt.nat (m : MemSt) (isl pa n : Nat) : Nat := leNat (m.bytes isl pa n)

/-- R197: the 64 bytes of a sector are all marked. -/
def MemSt.sectorMarked (m : MemSt) (isl sector : Nat) : Bool :=
  (List.range 64).all fun i => m.l2mark.get (gkey isl (sector * 64 + i)) != 0

/-- R217: of the 64 bytes of a sector, those that `n` bytes at an address cover. -/
def coverMask (sec a n : Nat) : BitVec 64 :=
  (List.range 64).foldl (fun x i => if a ≤ sec * 64 + i ∧ sec * 64 + i < a + n then x ||| (1 <<< i) else x) 0

/-- R217: a write to a poisoned sector: once every byte has been written since the poison came, it is cleared. -/
def MemSt.cureSector (m : MemSt) (l : Loc) (mask : BitVec 64) : MemSt :=
  if !m.poison.contains l then m
  else
    let x := m.fresh.getD l 0 ||| mask
    if x = BitVec.allOnes 64 then { m with poison := m.poison.filter (· ≠ l), fresh := m.fresh.erase l }
    else { m with fresh := m.fresh.set l x }

/-- R217: writes that together cover a whole poisoned sector, of the memory whose sectors `at_` names, clear its poison. -/
def MemSt.curePoison (m : MemSt) (at_ : Nat → Loc) (a n : Nat) : MemSt :=
  if m.poison.isEmpty then m
  else ((List.range ((a + n - 1) / 64 - a / 64 + 1)).map (· + a / 64)).foldl
    (fun m sec => m.cureSector (at_ sec) (coverMask sec a n)) m

/-- R197: write and mark bytes in the island cache. -/
def MemSt.writeBank (m : MemSt) (isl pa : Nat) (bs : List Byte) : MemSt :=
  MemSt.curePoison { m with
    l2 := m.l2.putBytes (gkey isl pa) bs
    l2mark := m.l2mark.putBytes (gkey isl pa) (bs.map fun _ => 1) } (.global isl) pa bs.length

/-- The word numbers that `n` bytes from an address touch. -/
def wordsOf (pa n : Nat) : List Nat := (List.range ((pa + n - 1) / 4 - pa / 4 + 1)).map (· + pa / 4)

/-- R194: an ordinary store by a core: it updates its own L1 words, registers ownership and revokes the words from
their earlier owner. -/
def MemSt.registerOwner (m : MemSt) (isl core pa : Nat) (bs : List Byte) : MemSt :=
  (wordsOf pa bs.length).foldl (fun m w =>
    let old := m.owner.get? (isl, w)
    let l1 := match old with
      | some c => if c = core then m.l1 else m.l1.erase (isl, c, w)
      | none => m.l1
    let l1 := match l1.get? (isl, core, w) with
      | some x => l1.set (isl, core, w) ⟨w32 (m.nat isl (w * 4) 4), true, x.sealed⟩
      | none => l1
    { m with owner := m.owner.set (isl, w) core, l1 := l1 }) m

/-- R195: a write that bypasses L1 clears the owner of every word it writes and revokes the word; a core's own write
of this kind also invalidates the word in its own L1. -/
def MemSt.clearOwner (m : MemSt) (isl : Nat) (core : Option Nat) (pa n : Nat) : MemSt :=
  (wordsOf pa n).foldl (fun m w =>
    let l1 := match m.owner.get? (isl, w) with
      | some c => m.l1.erase (isl, c, w)
      | none => m.l1
    let l1 := match core with
      | some c => l1.erase (isl, c, w)
      | none => l1
    { m with owner := m.owner.erase (isl, w), l1 := l1 }) m

/-- R276: a write at a line's home bank wakes the watches on it. -/
def wakeWatches (s : State) (isl pa n : Nat) : State :=
  { s with core := { s.core with threads := s.core.threads.map fun (t, r) =>
      match r.watch with
      | some w => if w.isl = isl ∧ pa / 256 ≤ w.line ∧ w.line ≤ (pa + n - 1) / 256
          then (t, { r with watch := some { w with hit := true } }) else (t, r)
      | none => (t, r) } }

/-- R276: the watches on some lines are lost, and their waits return. -/
def loseWatches (s : State) (isl : Nat) (p : Nat → Bool) : State :=
  { s with core := { s.core with threads := s.core.threads.map fun (t, r) =>
      match r.watch with
      | some w => if w.isl = isl ∧ p (w.line * 256) then (t, { r with watch := some { w with hit := true } }) else (t, r)
      | none => (t, r) } }

/-! ### Eviction from the island cache -/

/-- R196: the owner of a frame as HomeSlice reads it. -/
def frameOwner (s : State) (isl frame : Nat) : Nat :=
  match s.par.frames.get? (isl, frame) with
  | some (.owned, p) | some (.table, p) => p
  | _ => 0

/-- R196: HomeSlice. -/
def homeSlice (s : State) (isl pa : Nat) : Nat :=
  match s.par.parts.get? (frameOwner s isl (pa / 65536)) with
  | some p =>
    if p.slices = 0xFFF then pa / 256 % 12
    else
      let own := (List.range 12).filter fun k => nbit p.slices k
      own.headD 0 + pa / 256 % own.length
  | none => pa / 256 % 12

/-- R214, R217: the poison of a sector as it leaves the island cache: written back with marked bytes, it is poison in HBM;
a copy without any is discarded; a sector that is marked whole replaces what HBM held. -/
def MemSt.evictPoison (m : MemSt) (isl sec : Nat) : MemSt :=
  if m.poison.isEmpty then m
  else
    let marks := (List.range 64).any fun i => m.l2mark.get (gkey isl (sec * 64 + i)) != 0
    let bad := m.poison.contains (.global isl sec)
    let rest := m.poison.filter fun l => l != .global isl sec && (l != .hbm isl sec || !m.sectorMarked isl sec)
    { m with
      poison := if bad && marks && !rest.contains (.hbm isl sec) then .hbm isl sec :: rest else rest
      fresh := m.fresh.erase (.global isl sec) }

/-- R197: the marked bytes of a line go to HBM, and their marks are cleared. -/
def MemSt.evict (m : MemSt) (isl line : Nat) : MemSt :=
  let m := (List.range 4).foldl (fun m i => m.evictPoison isl (line * 4 + i)) m
  (List.range 256).foldl (fun m i =>
    let k := gkey isl (line * 256 + i)
    if m.l2mark.get k = 0 then m
    else { m with hbm := m.hbm.put k (m.l2.get k), l2 := m.l2.put k 0, l2mark := m.l2mark.put k 0 }) m

/-- R197, R276: a line leaves the island cache; a watch on it is lost. -/
def evictLine (s : State) (isl line : Nat) : State :=
  loseWatches { s with mem := s.mem.evict isl line } isl fun a => a / 256 == line

/-- R196: the lines of a bank, 24 MiB of 256 bytes. -/
def bankLines : Nat := 98304

/-- R196, R197: the lines with marked bytes in the bank of an address, that of the address itself apart. -/
def dirtyLines (s : State) (isl pa : Nat) : List Nat :=
  let home := homeSlice s isl pa
  s.mem.l2mark.cells.foldl (fun ls c =>
    let line := c.1 % 2 ^ 39 / 256
    if c.1 / 2 ^ 39 = isl ∧ line ≠ pa / 256 ∧ ls.head? ≠ some line ∧ homeSlice s isl (line * 256) = home then line :: ls
    else ls) []

/-- R196: a bank that is full gives up a line before it takes in another: of those with marked bytes, that of the lowest
address, which is the model's choice (log entry 15). -/
def makeRoom (isl : Nat) (s : State) (pa : Nat) : State :=
  if s.mem.l2mark.cells.length < bankLines then s
  else
    let ls := dirtyLines s isl pa
    if ls.length < bankLines then s else evictLine s isl (ls.getLastD 0)

/-- R196: the bytes of a write, cut at the lines of the island cache. -/
def lineParts : Nat → Nat → List Byte → List (Nat × List Byte)
  | 0, _, _ => []
  | fuel + 1, pa, bs =>
    if bs.isEmpty then []
    else
      let k := 256 - pa % 256
      (pa, bs.take k) :: lineParts fuel (pa + k) (bs.drop k)

/-- R194: an ordinary store performs at its home bank, line by line. -/
def storeBank (s : State) (isl core pa : Nat) (bs : List Byte) : State :=
  (lineParts (bs.length + 1) pa bs).foldl (fun s x =>
    let s := makeRoom isl s x.1
    wakeWatches { s with mem := (s.mem.writeBank isl x.1 x.2).registerOwner isl core x.1 x.2 } isl x.1 x.2.length) s

/-- R195: a write that bypasses L1 performs at its home bank, line by line. -/
def bypassBank (s : State) (isl : Nat) (core : Option Nat) (pa : Nat) (bs : List Byte) : State :=
  (lineParts (bs.length + 1) pa bs).foldl (fun s x =>
    let s := makeRoom isl s x.1
    wakeWatches { s with mem := (s.mem.writeBank isl x.1 x.2).clearOwner isl core x.1 x.2.length } isl x.1 x.2.length) s

/-! ### L1 -/

/-- R194: an L1 that holds 1,024 lines, 256 KiB, gives one up before it takes in another (log entry 15). -/
def MemSt.roomL1 (m : MemSt) (isl core line : Nat) : MemSt :=
  if m.l1.length < 1024 then m
  else
    let ls := ((m.l1.filter fun e => e.1.1 == isl && e.1.2.1 == core && e.1.2.2 / 64 != line).map (·.1.2.2 / 64)).eraseDups
    if ls.length < 1024 then m
    else { m with l1 := m.l1.drop fun k => k.1 == isl && k.2.1 == core && k.2.2 / 64 == ls.headD 0 }

/-- R194: a load that misses fills its sector; a word the core owns is current and stays. -/
def MemSt.fillL1 (m : MemSt) (isl core sector : Nat) (sealed : Bool) : MemSt :=
  let m := m.roomL1 isl core (sector / 4)
  (List.range 16).foldl (fun m i =>
    let w := sector * 16 + i
    match m.l1.get? (isl, core, w) with
    | some ⟨_, true, _⟩ => m
    | _ => { m with l1 := m.l1.set (isl, core, w) ⟨w32 (m.nat isl (w * 4) 4), false, sealed⟩ }) m

/-- A byte of a core's L1, where it holds the word. -/
def MemSt.l1byte (m : MemSt) (isl core pa : Nat) : Option Byte :=
  (m.l1.get? (isl, core, pa / 4)).map fun x => BitVec.ofNat 8 (x.val.toNat / 256 ^ (pa % 4))

/-- R194: an L1 holds every word of an access. -/
def MemSt.l1Hit (m : MemSt) (isl core pa n : Nat) : Bool := (wordsOf pa n).all fun w => (m.l1.get? (isl, core, w)).isSome

/-- R194: a plain load of `n` aligned bytes through L1. -/
def MemSt.loadL1 (m : MemSt) (isl core pa n : Nat) (sealed : Bool) : MemSt × Nat :=
  let m' := if m.l1Hit isl core pa n then m else m.fillL1 isl core (pa / 64) sealed
  (m', leNat ((List.range n).map fun i => (m'.l1byte isl core (pa + i)).getD 0))

/-- R272: a core's L1 drops the words that a read at the home bank has read, but for those it owns. -/
def MemSt.dropStale (m : MemSt) (isl core pa n : Nat) : MemSt :=
  { m with l1 := m.l1.filter fun e => e.1.1 != isl || e.1.2.1 != core || e.2.owned || !(wordsOf pa n).contains e.1.2.2 }

/-- R268: an acquiring load reads at the home bank, except words the core owns and sealed lines. -/
def MemSt.loadAcq (m : MemSt) (isl core pa n : Nat) : Nat :=
  leNat ((List.range n).map fun i =>
    match m.l1.get? (isl, core, (pa + i) / 4) with
    | some x => if x.owned || x.sealed then BitVec.ofNat 8 (x.val.toNat / 256 ^ ((pa + i) % 4))
        else m.byte isl (pa + i)
    | none => m.byte isl (pa + i))

/-- R268: an acquire invalidates every L1 word of the core that is neither owned nor sealed. -/
def MemSt.acquire (m : MemSt) (isl core : Nat) : MemSt :=
  { m with l1 := m.l1.filter fun e => e.1.1 != isl || e.1.2.1 != core || e.2.owned || e.2.sealed }

/-- R199, R204: a cache of `cap` sectors a core that is full gives one up before it takes in another (log entry 15). -/
def roomSector (t : Tbl (Nat × Nat × Nat) (List Byte)) (isl core cap : Nat) : Tbl (Nat × Nat × Nat) (List Byte) :=
  if t.length < cap then t
  else
    let ks := (t.map (·.1)).filter fun k => k.1 == isl && k.2.1 == core
    if ks.length < cap then t else t.erase (ks.headD (0, 0, 0))

/-- R204: a load through the constant cache, of 64 KiB, of a sealed page. -/
def MemSt.loadConst (m : MemSt) (isl core pa n : Nat) : MemSt × Nat :=
  let sec := pa / 64
  match m.ccache.get? (isl, core, sec) with
  | some bs => (m, leNat ((bs.drop (pa % 64)).take n))
  | none =>
    ({ m with ccache := (roomSector m.ccache isl core 1024).set (isl, core, sec) (m.bytes isl (sec * 64) 64) }, m.nat isl pa n)

/-- R199: a fetch of 8 bytes through the instruction cache, of 128 KiB. -/
def MemSt.fetch (m : MemSt) (isl core pa : Nat) : MemSt × Nat :=
  let sec := pa / 64
  match m.icache.get? (isl, core, sec) with
  | some bs => (m, leNat ((bs.drop (pa % 64)).take 8))
  | none =>
    ({ m with icache := (roomSector m.icache isl core 2048).set (isl, core, sec) (m.bytes isl (sec * 64) 64) }, m.nat isl pa 8)

/-! ### Scratchpad -/

/-- Bytes of a scratchpad. -/
def MemSt.spadBytes (m : MemSt) (isl core off n : Nat) : List Byte := m.spad.bytes (skey isl core off) n

/-- Write bytes of a scratchpad; writes that cover a whole sector clear its poison (R217; log entry 29). -/
def MemSt.spadPut (m : MemSt) (isl core off : Nat) (bs : List Byte) : MemSt :=
  MemSt.curePoison { m with spad := m.spad.putBytes (skey isl core off) bs } (.spad isl core) off bs.length

/-! ### Poison -/

/-- R214: a sector is poisoned: in the island cache, or in HBM where the cache does not hold all of it as written. -/
def MemSt.sectorPoisoned (m : MemSt) (isl sec : Nat) : Bool :=
  m.poison.contains (.global isl sec) || (m.poison.contains (.hbm isl sec) && !m.sectorMarked isl sec)

/-- R215: the first poisoned byte of a global access, if any. -/
def MemSt.poisonedAt (m : MemSt) (isl pa n : Nat) : Option Nat :=
  if m.poison.isEmpty then none
  else ((List.range n).find? fun i => m.sectorPoisoned isl ((pa + i) / 64)).map (pa + ·)

/-- R200: the masked write of one 8-byte word; only the bytes with a bit in the mask join the byte mask, and a word in a
poisoned sector is not written. -/
def subByteBank (s : State) (isl : Nat) (core : Option Nat) (pa : Nat) (d m : W64) : State :=
  if (s.mem.poisonedAt isl pa 8).isSome then s
  else
    let old := w64 (s.mem.nat isl pa 8)
    let new := (old &&& ~~~m) ||| (d &&& m)
    (List.range 8).foldl (fun s i =>
      if (m >>> (8 * i)) &&& 0xFF = 0 then s
      else bypassBank s isl core (pa + i) [BitVec.ofNat 8 (new.toNat / 256 ^ i)]) s

/-- R215: the first poisoned byte of a scratchpad access, if any. -/
def MemSt.spadPoisonedAt (m : MemSt) (isl core off n : Nat) : Option Nat :=
  if m.poison.isEmpty then none
  else ((List.range n).find? fun i => m.poison.contains (.spad isl core ((off + i) / 64))).map (off + ·)

/-! ### Translation -/

/-- R92: the kinds of access. -/
inductive Acc where
  | read
  | write
  | fetch
  | atomic
deriving DecidableEq, Repr

/-- R106: the ACC code of a fault record. -/
def Acc.code : Acc → Nat
  | .read => 0
  | .write => 1
  | .fetch => 2
  | .atomic => 3

/-- R92: the outcome of a translation. A fault names whether the cause is PERMISSION and the level. -/
inductive Xlate where
  | ok (pa : Nat) (sealed : Bool) (large : Bool)
  | fault (perm : Bool) (level : Nat)
  | sealedStore
deriving DecidableEq, Repr

/-- R91: the fields of an entry. -/
def Pte.ofNat (e : Nat) : Pte :=
  { v := nbit e 63 && nbits e 61 39 == 0 && nbits e 15 8 == 0 && nbits e 3 0 == 0
    l := nbit e 62
    pfn := nbits e 38 16
    sl := nbit e 7
    x := nbit e 6
    w := nbit e 5
    r := nbit e 4 }

/-- R91: the bits of an entry. -/
def Pte.toNat (p : Pte) : Nat :=
  p.v.toNat * 2 ^ 63 + p.l.toNat * 2 ^ 62 + p.pfn * 2 ^ 16 + p.sl.toNat * 2 ^ 7 + p.x.toNat * 2 ^ 6 +
    p.w.toNat * 2 ^ 5 + p.r.toNat * 2 ^ 4

/-- R92: ReadPte, through the island cache. -/
def readPte (s : State) (isl pa : Nat) : Pte := Pte.ofNat (s.mem.nat isl pa 8)

/-- R92: the permission checks on a leaf. -/
def Pte.check (p : Pte) (acc : Acc) (lvl pa : Nat) : Xlate :=
  let ok := match acc with
    | .read => p.r
    | .write => p.w
    | .atomic => p.r && p.w
    | .fetch => p.x
  if (acc = .write ∨ acc = .atomic) ∧ p.sl then .sealedStore
  else if ok then .ok pa p.sl (lvl == 2) else .fault true lvl

/-- R92: the outcome of a walk before its permission check: the leaf, its level and its own physical address. -/
inductive Walk where
  | leaf (p : Pte) (lvl : Nat) (at_ : Nat)
  | none (lvl : Nat)
deriving DecidableEq, Repr

/-- R92: the walk of a virtual address. -/
def walk (s : State) (isl part va : Nat) : Walk :=
  if va / 2 ^ 52 ≠ 0 then .none 1
  else
    match (s.par.parts.get? part).bind fun p => p.roots.get? isl with
    | none => .none 1
    | some root =>
      let e1 := readPte s isl (root + 8 * nbits va 51 42)
      if !e1.v || e1.l then .none 1
      else
        let a2 := e1.pfn * 2 ^ 16 + 8 * nbits va 41 29
        let e2 := readPte s isl a2
        if !e2.v then .none 2
        else if e2.l then .leaf e2 2 a2
        else
          let a3 := e2.pfn * 2 ^ 16 + 8 * nbits va 28 16
          let e3 := readPte s isl a3
          if !e3.v || !e3.l then .none 3 else .leaf e3 3 a3

/-- R92: TranslateGlobal. -/
def translate (s : State) (isl part va : Nat) (acc : Acc) : Xlate :=
  match walk s isl part va with
  | .none lvl => .fault false lvl
  | .leaf p lvl _ =>
    p.check acc lvl (p.pfn * 2 ^ 16 + if lvl = 2 then nbits va 28 0 else nbits va 15 0)

/-- A fault or refusal of a global access of `n` bytes. -/
inductive XErr where
  | fault (va : Nat) (perm : Bool) (level : Nat)
  | sealed (va : Nat)
  | poison (va : Nat)
deriving DecidableEq, Repr

/-- What an access of `n` bytes within one page makes of its translation: it meets poison where it reads. -/
def Xlate.access (x : Xlate) (s : State) (isl va n : Nat) (reads : Bool) : Except XErr (Nat × Bool) :=
  match x with
  | .fault p l => .error (.fault va p l)
  | .sealedStore => .error (.sealed va)
  | .ok pa sl _ =>
    match if reads then s.mem.poisonedAt isl pa n else none with
    | some b => .error (.poison (va + (b - pa)))
    | none => .ok (pa, sl)

/-- Translate an access that lies within one page, and meet its poison where it reads. -/
def access (s : State) (isl part va n : Nat) (acc : Acc) (reads : Bool) : Except XErr (Nat × Bool) :=
  (translate s isl part va acc).access s isl va n reads

/-! ### Translation caches -/

/-- R100: the leaf that a translation cache holds for an address of a partition, and its level. -/
def tlbHit (s : State) (isl : Nat) (ag : TlbAgent) (part va : Nat) : Option (Pte × Nat) :=
  if va / 2 ^ 52 ≠ 0 then none
  else ((s.mem.tlb.getD (isl, ag) []).find? fun e => e.part == part && e.page == va / (if e.large then 2 ^ 29 else 2 ^ 16)).map
    fun e => (e.pte, if e.large then 2 else 3)

/-- R92, R100, R101: TranslateGlobal by an agent that keeps a translation cache. -/
def xlate (s : State) (isl : Nat) (ag : TlbAgent) (part va : Nat) (acc : Acc) : Xlate :=
  match tlbHit s isl ag part va with
  | some (p, lvl) => p.check acc lvl (p.pfn * 2 ^ 16 + if lvl = 2 then nbits va 28 0 else nbits va 15 0)
  | none => translate s isl part va acc

/-- `access` by an agent that keeps a translation cache. -/
def accessBy (s : State) (isl : Nat) (ag : TlbAgent) (part va n : Nat) (acc : Acc) (reads : Bool) : Except XErr (Nat × Bool) :=
  (xlate s isl ag part va acc).access s isl va n reads

/-- R100, R101: the entries of a translation cache: 512 of a core, 2,048 of the fabric interface; the spec gives no number
for an engine, and the model takes a core's (log entry 8). -/
def TlbAgent.capacity : TlbAgent → Nat
  | .remote => 2048
  | _ => 512

/-- R98, R100: a translation cache takes in the leaf that a walk finds, and drops its oldest where it is full; none where
the walk finds no leaf. -/
def fillTlb (s : State) (isl : Nat) (ag : TlbAgent) (part va : Nat) : Option State :=
  match walk s isl part va with
  | .none _ => none
  | .leaf p lvl _ =>
    let e : TlbEntry := ⟨part, va / (if lvl = 2 then 2 ^ 29 else 2 ^ 16), lvl == 2, p⟩
    let es := ((e :: (s.mem.tlb.getD (isl, ag) []).filter (· ≠ e)).take ag.capacity)
    some { s with mem := { s.mem with tlb := s.mem.tlb.set (isl, ag) es } }

/-- R100: a translation cache drops an entry. -/
def dropTlb (s : State) (isl : Nat) (ag : TlbAgent) (n : Nat) : State :=
  { s with mem := { s.mem with tlb := s.mem.tlb.modify (isl, ag) fun es => es.eraseIdx n } }

/-- R99, R110, R121: the translation caches of an island drop the entries of some kind. -/
def emptyTlb (s : State) (isl : Nat) (p : TlbAgent → TlbEntry → Bool) : State :=
  { s with mem := { s.mem with tlb := s.mem.tlb.map fun (k, es) =>
      if k.1 = isl then (k, es.filter fun e => !p k.2 e) else (k, es) } }

/-- R91: the number at an address is a page-table entry with a nonzero RSVD field. -/
def pteBad (s : State) (isl pa : Nat) : Bool :=
  let e := s.mem.nat isl pa 8
  nbits e 61 39 != 0 || nbits e 15 8 != 0 || nbits e 3 0 != 0

/-- R91: the first entry with a nonzero RSVD field that the walk of an address reads. -/
def walkBad (s : State) (isl part va : Nat) : Option Nat :=
  match (s.par.parts.get? part).bind fun p => p.roots.get? isl with
  | none => none
  | some root =>
    let a1 := root + 8 * nbits va 51 42
    let e1 := readPte s isl a1
    let a2 := e1.pfn * 2 ^ 16 + 8 * nbits va 41 29
    let e2 := readPte s isl a2
    let a3 := e2.pfn * 2 ^ 16 + 8 * nbits va 28 16
    if va / 2 ^ 52 ≠ 0 then none
    else if pteBad s isl a1 then some a1
    else if !e1.v || e1.l then none
    else if pteBad s isl a2 then some a2
    else if !e2.v || e2.l then none
    else if pteBad s isl a3 then some a3 else none

/-- A report to system software through Redfish (log entry 23). -/
def report (s : State) (part code : Nat) (vals : List Nat) : State :=
  { s with hub := { s.hub with out := s.hub.out ++ [.redfish part code vals] } }

/-- R91: a walk that fails on an entry with a nonzero RSVD field is reported. -/
def noteWalk (s : State) (isl part va : Nat) : State :=
  match walkBad s isl part va with
  | some a => report s 0 18 [isl, a]
  | none => s

/-- R91: the same where the access failed in translation. -/
def XErr.note (e : XErr) (s : State) (isl part : Nat) : State :=
  match e with
  | .fault va _ _ => noteWalk s isl part va
  | _ => s

/-! ### Accesses of devices -/

/-- A write by an agent that keeps a translation cache, bypassing L1 (R195); it meets sealing. -/
def writeBy (s : State) (isl : Nat) (ag : TlbAgent) (part va : Nat) (bs : List Byte) : Except XErr State :=
  (accessBy s isl ag part va bs.length .write false).map fun a => bypassBank s isl none a.1 bs

/-- A read of a device's own structures in a partition's memory: the number of `n` bytes, at most 64, aligned. -/
def readVa (s : State) (isl part va n : Nat) : Except XErr Nat :=
  match access s isl part va n .read true with
  | .ok (pa, _) => .ok (s.mem.nat isl pa n)
  | .error e => .error e

/-- A write of a device in a partition's memory, bypassing L1 (R195); it meets sealing, and poison as a partial write
of a device does where the caller says so. -/
def writeVa (s : State) (isl part va : Nat) (bs : List Byte) (meetPoison : Bool := true) : Except XErr State :=
  match access s isl part va bs.length .write meetPoison with
  | .ok (pa, _) => .ok (bypassBank s isl none pa bs)
  | .error e => .error e

/-- A write of a device in a partition's memory; where it fails, what is done instead, after the report of R91. -/
def putVa (s : State) (isl part va : Nat) (bs : List Byte) (lost : State → State) : State :=
  match writeVa s isl part va bs with
  | .ok s' => s'
  | .error e => lost (e.note s isl part)

end Sys2Proof.Machine
end

