-- ==== Sys2Proof/Machine/Groups.lean ====
section
/-! DEFINITION. Teams and their members: lookups, the barrier unit's group operations (R175 to R178), and the end of a
member and of a team. -/

namespace Sys2Proof.Machine

open Sys2Proof

/-! ### Lookups -/

/-- The team of an island-local id. -/
def State.team? (s : State) (isl team : Nat) : Option Team := s.task.teams.get? (isl, team)

/-- Replace a team's record. -/
def State.setTeam (s : State) (isl team : Nat) (t : Team) : State :=
  { s with task := { s.task with teams := s.task.teams.set (isl, team) t } }

/-- Change a team's record where the team lives. -/
def State.modTeam (s : State) (isl team : Nat) (f : Team → Team) : State :=
  match s.team? isl team with
  | some t => s.setTeam isl team (f t)
  | none => s

/-- The record of a member. -/
def State.member? (s : State) (m : Member) : Option MemberRec := s.core.members.get? m

/-- Replace a member's record. -/
def State.setMember (s : State) (m : Member) (r : MemberRec) : State :=
  { s with core := { s.core with members := s.core.members.set m r } }

/-- The record of a thread. -/
def State.thread? (s : State) (t : Thread) : Option ThreadRec := s.core.threads.get? t

/-- Replace a thread's record. -/
def State.setThread (s : State) (t : Thread) (r : ThreadRec) : State :=
  { s with core := { s.core with threads := s.core.threads.set t r } }

/-- R163: change the record of a path of a strand, live or pushed. -/
def State.modPath (s : State) (m : Member) (n : Nat) (f : ThreadRec → ThreadRec) : State :=
  match s.thread? ⟨m, n⟩ with
  | some r => s.setThread ⟨m, n⟩ (f r)
  | none =>
    match s.member? m with
    | some mr => s.setMember m { mr with stack := mr.stack.map fun x => if x.1 = n then (n, f x.2) else x }
    | none => s

/-- The live splits of a member, with their records. -/
def State.splits (s : State) (m : Member) : List (Thread × ThreadRec) := s.core.threads.filter fun e => e.1.m = m

/-- The members of a team. -/
def State.membersOf (s : State) (isl team : Nat) : List (Member × MemberRec) :=
  s.core.members.filter fun e => e.1.isl = isl ∧ e.1.team = team

/-- Core clock of an island (R16). -/
def State.clk (s : State) (isl : Nat) : Nat := s.hub.clk.getD isl 0

/-! ### Groups -/

/-- A group of a team; a group the team lacks reads empty. -/
def Team.group (t : Team) (g : Nat) : Group := t.groups.getD g ⟨0, 0, 0, 0⟩

/-- Replace a group of a team. -/
def Team.setGroup (t : Team) (g : Nat) (x : Group) : Team := { t with groups := t.groups.set g x }

/-- R176: memberships pending in a group take effect at its release. -/
def startReadyAttached (s : State) (isl team g : Nat) : State :=
  { s with core := { s.core with members := s.core.members.map fun (m, r) =>
      if m.isl = isl ∧ m.team = team then
        (m, { r with groups := r.groups.map fun x => if x.1 = g then (g, true) else x })
      else (m, r) } }

/-- R175: CheckRelease. -/
def checkRelease (s : State) (isl team g : Nat) : State :=
  match s.team? isl team with
  | none => s
  | some t =>
    let x := t.group g
    if 1 ≤ x.arr ∧ x.memb ≤ x.arr then
      startReadyAttached
        (s.setTeam isl team (t.setGroup g ⟨x.memb + x.pend, 0, 0, (x.phase + 1) % 2 ^ 32⟩)) isl team g
    else s

/-- R175: Arrive; the phase is the one the caller waits on. -/
def arrive (s : State) (isl team g : Nat) : State × Nat :=
  match s.team? isl team with
  | none => (s, 0)
  | some t =>
    let x := t.group g
    (checkRelease (s.setTeam isl team (t.setGroup g { x with arr := x.arr + 1 })) isl team g, x.phase)

/-- R177: one membership leaves its group. -/
def leaveGroup (s : State) (isl team g : Nat) (effective : Bool) : State :=
  match s.team? isl team with
  | none => s
  | some t =>
    let x := t.group g
    let x := if effective then { x with memb := x.memb - 1 } else { x with pend := x.pend - 1 }
    checkRelease (s.setTeam isl team (t.setGroup g x)) isl team g

/-- R177, R178: a strand leaves its groups. -/
def leaveGroups (s : State) (m : Member) : State :=
  match s.member? m with
  | none => s
  | some r => (r.groups.foldl (fun s x => leaveGroup s m.isl m.team x.1 x.2) s).setMember m { r with groups := [] }

/-! ### Pending faults -/

/-- R103: the agents parked on a key: splits and gaffer contexts, and engine records. -/
def agentsOn (s : State) (k : FaultKey) : Nat :=
  (s.core.threads.filter fun e => e.2.wait.parked == some k).length +
    (s.eng.recs.filter fun r => r.parked == some k).length

/-- R103: the key on which an agent parks: that of its entry, or none's where no entry could be made. -/
def parkedOn (s : State) (k : FaultKey) : FaultKey := { k with entry := s.par.faults.any (·.key == k) }

/-- R103: the agents of a partition on an island that wait without an entry walk again. -/
def rewalk (s : State) (isl part : Nat) : State :=
  let loose (k : Option FaultKey) : Bool :=
    match k with
    | some k => k.isl == isl && k.part == part && !s.par.faults.any (·.key == k)
    | none => false
  let threads := s.core.threads.map fun (t, r) =>
    if loose r.wait.parked then (t, { r with wait := { r.wait with parked := none } }) else (t, r)
  let recs := s.eng.recs.map fun r => if loose r.parked then { r with parked := none } else r
  { s with core := { s.core with threads := threads }, eng := { s.eng with recs := recs } }

/-- R109: the entries of a partition on an island on which no agent is parked any more are freed. -/
def freeFaults (s : State) (isl part : Nat) : State :=
  let gone (e : FaultEnt) : Bool := e.key.isl == isl && e.key.part == part && agentsOn s e.key == 0
  if s.par.faults.any gone then
    rewalk { s with par := { s.par with faults := s.par.faults.filter fun e => !gone e } } isl part
  else s

/-! ### Ends -/

/-- R147, R163, R272: nobody waits any more for an operation, and its result lands nowhere; it keeps its place in the
program order that ends at time `n`. -/
def Op.orphan (o : Op) (n : Nat) : Op :=
  { o with lanes := 0, holders := [], path := o.path.map fun x => if x.2 = 0 then (x.1, n) else x }

/-- R147, R163: the threads of a member are gone, and its operations have no holder. -/
def orphanOps (s : State) (m : Member) : State :=
  { s with core := { s.core with
      threads := s.core.threads.filter fun e => e.1.m ≠ m
      ops := s.core.ops.map fun o => if o.m = m then o.orphan s.serial else o } }

/-- R109, R184, R185: every split and gaffer context of a team stops at once; its groups do not change (R178). -/
def stopTeam (s : State) (isl team : Nat) : State :=
  let mine (m : Member) : Bool := m.isl == isl && m.team == team
  let ops := s.core.ops.map fun (o : Op) => if mine o.m then o.orphan s.serial else o
  let members := s.core.members.map fun (m, r) =>
    if mine m then (m, { r with course := .ended, stack := [], groups := [] }) else (m, r)
  let threads := s.core.threads.filter fun e => !mine e.1.m
  let focus := s.focus.filter fun t => !mine t.m
  let s := { s with focus := focus, core := { s.core with threads := threads, ops := ops, members := members } }
  match s.team? isl team with
  | some t => freeFaults s isl t.part
  | none => s

/-- R185: the watchdog of a team has counted its budget. -/
def Team.expired (t : Team) : Bool := t.first.isSome && t.ending.isNone && decide (t.hdr.wdog ≤ t.wdog)

/-- R147, R184, R187: a team ends with a status and an LCAUSE; the first status stands, and WATCHDOG where its watchdog has
expired. -/
def endTeam (s : State) (isl team status lcause : Nat) : State :=
  match s.team? isl team with
  | some t =>
    if t.ending.isSome then s
    else stopTeam (s.setTeam isl team { t with ending := some (if t.expired then (0x20, 0) else (status, lcause)) }) isl team
  | none => s

/-- R116: the team was told to give up its cores at clause boundaries. -/
def Team.stopped (t : Team) : Bool :=
  match t.preempt with
  | some p => p.decision == .discard
  | none => false

/-- R147: a team all of whose members have ended ends normally, but one that is discarded: its record goes back to its queue
(R116). -/
def checkTeamDone (s : State) (isl team : Nat) : State :=
  if ((s.membersOf isl team).all fun e => e.2.course = .ended) && !((s.team? isl team).map (·.stopped)).getD false then
    endTeam s isl team 0 0
  else s

/-- The member whose register, predicate or queue a place is. -/
def Loc.member : Loc → Option Member
  | .vreg m _ | .sreg m _ | .pred m _ | .dq m _ => some m
  | _ => none

/-- R157: every register and predicate of a member reads zero, and none is poisoned. -/
def clearMember (s : State) (m : Member) : State :=
  { s with
    core := { s.core with
      vreg := s.core.vreg.drop (·.1 = m)
      sreg := s.core.sreg.drop (·.1 = m)
      pred := s.core.pred.drop (·.1 = m) }
    mem := { s.mem with poison := s.mem.poison.filter fun l => l.member != some m } }

/-- R168, R178: a strand or gaffer context ends. -/
def endMember (s : State) (m : Member) : State :=
  let s := if m.gaffer then s else leaveGroups s m
  match s.member? m with
  | none => s
  | some r => checkTeamDone (orphanOps (s.setMember m { r with course := .ended, stack := [] }) m) m.isl m.team

/-- R125: a member has saved at safe point `id`. -/
def saveMember (s : State) (m : Member) (id : Nat) : State :=
  match s.member? m with
  | none => s
  | some r => orphanOps (s.setMember m { r with course := .saved id, stack := [] }) m

/-- The member lives: it holds its slot and registers. -/
def MemberRec.live (r : MemberRec) : Bool :=
  match r.course with
  | .ended | .notStarted => false
  | _ => true

/-- R164: the entries of a bay's instruction-buffer pool that are free. The spec does not say what becomes of a strand that is
placed or attached while the further splits of others hold all the rest: in the model it starts with the entry that it always
holds, and none is free until splits enough have ended (log entry 26). -/
def freePool (s : State) (isl core bay : Nat) : Nat :=
  24 - ((s.core.members.filter fun e => e.1.isl = isl ∧ !e.1.gaffer ∧ e.2.core = core ∧ e.2.bay = bay ∧
    e.2.live).map fun e => max 1 (s.splits e.1).length).sum

/-- R165: the live splits of a strand. -/
def liveSplits (s : State) (m : Member) : Nat := (s.splits m).length

/-- R103: a fault parks its agent on the entry of its key, or on a new one; without room the agent waits with no entry. -/
def faultEntry (s : State) (e : FaultEnt) : State :=
  match s.par.faults.find? fun x => x.key = e.key with
  | some _ => s
  | none =>
    let here := s.par.faults.filter fun x => x.key.isl = e.key.isl
    if here.length < 1024 ∧ (here.filter fun x => x.key.part = e.key.part).length < 256 then
      { s with par := { s.par with
          faults := s.par.faults ++ [{ e with
            stamp := s.clk e.key.isl
            fseq := none
            order := s.par.nextFault }]
          nextFault := s.par.nextFault + 1 } }
    else s

end Sys2Proof.Machine
end

