-- ==== Sys2Proof/Machine/Ops.lean ====
section
/-! DEFINITION. The issue of one instruction: its context, guards, traps and the return from one, the end of a slot
and of a clause, and the check of a clause that is about to be entered. -/

namespace Sys2Proof.Machine

open Sys2Proof

/-- What never changes: the manufacturing record (R12); and the free-value counter moves on (log entry 2). Every step
ends here. -/
def commit (s t : State) : State := { t with unit := s.unit, free := s.free + 1 }

/-! ### The instruction in issue -/

/-- The context of the instruction in issue. -/
structure Issue where
  th : Thread
  r : ThreadRec
  mr : MemberRec
  tm : Team
  cl : Clause
  /-- R302: the lanes in which the instruction executes. -/
  exec : W32
deriving DecidableEq, Repr

namespace Issue
/-- The island of the issuing core. -/
abbrev isl (c : Issue) : Nat := c.th.m.isl
/-- The issuing core. -/
abbrev core (c : Issue) : Nat := c.mr.core
/-- The issuing team. -/
abbrev team (c : Issue) : Nat := c.th.m.team
/-- The issuing partition. -/
abbrev part (c : Issue) : Nat := c.tm.part
/-- The issuing agent is a gaffer context. -/
abbrev gaffer (c : Issue) : Bool := c.th.m.gaffer
/-- The active lanes: those that EXIT has not removed earlier in the clause (R353). -/
def active (c : Issue) : W32 := c.r.mask &&& ~~~c.r.exited
/-- R294: the last slot of the clause. -/
def lastSlot (c : Issue) : Nat := nbits c.cl.hdr.toNat 59 56
/-- The instruction stands in the last slot. -/
def isLast (c : Issue) : Bool := c.lastSlot ≤ c.r.slot
/-- R295: the address of the instruction. -/
def addr (c : Issue) : Nat := c.cl.addr + 8 + 8 * c.r.slot
/-- R295: the clause that follows. -/
def fall (c : Issue) : Nat := c.cl.addr + 8 * (c.lastSlot + 2)
/-- R161: the scoreboard the slot names, 7 for none. -/
def sbsel (c : Issue) : Nat := nbits c.cl.hdr.toNat (3 * c.r.slot + 2) (3 * c.r.slot)
/-- The lowest active lane, which decides for a split-wide instruction (R302). -/
def low (c : Issue) : Nat := lowLane c.active
/-- The engine class. -/
def cls (c : Issue) : Cls := if c.gaffer then .gaffer else .strand
end Issue

/-- R156: a predicate as a lane mask; p7 reads 1. -/
def predMask (s : State) (m : Member) (p : Nat) : W32 :=
  if p = 7 then 0xFFFFFFFF else s.core.pred.getD (m, p) 0

/-- R302: the lanes in which a guard holds. -/
def guardMask (s : State) (m : Member) (g : Guard) : W32 :=
  if g.neg then ~~~predMask s m g.p else predMask s m g.p

/-- The instruction in issue, before its guards. -/
def issue? (s : State) : Option Issue :=
  match s.focus with
  | none => none
  | some th =>
    match s.thread? th with
    | none => none
    | some r =>
      match r.clause, s.member? th.m, s.team? th.m.isl th.m.team with
      | some cl, some mr, some tm => some ⟨th, r, mr, tm, cl, 0⟩
      | _, _, _ => none

/-- R302: the lanes in which both guards hold. -/
def Issue.holds (c : Issue) (s : State) (h : Head) : W32 :=
  c.active &&& guardMask s c.th.m h.g1 &&& guardMask s c.th.m h.g2

/-- How an instruction issues: lane by lane or once for the split (R302, R384), and whether the clause's fall-through
is checked at it when it stands in the last slot; an instruction that goes elsewhere checks its own addresses (R297), and a
prefetch (Q) raises no trap of its own (R391). -/
inductive Kind where
  | vec
  | sca
  | vecX
  | scaX
  | vecQ
  | scaQ
deriving DecidableEq, Repr

/-- Once for the split. -/
def Kind.once : Kind → Bool
  | .sca | .scaX | .scaQ => true
  | _ => false

/-- R391: the instruction raises no trap but a decode fault. -/
def Kind.quiet : Kind → Bool
  | .vecQ | .scaQ => true
  | _ => false

/-- The frame checks the fall-through. -/
def Kind.falls : Kind → Bool
  | .vec | .sca | .vecQ | .scaQ => true
  | _ => false

/-- R302: the lanes in which the instruction executes: one that acts once executes for the whole split when both guards
hold in the lowest active lane. -/
def Issue.guard (c : Issue) (s : State) (h : Head) (k : Kind) : Issue :=
  if k.once then { c with exec := if (c.holds s h).getLsbD c.low then c.active else 0 }
  else { c with exec := c.holds s h }

/-- R302, R446: the active lanes whose guards differ from the lowest active lane's. -/
def Issue.guardDiff (c : Issue) (s : State) (h : Head) : W32 :=
  let diff (g : Guard) := let x := guardMask s c.th.m g
    c.active &&& (if x.getLsbD c.low then ~~~x else x)
  diff h.g1 ||| diff h.g2

/-! ### Clauses -/

/-- R297: the outcome of ClauseCheck: its reads may fault or meet poison. -/
inductive ClauseRes where
  | good
  | bad
  | err (e : XErr) (fetch : Bool)
deriving DecidableEq, Repr

/-- R199, R215, R298: a word of a clause as a core fetches it: of a sector that its instruction cache holds, as it holds it. -/
def fetchWord (s : State) (isl part core va : Nat) : Except XErr (State × Nat) :=
  match accessBy s isl (.core core) part va 8 .fetch false with
  | .error e => .error e
  | .ok (pa, _) =>
    match if (s.mem.icache.get? (isl, core, pa / 64)).isSome then none else s.mem.poisonedAt isl pa 8 with
    | some b => .error (.poison (va + (b - pa)))
    | none =>
      let r := s.mem.fetch isl core pa
      .ok ({ s with mem := r.1 }, r.2)

/-- R297: an address is aligned and lies in the code region. -/
def KHdr.inCode (h : KHdr) (a : Nat) : Bool := decide (h.code ≤ a) && decide (a < h.code + h.codelen) && a % 8 == 0

/-- R297: the byte of the clause map that holds the bit of an address, and the number of the bit. -/
def KHdr.mapBit (h : KHdr) (a : Nat) : Nat × Nat := (h.cmap + (a - h.code) / 8 / 8, (a - h.code) / 8 % 8)

/-- R297: the conditions of ClauseCheck on a clause header read at an address. -/
def KHdr.clauseFits (h : KHdr) (a hdr : Nat) (cls : Cls) : Bool :=
  let n := nbits hdr 59 56
  nbits hdr 63 60 == (match cls with | .strand => 0 | .gaffer => 1) && decide (a + 8 * (n + 2) ≤ h.code + h.codelen) &&
    (List.range 16).all fun i => i ≤ n || nbits hdr (3 * i + 2) (3 * i) == 7

/-- R297: ClauseCheck of an address for a class, where `map` gives the physical address of a byte of the clause map and
`fetch` a clause header. -/
def clauseCheckBy (s : State) (isl : Nat) (h : KHdr) (a : Nat) (cls : Cls) (map : Nat → Except XErr (Nat × Bool))
    (fetch : Nat → Except XErr Nat) : ClauseRes :=
  if !h.inCode a then .bad
  else
    match map (h.mapBit a).1 with
    | .error e => .err e false
    | .ok (at_, _) =>
      if !nbit (s.mem.nat isl at_ 1) (h.mapBit a).2 then .bad
      else
        match fetch a with
        | .error e => .err e true
        | .ok hdr => if h.clauseFits a hdr cls then .good else .bad

/-- R297: ClauseCheck of an address for a class, by a core. -/
def clauseCheck (s : State) (isl part core : Nat) (h : KHdr) (a : Nat) (cls : Cls) : ClauseRes :=
  clauseCheckBy s isl h a cls (fun va => accessBy s isl (.core core) part va 1 .read true)
    fun va => (fetchWord s isl part core va).map (·.2)

/-! ### Traps -/

/-- R446: the trap causes. -/
inductive Cause where
  | illegalOpcode | reservedField | illegalClause | operandRange | misaligned | translation | permission
  | sealedStore | barrierWindow | uniformity | amUnallocated | amBand | format | clusterSpan | islandAbsent
  | channel | group | software | breakpoint | uncorrectable | splitOverflow | remoteError
deriving DecidableEq, Repr

/-- R446: the code of a cause. -/
def Cause.code : Cause → Nat
  | .illegalOpcode => 0x01
  | .reservedField => 0x02
  | .illegalClause => 0x03
  | .operandRange => 0x04
  | .misaligned => 0x05
  | .translation => 0x06
  | .permission => 0x07
  | .sealedStore => 0x08
  | .barrierWindow => 0x09
  | .uniformity => 0x0A
  | .amUnallocated => 0x0B
  | .amBand => 0x0C
  | .format => 0x0D
  | .clusterSpan => 0x0E
  | .islandAbsent => 0x0F
  | .channel => 0x10
  | .group => 0x11
  | .software => 0x12
  | .breakpoint => 0x13
  | .uncorrectable => 0x14
  | .splitOverflow => 0x15
  | .remoteError => 0x16

/-- The trap entry of a thread's class, if it has one. -/
def trapEntry (t : Team) (m : Member) : Option Nat := if m.gaffer then t.hdr.gtrap else t.hdr.strap

/-- A thread that nothing holds back. -/
def Wait.free : Wait := ⟨none, none, none, none, false, none, false⟩

/-- The eight latches reading zero (R160). -/
def zeroLatches : List (List W64) := List.replicate 8 []

/-- R181, R183, R184: a thread takes a precise trap: its shadow is filled and it branches to its class's trap entry; a
trap in a handler, or without an entry, ends the team with the cause as its status. -/
def takeTrap (s : State) (th : Thread) (cause : Cause) (tval : W64) (epc : Nat) : State :=
  match s.thread? th, s.team? th.m.isl th.m.team with
  | some r, some t =>
    match if r.handler then none else trapEntry t th.m with
    | none => endTeam s th.m.isl th.m.team cause.code 0
    | some entry =>
      let s := s.setThread th { r with
          shadow := some ⟨r.latches, r.clause, r.slot, r.mask, r.exited, r.ends⟩
          pc := entry
          mask := r.mask &&& ~~~r.exited
          clause := none
          slot := 0
          latches := zeroLatches
          exited := 0
          ends := []
          wait := .free
          handler := true
          epcSet := false
          tcause := w64 cause.code
          tval := tval
          epc := w64 epc }
      { s with focus := none }
  | _, _ => s

/-- R106, R107: RETRY of an entry: that of a replay which faults again on its key, else 0. -/
def retryOf (replay : Option (FaultKey × Nat)) (key : FaultKey) : Nat :=
  match replay with
  | some (k, n) => if k = key then n else 0
  | none => 0

/-- R103, R107: what an agent that parks on a key keeps of its release by a RESUME: all of it while it has no entry. -/
def keptReplay (s : State) (key : FaultKey) (replay : Option (FaultKey × Nat)) : Option (FaultKey × Nat) :=
  if s.par.faults.any (·.key == key) then none else replay

/-- R103: a thread parks on a translation or permission fault, and gives up its port. -/
def park (s : State) (th : Thread) (part core va : Nat) (acc : Acc) (perm : Bool) (level : Nat) : State :=
  match s.thread? th with
  | none => s
  | some r =>
    let key : FaultKey := ⟨th.m.isl, part, nbits va 51 16, perm, true⟩
    let e : FaultEnt := {
      key := key, va := va, core := core, agent := th.m.gaffer.toNat, acc := acc.code, level := level,
      team := th.m.team, engine := 0xFF, retry := retryOf r.wait.replay key, stamp := 0, fseq := none, held := none, order := 0 }
    let s := faultEntry s e
    let replay := keptReplay s key r.wait.replay
    { s.setThread th { r with wait := { r.wait with parked := some (parkedOn s key), replay := replay, portless := true } } with
      focus := none }

/-- R102, R184: a global access of a thread faults: a trap where the class has a trap entry, or in a handler; else the
thread parks. -/
def accessFault (s : State) (th : Thread) (e : XErr) (acc : Acc) (space epc : Nat) : State :=
  match s.thread? th, s.team? th.m.isl th.m.team, s.member? th.m with
  | some r, some t, some mr =>
    let s := e.note s th.m.isl t.part
    match e with
    | .fault va perm level =>
      if r.handler || (trapEntry t th.m).isSome then
        takeTrap s th (if perm then .permission else .translation) (w64 va) epc
      else park s th t.part mr.core va acc perm level
    | .sealed va => takeTrap s th .sealedStore (w64 va) epc
    | .poison va => takeTrap s th .uncorrectable (w64 (space * 2 ^ 56 + va % 2 ^ 52)) epc
  | _, _, _ => s

/-! ### The end of a slot and of a clause -/

/-- What an instruction's own meaning answers to the frame of its issue. -/
inductive Body where
  /-- It takes effect; its result per lane goes to the slot's latch. -/
  | done (s : State) (latch : List W64)
  /-- It takes effect and sends the thread elsewhere. -/
  | goto (s : State) (latch : List W64) (pc : Nat)
  /-- It has left its clause, or resumed another (R182). -/
  | jump (s : State)
  /-- It raises a precise trap. -/
  | trap (cause : Cause) (tval : W64)
  /-- R416: it raises a precise trap whose delivery changes the state. -/
  | deliver (s : State) (cause : Cause) (tval : W64)
  /-- R441: it raises a trap whose EPC names what follows it. -/
  | soft (cause : Cause) (tval : W64)
  /-- A global access faults. -/
  | fault (e : XErr) (acc : Acc) (space : Nat)
  /-- It cannot issue in this clock and the port waits (R153, R161). -/
  | stall

/-- R353: lanes that have exited take no result of an operation still outstanding. -/
def discardLanes (s : State) (th : Thread) (lanes : W32) : State :=
  { s with core := { s.core with ops := s.core.ops.map fun o =>
      if o.m = th.m ∧ o.holders.any (·.1 = th.split) then { o with lanes := o.lanes &&& ~~~lanes } else o } }

/-- R168: a split whose mask is empty ends; its strand ends with its last split and stack entry. In a save routine the
strand is saved instead (R125). -/
def endSplit (s : State) (th : Thread) : State :=
  let s := { s with core := { s.core with threads := s.core.threads.erase th } }
  match s.member? th.m with
  | none => s
  | some mr =>
    if liveSplits s th.m = 0 ∧ mr.stack = [] then
      match mr.course with
      | .saving id => saveMember s th.m id
      | _ => endMember s th.m
    else s

/-- R124: the decision of an open request under which safe points save. -/
def saves (t : Team) : Bool :=
  match t.preempt with
  | some p => p.decision == .save || p.decision == .saveLate
  | none => false

/-- R124: SAVE_CALL: the device writes the safe-point registers and branches to the save routine. -/
def saveCall (s : State) (th : Thread) (t : Team) (sp : SafePt) : State :=
  match s.thread? th, s.member? th.m with
  | some r, some mr =>
    let b := if th.m.gaffer then 61 else 189
    let s := { s with core := { s.core with sreg :=
      (((s.core.sreg.set (th.m, b) (w64 sp.id)).set (th.m, b + 1) (w64 th.m.idx)).set (th.m, b + 2) t.task.frame) } }
    (s.setMember th.m { mr with course := .saving sp.id }).setThread th { r with pc := sp.save }
  | _, _ => s

/-- R124: a SAFEPT takes effect at the end of its clause. -/
def safePoint (s : State) (th : Thread) (id : Nat) : State :=
  match s.thread? th, s.member? th.m, s.team? th.m.isl th.m.team with
  | some r, some mr, some t =>
    match t.spts.find? fun e => e.id = id ∧ e.gaffer = th.m.gaffer with
    | some sp =>
      if saves t ∧ !r.handler ∧ liveSplits s th.m = 1 ∧ mr.stack = [] then saveCall s th t sp
      else s
    | none => s
  | _, _, _ => s

/-- An operation that a thread issued or inherited. -/
def Op.heldBy (o : Op) (th : Thread) : Bool := o.m == th.m && o.holders.any (·.1 == th.split)

/-- R353, R406: whether an effect due at a clause's end can take place: a gaffer's EXIT waits for its PUSHDQ, and a DETACH
for the split's memory operations and for the strand's other splits to stand at a clause boundary. -/
def endReady (s : State) (th : Thread) (a : EndAct) : Bool :=
  match a with
  | .exitGaffer => !s.core.ops.any fun o => o.heldBy th && (match o.act with | .pushdq _ => true | _ => false)
  | .detach => (!s.core.ops.any fun o => o.heldBy th && o.mem) &&
      (s.splits th.m).all fun e => e.1 == th || e.2.clause.isNone
  | _ => true

/-- One effect due at a clause's end. -/
def endAct (th : Thread) (s : State) (a : EndAct) : State :=
  match s.thread? th with
  | none => s
  | some r =>
    if !endReady s th a then s.setThread th { r with ends := r.ends ++ [a] }
    else
      match a with
      | .yield n => s.setThread th { r with wait := { r.wait with yielded := some (s.clk th.m.isl + 16 * n) } }
      | .sleep n =>
        match s.team? th.m.isl th.m.team with
        | some t =>
          if t.preempt.isSome ∨ n = 0 then s
          else s.setThread th { r with wait := { r.wait with asleep := some (s.clk th.m.isl + n) } }
        | none => s
      | .safept id => safePoint s th id
      | .detach => endMember s th.m
      | .exitGaffer =>
        match s.member? th.m with
        | some mr =>
          match mr.course with
          | .saving id => saveMember s th.m id
          | _ => endMember s th.m
        | none => s

/-- The effects a thread's clause left to its end, or those of them that had to wait. -/
def runEnds (s : State) (th : Thread) : State :=
  match s.thread? th with
  | none => s
  | some r => r.ends.foldl (endAct th) (s.setThread th { r with ends := [] })

/-- R160, R168, R353: the clause ends: exited lanes leave, latches read zero, the thread stands before its next
clause, and what the clause left to its end takes place. -/
def endClause (s : State) (th : Thread) (pc : Nat) : State :=
  match s.thread? th with
  | none => { s with focus := none }
  | some r =>
    let mask := r.mask &&& ~~~r.exited
    let s := { s with focus := none }
    if mask = 0 ∧ !th.m.gaffer then endSplit s th
    else
      runEnds (s.setThread th { r with mask := mask, exited := 0, clause := none, slot := 0, latches := zeroLatches,
                                       pc := pc }) th

/-- R406: the clause holds a DETACH, or every lane has exited: no later slot issues. -/
def cutShort (r : ThreadRec) (gaffer : Bool) : Bool :=
  (!gaffer && r.mask &&& ~~~r.exited == 0) || r.ends.contains .detach

/-- R160: the slot is done: its latch is written, and the next slot follows, or the clause ends. -/
def finishSlot (s : State) (th : Thread) (latch : List W64) (last : Bool) (next : Nat) : State :=
  match s.thread? th with
  | none => { s with focus := none }
  | some r =>
    let r := { r with
      latches := r.latches.set (r.slot % 8) latch, slot := r.slot + 1
      wait := { r.wait with replay := none, portless := false } }
    let s := s.setThread th r
    if last || cutShort r th.m.gaffer then endClause s th next else s

/-! ### The frame of every issue -/

/-- R297: whether the fall-through of the last slot must be checked: some active lane goes on, and neither a gaffer's
EXIT nor a DETACH in the clause ends the thread. -/
def Issue.fallsThrough (c : Issue) : Bool :=
  c.isLast && c.active != 0 && !c.r.ends.contains .detach && !c.r.ends.contains .exitGaffer

/-- R215: the first poisoned predicate of some that an instruction reads. -/
def Issue.poisonedPred (c : Issue) (s : State) (ps : List Nat) : Option Nat :=
  if s.mem.poison.isEmpty then none else ps.find? fun p => p != 7 && s.mem.poison.contains (.pred c.th.m p)

/-- R215: the first poisoned register that the instruction reads: its guards, and where it executes its sources. -/
def Issue.poisonedSrc (c : Issue) (s : State) (h : Head) (srcs : List Src) : Option Nat :=
  if s.mem.poison.isEmpty then none
  else
    match c.poisonedPred s [h.g1.p, h.g2.p] with
    | some p => some p
    | none =>
      if c.exec = 0 then none
      else srcs.findSome? fun x =>
        match x with
        | .vreg i => if s.mem.poison.contains (.vreg c.th.m i) then some i else none
        | .sreg i | .greg i => if s.mem.poison.contains (.sreg c.th.m i) then some i else none
        | _ => none

/-- R215: the trap of a poisoned register. -/
def poisonTrap (i : Nat) : Body := .trap .uncorrectable (w64 (2 * 2 ^ 56 + i))

/-- R215: an instruction that reads predicates as sources. -/
def Issue.preds (c : Issue) (s : State) (ps : List Nat) (k : Unit → Body) : Body :=
  match if c.exec = 0 then none else c.poisonedPred s ps with
  | some i => poisonTrap i
  | none => k ()

/-- R385: the conditions of a memory, synchronisation or remote instruction that come before poison. -/
def Body.early (b : Body) : Bool :=
  match b with
  | .stall | .fault (.fault ..) _ _ | .fault (.sealed _) _ _ => true
  | .trap cause _ =>
    match cause with
    | .clusterSpan | .misaligned | .permission | .barrierWindow | .islandAbsent | .channel | .group => true
    | _ => false
  | _ => false

/-- R295, R297: the check of the clause that follows. -/
def Issue.checkFall (c : Issue) (s : State) : ClauseRes := clauseCheck s c.isl c.part c.core c.tm.hdr c.fall c.cls

/-- What a failed clause check raises. -/
def ClauseRes.trap (r : ClauseRes) (a : Nat) (k : Body) : Body :=
  match r with
  | .good => k
  | .bad => .trap .illegalClause (w64 a)
  | .err e f => .fault e (if f then .fetch else .read) (if f then 4 else 0)

/-- R213: an entry of a matrix input queue as a mark of poison names it. -/
def MatEntry.key : MatEntry → Sum Nat RecRef
  | .instr op _ _ => .inl op
  | .record r => .inr r

/-- The entry of a matrix instruction. -/
def MatEntry.isOp (e : MatEntry) (id : Nat) : Bool :=
  match e with
  | .instr i _ _ => i == id
  | .record _ => false

/-- R225: a matrix instruction has entered its core's input queue. -/
def Op.queued (s : State) (o : Op) : Bool :=
  ((s.eng.matq.getD (o.m.isl, o.core) []).any (·.isOp o.id)) ||
    ((s.eng.matRun.get? (o.m.isl, o.core)).map fun x => x.entry.isOp o.id).getD false

/-- R148, R276, R400, R403, R410, R439: whether an operation holds back every later instruction of its thread: a wait,
or an entry for a queue or chain that is full. -/
def Op.holds (s : State) (o : Op) : Bool :=
  match o.act with
  | .mwait .. | .popdq _ | .ochclose _ => true
  | .barwait g t => ((s.team? o.m.isl o.m.team).map fun tm => (tm.group g).phase == t).getD false
  | .pushdq _ => 64 ≤ (s.core.dq.getD o.m []).length
  | .append desc pa _ n _ =>
    match s.eng.chains.get? ⟨o.m.isl, o.part, desc⟩ with
    | some c => c.cap + c.comp < c.tail + n
    | none => s.mem.nat o.m.isl (pa + 280) 1 == 2 &&
        (match s.mem.nat o.m.isl (pa + 28) 1 with
          | 0 => 64
          | x => x) + s.mem.nat o.m.isl (pa + 256) 8 < s.mem.nat o.m.isl pa 8 + n
  | .matrix _ => !o.queued s
  | _ => false

/-- An operation holds back its thread. -/
def heldBack (s : State) (th : Thread) : Bool := s.core.ops.any fun o => o.heldBy th && o.holds s

/-- R153, R159, R161: a thread cannot issue in this clock: others act meanwhile, and it keeps its port. -/
def stallThread (s : State) (th : Thread) : State :=
  match s.thread? th with
  | some r =>
    { s.setThread th { r with wait := { r.wait with stalled := true } } with focus := none }
  | none => { s with focus := none }

/-- The state after what an instruction's meaning answers. -/
def settle (s : State) (c : Issue) : Body → State
  | .done s' latch => finishSlot s' c.th latch c.isLast c.fall
  | .jump s' => s'
  | .goto s' latch pc => finishSlot s' c.th latch true pc
  | .trap cause tval => takeTrap s c.th cause tval c.addr
  | .deliver s' cause tval => takeTrap s' c.th cause tval c.addr
  | .soft cause tval => takeTrap s c.th cause tval (if c.isLast then c.fall else c.addr + 8)
  | .fault e acc space => accessFault s c.th e acc space c.addr
  | .stall => stallThread s c.th

/-- An operation of the thread holds it back, or the scoreboard of the slot is full (R161). -/
def Issue.waits (c : Issue) (s : State) : Bool :=
  heldBack s c.th || (c.sbsel != 7 && decide (63 ≤ c.r.sb.getD c.sbsel 0))

/-- The issue of an instruction: a watchdog that has expired stops the team first (R187); UNIFORMITY of the guards of one
that acts once, under UCHK (R302); the check of the fall-through in the last slot (R297); poisoned sources (R215), which come
after the conditions of R385; then the instruction's own meaning. -/
def issue (s : State) (h : Head) (k : Kind) (srcs : List Src) (body : Issue → Body) : Out :=
  match issue? s with
  | none => .refused .noIssuer
  | some c0 =>
    let c := c0.guard s h k
    if c.tm.expired then .next (commit s (endTeam s c.isl c.team 0x20 0))
    else .next (commit s (settle s c (
      let diff := c.guardDiff s h
      if c.waits s then .stall
      else if k.once ∧ !k.quiet ∧ !c.gaffer ∧ c.tm.hdr.uchk ∧ diff ≠ 0 then
        .trap .uniformity (c.active.setWidth 64 ||| (diff.setWidth 64 <<< 32))
      else
        (if k.falls && c.fallsThrough then c.checkFall s else .good).trap c.fall
          (match if k.quiet then none else c.poisonedSrc s h srcs with
            | some i => if (body c).early then body c else poisonTrap i
            | none => body c))))

/-- R416: the failure record of the issuing split is delivered, and cleared. -/
def deliverFailure (s : State) (c : Issue) (k : Unit → Body) : Body :=
  match c.r.fail with
  | none => k ()
  | some f =>
    let n := if f.sat then 0xFFFF else min f.ops.length 0xFFFF
    .deliver (s.setThread c.th { c.r with fail := none }) .remoteError (w64 (f.status + f.isl % 32 * 256 + n * 65536))

end Sys2Proof.Machine
end

