-- ==== Sys2Proof/Machine/Flags.lean ====
section
/-! DEFINITION. The flags of FSTAT (R250, R358) and the results they come with. -/

namespace Sys2Proof.Machine

open Sys2Proof

/-- R358: flags are ORed into the FSTAT of the strand or gaffer context. -/
def orFlags (s : State) (m : Member) (fl : Nat) : State :=
  if fl = 0 then s
  else
    match s.member? m with
    | some r => s.setMember m { r with fstat := r.fstat ||| w64 fl }
    | none => s

/-- R250, R358: the flags of every lane. -/
def allFlags (rs : List (W64 × Nat)) : Nat := rs.foldl (fun a r => a ||| r.2) 0

end Sys2Proof.Machine
end

