-- ==== Sys2Proof/Machine/Operands.lean ====
section
/-! DEFINITION. Operands: reading sources, with the open choice of R162, writing destinations and latches (R160, R300,
R307, R308), and the start of a variable-latency operation (R161, R300). -/

namespace Sys2Proof.Machine

open Sys2Proof

/-! ### Registers -/

/-- The low bits of a loaded or returned value, extended as the type says (R386, R394). -/
def extendTo (t : Ty) (v : W64) : W64 := BitVec.ofInt 64 (t.read v.toNat)

/-- The 64-bit value number `half` that an operation will leave in a lane, once it is known. -/
def Op.val? (o : Op) (l half : Nat) : Option W64 :=
  match o.act with
  | .value vals _ => some (lane64 vals (32 * half + l))
  | .load t _ | .oldVal t =>
    (o.accs.find? fun a => a.lane = l ∧ a.half = half ∧ a.done).map fun a => extendTo t a.val
  | .ratom t => (o.rets.find? fun r => r.1 = l).map fun r => extendTo t r.2
  | _ => none

/-- The operation will write vector register `i`. -/
def Op.coversV (o : Op) (i : Nat) : Bool :=
  match o.dst with
  | .vec d w => !o.k && d ≤ i && i < d + w
  | _ => false

/-- The operation will write scalar or gaffer register `i`. -/
def Op.coversS (o : Op) (i : Nat) : Bool :=
  match o.dst with
  | .sca d w => !o.k && d ≤ i && i < d + w
  | _ => false

/-- The word an operation will leave in vector register `i`, lane `l`. -/
def Op.wordV (o : Op) (i l : Nat) : Option W32 :=
  match o.dst with
  | .vec d _ =>
    if o.coversV i && o.lanes.getLsbD l then
      (o.val? l ((i - d) / 2)).map fun (v : W64) => BitVec.setWidth 32 (v >>> (32 * ((i - d) % 2)))
    else none
  | _ => none

/-- The value an operation will leave in scalar or gaffer register `i`. -/
def Op.wordS (o : Op) (i : Nat) : Option W64 :=
  match o.dst with
  | .sca d _ => if o.coversS i && o.lanes != 0 then o.val? 0 (i - d) else none
  | _ => none

/-- R162: the free choice between an old value and the one an outstanding operation will leave, for a use of a register
in a lane (log entry 2). -/
def takeNew (s : State) (field kind i l id : Nat) : Bool :=
  Config.freeBit s.free ((((field * 4 + kind) * 1024 + i) * 32 + l) * 2 ^ 32 + id)

/-- R162: one lane of a vector register. -/
def readV (s : State) (m : Member) (field i l : Nat) : W32 :=
  s.core.ops.foldl (fun old o =>
    match (if o.m = m then o.wordV i l else none) with
    | some v => if takeNew s field 0 i l o.id then v else old
    | none => old) (lane32 (s.core.vreg.getD (m, i) []) l)

/-- R162: a scalar or gaffer register, as lane `l` reads it. -/
def readLane (s : State) (m : Member) (field i l : Nat) : W64 :=
  s.core.ops.foldl (fun old o =>
    match (if o.m = m then o.wordS i else none) with
    | some v => if takeNew s field 1 i l o.id then v else old
    | none => old) (s.core.sreg.getD (m, i) 0)

/-- R162: a scalar or gaffer register, read once. -/
def readS (s : State) (m : Member) (field i : Nat) : W64 := readLane s m field i 0

/-- R300: lanes of a register whose outstanding writers a fixed-latency write has overtaken. -/
def overtake (s : State) (m : Member) (cov : Op → Bool) (i : Nat) (mask : W32) : State :=
  { s with core := { s.core with ops := s.core.ops.map fun o =>
      if o.m = m ∧ (cov o) = true then { o with covered := o.covered.set i (o.covered.getD i 0 ||| mask) } else o } }

/-- Write the lanes of a mask in a vector register; a register written in every lane is no longer poisoned. -/
def writeV (s : State) (m : Member) (i : Nat) (mask : W32) (v : List W32) : State :=
  if mask = 0 then s
  else
    let old := s.core.vreg.getD (m, i) []
    let new := lanesOf fun l => if mask.getLsbD l then lane32 v l else lane32 old l
    { s with
      core := { s.core with vreg := s.core.vreg.set (m, i) new }
      mem := if mask = 0xFFFFFFFF then { s.mem with poison := s.mem.poison.erase (.vreg m i) } else s.mem }

/-- Write a scalar or gaffer register. -/
def writeS (s : State) (m : Member) (i : Nat) (v : W64) : State :=
  { s with
    core := { s.core with sreg := s.core.sreg.set (m, i) v }
    mem := { s.mem with poison := s.mem.poison.erase (.sreg m i) } }

/-- R156, R308: write a predicate in the lanes of a mask; p7 ignores writes. -/
def writeP (s : State) (m : Member) (p : Nat) (mask vals : W32) : State :=
  if p = 7 then s
  else
    let old := s.core.pred.getD (m, p) 0
    { s with
      core := { s.core with pred := s.core.pred.set (m, p) ((old &&& ~~~mask) ||| (vals &&& mask)) }
      mem := if mask = 0xFFFFFFFF then { s.mem with poison := s.mem.poison.erase (.pred m p) } else s.mem }

/-! ### Sources -/

/-- R304: a special constant as a 32-bit operand. -/
def konst32 (k : Konst) (l : Nat) : W32 :=
  match k with
  | .zero => 0
  | .one => 1
  | .mone => 0xFFFFFFFF
  | .fone => 0x3F800000
  | .fmone => 0xBF800000
  | .fhalf => 0x3F000000
  | .ones => 0xFFFFFFFF
  | .lane => w32 l

/-- R304: a special constant as a 64-bit operand. -/
def konst64 (k : Konst) (l : Nat) : W64 :=
  match k with
  | .mone | .ones => 0xFFFFFFFFFFFFFFFF
  | k => (konst32 k l).setWidth 64

/-- R304: a special constant as an operand of a floating-point type. -/
def konstF (t : Ty) (k : Konst) (l : Nat) : Nat :=
  match t, k with
  | .f16, .fone => 0x3C00
  | .f16, .fmone => 0xBC00
  | .f16, .fhalf => 0x3800
  | .bf16, .fone => 0x3F80
  | .bf16, .fmone => 0xBF80
  | .bf16, .fhalf => 0x3F00
  | t, k => (konst32 k l).toNat % 2 ^ (t.fmt.sb + 1)

/-- Where a source is read: the form, and the field it stands in (0 destination, 1 A, 2 B, 3 C). -/
structure Use where
  sca : Bool
  field : Nat
deriving DecidableEq, Repr

/-- R303 to R305, R308: a 32-bit operand in a lane; a scalar form reads its latches in the lowest active lane. -/
def rd32 (s : State) (c : Issue) (u : Use) (a : Src) (l : Nat) : W32 :=
  match a with
  | .vreg i => readV s c.th.m u.field i l
  | .greg i | .sreg i => (readLane s c.th.m u.field i (if u.sca then 0 else l)).setWidth 32
  | .latch n => (lane64 (c.r.latches.getD n []) (if u.sca then c.low else l)).setWidth 32
  | .konst k => konst32 k (if u.sca then 0 else l)
  | .imm v => v.signExtend 32

/-- R303 to R305, R308: a 64-bit operand in a lane. -/
def rd64 (s : State) (c : Issue) (u : Use) (a : Src) (l : Nat) : W64 :=
  match a with
  | .vreg i => readV s c.th.m u.field (i + 1) l ++ readV s c.th.m u.field i l
  | .greg i | .sreg i => readLane s c.th.m u.field i (if u.sca then 0 else l)
  | .latch n => lane64 (c.r.latches.getD n []) (if u.sca then c.low else l)
  | .konst k => konst64 k (if u.sca then 0 else l)
  | .imm v => v.signExtend 64

/-- R327: an integer operand at the width of a type, 32 or 64 bits. -/
def rdI (s : State) (c : Issue) (u : Use) (t : Ty) (a : Src) (l : Nat) : Nat :=
  if t.bits = 64 then (rd64 s c u a l).toNat else (rd32 s c u a l).toNat

/-- R305, R356, R369: a floating-point operand, its own bits only. -/
def rdF (s : State) (c : Issue) (u : Use) (t : Ty) (a : Src) (l : Nat) : Nat :=
  match a with
  | .konst k => konstF t k (if u.sca then 0 else l)
  | .imm v => (t.fmt.ofInt .rne v.toInt).1
  | a => (rd32 s c u a l).toNat % 2 ^ (t.fmt.sb + 1)

/-- R375: a packed pair: an immediate or constant delivers its pattern to both elements. -/
def rdPair (s : State) (c : Issue) (u : Use) (t : Ty) (a : Src) (l : Nat) : Nat :=
  match a with
  | .konst _ | .imm _ => rdF s c u t a l * 65537
  | a => (rd32 s c u a l).toNat

/-- The registers of a 64-bit operand. -/
def pairSrc (a : Src) : List Src :=
  match a with
  | .vreg i => [.vreg i, .vreg (i + 1)]
  | a => [a]

/-- The registers of an operand at the width of a type. -/
def srcsI (t : Ty) (a : Src) : List Src := if t.bits = 64 then pairSrc a else [a]

/-! ### Destinations -/

/-- R160, R307: a lane-wise result of one or two registers, in the lanes that execute. -/
def putV (s : State) (c : Issue) (h : Head) (w : Nat) (vals : List W64) : State :=
  if h.k then s
  else
    let s := overtake s c.th.m (·.coversV h.d) h.d c.exec
    let s := writeV s c.th.m h.d c.exec (vals.map fun (v : W64) => BitVec.setWidth 32 v)
    if w = 2 then
      let s := overtake s c.th.m (·.coversV (h.d + 1)) (h.d + 1) c.exec
      writeV s c.th.m (h.d + 1) c.exec (vals.map fun (v : W64) => BitVec.setWidth 32 (v >>> 32))
    else s

/-- R307, R308: a scalar result. -/
def putS (s : State) (c : Issue) (h : Head) (v : W64) : State :=
  if h.k then s
  else writeS (overtake s c.th.m (·.coversS h.d) h.d 0xFFFFFFFF) c.th.m h.d v

/-- R307, R308: a predicate result in the lanes that execute. -/
def putP (s : State) (c : Issue) (h : Head) (vals : W32) : State :=
  if h.k then s else writeP s c.th.m h.d c.exec vals

/-- A lane-wise instruction of fixed latency: a result and flags for each lane that executes, zero elsewhere. -/
def vecBody (s : State) (c : Issue) (h : Head) (w : Nat) (f : Nat → W64 × Nat) : Body :=
  let rs := lanesOf fun l => if c.exec.getLsbD l then f l else (0, 0)
  let vals := rs.map (·.1)
  .done (orFlags (putV s c h w vals) c.th.m (allFlags rs)) vals

/-- R160: a latch holds a result of `w` 32-bit words zero-extended. -/
def latchOf (w : Nat) (v : W64) : W64 := if w = 1 then (v.setWidth 32).setWidth 64 else v

/-- A scalar form of fixed latency: it computes once, and its latch holds the result of `w` words in every lane (R160). -/
def scaBody (s : State) (c : Issue) (h : Head) (w : Nat) (r : Unit → W64 × Nat) : Body :=
  if c.exec = 0 then .done s []
  else
    let r := r ()
    .done (orFlags (putS s c h r.1) c.th.m r.2) (List.replicate 32 (latchOf w r.1))

/-- A predicate result lane by lane; the latch holds 0 or 1. -/
def vecPBody (s : State) (c : Issue) (h : Head) (f : Nat → Bool × Nat) : Body :=
  let rs := lanesOf fun l => if c.exec.getLsbD l then f l else (false, 0)
  let vals := maskOf fun l => (rs.getD l (false, 0)).1
  .done (orFlags (putP s c h vals) c.th.m (rs.foldl (fun a r => a ||| r.2) 0))
    (rs.map fun r => w64 r.1.toNat)

/-- A predicate result of a scalar form, the same in every active lane (R308). -/
def scaPBody (s : State) (c : Issue) (h : Head) (r : Unit → Bool × Nat) : Body :=
  if c.exec = 0 then .done s []
  else
    let r := r ()
    .done (orFlags (putP s c h (if r.1 then 0xFFFFFFFF else 0)) c.th.m r.2)
      (List.replicate 32 (w64 r.1.toNat))

/-! ### Variable latency -/

/-- R159: the operations of a decision queue, a chain, a matrix engine or memory, but for a result known at issue. -/
def OpAct.isMem : OpAct → Bool
  | .value .. | .sysrd _ | .dqstat | .plain => false
  | _ => true

/-- An outstanding operation of the instruction in issue. -/
def Issue.op (c : Issue) (s : State) (h : Head) (sca : Bool) (dst : Dst) (act : OpAct) : Op :=
  { id := s.core.nextOp, m := c.th.m, core := c.core, part := c.part, holders := [(c.th.split, c.sbsel)]
    path := [(c.th.split, 0)], lanes := c.exec, scalar := sca
    k := h.k, dst := dst, accs := [], act := act, acq := false, remote := false, mem := act.isMem, waiting := 0,
    failed := none, chan := none, rets := [], covered := [], at_ := c.addr, since := s.clk c.isl }

/-- R161: one more operation on a scoreboard of a thread. -/
def raiseSb (s : State) (th : Thread) (sb : Nat) : State :=
  match s.thread? th with
  | some r => if sb = 7 then s else s.setThread th { r with sb := r.sb.set sb (r.sb.getD sb 0 + 1) }
  | none => s

/-- R161, R163: one operation fewer on a scoreboard of a path. -/
def lowerSb (s : State) (m : Member) (n sb : Nat) : State :=
  if sb = 7 then s else s.modPath m n fun r => { r with sb := r.sb.set sb (r.sb.getD sb 0 - 1) }

/-- R161, R300: a variable-latency operation starts. -/
def startOp (s : State) (c : Issue) (o : Op) : State :=
  raiseSb { s with core := { s.core with ops := s.core.ops ++ [o], nextOp := s.core.nextOp + 1 } } c.th c.sbsel

/-- A lane-wise computation of variable latency: its results are fixed at issue and land at completion. -/
def vecVar (s : State) (c : Issue) (h : Head) (w : Nat) (f : Nat → W64 × Nat) : Body :=
  if c.exec = 0 then .done s []
  else
    let rs := lanesOf fun l => if c.exec.getLsbD l then f l else (0, 0)
    .done (startOp s c (c.op s h false (.vec h.d w) (.value (rs.map (·.1)) (allFlags rs)))) []

/-- A scalar computation of variable latency. -/
def scaVar (s : State) (c : Issue) (h : Head) (r : Unit → W64 × Nat) : Body :=
  if c.exec = 0 then .done s []
  else
    let r := r ()
    .done (startOp s c (c.op s h true (.sca h.d 1) (.value [r.1] r.2))) []

end Sys2Proof.Machine
end

