-- ==== Sys2Proof/Machine/Integer.lean ====
section
/-! DEFINITION. Chapter 13: the integer, logic, address and predicate instructions (R327 to R346). -/

namespace Sys2Proof.Machine

open Sys2Proof

/-! ### Values -/

/-- R327: an integer result modulo 2^Wd, zero-extended to 64 bits. -/
def wrapTo (t : Ty) (x : Int) : W64 := BitVec.ofNat 64 (x % 2 ^ t.bits).toNat

/-- R332: saturation. -/
def clampTo (t : Ty) (sat : Bool) (x : Int) : Int := if sat then max t.minOf (min t.maxOf x) else x

/-- R332: IADD. -/
def addOp (t : Ty) (sat : Bool) (a b : Nat) : Int := clampTo t sat (t.read a + t.read b)
/-- R332: ISUB. -/
def subOp (t : Ty) (sat : Bool) (a b : Nat) : Int := clampTo t sat (t.read a - t.read b)
/-- R332: INEG. -/
def negOp (t : Ty) (sat : Bool) (a : Nat) : Int := clampTo t sat (-t.read a)
/-- R332: IMUL. -/
def mulOp (t : Ty) (a b : Nat) : Int := t.read a * t.read b
/-- R332: IMULH. -/
def mulhOp (t : Ty) (a b : Nat) : Int := t.read a * t.read b / 2 ^ t.bits
/-- R332: IMIN. -/
def minOp (t : Ty) (a b : Nat) : Int := min (t.read a) (t.read b)
/-- R332: IMAX. -/
def maxOp (t : Ty) (a b : Nat) : Int := max (t.read a) (t.read b)
/-- R332: IABS. -/
def absOp (t : Ty) (sat : Bool) (a : Nat) : Int := clampTo t sat (t.read a).natAbs

/-- R335: the quotient and remainder of the truncating divide. -/
def divOp (t : Ty) (a b : Nat) : Int × Int :=
  let x := t.read a
  let y := t.read b
  if y = 0 then (-1, x)
  else if t.signed ∧ x = t.minOf ∧ y = -1 then (x, 0)
  else (x.tdiv y, x.tmod y)

/-- R336: an integer comparison. -/
def icmpOp (t : Ty) (cond : Cond) (a b : Nat) : Bool :=
  let x := t.read a
  let y := t.read b
  match cond with
  | .eq => x == y
  | .ne => x != y
  | .lt => x < y
  | .le => x ≤ y
  | .gt => y < x
  | _ => y ≤ x

/-- R340: SHL. -/
def shlOp (t : Ty) (a b : Nat) : Int := let n := b % 2 ^ 32; if n < t.bits then a * 2 ^ n else 0
/-- R340: SHR. -/
def shrOp (t : Ty) (a b : Nat) : Int := let n := b % 2 ^ 32; if n < t.bits then a / 2 ^ n else 0
/-- R340: SAR. -/
def sarOp (t : Ty) (a b : Nat) : Int :=
  let x : Int := if 2 ^ (t.bits - 1) ≤ a then (a : Int) - 2 ^ t.bits else a
  x / 2 ^ min (b % 2 ^ 32) t.bits

/-- R341: SHF. -/
def shfOp (a b c : Nat) : Nat := (a % 2 ^ 32 * 2 ^ 32 + b % 2 ^ 32) / 2 ^ (c % 64) % 2 ^ 32

/-- R342: the position and length of a bit field within a width. -/
def fieldOf (x wd : Nat) : Nat × Nat :=
  let p := min (x % 256) wd
  (p, min (x / 256 % 256) (wd - p))

/-- R342: BFX. -/
def bfxOp (t : Ty) (a b : Nat) : Int :=
  let (p, l) := fieldOf b t.bits
  let f := a / 2 ^ p % 2 ^ l
  if t.signed ∧ 0 < l ∧ 2 ^ (l - 1) ≤ f then (f : Int) - 2 ^ l else f

/-- R342: BFI at a width. -/
def bfiOp (wd a b c : Nat) : Nat :=
  let (p, l) := fieldOf c wd
  a / 2 ^ (p + l) * 2 ^ (p + l) + b % 2 ^ l * 2 ^ p + a % 2 ^ p

/-- R343: POPC. -/
def popcOp (wd a : Nat) : Nat := ((List.range wd).filter fun i => a.testBit i).length
/-- R343: CLZ. -/
def clzOp (wd a : Nat) : Nat := if a = 0 then wd else wd - 1 - Nat.log2 a
/-- R343: BREV. -/
def brevOp (wd a : Nat) : Nat := (List.range wd).foldl (fun r i => r + (a.testBit (wd - 1 - i)).toNat * 2 ^ i) 0

/-- R344: PERM. -/
def permOp (a b c : Nat) : Nat :=
  let pool := a % 2 ^ 32 + b % 2 ^ 32 * 2 ^ 32
  (List.range 4).foldl (fun r i =>
    let sel := c / 16 ^ i % 16
    let x := pool / 256 ^ (sel % 8) % 256
    r + (if 8 ≤ sel then (if 128 ≤ x then 255 else 0) else x) * 256 ^ i) 0

/-- R346: the value of PLOP. -/
def plopOp (lut : BitVec 8) (a b c : Bool) : Bool := lut.getLsbD (4 * a.toNat + 2 * b.toNat + c.toNat)

/-- R346: the value of P2V in a lane. -/
def p2vOp (s : State) (m : Member) (mask : BitVec 8) (l : Nat) : Nat :=
  (List.range 8).foldl (fun r i => r + (mask.getLsbD i && (predMask s m i).getLsbD l).toNat * 2 ^ i) 0

/-! ### Shapes -/

/-- Source A, B or C of a lane-wise instruction. -/
def uV (field : Nat) : Use := ⟨false, field⟩
/-- Source A, B or C of an instruction that acts once. -/
def uS (field : Nat) : Use := ⟨true, field⟩

/-- A lane-wise integer result at the width of a type. -/
def vecI (s : State) (c : Issue) (h : Head) (t : Ty) (f : Nat → Int) : Body :=
  vecBody s c h t.words fun l => (wrapTo t (f l), 0)

/-- R308: a scalar integer result at the width of a type, extended as the type says. -/
def scaI (s : State) (c : Issue) (h : Head) (t : Ty) (f : Nat → Int) : Body :=
  scaBody s c h t.words fun _ => (extendTo t (wrapTo t (f c.low)), 0)

/-- A lane-wise instruction of one source. -/
def vec1 (s : State) (c : Issue) (h : Head) (t : Ty) (a : Src) (f : Nat → Int) : Body :=
  vecI s c h t fun l => f (rdI s c (uV 1) t a l)

/-- A scalar form of one source. -/
def sca1 (s : State) (c : Issue) (h : Head) (t : Ty) (a : Src) (f : Nat → Int) : Body :=
  scaI s c h t fun l => f (rdI s c (uS 1) t a l)

/-- A lane-wise instruction of two sources. -/
def vec2 (s : State) (c : Issue) (h : Head) (t : Ty) (a b : Src) (f : Nat → Nat → Int) : Body :=
  vecI s c h t fun l => f (rdI s c (uV 1) t a l) (rdI s c (uV 2) t b l)

/-- A scalar form of two sources. -/
def sca2 (s : State) (c : Issue) (h : Head) (t : Ty) (a b : Src) (f : Nat → Nat → Int) : Body :=
  scaI s c h t fun l => f (rdI s c (uS 1) t a l) (rdI s c (uS 2) t b l)

/-- A lane-wise instruction of three 32-bit sources. -/
def vec3 (s : State) (c : Issue) (h : Head) (a b d : Src) (f : Nat → Nat → Nat → Int) : Body :=
  vecI s c h .n32 fun l =>
    f (rdI s c (uV 1) .n32 a l) (rdI s c (uV 2) .n32 b l) (rdI s c (uV 3) .n32 d l)

/-- A scalar form of three sources at the width of a type. -/
def sca3 (s : State) (c : Issue) (h : Head) (t : Ty) (a b d : Src) (f : Nat → Nat → Nat → Int) : Body :=
  scaI s c h t fun l => f (rdI s c (uS 1) t a l) (rdI s c (uS 2) t b l) (rdI s c (uS 3) t d l)

/-! ### The instructions -/

/-- R332: IADD, lane by lane. -/
def execIaddVector (h : Head) (ty : Ty) (sat : Bool) (a : Src) (b : Src) (s : State) : Out :=
  issue s h .vec (srcsI ty a ++ srcsI ty b) fun c => vec2 s c h ty a b (addOp ty sat)

/-- R332: IADD, once. -/
def execIaddScalar (h : Head) (ty : Ty) (sat : Bool) (a : Src) (b : Src) (s : State) : Out :=
  issue s h .sca [a, b] fun c => sca2 s c h ty a b (addOp ty sat)

/-- R332: ISUB, lane by lane. -/
def execIsubVector (h : Head) (ty : Ty) (sat : Bool) (a : Src) (b : Src) (s : State) : Out :=
  issue s h .vec (srcsI ty a ++ srcsI ty b) fun c => vec2 s c h ty a b (subOp ty sat)

/-- R332: ISUB, once. -/
def execIsubScalar (h : Head) (ty : Ty) (sat : Bool) (a : Src) (b : Src) (s : State) : Out :=
  issue s h .sca [a, b] fun c => sca2 s c h ty a b (subOp ty sat)

/-- R334: the sum with carry in, and the carry out. -/
def addcOp (t : Ty) (cin : Bool) (a b : Nat) : Nat × Bool :=
  let x := a + b + cin.toNat
  (x % 2 ^ t.bits, 2 ^ t.bits ≤ x)

/-- R334: IADDC, lane by lane; the carry predicate is written whatever K says. -/
def execIaddcVector (h : Head) (ty : Ty) (co : Nat) (cie : Bool) (ci : Nat) (a b : Src) (s : State) : Out :=
  issue s h .vec (srcsI ty a ++ srcsI ty b) fun c => c.preds s (if cie then [ci] else []) fun _ =>
    let r := fun l => addcOp ty (cie && (predMask s c.th.m ci).getLsbD l) (rdI s c (uV 1) ty a l) (rdI s c (uV 2) ty b l)
    match vecI s c h ty fun l => (r l).1 with
    | .done t latch => .done (writeP t c.th.m co c.exec (maskOf fun l => (r l).2)) latch
    | b => b

/-- R334: IADDC, once. -/
def execIaddcScalar (h : Head) (ty : Ty) (co : Nat) (cie : Bool) (ci : Nat) (a b : Src) (s : State) : Out :=
  issue s h .sca [a, b] fun c => c.preds s (if cie then [ci] else []) fun _ =>
    let r := addcOp ty (cie && (predMask s c.th.m ci).getLsbD c.low) (rdI s c (uS 1) ty a c.low)
      (rdI s c (uS 2) ty b c.low)
    match scaI s c h ty fun _ => r.1 with
    | .done t latch => .done (writeP t c.th.m co c.exec (if r.2 then 0xFFFFFFFF else 0)) latch
    | b => b

/-- R332: INEG, lane by lane. -/
def execInegVector (h : Head) (ty : Ty) (sat : Bool) (a : Src) (s : State) : Out :=
  issue s h .vec (srcsI ty a) fun c => vec1 s c h ty a (negOp ty sat)

/-- R332: INEG, once. -/
def execInegScalar (h : Head) (ty : Ty) (sat : Bool) (a : Src) (s : State) : Out :=
  issue s h .sca [a] fun c => sca1 s c h ty a (negOp ty sat)

/-- R332: IMUL, lane by lane. -/
def execImulVector (h : Head) (ty : Ty) (a : Src) (b : Src) (s : State) : Out :=
  issue s h .vec (srcsI ty a ++ srcsI ty b) fun c => vec2 s c h ty a b (mulOp ty)

/-- R332: IMUL, once. -/
def execImulScalar (h : Head) (ty : Ty) (a : Src) (b : Src) (s : State) : Out :=
  issue s h .sca [a, b] fun c => sca2 s c h ty a b (mulOp ty)

/-- R332: IMULH, lane by lane. -/
def execImulhVector (h : Head) (ty : Ty) (a : Src) (b : Src) (s : State) : Out :=
  issue s h .vec (srcsI ty a ++ srcsI ty b) fun c => vec2 s c h ty a b (mulhOp ty)

/-- R332: IMULH, once. -/
def execImulhScalar (h : Head) (ty : Ty) (a : Src) (b : Src) (s : State) : Out :=
  issue s h .sca [a, b] fun c => sca2 s c h ty a b (mulhOp ty)

/-- R333: IMAD on 32 bits, lane by lane. -/
def execImadVector (h : Head) (a : Src) (b : Src) (c0 : Src) (s : State) : Out :=
  issue s h .vec [a, b, c0] fun c => vec3 s c h a b c0 fun x y z => x * y + z

/-- R333: IMAD on 64 bits, once. -/
def execImadScalar (h : Head) (a : Src) (b : Src) (c0 : Src) (s : State) : Out :=
  issue s h .sca [a, b, c0] fun c => sca3 s c h .n64 a b c0 fun x y z => x * y + z

/-- R333: IMADW.I32, lane by lane into pairs. -/
def execImadwI32Vector (h : Head) (a : Src) (b : Src) (c0 : Src) (s : State) : Out :=
  issue s h .vec ([a, b] ++ pairSrc c0) fun c => 
    vecI s c h .n64 fun l =>
      Ty.read .i32 (rd32 s c (uV 1) a l).toNat * Ty.read .i32 (rd32 s c (uV 2) b l).toNat + (rd64 s c (uV 3) c0 l).toNat

/-- R333: IMADW.I32, once. -/
def execImadwI32Scalar (h : Head) (a : Src) (b : Src) (c0 : Src) (s : State) : Out :=
  issue s h .sca [a, b, c0] fun c => 
    scaI s c h .n64 fun l =>
      Ty.read .i32 (rd32 s c (uS 1) a l).toNat * Ty.read .i32 (rd32 s c (uS 2) b l).toNat + (rd64 s c (uS 3) c0 l).toNat

/-- R333: IMADW.N32, lane by lane into pairs. -/
def execImadwN32Vector (h : Head) (a : Src) (b : Src) (c0 : Src) (s : State) : Out :=
  issue s h .vec ([a, b] ++ pairSrc c0) fun c => 
    vecI s c h .n64 fun l =>
      Ty.read .n32 (rd32 s c (uV 1) a l).toNat * Ty.read .n32 (rd32 s c (uV 2) b l).toNat + (rd64 s c (uV 3) c0 l).toNat

/-- R333: IMADW.N32, once. -/
def execImadwN32Scalar (h : Head) (a : Src) (b : Src) (c0 : Src) (s : State) : Out :=
  issue s h .sca [a, b, c0] fun c => 
    scaI s c h .n64 fun l =>
      Ty.read .n32 (rd32 s c (uS 1) a l).toNat * Ty.read .n32 (rd32 s c (uS 2) b l).toNat + (rd64 s c (uS 3) c0 l).toNat

/-- R335, R300: IDIV, lane by lane, with variable latency. -/
def execIdivVector (h : Head) (ty : Ty) (a : Src) (b : Src) (s : State) : Out :=
  issue s h .vec (srcsI ty a ++ srcsI ty b) fun c => 
    vecVar s c h ty.words fun l => (wrapTo ty (divOp ty (rdI s c (uV 1) ty a l) (rdI s c (uV 2) ty b l)).1, 0)

/-- R335, R300: IDIV, once, with variable latency. -/
def execIdivScalar (h : Head) (ty : Ty) (a : Src) (b : Src) (s : State) : Out :=
  issue s h .sca [a, b] fun c => 
    scaVar s c h fun _ =>
      (extendTo ty (wrapTo ty (divOp ty (rdI s c (uS 1) ty a c.low) (rdI s c (uS 2) ty b c.low)).1), 0)

/-- R335, R300: IREM, lane by lane, with variable latency. -/
def execIremVector (h : Head) (ty : Ty) (a : Src) (b : Src) (s : State) : Out :=
  issue s h .vec (srcsI ty a ++ srcsI ty b) fun c => 
    vecVar s c h ty.words fun l => (wrapTo ty (divOp ty (rdI s c (uV 1) ty a l) (rdI s c (uV 2) ty b l)).2, 0)

/-- R335, R300: IREM, once, with variable latency. -/
def execIremScalar (h : Head) (ty : Ty) (a : Src) (b : Src) (s : State) : Out :=
  issue s h .sca [a, b] fun c => 
    scaVar s c h fun _ =>
      (extendTo ty (wrapTo ty (divOp ty (rdI s c (uS 1) ty a c.low) (rdI s c (uS 2) ty b c.low)).2), 0)

/-- R332: IMIN, lane by lane. -/
def execIminVector (h : Head) (ty : Ty) (a : Src) (b : Src) (s : State) : Out :=
  issue s h .vec (srcsI ty a ++ srcsI ty b) fun c => vec2 s c h ty a b (minOp ty)

/-- R332: IMIN, once. -/
def execIminScalar (h : Head) (ty : Ty) (a : Src) (b : Src) (s : State) : Out :=
  issue s h .sca [a, b] fun c => sca2 s c h ty a b (minOp ty)

/-- R332: IMAX, lane by lane. -/
def execImaxVector (h : Head) (ty : Ty) (a : Src) (b : Src) (s : State) : Out :=
  issue s h .vec (srcsI ty a ++ srcsI ty b) fun c => vec2 s c h ty a b (maxOp ty)

/-- R332: IMAX, once. -/
def execImaxScalar (h : Head) (ty : Ty) (a : Src) (b : Src) (s : State) : Out :=
  issue s h .sca [a, b] fun c => sca2 s c h ty a b (maxOp ty)

/-- R332: IABS, lane by lane. -/
def execIabsVector (h : Head) (ty : Ty) (sat : Bool) (a : Src) (s : State) : Out :=
  issue s h .vec (srcsI ty a) fun c => vec1 s c h ty a (absOp ty sat)

/-- R332: IABS, once. -/
def execIabsScalar (h : Head) (ty : Ty) (sat : Bool) (a : Src) (s : State) : Out :=
  issue s h .sca [a] fun c => sca1 s c h ty a (absOp ty sat)

/-- R336: ICMP, lane by lane. -/
def execIcmpVector (h : Head) (ty : Ty) (cond : Cond) (a : Src) (b : Src) (s : State) : Out :=
  issue s h .vec (srcsI ty a ++ srcsI ty b) fun c => 
    vecPBody s c h fun l => (icmpOp ty cond (rdI s c (uV 1) ty a l) (rdI s c (uV 2) ty b l), 0)

/-- R336: ICMP, once. -/
def execIcmpScalar (h : Head) (ty : Ty) (cond : Cond) (a : Src) (b : Src) (s : State) : Out :=
  issue s h .sca [a, b] fun c => 
    scaPBody s c h fun _ => (icmpOp ty cond (rdI s c (uS 1) ty a c.low) (rdI s c (uS 2) ty b c.low), 0)

/-- R337: SEL, lane by lane. -/
def execSelVector (h : Head) (ty : Ty) (pr : Nat) (neg : Bool) (a : Src) (b : Src) (s : State) : Out :=
  issue s h .vec (srcsI ty a ++ srcsI ty b) fun c => c.preds s [pr] fun _ =>
    vecI s c h ty fun l =>
      if (predMask s c.th.m pr).getLsbD l != neg then rdI s c (uV 1) ty a l else rdI s c (uV 2) ty b l

/-- R337: SEL, once, by the predicate of the lowest active lane. -/
def execSelScalar (h : Head) (ty : Ty) (pr : Nat) (neg : Bool) (a : Src) (b : Src) (s : State) : Out :=
  issue s h .sca [a, b] fun c => c.preds s [pr] fun _ =>
    scaI s c h ty fun l =>
      if (predMask s c.th.m pr).getLsbD l != neg then rdI s c (uS 1) ty a l else rdI s c (uS 2) ty b l

/-- R337: MOV, lane by lane. -/
def execMovVector (h : Head) (ty : Ty) (a : Src) (s : State) : Out :=
  issue s h .vec (srcsI ty a) fun c => vec1 s c h ty a (fun x => x)

/-- R337: MOV, once. -/
def execMovScalar (h : Head) (ty : Ty) (a : Src) (s : State) : Out :=
  issue s h .sca [a] fun c => sca1 s c h ty a (fun x => x)

/-- R338: MOVI to 32 bits, lane by lane. -/
def execMoviVector (h : Head) (w : BitVec 24) (s : State) : Out :=
  issue s h .vec [] fun c => vecI s c h .n32 fun _ => w.toInt

/-- R338: MOVI to 64 bits, once. -/
def execMoviScalar (h : Head) (w : BitVec 24) (s : State) : Out :=
  issue s h .sca [] fun c => scaI s c h .n64 fun _ => w.toInt

/-- R338: MOVH: a 16-bit field replaced. -/
def movhOp (q : Nat) (w : BitVec 16) (a : Nat) : Int := a / 2 ^ (16 * q + 16) * 2 ^ (16 * q + 16) + w.toNat * 2 ^ (16 * q) + a % 2 ^ (16 * q)

/-- R338: MOVH on 32 bits, lane by lane. -/
def execMovhVector (h : Head) (q : Nat) (w : BitVec 16) (a : Src) (s : State) : Out :=
  issue s h .vec [a] fun c => vec1 s c h .n32 a (movhOp q w)

/-- R338: MOVH on 64 bits, once. -/
def execMovhScalar (h : Head) (q : Nat) (w : BitVec 16) (a : Src) (s : State) : Out :=
  issue s h .sca [a] fun c => sca1 s c h .n64 a (movhOp q w)

/-- R339: AND, lane by lane. -/
def execAndVector (h : Head) (ty : Ty) (a : Src) (b : Src) (s : State) : Out :=
  issue s h .vec (srcsI ty a ++ srcsI ty b) fun c => vec2 s c h ty a b fun x y => ((x &&& y : Nat) : Int)

/-- R339: AND, once. -/
def execAndScalar (h : Head) (ty : Ty) (a : Src) (b : Src) (s : State) : Out :=
  issue s h .sca [a, b] fun c => sca2 s c h ty a b fun x y => ((x &&& y : Nat) : Int)

/-- R339: OR, lane by lane. -/
def execOrVector (h : Head) (ty : Ty) (a : Src) (b : Src) (s : State) : Out :=
  issue s h .vec (srcsI ty a ++ srcsI ty b) fun c => vec2 s c h ty a b fun x y => ((x ||| y : Nat) : Int)

/-- R339: OR, once. -/
def execOrScalar (h : Head) (ty : Ty) (a : Src) (b : Src) (s : State) : Out :=
  issue s h .sca [a, b] fun c => sca2 s c h ty a b fun x y => ((x ||| y : Nat) : Int)

/-- R339: XOR, lane by lane. -/
def execXorVector (h : Head) (ty : Ty) (a : Src) (b : Src) (s : State) : Out :=
  issue s h .vec (srcsI ty a ++ srcsI ty b) fun c => vec2 s c h ty a b fun x y => ((x ^^^ y : Nat) : Int)

/-- R339: XOR, once. -/
def execXorScalar (h : Head) (ty : Ty) (a : Src) (b : Src) (s : State) : Out :=
  issue s h .sca [a, b] fun c => sca2 s c h ty a b fun x y => ((x ^^^ y : Nat) : Int)

/-- R339: ANDN, lane by lane. -/
def execAndnVector (h : Head) (ty : Ty) (a : Src) (b : Src) (s : State) : Out :=
  issue s h .vec (srcsI ty a ++ srcsI ty b) fun c => vec2 s c h ty a b fun x y => ((x - (x &&& y) : Nat) : Int)

/-- R339: ANDN, once. -/
def execAndnScalar (h : Head) (ty : Ty) (a : Src) (b : Src) (s : State) : Out :=
  issue s h .sca [a, b] fun c => sca2 s c h ty a b fun x y => ((x - (x &&& y) : Nat) : Int)

/-- R340: SHL, lane by lane. -/
def execShlVector (h : Head) (ty : Ty) (a : Src) (b : Src) (s : State) : Out :=
  issue s h .vec (srcsI ty a ++ srcsI ty b) fun c => vec2 s c h ty a b (shlOp ty)

/-- R340: SHL, once. -/
def execShlScalar (h : Head) (ty : Ty) (a : Src) (b : Src) (s : State) : Out :=
  issue s h .sca [a, b] fun c => sca2 s c h ty a b (shlOp ty)

/-- R340: SHR, lane by lane. -/
def execShrVector (h : Head) (ty : Ty) (a : Src) (b : Src) (s : State) : Out :=
  issue s h .vec (srcsI ty a ++ srcsI ty b) fun c => vec2 s c h ty a b (shrOp ty)

/-- R340: SHR, once. -/
def execShrScalar (h : Head) (ty : Ty) (a : Src) (b : Src) (s : State) : Out :=
  issue s h .sca [a, b] fun c => sca2 s c h ty a b (shrOp ty)

/-- R340: SAR, lane by lane. -/
def execSarVector (h : Head) (ty : Ty) (a : Src) (b : Src) (s : State) : Out :=
  issue s h .vec (srcsI ty a ++ srcsI ty b) fun c => vec2 s c h ty a b (sarOp ty)

/-- R340: SAR, once. -/
def execSarScalar (h : Head) (ty : Ty) (a : Src) (b : Src) (s : State) : Out :=
  issue s h .sca [a, b] fun c => sca2 s c h ty a b (sarOp ty)

/-- R341: SHF, lane by lane. -/
def execShfVector (h : Head) (a : Src) (b : Src) (c0 : Src) (s : State) : Out :=
  issue s h .vec [a, b, c0] fun c => vec3 s c h a b c0 fun x y z => shfOp x y z

/-- R341: SHF, once; the result is zero-extended. -/
def execShfScalar (h : Head) (a : Src) (b : Src) (c0 : Src) (s : State) : Out :=
  issue s h .sca [a, b, c0] fun c => sca3 s c h .n32 a b c0 fun x y z => shfOp x y z

/-- R342: BFX, lane by lane. -/
def execBfxVector (h : Head) (ty : Ty) (a : Src) (b : Src) (s : State) : Out :=
  issue s h .vec (srcsI ty a ++ srcsI ty b) fun c => vec2 s c h ty a b (bfxOp ty)

/-- R342: BFX, once. -/
def execBfxScalar (h : Head) (ty : Ty) (a : Src) (b : Src) (s : State) : Out :=
  issue s h .sca [a, b] fun c => sca2 s c h ty a b (bfxOp ty)

/-- R342: BFI on 32 bits, lane by lane. -/
def execBfiVector (h : Head) (a : Src) (b : Src) (c0 : Src) (s : State) : Out :=
  issue s h .vec [a, b, c0] fun c => vec3 s c h a b c0 fun x y z => bfiOp 32 x y z

/-- R342: BFI on 64 bits, once. -/
def execBfiScalar (h : Head) (a : Src) (b : Src) (c0 : Src) (s : State) : Out :=
  issue s h .sca [a, b, c0] fun c => sca3 s c h .n64 a b c0 fun x y z => bfiOp 64 x y z

/-- R343: POPC, lane by lane. -/
def execPopcVector (h : Head) (ty : Ty) (a : Src) (s : State) : Out :=
  issue s h .vec (srcsI ty a) fun c => vec1 s c h ty a (fun x => popcOp ty.bits x)

/-- R343: POPC, once. -/
def execPopcScalar (h : Head) (ty : Ty) (a : Src) (s : State) : Out :=
  issue s h .sca [a] fun c => sca1 s c h ty a (fun x => popcOp ty.bits x)

/-- R343: CLZ, lane by lane. -/
def execClzVector (h : Head) (ty : Ty) (a : Src) (s : State) : Out :=
  issue s h .vec (srcsI ty a) fun c => vec1 s c h ty a (fun x => clzOp ty.bits x)

/-- R343: CLZ, once. -/
def execClzScalar (h : Head) (ty : Ty) (a : Src) (s : State) : Out :=
  issue s h .sca [a] fun c => sca1 s c h ty a (fun x => clzOp ty.bits x)

/-- R343: BREV, lane by lane. -/
def execBrevVector (h : Head) (ty : Ty) (a : Src) (s : State) : Out :=
  issue s h .vec (srcsI ty a) fun c => vec1 s c h ty a (fun x => brevOp ty.bits x)

/-- R343: BREV, once. -/
def execBrevScalar (h : Head) (ty : Ty) (a : Src) (s : State) : Out :=
  issue s h .sca [a] fun c => sca1 s c h ty a (fun x => brevOp ty.bits x)

/-- R344: PERM, lane by lane. -/
def execPermVector (h : Head) (a : Src) (b : Src) (c0 : Src) (s : State) : Out :=
  issue s h .vec [a, b, c0] fun c => vec3 s c h a b c0 fun x y z => permOp x y z

/-- R344: PERM, once; the result is zero-extended. -/
def execPermScalar (h : Head) (a : Src) (b : Src) (c0 : Src) (s : State) : Out :=
  issue s h .sca [a, b, c0] fun c => sca3 s c h .n32 a b c0 fun x y z => permOp x y z

/-- R345: LEA, lane by lane into pairs. -/
def execLeaVector (h : Head) (ty : Ty) (sh : Nat) (a : Src) (b : Src) (s : State) : Out :=
  issue s h .vec (pairSrc a ++ srcsI ty b) fun c => 
    vecI s c h .n64 fun l => (rd64 s c (uV 1) a l).toNat + ty.read (rdI s c (uV 2) ty b l) * 2 ^ sh

/-- R345: LEA, once. -/
def execLeaScalar (h : Head) (ty : Ty) (sh : Nat) (a : Src) (b : Src) (s : State) : Out :=
  issue s h .sca [a, b] fun c => 
    scaI s c h .n64 fun l => (rd64 s c (uS 1) a l).toNat + ty.read (rdI s c (uS 2) ty b l) * 2 ^ sh

/-- R345: SXT to 32 bits, or to 64 in pairs, lane by lane. -/
def execSxtVector (h : Head) (ty : Ty) (w64 : Bool) (a : Src) (s : State) : Out :=
  issue s h .vec [a] fun c => 
    vecI s c h (if w64 then .n64 else .n32) fun l => ty.read (rd32 s c (uV 1) a l).toNat

/-- R345: SXT to 64 bits, once. -/
def execSxtScalar (h : Head) (ty : Ty) (_w64 : Bool) (a : Src) (s : State) : Out :=
  issue s h .sca [a] fun c => 
    scaI s c h .n64 fun l => ty.read (rd32 s c (uS 1) a l).toNat

/-- R346: PLOP, lane by lane. -/
def execPlopVector (h : Head) (pa : Nat) (pb : Nat) (pc : Nat) (lut : BitVec 8) (s : State) : Out :=
  issue s h .vec [] fun c => c.preds s [pa, pb, pc] fun _ =>
    vecPBody s c h fun l => (plopOp lut ((predMask s c.th.m pa).getLsbD l) ((predMask s c.th.m pb).getLsbD l)
      ((predMask s c.th.m pc).getLsbD l), 0)

/-- R346: PLOP, once, on the predicates of the lowest active lane. -/
def execPlopScalar (h : Head) (pa : Nat) (pb : Nat) (pc : Nat) (lut : BitVec 8) (s : State) : Out :=
  issue s h .sca [] fun c => c.preds s [pa, pb, pc] fun _ =>
    scaPBody s c h fun _ => (plopOp lut ((predMask s c.th.m pa).getLsbD c.low) ((predMask s c.th.m pb).getLsbD c.low)
      ((predMask s c.th.m pc).getLsbD c.low), 0)

/-- R346: P2V, lane by lane. -/
def execP2vVector (h : Head) (mask : BitVec 8) (s : State) : Out :=
  issue s h .vec [] fun c => c.preds s ((List.range 8).filter fun i => mask.getLsbD i) fun _ =>
    vecI s c h .n32 fun l => p2vOp s c.th.m mask l

/-- R346: P2V, once, on the predicates of the lowest active lane. -/
def execP2vScalar (h : Head) (mask : BitVec 8) (s : State) : Out :=
  issue s h .sca [] fun c => c.preds s ((List.range 8).filter fun i => mask.getLsbD i) fun _ =>
    scaI s c h .n64 fun l => p2vOp s c.th.m mask l

/-- R346: V2P, lane by lane. -/
def execV2pVector (h : Head) (n : Nat) (a : Src) (s : State) : Out :=
  issue s h .vec [a] fun c => vecPBody s c h fun l => ((rd32 s c (uV 1) a l).getLsbD n, 0)

/-- R346: V2P, once. -/
def execV2pScalar (h : Head) (n : Nat) (a : Src) (s : State) : Out :=
  issue s h .sca [a] fun c => scaPBody s c h fun _ => ((rd64 s c (uS 1) a c.low).getLsbD n, 0)

end Sys2Proof.Machine
end

