-- ==== Sys2Proof/Machine/Perform.lean ====
section
/-! DEFINITION. The micro-accesses of outstanding operations: when one may perform (R192, R265 to R268, R272, R274), what
it does at its bank, and how results land (R300). -/

namespace Sys2Proof.Machine

open Sys2Proof

/-! ### Atomics -/

/-- R395: AtomicOp. -/
def atomicOp (op : AOp) (ty : Ty) (old b cmp : W64) : W64 :=
  let x := old.toNat % 2 ^ ty.bits
  let y := b.toNat % 2 ^ ty.bits
  let r : Nat := match op with
    | .add => if ty = .f32 then (Ty.f32.fmt.add .rne (Ty.f32.fmt.val x) (Ty.f32.fmt.val y)).1 else x + y
    | .min => if ty.read x ≤ ty.read y then x else y
    | .max => if ty.read y ≤ ty.read x then x else y
    | .and => x &&& y
    | .or => x ||| y
    | .xor => x ^^^ y
    | .exch => y
    | .cas => if x = cmp.toNat % 2 ^ ty.bits then y else x
  w64 (r % 2 ^ ty.bits)

/-! ### The barrier window -/

/-- R174, R193: a word of the barrier window as a core shows it to a team. -/
def windowWord (s : State) (isl team core word : Nat) : W32 :=
  match s.team? isl team with
  | none => 0
  | some t =>
    let base := 0x7F000 + 0x400 * t.ctx.headD 0
    let g := (word * 4 - base) / 4
    if core = t.c0 ∧ base ≤ word * 4 ∧ g < t.groups.length then
      let x := t.group g
      w32 (x.phase % 256 * 2 ^ 24 + x.arr % 4096 * 2 ^ 12 + x.memb % 4096)
    else 0

/-- R193: bytes of the barrier window. -/
def windowBytes (s : State) (isl team core off n : Nat) : List Byte :=
  (List.range n).map fun i =>
    BitVec.ofNat 8 ((windowWord s isl team core ((off + i) / 4)).toNat / 256 ^ ((off + i) % 4))

/-! ### Order -/

/-- R263: two operations in one program order: a path holds both. -/
def Op.sharesSplit (o p : Op) : Bool := o.m == p.m && o.path.any fun x => p.path.contains x

/-- The core whose scratchpad or window a space is. -/
def Space.core : Space → Option Nat
  | .spad c | .window c => some c
  | _ => none

/-- Two accesses meet: the same bytes, or the same core's scratchpad with its window (R192, R274). -/
def Access.meets (a b : Access) : Bool :=
  match a.space.core, b.space.core with
  | some c, some d => c == d
  | none, none => a.addr < b.addr + b.size && b.addr < a.addr + a.size
  | _, _ => false

/-- Two accesses overlap: they touch a byte in common. -/
def Access.overlaps (a b : Access) : Bool :=
  a.space == b.space && decide (a.addr < b.addr + b.size) && decide (b.addr < a.addr + a.size)

/-- R272, R283: an access touches bytes that an operation writes otherwise than by its accesses: a join word, a record, the
local destination of a GET, which is any place of the same scratchpad (R274). -/
def Op.claims (s : State) (p : Op) (a : Access) : Bool :=
  let at_ (pa n : Nat) : Bool := a.space.core.isNone && decide (a.addr < pa + n) && decide (pa < a.addr + a.size)
  match p.act with
  | .joindec _ pa _ => at_ pa 8
  | .spawn _ pa .. => at_ pa 64
  | .get => s.fab.txns.any fun t => t.src == p.m.isl && t.use == .op p.id && (match t.dst.1.core with
    | some c => a.space.core == some c
    | none => t.dst.2.any fun pa => at_ pa 1)
  | _ => false

/-- R272, R274: an earlier operation of the thread still has an access of the same lane to make there. -/
def Op.blocks (s : State) (p o : Op) (a : Access) : Bool :=
  p.sharesSplit o && (p.claims s a || p.accs.any fun b =>
    !b.done && (p.scalar || o.scalar || a.lane == b.lane || b.also.getLsbD a.lane) && b.meets a)

/-- An access that writes. -/
def AccKind.writes : AccKind → Bool
  | .read | .bank => false
  | _ => true

/-- An access that consumes what it reads (R215). -/
def AccKind.reads : AccKind → Bool
  | .write _ | .bypass _ => false
  | _ => true

/-- An access that is one atomic step of an atomic or a reduction. -/
def AccKind.isAtomic : AccKind → Bool
  | .atomic .. => true
  | _ => false

/-- R266, R431: an access comes after an earlier one of its operation: of an AMDRAIN any, of an atomic one that names the
same place; all others are unordered. -/
def Op.inOrder (o : Op) (b a : Access) : Bool :=
  match o.act with
  | .drain _ => true
  | _ => a.kind.isAtomic && b.overlaps a

/-- R266: access `k` of an operation may perform now. -/
def Op.canPerform (s : State) (o : Op) (k : Nat) : Bool :=
  match o.accs[k]? with
  | none => false
  | some a =>
    !a.done && (o.accs.take k).all (fun b => b.done || !o.inOrder b a) &&
      (s.core.ops.takeWhile (·.id != o.id)).all fun p => !p.blocks s o a

/-! ### At the banks -/

/-- A read-modify-write of bytes that read as `old`. -/
def Access.bytesAfter (a : Access) (old : Nat) : List Byte :=
  match a.kind with
  | .atomic op ty b cmp => leBytes a.size (atomicOp op ty (w64 old) b cmp).toNat
  | .write v | .bypass v => leBytes a.size v.toNat
  | _ => []

/-- R194, R195, R200, R204, R268: an access of global memory performs; what it read. -/
def performGlobal (s : State) (o : Op) (a : Access) : State × Nat :=
  let isl := o.m.isl
  match a.kind with
  | .read =>
    if a.space = .const ∧ a.sealed then
      let r := s.mem.loadConst isl o.core a.addr a.size
      ({ s with mem := r.1 }, r.2)
    else if o.acq then (s, s.mem.loadAcq isl o.core a.addr a.size)
    else
      let r := s.mem.loadL1 isl o.core a.addr a.size a.sealed
      ({ s with mem := r.1 }, r.2)
  | .bank => ({ s with mem := s.mem.dropStale isl o.core a.addr a.size }, s.mem.nat isl a.addr a.size)
  | .write v => (storeBank s isl o.core a.addr (leBytes a.size v.toNat), 0)
  | .bypass v => (bypassBank s isl (some o.core) a.addr (leBytes a.size v.toNat), 0)
  | .sub d m => (subByteBank s isl (some o.core) a.addr d m, 0)
  | .atomic .. =>
    let old := s.mem.nat isl a.addr a.size
    (bypassBank s isl (some o.core) a.addr (a.bytesAfter old), old)

/-- R190, R192: an access of a scratchpad performs. -/
def performSpad (s : State) (o : Op) (a : Access) (core : Nat) : State × Nat :=
  let old := leNat (s.mem.spadBytes o.m.isl core a.addr a.size)
  match a.kind with
  | .read | .bank => (s, old)
  | _ => ({ s with mem := s.mem.spadPut o.m.isl core a.addr (a.bytesAfter old) }, old)

/-- One access performs. -/
def performAccess (s : State) (o : Op) (a : Access) : State × Nat :=
  match a.space with
  | .spad core => performSpad s o a core
  | .window core => (s, leNat (windowBytes s o.m.isl o.m.team core a.addr a.size))
  | _ => performGlobal s o a

/-- Replace the record of an operation. -/
def setOp (s : State) (o : Op) : State :=
  { s with core := { s.core with ops := s.core.ops.map fun x => if x.id = o.id then o else x } }

/-- The record of an operation. -/
def State.op? (s : State) (id : Nat) : Option Op := s.core.ops.find? (·.id = id)

/-- R265: access `k` of an operation performs. -/
def perform (s : State) (o : Op) (k : Nat) : State :=
  match o.accs[k]? with
  | none => s
  | some a =>
    let r := performAccess s o a
    setOp r.1 { o with accs := o.accs.set k { a with done := true, val := w64 r.2 } }

/-- Every access has performed. -/
def Op.allDone (o : Op) : Bool := o.accs.all (·.done)

/-! ### Landing -/

/-- R300: the lanes of a destination register that an operation's result still takes: where a fixed-latency instruction
has written meanwhile, either value may stand (log entry 2). -/
def Op.landing (s : State) (o : Op) (i : Nat) : W32 :=
  let ov := o.covered.getD i 0
  o.lanes &&& maskOf fun l => !ov.getLsbD l || Config.freeBit s.free ((i * 32 + l) * 2 ^ 32 + o.id)

/-- R307, R386: a result lands in its vector registers. -/
def landV (s : State) (o : Op) (d w : Nat) : State :=
  (List.range w).foldl (fun s n =>
    writeV s o.m (d + n) (o.landing s (d + n)) (lanesOf fun l => (o.wordV (d + n) l).getD 0)) s

/-- R307, R386: a result lands in its scalar registers. -/
def landS (s : State) (o : Op) (d w : Nat) : State :=
  (List.range w).foldl (fun s n =>
    match o.wordS (d + n) with
    | some v => if o.landing s (d + n) = 0 then s else writeS s o.m (d + n) v
    | none => s) s

/-- R300, R307: the result of an operation lands. -/
def land (s : State) (o : Op) : State :=
  if o.k then s
  else
    match o.dst with
    | .none => s
    | .vec d w => landV s o d w
    | .sca d w => landS s o d w

/-- R161: an operation is no longer outstanding, and the scoreboards that counted it fall. -/
def retire (s : State) (o : Op) : State :=
  let s := { s with core := { s.core with ops := s.core.ops.filter (·.id ≠ o.id) } }
  o.holders.foldl (fun s x => lowerSb s o.m x.1 x.2) s

/-- R268: the acquire of an operation. -/
def acquireOp (s : State) (o : Op) : State :=
  if o.acq then { s with mem := s.mem.acquire o.m.isl o.core } else s

/-- An operation completes: its result lands, its flags are set, it acquires, and it retires. -/
def finishOp (s : State) (o : Op) : State :=
  let fl := match o.act with
    | .value _ fl | .drain fl => fl
    | _ => 0
  retire (acquireOp (orFlags (land s o) o.m fl) o) o

end Sys2Proof.Machine
end

