-- ==== Sys2Proof/Machine/LoadStore.lean ====
section
/-! DEFINITION. Chapter 15: the instructions that read and write memory (R384 to R395): loads, stores, sub-byte stores,
atomics, reductions and prefetch. -/

namespace Sys2Proof.Machine

open Sys2Proof

/-! ### Order at issue -/

/-- R268: an acquire of the thread is outstanding, so its later operations wait. -/
def Issue.fenced (c : Issue) (s : State) : Bool := s.core.ops.any fun o => o.acq && o.heldBy c.th

/-- R267: the operation has local reads or writes yet to perform; a GET writes as its split does (R283). -/
def Op.unperformed (o : Op) : Bool :=
  !o.allDone || (match o.act with
    | .spawn .. | .joindec .. | .get => true
    | _ => false)

/-- R267: a release of the thread must wait. -/
def Issue.unreleased (c : Issue) (s : State) : Bool := s.core.ops.any fun o => o.heldBy c.th && o.unperformed

/-- R267, R268, R384: the order in which a memory operation issues: behind an outstanding acquire, and, when it releases,
behind every local access of its thread (log entry 16). -/
def Issue.memory (c : Issue) (s : State) (rel : Bool) (k : Unit → Body) : Body :=
  if c.exec = 0 then .done s []
  else if c.fenced s || (rel && c.unreleased s) then .stall
  else k ()

/-- R270: a read of the thread is yet to perform. -/
def Issue.unread (c : Issue) (s : State) : Bool :=
  s.core.ops.any fun o => o.heldBy c.th && o.accs.any fun a => !a.done && a.kind.reads

/-! ### Translation -/

/-- R92, R100: a translation by the issuing core. -/
def Issue.xlate (c : Issue) (s : State) (va : Nat) (acc : Acc) : Xlate :=
  Machine.xlate s c.isl (.core c.core) c.part va acc

/-- R92, R100: an access within one page by the issuing core. -/
def Issue.access (c : Issue) (s : State) (va n : Nat) (acc : Acc) (reads : Bool) : Except XErr (Nat × Bool) :=
  accessBy s c.isl (.core c.core) c.part va n acc reads

/-! ### Checks -/

/-- A list of checks ends in a trap or in what follows. -/
def settled (r : Except Body Body) : Body :=
  match r with
  | .ok b => b
  | .error b => b

/-- R384: the participants; a scalar form has one. -/
def Issue.parts (c : Issue) (sca : Bool) : List Nat := if sca then [0] else lanesIn c.exec

/-- R311: EffAddr without its offset in units. -/
def effBase (s : State) (c : Issue) (u : Bool) (a b : Src) (l : Nat) : Nat :=
  let base := match a with
    | .vreg i => (readV s c.th.m 1 i l).toNat
    | a => (rd64 s c ⟨u, 1⟩ a l).toNat
  let idx := match b with
    | .vreg i => (readV s c.th.m 2 i l).toNat
    | b => (rd64 s c ⟨u, 2⟩ b l).toNat
  (base + idx) % 2 ^ 64

/-- R311: EffAddr. -/
def effAddr (s : State) (c : Issue) (u : Bool) (a b : Src) (ofs size l : Nat) : Nat :=
  (effBase s c u a b l + ofs * size) % 2 ^ 64

/-- R189: every address a multiple of `n`. -/
def checkAligned (n : Nat) (as : List Nat) : Except Body Unit :=
  match as.find? fun a => a % n != 0 with
  | some a => .error (.trap .misaligned (w64 a))
  | none => .ok ()

/-- One access that an instruction asks for: lane, half, address as the program gives it, size and kind. -/
structure Req where
  lane : Nat
  half : Nat
  va : Nat
  size : Nat
  kind : AccKind
deriving DecidableEq, Repr

/-- The access of a request at a place. -/
def Req.at_ (r : Req) (sp : Space) (addr : Nat) (sealed : Bool) : Access :=
  ⟨r.lane, r.half, sp, addr, r.size, r.kind, sealed, false, 0, 0⟩

/-- R214, R268: a load finds all it reads in copies that its core holds; one that acquires, in words that the core owns or
that are sealed. -/
def Access.cached (s : State) (isl core : Nat) (acq : Bool) (a : Access) : Bool :=
  a.kind == .read && a.space.core.isNone &&
    if a.space = .const ∧ a.sealed then (s.mem.ccache.get? (isl, core, a.addr / 64)).isSome
    else (wordsOf a.addr a.size).all fun w =>
      match s.mem.l1.get? (isl, core, w) with
      | some x => !acq || x.owned || x.sealed
      | none => false

/-- R214: a load that finds a copy made before its sector was poisoned takes its value from there. -/
def Access.fromCopy (s : State) (isl core : Nat) (a : Access) : Access :=
  let v := if a.space = .const ∧ a.sealed then (s.mem.loadConst isl core a.addr a.size).2
    else (s.mem.loadL1 isl core a.addr a.size a.sealed).2
  { a with done := true, val := w64 v }

/-- R214: two accesses touch a sector in common. -/
def Access.nears (a b : Access) : Bool :=
  a.space == b.space && decide (a.addr / 64 ≤ (b.addr + b.size - 1) / 64) && decide (b.addr / 64 ≤ (a.addr + a.size - 1) / 64)

/-- R217, R220: a write of the thread to the sector of an access is yet to perform. -/
def Issue.overwrites (c : Issue) (s : State) (a : Access) : Bool :=
  s.core.ops.any fun o => o.heldBy c.th && o.accs.any fun b => !b.done && b.kind.writes && (b.meets a || b.nears a)

/-- R214, R215, R385, order 8: the accesses of an instruction that reads, each with its address as the program gives it:
a poisoned byte raises `poison` of its address, unless a copy serves the access; a write of the thread to the place comes
first (R220). -/
def consume (s : State) (c : Issue) (acq : Bool) (poison : Nat → Body) (bad : Access → Option Nat)
    (as : List (Nat × Access)) : Except Body (List Access) :=
  let met (x : Nat × Access) : Option Nat :=
    if x.2.kind.reads && !x.2.cached s c.isl c.core acq then (bad x.2).map fun b => x.1 + (b - x.2.addr) else none
  if as.any fun x => (bad x.2).isSome && x.2.kind.reads && c.overwrites s x.2 then .error .stall
  else
    match as.findSome? met with
    | some va => .error (poison va)
    | none => .ok (as.map fun x => if (bad x.2).isSome && x.2.cached s c.isl c.core acq then x.2.fromCopy s c.isl c.core else x.2)

/-- R385, orders 6 to 8: the accesses of global memory, translated, in space `sp`. -/
def reachGlobal (s : State) (c : Issue) (sp : Space) (acc : Acc) (acq : Bool) (rs : List Req) :
    Except Body (List Access) :=
  let xs := rs.map fun r => (r, c.xlate s r.va acc)
  match xs.findSome? fun x => match x.2 with | .fault p l => some (XErr.fault x.1.va p l) | _ => none with
  | some e => .error (.fault e acc 0)
  | none =>
    match xs.findSome? fun x => match x.2 with | .sealedStore => some (XErr.sealed x.1.va) | _ => none with
    | some e => .error (.fault e acc 0)
    | none =>
      let as := xs.filterMap fun x => match x.2 with | .ok pa sl _ => some (x.1.va, x.1.at_ sp pa sl) | _ => none
      consume s c acq (fun va => .fault (.poison va) acc 0) (fun a => s.mem.poisonedAt c.isl a.addr a.size) as

/-- A range of addresses cut at 64 KiB pages. -/
def pageRuns : Nat → Nat → Nat → List (Nat × Nat)
  | 0, _, _ => []
  | fuel + 1, a, n =>
    if n = 0 then []
    else
      let k := min n (65536 - a % 65536)
      (a, k) :: pageRuns fuel (a + k) (n - k)

/-- R142: the base of the team's reservation on a core of its span. -/
def Team.base (t : Team) (core : Nat) : Nat := t.spad.getD (core - t.c0) 0

/-- A core lies in the team's span. -/
def Team.inSpan (t : Team) (core : Nat) : Bool := t.c0 ≤ core && core < t.c0 + t.n

/-- R190: an offset lies in the reservation, in the barrier window, or in neither. -/
inductive Place where
  | reserved
  | window
  | outside
deriving DecidableEq, Repr

/-- R190: where `n` bytes at an offset lie. -/
def placeOf (scr off n : Nat) : Place :=
  if off + n ≤ scr then .reserved
  else if 0x7F000 ≤ off ∧ off + n ≤ 0x80000 then .window
  else .outside

/-- R190, R311, R385, orders 3, 4 and 8: the accesses of a scratchpad reservation; TVAL shows an offset, of 32 bits. -/
def reachSpad (s : State) (c : Issue) (core : Nat) (writes : Bool) (rs : List Req) : Except Body (List Access) :=
  match rs.find? fun r => placeOf c.tm.hdr.scr r.va r.size == .outside with
  | some r => .error (.trap .permission (w64 (r.va % 2 ^ 32)))
  | none =>
    match if writes then rs.find? fun r => placeOf c.tm.hdr.scr r.va r.size == .window else none with
    | some r => .error (.trap .barrierWindow (w64 r.va))
    | none =>
      let base := c.tm.base core
      let as := rs.map fun r =>
        if placeOf c.tm.hdr.scr r.va r.size = .window then (r.va, r.at_ (.window core) r.va false)
        else (r.va, r.at_ (.spad core) (base + r.va) false)
      consume s c false (fun off => .fault (.poison off) .read 1) (fun a =>
        match a.space with
        | .spad k => s.mem.spadPoisonedAt c.isl k a.addr a.size
        | _ => none) as

/-- R384, R386: the spaces of loads and stores. -/
inductive Reach where
  | global
  | const
  | own
  | peer (q : Nat)
deriving DecidableEq, Repr

/-- R192: the peer core a reach names. -/
def Reach.core (x : Reach) (c : Issue) : Nat :=
  match x with
  | .peer q => 4 * (c.core / 4) + q
  | _ => c.core

/-- R311, R389: what a reach makes of the sum of an address: a peer's offset is its low 32 bits, while a sum of 2^32 or more
is outside the core's own reservation. -/
def Reach.wrap (x : Reach) (a : Nat) : Nat :=
  match x with
  | .peer _ => a % 2 ^ 32
  | _ => a

/-- R189, R311: an address as TVAL shows it: an offset has 32 bits. -/
def Reach.shown (x : Reach) (a : Nat) : Nat :=
  match x with
  | .own | .peer _ => a % 2 ^ 32
  | _ => a

/-- R385, order 1. -/
def Reach.checkSpan (x : Reach) (c : Issue) : Except Body Unit :=
  match x with
  | .peer q => if c.tm.inSpan (x.core c) then .ok () else .error (.trap .clusterSpan (w64 q))
  | _ => .ok ()

/-- R385: the accesses of an instruction, checked. -/
def reachAll (s : State) (c : Issue) (x : Reach) (acc : Acc) (acq : Bool) (rs : List Req) :
    Except Body (List Access) :=
  match x with
  | .global => reachGlobal s c .global acc acq rs
  | .const => reachGlobal s c .const acc acq rs
  | _ => reachSpad s c (x.core c) (acc != .read) rs

/-! ### Loads and stores -/

/-- R387: the pieces of a value: one access, or the two halves of 16 bytes (R265). -/
def pieces (l a size : Nat) (x2 : Bool) (kind : Nat → AccKind) : List Req :=
  if x2 then [⟨l, 0, a, 8, kind 0⟩, ⟨l, 1, a + 8, 8, kind 1⟩] else [⟨l, 0, a, size, kind 0⟩]

/-- R386: the registers of a value: vector registers of 4 bytes, scalar registers of 8. -/
def valueRegs (sca : Bool) (ty : Ty) (x2 : Bool) : Nat :=
  if sca then (if x2 then 2 else 1) else if x2 then 4 else if ty.bits = 64 then 2 else 1

/-- Where a form's result goes. -/
def resultAt (sca : Bool) (h : Head) (w : Nat) : Dst := if sca then .sca h.d w else .vec h.d w

/-- R387: a load. -/
def loadBody (s : State) (c : Issue) (h : Head) (sca : Bool) (x : Reach) (ty : Ty) (ord : Ord) (x2 : Bool) (ofs : Nat)
    (a b : Src) : Body :=
  c.memory s false fun _ => settled do
    x.checkSpan c
    let size := ty.bits / 8
    let as := (c.parts sca).map fun l => (l, x.wrap (effAddr s c sca a b ofs size l))
    checkAligned (if x2 then 16 else size) (as.map fun p => x.shown p.2)
    let accs ← reachAll s c x .read (ord == .acq) (as.flatMap fun p => pieces p.1 p.2 size x2 fun _ => .read)
    .ok (.done (startOp s c { c.op s h sca (resultAt sca h (valueRegs sca ty x2)) (.load ty x2) with
      accs := accs, acq := ord == .acq }) [])

/-- The register that a store's data stands in. -/
def dataSrc (sca : Bool) (d : Nat) : Src := if sca then .sreg d else .vreg d

/-- The registers that hold a form's data. -/
def dataSrcs (sca : Bool) (d w : Nat) : List Src := (List.range w).map fun i => dataSrc sca (d + i)

/-- R386: half `k` of the data of a store. -/
def storeData (s : State) (c : Issue) (h : Head) (sca : Bool) (l k : Nat) : W64 :=
  rd64 s c ⟨sca, 0⟩ (dataSrc sca (h.d + k * if sca then 1 else 2)) l

/-- R386: the data of a store of a type, in a lane. -/
def storeWord (s : State) (c : Issue) (h : Head) (sca : Bool) (ty : Ty) (l k : Nat) : W64 :=
  if ty.bits = 64 ∨ sca then storeData s c h sca l k else (rd32 s c ⟨false, 0⟩ (.vreg h.d) l).setWidth 64

/-- R266: an access stands for the write of a lower lane too. -/
def Access.standsFor (b a : Access) : Access := { b with also := b.also ||| a.also ||| (1 <<< a.lane) }

/-- R266: the accesses of a store whose bytes no later one of the same instruction covers, each for the lanes it covers. -/
def lastWriters : List Access → List Access
  | [] => []
  | a :: as =>
    let rest := lastWriters as
    if rest.any fun b => b.addr == a.addr then rest.map fun b => if b.addr = a.addr then b.standsFor a else b
    else a :: rest

/-- R388: a store. -/
def storeBody (s : State) (c : Issue) (h : Head) (sca : Bool) (x : Reach) (ty : Ty) (ord : Ord) (x2 : Bool) (ofs : Nat)
    (a b : Src) : Body :=
  c.memory s (ord == .rel) fun _ => settled do
    x.checkSpan c
    let size := ty.bits / 8
    let as := (c.parts sca).map fun l => (l, x.wrap (effAddr s c sca a b ofs size l))
    checkAligned (if x2 then 16 else size) (as.map fun p => x.shown p.2)
    let accs ← reachAll s c x .write false
      (as.flatMap fun p => pieces p.1 p.2 size x2 fun k => .write (storeWord s c h sca ty p.1 k))
    .ok (.done (startOp s c { c.op s h sca .none .store with accs := lastWriters accs }) [])

/-- R387: LD, lane by lane. -/
def execLdVector (h : Head) (ty : Ty) (ord : Ord) (x2 : Bool) (ofs : Nat) (a b : Src) (s : State) : Out :=
  issue s h .vec [a, b] fun c => loadBody s c h false .global ty ord x2 ofs a b

/-- R387: LD, once. -/
def execLdScalar (h : Head) (ty : Ty) (ord : Ord) (x2 : Bool) (ofs : Nat) (a b : Src) (s : State) : Out :=
  issue s h .sca [a, b] fun c => loadBody s c h true .global ty ord x2 ofs a b

/-- R388: ST, lane by lane. -/
def execStVector (h : Head) (ty : Ty) (ord : Ord) (x2 : Bool) (ofs : Nat) (a b : Src) (s : State) : Out :=
  issue s h .vec (a :: b :: dataSrcs false h.d (valueRegs false ty x2)) fun c => storeBody s c h false .global ty ord x2 ofs a b

/-- R388: ST, once. -/
def execStScalar (h : Head) (ty : Ty) (ord : Ord) (x2 : Bool) (ofs : Nat) (a b : Src) (s : State) : Out :=
  issue s h .sca (a :: b :: dataSrcs true h.d (valueRegs true ty x2)) fun c => storeBody s c h true .global ty ord x2 ofs a b

/-- R387: LDS, lane by lane. -/
def execLdsVector (h : Head) (ty : Ty) (ord : Ord) (x2 : Bool) (ofs : Nat) (a b : Src) (s : State) : Out :=
  issue s h .vec [a, b] fun c => loadBody s c h false .own ty ord x2 ofs a b

/-- R387: LDS, once. -/
def execLdsScalar (h : Head) (ty : Ty) (ord : Ord) (x2 : Bool) (ofs : Nat) (a b : Src) (s : State) : Out :=
  issue s h .sca [a, b] fun c => loadBody s c h true .own ty ord x2 ofs a b

/-- R388: STS, lane by lane. -/
def execStsVector (h : Head) (ty : Ty) (ord : Ord) (x2 : Bool) (ofs : Nat) (a b : Src) (s : State) : Out :=
  issue s h .vec (a :: b :: dataSrcs false h.d (valueRegs false ty x2)) fun c => storeBody s c h false .own ty ord x2 ofs a b

/-- R388: STS, once. -/
def execStsScalar (h : Head) (ty : Ty) (ord : Ord) (x2 : Bool) (ofs : Nat) (a b : Src) (s : State) : Out :=
  issue s h .sca (a :: b :: dataSrcs true h.d (valueRegs true ty x2)) fun c => storeBody s c h true .own ty ord x2 ofs a b

/-- R389: LDX, lane by lane. -/
def execLdxVector (h : Head) (ty : Ty) (ord : Ord) (x2 : Bool) (q : Nat) (ofs : Nat) (a b : Src) (s : State) : Out :=
  issue s h .vec [a, b] fun c => loadBody s c h false (.peer q) ty ord x2 ofs a b

/-- R389: LDX, once. -/
def execLdxScalar (h : Head) (ty : Ty) (ord : Ord) (x2 : Bool) (q : Nat) (ofs : Nat) (a b : Src) (s : State) : Out :=
  issue s h .sca [a, b] fun c => loadBody s c h true (.peer q) ty ord x2 ofs a b

/-- R389: STX, lane by lane. -/
def execStxVector (h : Head) (ty : Ty) (ord : Ord) (x2 : Bool) (q : Nat) (ofs : Nat) (a b : Src) (s : State) : Out :=
  issue s h .vec (a :: b :: dataSrcs false h.d (valueRegs false ty x2)) fun c => storeBody s c h false (.peer q) ty ord x2 ofs a b

/-- R389: STX, once. -/
def execStxScalar (h : Head) (ty : Ty) (ord : Ord) (x2 : Bool) (q : Nat) (ofs : Nat) (a b : Src) (s : State) : Out :=
  issue s h .sca (a :: b :: dataSrcs true h.d (valueRegs true ty x2)) fun c => storeBody s c h true (.peer q) ty ord x2 ofs a b

/-- R390: LDC, lane by lane. -/
def execLdcVector (h : Head) (ty : Ty) (ord : Ord) (x2 : Bool) (ofs : Nat) (a b : Src) (s : State) : Out :=
  issue s h .vec [a, b] fun c => loadBody s c h false .const ty ord x2 ofs a b

/-- R390: LDC, once. -/
def execLdcScalar (h : Head) (ty : Ty) (ord : Ord) (x2 : Bool) (ofs : Nat) (a b : Src) (s : State) : Out :=
  issue s h .sca [a, b] fun c => loadBody s c h true .const ty ord x2 ofs a b

/-! ### Prefetch -/

/-- R391: the sectors a prefetch may fill: mapped, not poisoned, not sealed. -/
def prfTargets (s : State) (c : Issue) (vas : List Nat) : List Nat :=
  vas.filterMap fun va =>
    match c.access s va 1 .read true with
    | .ok (pa, false) => some (pa / 64)
    | _ => none

/-- R215, R391: PRF fills L1 sectors or is dropped (log entry 2), as it is where it reads a poisoned register. -/
def prfBody (s : State) (c : Issue) (h : Head) (sca : Bool) (ty : Ty) (ofs : Nat) (a b : Src) : Body :=
  c.memory s false fun _ =>
    let secs := if (c.poisonedSrc s h [a, b]).isSome then [] else prfTargets s c ((c.parts sca).map fun l => effAddr s c sca a b ofs (ty.bits / 8) l)
    let mem := secs.foldl (fun m sec => if Config.freeBit s.free sec then m.fillL1 c.isl c.core sec false else m) s.mem
    .done (startOp { s with mem := mem } c { c.op s h sca .none .plain with mem := true }) []

/-- R391: PRF, lane by lane. -/
def execPrfVector (h : Head) (ty : Ty) (_ord : Ord) (_x2 : Bool) (ofs : Nat) (a b : Src) (s : State) : Out :=
  issue s h .vecQ [] fun c => prfBody s c h false ty ofs a b

/-- R391: PRF, once. -/
def execPrfScalar (h : Head) (ty : Ty) (_ord : Ord) (_x2 : Bool) (ofs : Nat) (a b : Src) (s : State) : Out :=
  issue s h .scaQ [] fun c => prfBody s c h true ty ofs a b

/-! ### Sub-byte stores -/

/-- R266, R393: a later sub-byte write of the same word takes the bits both cover; a write left without bits is none. -/
def disjointSubs : List Access → List Access
  | [] => []
  | a :: as =>
    match a.kind with
    | .sub d m =>
      let taken := as.foldl (fun x b => match b.kind with
        | .sub _ m' => if b.addr = a.addr then x ||| m' else x
        | _ => x) 0
      let m' := m &&& ~~~taken
      let rest := (disjointSubs as).map fun b => match b.kind with
        | .sub _ x => if b.addr = a.addr ∧ x &&& m ≠ 0 then b.standsFor a else b
        | _ => b
      if m' = 0 then rest else { a with kind := .sub d m' } :: rest
    | _ => a :: disjointSubs as

/-- R393: the sub-byte writes of one element: width, base, element index, value. -/
def elementSubs (l w base e f : Nat) : List Req :=
  let bit := w * e
  let w0 := (base + 8 * (bit / 64)) % 2 ^ 64
  let sh := bit % 64
  let f := f % 2 ^ w
  if sh + w ≤ 64 then [⟨l, 0, w0, 8, .sub (w64 (f * 2 ^ sh)) (w64 ((2 ^ w - 1) * 2 ^ sh))⟩]
  else
    [⟨l, 0, w0, 8, .sub (w64 (f * 2 ^ sh)) (w64 ((2 ^ (64 - sh) - 1) * 2 ^ sh))⟩,
     ⟨l, 1, (w0 + 8) % 2 ^ 64, 8, .sub (w64 (f / 2 ^ (64 - sh))) (w64 (2 ^ (w - (64 - sh)) - 1))⟩]

/-- R392, R393: STSB, once its writes are known. -/
def subBody (s : State) (c : Issue) (h : Head) (sca : Bool) (bases : List Nat) (rs : List Req) : Except Body Body := do
  checkAligned 8 bases
  let accs ← reachGlobal s c .global .write false rs
  .ok (.done (startOp s c { c.op s h sca .none .store with accs := disjointSubs accs }) [])

/-- R393: STSB in element mode. -/
def stsbElement (s : State) (c : Issue) (h : Head) (sca : Bool) (ty : Ty) (ord : Ord) (ofs : Nat) (a b : Src) : Body :=
  c.memory s (ord == .rel) fun _ =>
    let w := if ty = .e2m1 then 4 else 6
    let ps := (c.parts sca).map fun l =>
      (l, effBase s c sca a (.konst .zero) l, (effBase s c sca (.konst .zero) b l + ofs) % 2 ^ 64,
        (rd32 s c ⟨sca, 0⟩ (dataSrc sca h.d) l).toNat)
    settled (subBody s c h sca (ps.map (·.2.1)) (ps.flatMap fun p => elementSubs p.1 w p.2.1 p.2.2.1 p.2.2.2))

/-- R393: STSB in mask mode. -/
def stsbMask (s : State) (c : Issue) (h : Head) (sca : Bool) (ord : Ord) (ofs : Nat) (a b : Src) : Body :=
  c.memory s (ord == .rel) fun _ =>
    let ps := (c.parts sca).map fun l => (l, (effBase s c sca a (.konst .zero) l + 8 * ofs) % 2 ^ 64)
    settled (subBody s c h sca (ps.map (·.2)) (ps.map fun p =>
      ⟨p.1, 0, p.2, 8, .sub (storeData s c h sca p.1 0) (rd64 s c ⟨sca, 2⟩ b p.1)⟩))

/-- R393: STSB in element mode, lane by lane. -/
def execStsbElementVector (h : Head) (ty : Ty) (ord : Ord) (ofs : Nat) (a b : Src) (s : State) : Out :=
  issue s h .vec (a :: b :: dataSrcs false h.d 1) fun c => stsbElement s c h false ty ord ofs a b

/-- R393: STSB in element mode, once. -/
def execStsbElementScalar (h : Head) (ty : Ty) (ord : Ord) (ofs : Nat) (a b : Src) (s : State) : Out :=
  issue s h .sca (a :: b :: dataSrcs true h.d 1) fun c => stsbElement s c h true ty ord ofs a b

/-- R393: STSB in mask mode, lane by lane. -/
def execStsbMaskVector (h : Head) (ord : Ord) (ofs : Nat) (a b : Src) (s : State) : Out :=
  issue s h .vec (a :: (pairSrc b ++ dataSrcs false h.d 2)) fun c => stsbMask s c h false ord ofs a b

/-- R393: STSB in mask mode, once. -/
def execStsbMaskScalar (h : Head) (ord : Ord) (ofs : Nat) (a b : Src) (s : State) : Out :=
  issue s h .sca (a :: b :: dataSrcs true h.d 1) fun c => stsbMask s c h true ord ofs a b

/-! ### Atomics and reductions -/

/-- R394: the operand of an atomic: an integer at its width, or an F32. -/
def atomB (s : State) (c : Issue) (sca : Bool) (ty : Ty) (b : Src) (l : Nat) : W64 :=
  if ty = .f32 then w64 (rdF s c ⟨sca, 2⟩ .f32 b l) else w64 (rdI s c ⟨sca, 2⟩ ty b l)

/-- R394: the compare value of a CAS. -/
def atomCmp (s : State) (c : Issue) (h : Head) (sca : Bool) (ty : Ty) (op : AOp) (l : Nat) : W64 :=
  if op = .cas then w64 (rdI s c ⟨sca, 0⟩ ty (dataSrc sca h.d) l) else 0

/-- R395: ATOM, ATOMS and RED. -/
def atomBody (s : State) (c : Issue) (h : Head) (sca : Bool) (x : Reach) (red : Bool) (ty : Ty) (ord : Ord) (op : AOp)
    (ofs : Nat) (a b : Src) : Body :=
  c.memory s (ord == .rel || ord == .acqrel) fun _ => settled do
    let size := ty.bits / 8
    let addr := fun l => if x = .own then (rd32 s c ⟨sca, 1⟩ a l).toNat + ofs * size
      else ((rd64 s c ⟨sca, 1⟩ a l).toNat + ofs * size) % 2 ^ 64
    let as := (c.parts sca).map fun l => (l, addr l)
    checkAligned size (as.map fun p => x.shown p.2)
    let accs ← reachAll s c x .atomic false (as.map fun p =>
      ⟨p.1, 0, p.2, size, .atomic op ty (atomB s c sca ty b p.1) (atomCmp s c h sca ty op p.1)⟩)
    let dst := if red then .none else resultAt sca h (valueRegs sca ty false)
    .ok (.done (startOp s c { c.op s h sca dst (if red then .store else .oldVal ty) with
      accs := accs, acq := ord == .acq || ord == .acqrel }) [])

/-- The registers ATOM reads. -/
def atomSrcs (sca : Bool) (h : Head) (ty : Ty) (op : AOp) (a b : Src) : List Src :=
  pairSrc a ++ srcsI ty b ++ (if op = .cas then dataSrcs sca h.d (valueRegs sca ty false) else [])

/-- R395: ATOM, lane by lane. -/
def execAtomVector (h : Head) (ty : Ty) (ord : Ord) (op : AOp) (ofs : Nat) (a b : Src) (s : State) : Out :=
  issue s h .vec (atomSrcs false h ty op a b) fun c => atomBody s c h false .global false ty ord op ofs a b

/-- R395: ATOM, once. -/
def execAtomScalar (h : Head) (ty : Ty) (ord : Ord) (op : AOp) (ofs : Nat) (a b : Src) (s : State) : Out :=
  issue s h .sca (atomSrcs true h ty op a b) fun c => atomBody s c h true .global false ty ord op ofs a b

/-- R395: ATOMS, lane by lane. -/
def execAtomsVector (h : Head) (ty : Ty) (ord : Ord) (op : AOp) (ofs : Nat) (a b : Src) (s : State) : Out :=
  issue s h .vec (a :: atomSrcs false h ty op (.konst .zero) b) fun c =>
    atomBody s c h false .own false ty ord op ofs a b

/-- R395: ATOMS, once. -/
def execAtomsScalar (h : Head) (ty : Ty) (ord : Ord) (op : AOp) (ofs : Nat) (a b : Src) (s : State) : Out :=
  issue s h .sca (a :: atomSrcs true h ty op (.konst .zero) b) fun c =>
    atomBody s c h true .own false ty ord op ofs a b

/-- R395: RED, lane by lane. -/
def execRedVector (h : Head) (ty : Ty) (ord : Ord) (op : AOp) (ofs : Nat) (a b : Src) (s : State) : Out :=
  issue s h .vec (pairSrc a ++ srcsI ty b) fun c => atomBody s c h false .global true ty ord op ofs a b

/-- R395: RED, once. -/
def execRedScalar (h : Head) (ty : Ty) (ord : Ord) (op : AOp) (ofs : Nat) (a b : Src) (s : State) : Out :=
  issue s h .sca (pairSrc a ++ srcsI ty b) fun c => atomBody s c h true .global true ty ord op ofs a b

end Sys2Proof.Machine
end

