-- ==== Sys2Proof/Machine/Strands.lean ====
section
/-! DEFINITION. The start of strands and gaffer contexts (R152, R157, R170) and ATTACH's choice of them (R176, R179). -/

namespace Sys2Proof.Machine

open Sys2Proof

/-- R163: a thread that stands before a clause with nothing outstanding. -/
def freshThread (pc : Nat) (mask : W32) : ThreadRec :=
  { pc := pc, mask := mask, clause := none, slot := 0, latches := zeroLatches, sb := List.replicate 7 0, exited := 0,
    ends := [], wait := .free, shadow := none, handler := false, epcSet := false, tcause := 0, tval := 0, epc := 0,
    watch := none, fail := none, lastStart := 0, lastClk := 0 }

/-- R152: the strands of a bay, with the bytes of vector registers each holds. -/
def bayUse (s : State) (isl core bay : Nat) : List Nat :=
  (s.core.members.filter fun e => e.1.isl = isl ∧ !e.1.gaffer ∧ e.2.core = core ∧ e.2.bay = bay ∧ e.2.live).map fun e =>
    ((s.team? e.1.isl e.1.team).map fun t => t.hdr.vr * 128).getD 0

/-- R152: the lowest bay of a core with a free strand slot and room for `vr` registers. -/
def bayFor (s : State) (isl core vr : Nat) : Option Nat :=
  (List.range 8).find? fun b =>
    let u := bayUse s isl core b
    u.length < 16 && u.sum + vr * 128 ≤ 131072

/-- R145, R146: the memberships of a strand index. -/
def Team.row (t : Team) (k : Nat) : List Nat :=
  match t.rows with
  | none => [0]
  | some rs => rs.getD k []

/-- R152: the span core of a strand index. -/
def Team.coreOf (t : Team) (k : Nat) : Nat := t.c0 + k / t.cap

/-- A member starts with its registers zero but for its index and the frame pointer (R157). -/
def startMember (s : State) (m : Member) (r : MemberRec) (frame : W64) (th : Option ThreadRec) : State :=
  let s := (clearMember s m).setMember m r
  let b := if m.gaffer then 62 else 190
  let s := { s with core := { s.core with
    sreg := (s.core.sreg.set (m, b) (w64 m.idx)).set (m, b + 1) frame
    threads := s.core.threads.filter fun e => e.1.m ≠ m } }
  match th with
  | some t => s.setThread ⟨m, 0⟩ t
  | none => s

/-- R157: a new strand, with its memberships. -/
def startStrand (s : State) (isl team k : Nat) (t : Team) (bay : Nat) (groups : List (Nat × Bool)) : State :=
  startMember s ⟨isl, team, false, k⟩ ⟨t.coreOf k, bay, .placed, false, false, 0, [], groups, 1⟩ t.task.frame
    (some (freshThread t.hdr.sentry 0xFFFFFFFF))

/-- R176: the memberships of a new strand join their groups, at once where no phase is open, else at the next release. -/
def joinGroups (t : Team) (gs : List Nat) : Team × List (Nat × Bool) :=
  gs.foldl (fun a g =>
    let x := a.1.group g
    if 1 ≤ x.arr then (a.1.setGroup g { x with pend := x.pend + 1 }, a.2 ++ [(g, false)])
    else (a.1.setGroup g { x with memb := x.memb + 1 }, a.2 ++ [(g, true)])) (t, [])

/-- R176, R179: strand index `k` is not live and its span core has room; its bay. -/
def attachBay (s : State) (isl team : Nat) (t : Team) (k : Nat) : Option Nat :=
  if ((s.member? ⟨isl, team, false, k⟩).map (·.live)).getD false then none
  else bayFor s isl (t.coreOf k) t.hdr.vr

/-- R176: one strand is attached, at the lowest index with room. -/
def attachOne (s : State) (isl team : Nat) : Option State :=
  match s.team? isl team with
  | none => none
  | some t =>
    match (List.range t.hdr.smax).findSome? fun k => (attachBay s isl team t k).map fun b => (k, b) with
    | none => none
    | some (k, b) =>
      let r := joinGroups t (t.row k)
      some (startStrand (s.setTeam isl team r.1) isl team k r.1 b r.2)

/-- R405: attach until `n` strands have been attached or none has room; the number attached. -/
def attachMany (isl team : Nat) : Nat → State → State × Nat
  | 0, s => (s, 0)
  | n + 1, s =>
    match attachOne s isl team with
    | none => (s, 0)
    | some s' =>
      let r := attachMany isl team n s'
      (r.1, r.2 + 1)

/-- R179: SPANFREE. -/
def spanFree (s : State) (isl team : Nat) : Nat :=
  match s.team? isl team with
  | none => 0
  | some t => ((List.range t.hdr.smax).filter fun k => (attachBay s isl team t k).isSome).length

end Sys2Proof.Machine
end

