-- ==== Sys2Proof/Machine/Sync.lean ====
section
/-! DEFINITION. Chapter 15: cache control, sealing, fences, monitor and wait (R396 to R400), barriers and team membership
(R401 to R407). -/

namespace Sys2Proof.Machine

open Sys2Proof

/-- A split-wide instruction without a register result, complete in its effect. -/
def plainOp (s s' : State) (c : Issue) (h : Head) : Body :=
  .done (startOp s' c { c.op s h true .none .plain with mem := true }) []

/-- A split-wide instruction whose result is known at issue. -/
def valueOp (s s' : State) (c : Issue) (h : Head) (v : W64) : Body :=
  .done (startOp s' c { c.op s h true (.sca h.d 1) (.value [v] 0) with mem := true }) []

/-! ### Cache control -/

/-- R199, R396: the instruction caches of some cores of an island are emptied. -/
def dropICache (s : State) (isl : Nat) (p : Nat → Bool) : State :=
  { s with mem := { s.mem with icache := s.mem.icache.drop fun k => k.1 == isl && p k.2.1 } }

/-- R84: a core belongs to the slices of a partition. -/
def partCore (s : State) (part core : Nat) : Bool :=
  ((s.par.parts.get? part).map fun p => nbit p.slices (core / 8)).getD false

/-- R396: CCTL.IINV. -/
def execCctlIinv (h : Head) (s : State) : Out :=
  issue s h .sca [] fun c => c.memory s false fun _ => plainOp s (dropICache s c.isl (· == c.core)) c h

/-- R396: CCTL.IINVP. -/
def execCctlIinvp (h : Head) (s : State) : Out :=
  issue s h .sca [] fun c => c.memory s false fun _ => plainOp s (dropICache s c.isl (partCore s c.part)) c h

/-- R396: the words of a line that the core does not own leave its L1. -/
def dropLine (s : State) (isl core line : Nat) : State :=
  { s with mem := { s.mem with l1 := s.mem.l1.filter fun e =>
      e.1.1 != isl || e.1.2.1 != core || e.1.2.2 / 64 != line || e.2.owned } }

/-- R100, R396: the physical address that a core's translation of an address leads to, whatever it permits. -/
def Issue.lineOf (c : Issue) (s : State) (va : Nat) : Option Nat :=
  let leaf : Option (Pte × Nat) := match tlbHit s c.isl (.core c.core) c.part va, walk s c.isl c.part va with
    | some x, _ => some x
    | none, .leaf p lvl _ => some (p, lvl)
    | none, .none _ => none
  leaf.map fun x => x.1.pfn * 2 ^ 16 + if x.2 = 2 then nbits va 28 0 else nbits va 15 0

/-- R396: CCTL.L1INV. -/
def execCctlL1inv (h : Head) (a : Src) (s : State) : Out :=
  issue s h .sca [a] fun c => c.memory s false fun _ =>
    match c.lineOf s (rd64 s c (uS 1) a 0).toNat with
    | none => plainOp s s c h
    | some pa => plainOp s (dropLine s c.isl c.core (pa / 256)) c h

/-- R396: CCTL.L1ALL. -/
def execCctlL1all (h : Head) (s : State) : Out :=
  issue s h .sca [] fun c => c.memory s false fun _ =>
    plainOp s { s with mem := s.mem.acquire c.isl c.core } c h

/-! ### Sealing -/

/-- R397: the leaves of a range, from an address: the leaf's own address and the bytes it maps. A page without a mapping or
without R fails. -/
def sealLeaves (s : State) (isl part stop : Nat) : Nat → Nat → Except XErr (List (Nat × Nat × Nat))
  | 0, _ => .ok []
  | fuel + 1, a =>
    if stop ≤ a then .ok []
    else
      match walk s isl part a with
      | .none lvl => .error (.fault a false lvl)
      | .leaf p lvl at_ =>
        if !p.r then .error (.fault a true lvl)
        else
          let size := if lvl = 2 then 2 ^ 29 else 2 ^ 16
          (sealLeaves s isl part stop fuel (a + size)).map fun r => (at_, p.pfn * 2 ^ 16, size) :: r

/-- R397: a large page of which the range covers only part. -/
def splitLarge (s : State) (isl part a stop : Nat) : Option Nat :=
  if stop ≤ a then none
  else
    let large (x : Nat) : Bool := match walk s isl part x with
      | .leaf _ 2 _ => true
      | _ => false
    let lo := a / 2 ^ 29 * 2 ^ 29
    let hi := (stop - 1) / 2 ^ 29 * 2 ^ 29
    if large a && (a != lo || stop < lo + 2 ^ 29) then some lo
    else if large (stop - 1) && stop != hi + 2 ^ 29 then some hi
    else none

/-- R203, R206: SL is set or cleared in a leaf. -/
def setSl (isl : Nat) (on : Bool) (s : State) (leaf : Nat × Nat × Nat) : State :=
  let e := s.mem.nat isl leaf.1 8
  let e := if on then e ||| 128 else e - (e &&& 128)
  bypassBank s isl none leaf.1 (leBytes 8 e)

/-- An address lies in one of some physical pages. -/
def inPages (ps : List (Nat × Nat)) (a : Nat) : Bool := ps.any fun p => p.1 ≤ a && a < p.1 + p.2

/-- An access of global memory through some pages that has not performed. -/
def Access.pendingIn (a : Access) (ps : List (Nat × Nat)) : Bool := !a.done && a.space.core.isNone && inPages ps a.addr

/-- R202: an access of some pages fills copies that are sealed, or that are not. -/
def Access.setSealed (a : Access) (on : Bool) (ps : List (Nat × Nat)) : Access :=
  if a.pendingIn ps then { a with sealed := on } else a

/-- R202, R206: the accesses in flight of some pages fill copies that are sealed, or that are not. -/
def markSealed (s : State) (isl : Nat) (on : Bool) (ps : List (Nat × Nat)) : State :=
  { s with core := { s.core with ops := s.core.ops.map fun o =>
      if o.m.isl = isl then { o with accs := o.accs.map (·.setSealed on ps) } else o } }

/-- R397: a SEAL or UNSEAL of pages that meet some pages of an island has not completed. -/
def sealBusy (s : State) (isl : Nat) (ps : List (Nat × Nat)) : Bool :=
  s.core.ops.any fun o => o.m.isl == isl && match o.act with
    | .seal qs _ | .unseal qs _ => qs.any fun x => ps.any fun y => x.1 < y.1 + y.2 && y.1 < x.1 + x.2
    | _ => false

/-- R397, R417: SEAL and UNSEAL: the checks of the whole range, then SL, once no other of pages of the range is under way; the
rest is done at completion. -/
def sealBody (s : State) (c : Issue) (h : Head) (on : Bool) (a b : Src) : Body :=
  c.memory s on fun _ =>
    let va := (rd64 s c (uS 1) a 0).toNat
    let stop := va + (rd32 s c (uS 2) b 0).toNat * 65536
    if va % 65536 ≠ 0 then .trap .misaligned (w64 va)
    else
      match splitLarge s c.isl c.part va stop with
      | some lp => .trap .permission (w64 lp)
      | none =>
        match sealLeaves s c.isl c.part stop ((stop - va) / 65536) va with
        | .error e => .fault e .read 0
        | .ok ls =>
          let pages := ls.map (·.2)
          if sealBusy s c.isl pages then .stall
          else
          let s' := markSealed (ls.foldl (setSl c.isl on) s) c.isl on pages
          .done (startOp s' c (c.op s h true .none (if on then .seal pages false else .unseal pages false))) []

/-- R203, R397: SEAL. -/
def execSeal (h : Head) (a b : Src) (s : State) : Out := issue s h .sca [a, b] fun c => sealBody s c h true a b

/-- R206, R397: UNSEAL. -/
def execUnseal (h : Head) (a b : Src) (s : State) : Out := issue s h .sca [a, b] fun c => sealBody s c h false a b

/-- R99, R203: an operation has an access, already translated through some pages, that has not performed; where `w` is set,
one that writes. -/
def Op.pendingIn (o : Op) (ps : List (Nat × Nat)) (w : Bool) : Bool :=
  (o.accs.any fun a => a.pendingIn ps && (!w || a.kind.writes)) ||
    match o.act with
    | .spawn _ pa .. | .joindec _ pa _ | .append _ pa .. => inPages ps pa
    | .matrix job => !w && job.wrows.any fun r => r.any fun x => inPages ps x.1
    | _ => false

/-- R99, R203: an access already translated through some physical pages of an island is yet to perform: of an operation, of
a GET's packet, of a copy engine. -/
def pagesBusy (s : State) (isl : Nat) (ps : List (Nat × Nat)) (w : Bool) : Bool :=
  (s.core.ops.any fun o => o.m.isl == isl && o.pendingIn ps w) ||
  (s.fab.txns.any fun t => t.src == isl && t.dst.1 == .global && t.dst.2.any (inPages ps)) ||
  (s.fab.pkts.any fun p => p.dest == isl && (p.op == .put || (!w && p.op == .getReq)) && (p.part.map fun x => inPages ps x.2).getD false) ||
  s.eng.outs.any fun x => x.ref.chain.isl == isl && x.core.isNone && inPages ps x.addr

/-- R203, R206: the translation caches of an island drop what a SEAL or UNSEAL changed. -/
def shootOp (s : State) (o : Op) : Option State :=
  let drop (on : Bool) (ps : List (Nat × Nat)) (act : OpAct) : State :=
    setOp (markSealed (emptyTlb s o.m.isl fun _ e => inPages ps (e.pte.pfn * 65536)) o.m.isl on ps) { o with act := act }
  match o.act with
  | .seal ps false => some (drop true ps (.seal ps true))
  | .unseal ps false => some (drop false ps (.unseal ps true))
  | _ => none

/-- R277: engines of an island drop sectors that they have read ahead, by engine, core of a scratchpad and sector. -/
def dropBufs (s : State) (isl : Nat) (p : Engine → Option Nat → Nat → Bool) : State :=
  { s with eng := { s.eng with bufs := s.eng.bufs.filter fun b => !(b.1.1 == isl && p b.1.2.1 b.1.2.2.1 b.1.2.2.2) } }

/-- R277: a write of a copy engine performs; the engine keeps no older copy of the place. -/
def performOut (s : State) (x : EngWrite) : State :=
  let isl := x.ref.chain.isl
  let s := dropBufs s isl fun e c sec => e == x.eng && c == x.core && sec == x.addr / 64
  match x.core with
  | none => bypassBank s isl none x.addr x.val
  | some c => { s with mem := s.mem.spadPut isl c x.addr x.val }

/-- R277: the writes of copy engines that meet a condition perform, oldest first. -/
def flushOuts (s : State) (p : EngWrite → Bool) : State :=
  (s.eng.outs.filter p).foldl performOut { s with eng := { s.eng with outs := s.eng.outs.filter fun x => !p x } }

/-- R203, R206: every copy of the pages' lines leaves the L1s and constant caches of the island, and the engines. -/
def dropPages (s : State) (isl : Nat) (ps : List (Nat × Nat)) : State :=
  let s := dropBufs s isl fun _ c sec => c.isNone && inPages ps (sec * 64)
  { s with mem := { s.mem with
      l1 := s.mem.l1.filter fun e => e.1.1 != isl || !inPages ps (e.1.2.2 * 4)
      owner := s.mem.owner.filter fun e => e.1.1 != isl || !inPages ps (e.1.2 * 4)
      ccache := s.mem.ccache.filter fun e => e.1.1 != isl || !inPages ps (e.1.2.2 * 64) } }

/-! ### Fences -/

/-- R270, R398: FENCE; a release waits at issue, and so does an acquire for the reads before it, which is the operation's
completion. -/
def fenceBody (s : State) (c : Issue) (h : Head) (rel acq : Bool) : Body :=
  c.memory s rel fun _ =>
    if acq && c.unread s then .stall
    else .done (startOp s c { c.op s h true .none .plain with acq := acq, mem := true }) []

/-- R398: FENCE.ACQ. -/
def execFenceAcq (h : Head) (s : State) : Out := issue s h .sca [] fun c => fenceBody s c h false true

/-- R398: FENCE.REL. -/
def execFenceRel (h : Head) (s : State) : Out := issue s h .sca [] fun c => fenceBody s c h true false

/-- R398, R273: FENCE.ACQREL. -/
def execFenceAcqrel (h : Head) (s : State) : Out := issue s h .sca [] fun c => fenceBody s c h true true

/-! ### Monitor and wait -/

/-- R399: MONITOR; the watch is registered at completion. -/
def execMonitor (h : Head) (a : Src) (b : Option Src) (s : State) : Out :=
  issue s h .sca (a :: b.toList) fun c => c.memory s false fun _ =>
    match c.access s (effBase s c true a (b.getD (.konst .zero)) 0) 1 .read true with
    | .error e => .fault e .read 0
    | .ok (pa, _) => .done (startOp s c (c.op s h true .none (.monitor pa))) []

/-- R276: the watch is registered: a new one replaces the old. -/
def arm (s : State) (o : Op) (pa : Nat) : State :=
  o.holders.foldl (fun s x =>
    match s.thread? ⟨o.m, x.1⟩ with
    | some r => s.setThread ⟨o.m, x.1⟩ { r with watch := some ⟨o.m.isl, pa / 256, false⟩ }
    | none => s) s

/-- R400: MWAIT sleeps until one of its returns. -/
def execMwait (h : Head) (a : Src) (s : State) : Out :=
  issue s h .sca [a] fun c => c.memory s false fun _ =>
    let n := (rd64 s c (uS 1) a 0).toNat
    let act := OpAct.mwait (if n = 0 then none else some (s.clk c.isl + n)) c.r.watch.isNone
    .done (startOp s c { c.op s h true (.sca h.d 1) act with acq := true }) []

/-- R400, R114: a pre-emption request is open for a team. -/
def requested (s : State) (isl team : Nat) : Bool := ((s.team? isl team).map (·.preempt.isSome)).getD false

/-- R276: some holder's watch has seen a write, or was lost. -/
def watchHit (s : State) (o : Op) : Bool :=
  o.holders.any fun x => ((s.thread? ⟨o.m, x.1⟩).bind (·.watch)).elim true (·.hit)

/-- R400: the cause word of an MWAIT's return. -/
def mwaitCause (s : State) (o : Op) (nowatch timeout : Bool) : W64 :=
  w64 (4 * nowatch.toNat + 2 * (requested s o.m.isl o.m.team).toNat + timeout.toNat)

/-- R276: a return of an MWAIT disarms the watch. -/
def disarm (s : State) (o : Op) : State :=
  o.holders.foldl (fun s x =>
    match s.thread? ⟨o.m, x.1⟩ with
    | some r => s.setThread ⟨o.m, x.1⟩ { r with watch := none }
    | none => s) s

/-- R400: MWAIT returns: the cause word, the watch disarmed, the acquire. -/
def returnMwait (s : State) (o : Op) (nowatch timeout : Bool) : State :=
  finishOp (disarm s o) { o with act := .value [mwaitCause s o nowatch timeout] 0 }

/-! ### Barriers -/

/-- R402: the TVAL of GROUP. -/
def groupTval (g reason : Nat) : W64 := w64 (g + reason * 2 ^ 32)

/-- R402: the checks of a group operand. -/
def checkGroup (c : Issue) (g : Nat) (member : Bool) : Except Body Unit :=
  if c.tm.groups.length ≤ g then .error (.trap .group (groupTval g 1))
  else if member && !c.mr.groups.contains (g, true) then .error (.trap .group (groupTval g 2))
  else .ok ()

/-- R403: BARARR. -/
def execBararr (h : Head) (a : Src) (s : State) : Out :=
  issue s h .sca [a] fun c => c.memory s true fun _ => settled do
    let g := (rd32 s c (uS 1) a 0).toNat
    checkGroup c g true
    let r := arrive s c.isl c.team g
    .ok (valueOp s r.1 c h (w64 r.2))

/-- R403: BARWAIT. -/
def execBarwait (h : Head) (a b : Src) (s : State) : Out :=
  issue s h .sca [a, b] fun c => c.memory s false fun _ => settled do
    let g := (rd32 s c (uS 1) a 0).toNat
    checkGroup c g true
    .ok (.done (startOp s c { c.op s h true .none (.barwait g (rd32 s c (uS 2) b 0).toNat) with acq := true }) [])

/-- R403: BARSYNC. -/
def execBarsync (h : Head) (a : Src) (s : State) : Out :=
  issue s h .sca [a] fun c => c.memory s true fun _ => settled do
    let g := (rd32 s c (uS 1) a 0).toNat
    checkGroup c g true
    let r := arrive s c.isl c.team g
    .ok (.done (startOp r.1 c { c.op s h true .none (.barwait g r.2) with acq := true }) [])

/-- R404: BARINIT. -/
def execBarinit (h : Head) (a b : Src) (s : State) : Out :=
  issue s h .sca [a, b] fun c => c.memory s false fun _ => settled do
    let g := (rd32 s c (uS 1) a 0).toNat
    let n := (rd32 s c (uS 2) b 0).toNat
    checkGroup c g false
    let x := c.tm.group g
    if 1 ≤ x.arr then .error (.trap .group (groupTval g 3))
    else if n = 0 ∨ 2048 < n then .error (.trap .group (groupTval g 4))
    else .ok (plainOp s (s.setTeam c.isl c.team (c.tm.setGroup g { x with memb := n })) c h)

/-! ### Membership -/

/-- R405: ATTACH. -/
def execAttach (h : Head) (a : Src) (s : State) : Out :=
  issue s h .sca [a] fun c => c.memory s true fun _ =>
    if c.tm.preempt.isSome then valueOp s s c h 0
    else
      let r := attachMany c.isl c.team (min (rd32 s c (uS 1) a 0).toNat 2048) s
      valueOp s r.1 c h (w64 r.2)

/-- R406: DETACH takes effect at the end of its clause, and later slots do not issue. -/
def execDetach (h : Head) (s : State) : Out :=
  issue s h .scaX [] fun c =>
    if c.exec = 0 then (if c.fallsThrough then c.checkFall s else .good).trap c.fall (.done s [])
    else .done (s.setThread c.th { c.r with ends := c.r.ends ++ [.detach] }) []

/-- R407: the value GRPQ reads. -/
def grpqValue (t : Team) (sel : GrpSel) (g : Nat) : Nat :=
  let x := t.group g
  match sel with
  | .memb => x.memb
  | .arr => x.arr
  | .pend => x.pend
  | .phase => x.phase
  | .gcount => t.groups.length

/-- R407: GRPQ. -/
def execGrpq (h : Head) (sel : GrpSel) (a : Src) (s : State) : Out :=
  issue s h .sca [a] fun c => c.memory s false fun _ => settled do
    let g := (rd32 s c (uS 1) a 0).toNat
    if sel ≠ .gcount then checkGroup c g false
    .ok (valueOp s s c h (w64 (grpqValue c.tm sel g)))

end Sys2Proof.Machine
end

