-- ==== Sys2Proof/Machine/Matrix.lean ====
section
/-! DEFINITION. Chapter 16: the matrix instructions (R420 to R425) and the accumulator instructions (R426 to R433), with
what the matrix engine computes for one job. -/

namespace Sys2Proof.Machine

open Sys2Proof

/-! ### Accumulator memory -/

/-- R208: the allocation a team holds on a core. -/
def amOf (s : State) (isl core team : Nat) : Option AmAlloc :=
  s.mem.am.find? fun a => a.isl == isl && a.core == core && a.team == team && !a.pending

/-- R208, R210: a bank is allocated to a team on a core. -/
def amHeld (s : State) (isl core team bank : Nat) : Bool :=
  match amOf s isl core team with
  | some a => a.first ≤ bank && bank < a.first + a.count
  | none => false

/-- R212: a word that the entry in progress is to write stands as the entry will leave it: of an MMA record only once its
last step is done. -/
def MatRun.settledWords (s : State) (r : MatRun) : Bool :=
  match r.entry with
  | .instr .. => true
  | .record ref => s.eng.recs.any fun x => x.ref == ref && (x.res.isSome || nbits x.bits 63 56 == 0x11)

/-- R212: the word a matrix engine has yet to write. -/
def matPending (s : State) (isl core bank word : Nat) : Option W32 :=
  ((s.eng.matRun.get? (isl, core)).bind fun r =>
    if r.settledWords s && !r.passed.contains (bank, word) then r.writes.find? fun w => w.1 == (bank, word) else none).map (·.2)

/-- An accumulator word as its bank holds it. -/
def accWord (s : State) (isl core bank word : Nat) : W32 := s.mem.acc.getD (isl, core, bank, word) 0

/-- R212: an accumulator word as AMLD or AMDRAIN reads it: old or new while a matrix command writes it (log entry 2). -/
def accRead (s : State) (isl core bank word : Nat) : W32 :=
  match matPending s isl core bank word with
  | some v => if Config.freeBit s.free (bank * 512 + word) then v else accWord s isl core bank word
  | none => accWord s isl core bank word

/-- Write accumulator words of a core; a word zero is not listed, and a written word is no longer poisoned. -/
def accPut (s : State) (isl core : Nat) (ws : List ((Nat × Nat) × W32)) : State :=
  { s with mem := { s.mem with
      acc := ws.foldl (fun (m : Tbl (Nat × Nat × Nat × Nat) W32) w =>
        if w.2 = 0 then m.erase (isl, core, w.1) else m.set (isl, core, w.1) w.2) s.mem.acc
      poison := ws.foldl (fun p w => p.erase (.acc isl core w.1.1 w.1.2)) s.mem.poison } }

/-- R433: words that an instruction writes come after the command in progress. -/
def dropPending (s : State) (isl core : Nat) (ws : List (Nat × Nat)) : State :=
  { s with eng := { s.eng with matRun := s.eng.matRun.modify (isl, core) fun r => { r with passed := ws ++ r.passed } } }

/-- R210: a read of an unallocated bank is noted. -/
def setUr (s : State) (isl core team : Nat) : State :=
  if s.mem.ur.contains (isl, core, team) then s else { s with mem := { s.mem with ur := (isl, core, team) :: s.mem.ur } }

/-- The words of a band of a bank. -/
def bandWords (bank band : Nat) : List (Nat × Nat) := (List.range 128).map fun i => (bank, 128 * band + i)

/-! ### The team's matrix work -/

/-- R225: an entry of a matrix engine is a team's. -/
def MatEntry.ofTeam (s : State) (team : Nat) (e : MatEntry) : Bool :=
  match e with
  | .instr _ m _ => m.team == team
  | .record r => s.eng.recs.any fun x => x.ref == r && x.team == team

/-- R147, R208, R428: a team has matrix work on a core that has not completed. -/
def matBusy (s : State) (isl core team : Nat) : Bool :=
  (s.eng.matq.getD (isl, core) []).any (·.ofTeam s team) ||
    ((s.eng.matRun.get? (isl, core)).map fun r => r.entry.ofTeam s team).getD false ||
    s.core.ops.any fun o => o.m.isl == isl && o.core == core && o.m.team == team &&
      match o.act with
      | .matrix _ => true
      | _ => false

/-- R208, R428: banks whose free waited return to the pool once the team's work has completed. -/
def releaseBanks (s : State) (isl core team : Nat) : State :=
  if matBusy s isl core team then s
  else { s with mem := { s.mem with am := s.mem.am.filter fun a =>
      !(a.isl == isl && a.core == core && a.team == team && a.pending) } }

/-! ### Allocation and grants -/

/-- R208: the lowest run of free banks of a core. -/
def amRun (s : State) (isl core n : Nat) : Option Nat :=
  (List.range (129 - n)).find? fun f =>
    s.mem.am.all fun a => a.isl != isl || a.core != core || f + n ≤ a.first || a.first + a.count ≤ f

/-- R427: AMALLOC's failure word. -/
def amFail (reason : Nat) : W64 := w64 (2 ^ 63 + reason * 65536)

/-- R208, R427: AMALLOC at the core. -/
def amAlloc (s : State) (isl core team n : Nat) : State × W64 :=
  if n = 0 ∨ 128 < n then (s, amFail 0)
  else if (amOf s isl core team).isSome then (s, amFail 2)
  else if s.mem.am.any fun a => a.isl == isl && a.core == core && a.team == team then (s, amFail 3)
  else
    match amRun s isl core n with
    | none => (s, amFail 1)
    | some f =>
      let inRun (b : Nat) : Bool := f ≤ b && b < f + n
      ({ s with mem := { s.mem with
          am := s.mem.am ++ [⟨isl, core, team, f, n, false⟩]
          acc := s.mem.acc.filter fun e => !(e.1.1 == isl && e.1.2.1 == core && inRun e.1.2.2.1)
          grants := s.mem.grants.filter fun e => !(e.1.1 == isl && e.1.2.1 == core && inRun e.1.2.2.1)
          poison := s.mem.poison.filter fun p => match p with
            | .acc i c b _ => !(i == isl && c == core && inRun b)
            | _ => true } },
        w64 (n * 256 + f))

/-- R427: AMALLOC. -/
def execAmalloc (h : Head) (a : Src) (s : State) : Out :=
  issue s h .sca [a] fun c => c.memory s false fun _ =>
    let r := amAlloc s c.isl c.core c.team (rd32 s c (uS 1) a 0).toNat
    .done (startOp r.1 c (c.op s h true (.sca h.d 1) (.value [r.2] 0))) []

/-- R428: a team's allocation on a core ends. -/
def amFree (s : State) (isl core team : Nat) : State :=
  releaseBanks { s with mem := { s.mem with am := s.mem.am.map fun a =>
    if a.isl = isl ∧ a.core = core ∧ a.team = team then { a with pending := true } else a } } isl core team

/-- R428: AMFREE. -/
def execAmfree (h : Head) (s : State) : Out :=
  issue s h .sca [] fun c => c.memory s false fun _ => .done (amFree s c.isl c.core c.team) []

/-- R210: the trap of an unallocated bank. -/
def amTrap (bank : Nat) : Body := .trap .amUnallocated (w64 (bank % 256))

/-- R429: AMGRANT. -/
def execAmgrant (h : Head) (mask : BitVec 4) (a b : Src) (s : State) : Out :=
  issue s h .sca [a, b] fun c => c.memory s false fun _ =>
    let bank := (rd64 s c (uS 1) a 0).toNat % 256
    let g := (rd64 s c (uS 2) b 0).toNat % 512
    if g ≠ 256 ∧ c.tm.groups.length ≤ g then .trap .group (groupTval g 1)
    else if !amHeld s c.isl c.core c.team bank then amTrap bank
    else
      let gr := (List.range 4).foldl (fun (t : Tbl (Nat × Nat × Nat × Nat) Nat) band =>
        if !mask.getLsbD band then t
        else if g = 256 then t.erase (c.isl, c.core, bank, band) else t.set (c.isl, c.core, bank, band) g) s.mem.grants
      .done { s with mem := { s.mem with grants := gr } } []

/-- R209: the strand may read a band: it holds an effective membership of the granted group. -/
def bandAllowed (s : State) (c : Issue) (bank band : Nat) : Bool :=
  match s.mem.grants.get? (c.isl, c.core, bank, band) with
  | some g => c.mr.groups.contains (g, true)
  | none => false

/-! ### Moves -/

/-- R430: the word of the bank that register `k` of a move holds in a lane. -/
def moveWord (band k l : Nat) : Nat := 16 * (8 * band + 2 * k + l / 16) + l % 16

/-- R215: the first poisoned word among those a read consumes, as TVAL names it. -/
def accPoison (s : State) (isl core bank : Nat) (ws : List Nat) : Option Nat :=
  if s.mem.poison.isEmpty then none
  else (ws.find? fun w => s.mem.poison.contains (.acc isl core bank w)).map fun w => bank * 2048 + 4 * w

/-- R430: AMLD. -/
def execAmld (h : Head) (band : Nat) (a : Src) (s : State) : Out :=
  issue s h .vec [a] fun c => c.memory s false fun _ =>
    let bank := (rd64 s c (uS 1) a 0).toNat % 256
    let held := amHeld s c.isl c.core c.team bank
    if held && !bandAllowed s c bank band then .trap .amBand (w64 (bank * 256 + band))
    else
      match if held then accPoison s c.isl c.core bank ((lanesIn c.exec).flatMap fun l =>
          (List.range 4).map fun k => moveWord band k l) else none with
      | some at_ => .fault (.poison at_) .read 3
      | none =>
        let word (k l : Nat) : W32 :=
          if held && c.exec.getLsbD l then accRead s c.isl c.core bank (moveWord band k l) else 0
        let vals := (List.range 64).map fun i => word (i / 32 * 2 + 1) (i % 32) ++ word (i / 32 * 2) (i % 32)
        let s' := if held then s else setUr s c.isl c.core c.team
        .done (startOp s' c { c.op s h false (.vec h.d 4) (.value vals 0) with mem := true }) []

/-- R430: AMST. -/
def execAmst (h : Head) (band : Nat) (a : Src) (s : State) : Out :=
  let i := match a with
    | .vreg i => i
    | _ => 0
  issue s h .vec ((List.range 4).map fun k => .vreg (i + k)) fun c => c.memory s false fun _ =>
    if !amHeld s c.isl c.core c.team h.d then amTrap h.d
    else
      let ws := (List.range 4).flatMap fun k => (lanesIn c.exec).map fun l =>
        ((h.d, moveWord band k l), readV s c.th.m 1 (i + k) l)
      .done (accPut (dropPending s c.isl c.core (ws.map (·.1))) c.isl c.core ws) []

/-- R432: the words of the bands of a mask. -/
def maskWords (bank : Nat) (mask : BitVec 4) : List (Nat × Nat) :=
  ((List.range 4).filter fun b => mask.getLsbD b).flatMap (bandWords bank)

/-- R432: AMZERO. -/
def execAmzero (h : Head) (mask : BitVec 4) (s : State) : Out :=
  issue s h .sca [] fun c => c.memory s false fun _ =>
    if !amHeld s c.isl c.core c.team h.d then amTrap h.d
    else
      let ws := maskWords h.d mask
      .done (accPut (dropPending s c.isl c.core ws) c.isl c.core (ws.map fun w => (w, 0))) []

/-! ### AMDRAIN -/

/-- Bytes from an address cut at 8-byte boundaries. -/
def wordRuns : Nat → Nat → List Byte → List (Nat × List Byte)
  | 0, _, _ => []
  | fuel + 1, a, bs =>
    if bs.isEmpty then []
    else
      let k := 8 - a % 8
      (a, bs.take k) :: wordRuns fuel (a + k) (bs.drop k)

/-- R431: a word as AMDRAIN writes it, with its flags. -/
def drainWord (ty : Ty) (rnd : Rnd) (w : W32) : Nat × Nat :=
  if ty.isH2 then convert ty .f32 rnd false w.toNat else (w.toNat, 0)

/-- R431: AMDRAIN. -/
def drainBody (s : State) (c : Issue) (h : Head) (ty : Ty) (rnd : Rnd) (band : Nat) (z : Bool) (d : Nat) (b : Src) : Body :=
  c.memory s false fun _ => settled do
    let bank := (rd64 s c (uS 2) b 0).toNat % 256
    let held := amHeld s c.isl c.core c.team bank
    if held && !bandAllowed s c bank band then .error (.trap .amBand (w64 (bank * 256 + band)))
    let base := (readS s c.th.m 1 d).toNat
    let stride := (readS s c.th.m 1 (d + 1)).toNat % 2 ^ 32
    let size := if ty.isH2 then 2 else 4
    checkAligned size [base, stride]
    let word (i : Nat) : Nat × Nat :=
      drainWord ty rnd (if held then accRead s c.isl c.core bank (128 * band + i) else 0)
    let rs := (List.range 8).flatMap fun r =>
      let bytes := (List.range 16).flatMap fun j => leBytes size (word (16 * r + j)).1
      (wordRuns 10 ((base + r * stride) % 2 ^ 64) bytes).map fun x =>
        ({ lane := 0, half := 0, va := x.1 % 2 ^ 64, size := x.2.length, kind := .bypass (w64 (leNat x.2)) } : Req)
    let accs ← reachGlobal s c .global .write false rs
    match if held then accPoison s c.isl c.core bank ((bandWords bank band).map (·.2)) else none with
    | some at_ => .error (.fault (.poison at_) .read 3)
    | none =>
      let fl := (List.range 128).foldl (fun f i => f ||| (word i).2) 0
      let s' := if !held then setUr s c.isl c.core c.team
        else if z then
          accPut (dropPending s c.isl c.core (bandWords bank band)) c.isl c.core
            ((bandWords bank band).map fun w => (w, 0))
        else s
      .ok (.done (startOp s' c { c.op s h true .none (.drain fl) with accs := accs }) [])

/-- R431: AMDRAIN. -/
def execAmdrain (h : Head) (ty : Ty) (rnd : Rnd) (band : Nat) (z : Bool) (a b : Src) (s : State) : Out :=
  let d := match a with
    | .sreg i => i
    | _ => 0
  issue s h .sca [.sreg d, .sreg (d + 1), b] fun c => drainBody s c h ty rnd band z d b

/-! ### The engine -/

/-- Bytes of a team's reservation. -/
def resBytes (s : State) (isl : Nat) (t : Team) (core off n : Nat) : List Byte :=
  s.mem.spadBytes isl core (t.base core + off) n

/-- R421: the bytes of a row of `n` elements. -/
def rowBytes (code n : Nat) : Nat := n * fmtBits code / 8

/-- A row of packed elements in a scratchpad. -/
def spadRow (s : State) (isl core off code n : Nat) : List Nat :=
  unpack code n (leNat (s.mem.spadBytes isl core off (rowBytes code n)))

/-- The scales of a row, of `n` blocks. -/
def scaleRow (sc : List Byte) (row n : Nat) : List Nat := ((sc.drop (row * n)).take n).map (·.toNat)

/-- R422, R261: row `i` of A. -/
def jobRowA (s : State) (isl : Nat) (j : MatJob) (i : Nat) : List Nat :=
  let k := fbK j.fmt
  let code := fbA j.fmt
  if j.sparse then
    expand k (spadRow s isl j.acore (j.aoff + i * rowBytes code (k / 2)) code (k / 2))
      (leNat ((j.metas.drop (i * (k / 8))).take (k / 8)))
  else spadRow s isl j.acore (j.aoff + i * rowBytes code k) code k

/-- R422: the results of row `i` of an MMA or MMASP over the banks as `acc` gives them. -/
def mmaRow (s : State) (isl : Nat) (j : MatJob) (acc : Nat → Nat → W32) (i : Nat) : List ((Nat × Nat) × W32) :=
  let k := fbK j.fmt
  let nb := if fbBlk j.fmt = 0 then 0 else k / fbBlk j.fmt
  let a := jobRowA s isl j i
  (List.range 16).map fun n =>
    let b := spadRow s isl j.bcore (j.boff + n * rowBytes (fbB j.fmt) k) (fbB j.fmt) k
    ((j.bank, 16 * i + n),
      w32 (dotProduct j.fmt (acc j.bank (16 * i + n)).toNat a b (scaleRow j.asc i nb) (scaleRow j.bsc n nb)))

/-- R422: the results of an MMA or MMASP. -/
def mmaWrites (s : State) (isl : Nat) (j : MatJob) (acc : Nat → Nat → W32) : List ((Nat × Nat) × W32) :=
  (List.range 32).flatMap (mmaRow s isl j acc)

/-- R236, R424: the results of row `r` of an MVM. -/
def mvmRow (s : State) (isl : Nat) (j : MatJob) (acc : Nat → Nat → W32) (r : Nat) : List ((Nat × Nat) × W32) :=
  let nb := if fbBlk j.fmt = 0 then 0 else j.klen / fbBlk j.fmt
  let a := unpack (fbA j.fmt) j.klen (leNat ((j.wrows.getD r []).flatMap fun x => s.mem.bytes isl x.1 x.2))
  (List.range (j.nv + 1)).map fun v =>
    let b := spadRow s isl j.bcore (j.boff + v * j.vstr) (fbB j.fmt) j.klen
    let at_ := (j.bank + r / 32, 16 * (r % 32) + v)
    (at_, w32 (dotProduct j.fmt (if j.zacc then 0 else (acc at_.1 at_.2).toNat) a b (scaleRow j.asc r nb)
      (scaleRow j.bsc v nb)))

/-- R422, R424: the rows of a job. -/
def MatJob.height (j : MatJob) : Nat := if j.mvm then j.rows else 32

/-- R422, R424: what row `i` of a job writes. -/
def jobRow (s : State) (isl core : Nat) (j : MatJob) (i : Nat) : List ((Nat × Nat) × W32) :=
  if j.mvm then mvmRow s isl j (accWord s isl core) i else mmaRow s isl j (accWord s isl core) i

/-! ### Checks -/

/-- R190, R423: the lowest byte of a range outside the reservation and the window. -/
def rangeOut (scr off n : Nat) : Option Nat :=
  if off + n ≤ scr then none
  else
    let b := max off scr
    if b < 0x7F000 then some b else if 0x80000 < off + n then some (max b 0x80000) else none

/-- R423, orders 5 and 6: the lowest offset outside, or none with whether some byte lies in the window. -/
def rangesBad (scr : Nat) (rs : List (Nat × Nat)) : Sum Nat Bool :=
  match rs.filterMap fun r => rangeOut scr r.1 r.2 with
  | x :: xs => .inl (xs.foldl min x)
  | [] => .inr (rs.any fun r => r.1 < 0x80000 && 0x7F000 < r.1 + r.2 && r.2 != 0)

/-- R423, R424: an instruction's ranges. -/
def checkRanges (scr : Nat) (rs : List (Nat × Nat)) : Except Body Unit :=
  match rangesBad scr rs with
  | .inl off => .error (.trap .permission (w64 off))
  | .inr true => .error (.trap .format 0)
  | .inr false => .ok ()

/-- R423, R424: a format block's check. -/
def checkFb (fb : Nat) (use : FbUse) : Except Body Unit :=
  match fbBad fb use with
  | some b => .error (.trap .format (w64 b))
  | none => .ok ()

/-- R420, R423: the lowest offending bit of a peer word. -/
def peerBad (pw : Nat) (sp : Bool) : Option Nat :=
  (List.range 64).find? fun i =>
    (i == 0 && 4 ≤ nbits pw 2 0) || (i == 3 && nbit pw 3) || (i == 4 && 4 ≤ nbits pw 6 4) ||
      (7 ≤ i && i < 16 && nbit pw i) || (i == 32 && !sp && nbits pw 63 32 != 0)

/-- The value of an even register pair named by a source. -/
def pairOf (s : State) (c : Issue) (field : Nat) (a : Src) : Nat × Nat :=
  match a with
  | .sreg i | .greg i => ((readS s c.th.m field i).toNat, (readS s c.th.m field (i + 1)).toNat)
  | _ => (0, 0)

/-- The registers of an even pair. -/
def pairSrcs (a : Src) : List Src :=
  match a with
  | .sreg i | .greg i => [.sreg i, .sreg (i + 1)]
  | a => [a]

/-- R215, R423: the first poisoned byte of ranges of scratchpads: core, offset, length. -/
def spadRangesPoison (s : State) (isl : Nat) (t : Team) (rs : List (Nat × Nat × Nat)) : Option Nat :=
  rs.findSome? fun r => (s.mem.spadPoisonedAt isl r.1 (t.base r.1 + r.2.1) r.2.2).map fun b => b - t.base r.1

/-- R215: the first poisoned accumulator word among those of some banks that a matrix instruction reads, as TVAL names it. -/
def banksPoison (s : State) (isl core : Nat) (ws : List (Nat × Nat)) : Option Nat :=
  if s.mem.poison.isEmpty then none else ws.findSome? fun w => accPoison s isl core w.1 [w.2]

/-- R215, R423, R424: a matrix instruction consumes its banks' words last. -/
def consumeBanks (s : State) (isl core : Nat) (ws : List (Nat × Nat)) (b : Body) : Except Body Body :=
  match banksPoison s isl core ws with
  | some at_ => .error (.fault (.poison at_) .read 3)
  | none => .ok b

/-- R252: the scale ranges of an MMA. -/
def mmaScales (fb : Nat) : List (Nat × Nat) :=
  if fbBlk fb = 0 then [] else [(fbAs fb, 32 * (fbK fb / fbBlk fb)), (fbBs fb, 16 * (fbK fb / fbBlk fb))]

/-- R421: the ranges of an MMA's operands: A, B, metadata. -/
def mmaRanges (fb aoff boff moff : Nat) (sp : Bool) : List (Nat × Nat) :=
  [(aoff, 32 * rowBytes (fbA fb) (if sp then fbK fb / 2 else fbK fb)), (boff, 16 * rowBytes (fbB fb) (fbK fb))] ++
    if sp then [(moff, 4 * fbK fb)] else []

/-- R421: the first row of A whose metadata is not in order. -/
def metaBad (k : Nat) (m : List Byte) : Option Nat :=
  (List.range 32).find? fun i => badMeta k (leNat ((m.drop (i * (k / 8))).take (k / 8)))

/-- R425: a matrix instruction enters the input queue where there is room. -/
def enterQueue (s : State) (o : Op) (job : MatJob) : State :=
  let q := s.eng.matq.getD (o.m.isl, o.core) []
  if q.length < 32 then
    { s with eng := { s.eng with matq := s.eng.matq.set (o.m.isl, o.core) (q ++ [.instr o.id o.m job]) } }
  else s

/-- R425: a matrix instruction has passed its checks; what it reads is no older than the writes before it. -/
def startMatrix (s : State) (c : Issue) (h : Head) (job : MatJob) : Body :=
  let s := dropBufs s c.isl fun e _ _ => e == .matrix c.core
  let o := c.op s h true .none (.matrix job)
  .done (enterQueue (startOp s c o) o job) []

/-- R423: MMA and MMASP. -/
def mmaBody (s : State) (c : Issue) (h : Head) (sp : Bool) (a b c0 : Src) : Body :=
  if c.exec = 0 then .done s []
  else if c.fenced s || c.unreleased s then .stall
  else settled do
    let p := pairOf s c 3 c0
    let fb := p.1
    let pw := p.2
    checkFb fb (if sp then .mmasp else .mma)
    match peerBad pw sp with
    | some i => .error (.trap .format (w64 (64 + i)))
    | none =>
      let qa := nbits pw 2 0
      let qb := nbits pw 6 4
      let ca := 4 * (c.core / 4) + qa
      let cb := 4 * (c.core / 4) + qb
      if !c.tm.inSpan ca then .error (.trap .clusterSpan (w64 qa))
      if !c.tm.inSpan cb then .error (.trap .clusterSpan (w64 qb))
      let aoff := (rd32 s c (uS 1) a 0).toNat
      let boff := (rd32 s c (uS 2) b 0).toNat
      let moff := nbits pw 63 32
      checkAligned 64 [aoff, boff]
      if sp then checkAligned 4 [moff]
      checkRanges c.tm.hdr.scr (mmaRanges fb aoff boff moff sp ++ mmaScales fb)
      if !amHeld s c.isl c.core c.team h.d then .error (amTrap h.d)
      let k := fbK fb
      let rb (core off n : Nat) : List Byte := resBytes s c.isl c.tm core off n
      let metas := if sp then rb ca moff (4 * k) else []
      match if sp then metaBad k metas else none with
      | some i => .error (.trap .format (w64 (256 + i)))
      | none =>
        let rs := mmaRanges fb aoff boff moff sp
        let cores := [ca, cb, ca]
        match spadRangesPoison s c.isl c.tm ((cores.zip rs) ++ (mmaScales fb).map fun r => (c.core, r)) with
        | some off => .error (.fault (.poison off) .read 1)
        | none =>
          let sc := mmaScales fb
          let scale (i : Nat) : List Byte := match sc[i]? with
            | some r => rb c.core r.1 r.2
            | none => []
          consumeBanks s c.isl c.core ((List.range 512).map (h.d, ·)) (startMatrix s c h {
            mvm := false, sparse := sp, fmt := fb, bank := h.d, acore := ca, aoff := c.tm.base ca + aoff, bcore := cb,
            boff := c.tm.base cb + boff, metas := metas, asc := scale 0, bsc := scale 1, rows := 0, klen := 0, wrows := [],
            nv := 0, vstr := 0, zacc := false })

/-- R422, R423: MMA. -/
def execMma (h : Head) (a b c0 : Src) (s : State) : Out :=
  issue s h .sca ([a, b] ++ pairSrcs c0) fun c => mmaBody s c h false a b c0

/-- R422, R423: MMASP. -/
def execMmasp (h : Head) (a b c0 : Src) (s : State) : Out :=
  issue s h .sca ([a, b] ++ pairSrcs c0) fun c => mmaBody s c h true a b c0

/-- R424: the lowest offending bit of an MVM descriptor. -/
def mvmBad (fb ev od : Nat) : Option Nat :=
  let klen := nbits ev 31 16
  let blk := fbBlk fb
  if nbits ev 15 0 = 0 ∨ 256 < nbits ev 15 0 then some 0
  else if klen = 0 ∨ klen % 16 ≠ 0 ∨ (blk ≠ 0 ∧ klen % blk ≠ 0) then some 16
  else if nbits ev 63 32 % 64 ≠ 0 then some 32
  else if nbits od 47 32 % 64 ≠ 0 then some 96
  else ((List.range 12).find? fun i => nbit od (52 + i)).map (116 + ·)

/-- R236, R424: the scale ranges of an MVM. -/
def mvmScales (fb rows klen nv : Nat) : List (Nat × Nat) :=
  if fbBlk fb = 0 then []
  else [(fbAs fb, rows * (klen / fbBlk fb)), (fbBs fb, (nv + 1) * (klen / fbBlk fb))]

/-- R424: the vectors' ranges. -/
def mvmVectors (fb voff vstr klen nv : Nat) : List (Nat × Nat) :=
  (List.range (nv + 1)).map fun v => (voff + v * vstr, rowBytes (fbB fb) klen)

/-- R424, steps 6 and 7: the weight rows, translated, as runs of physical addresses. -/
def weightRows (s : State) (c : Issue) (waddr wstr rows wb : Nat) : Except Body (List (List (Nat × Nat))) :=
  let vas := (List.range rows).map fun r => pageRuns 8 ((waddr + r * wstr) % 2 ^ 64) wb
  match vas.flatten.findSome? fun x =>
      match c.xlate s x.1 .read with
      | .fault p l => some (XErr.fault x.1 p l)
      | _ => none with
  | some e => .error (.fault e .read 0)
  | none =>
    let pas := vas.map fun row => row.filterMap fun x =>
      match c.xlate s x.1 .read with
      | .ok pa _ _ => some (x.1, pa, x.2)
      | _ => none
    match pas.flatten.findSome? fun x => (s.mem.poisonedAt c.isl x.2.1 x.2.2).map fun b => x.1 + (b - x.2.1) with
    | some va => .error (.fault (.poison va) .read 0)
    | none => .ok (pas.map fun row => row.map (·.2))

/-- R424: MVM. -/
def mvmBody (s : State) (c : Issue) (h : Head) (a b c0 : Src) : Body :=
  if c.exec = 0 then .done s []
  else if c.fenced s || c.unreleased s then .stall
  else settled do
    let fb := (pairOf s c 3 c0).1
    let d := pairOf s c 2 b
    checkFb fb .mvm
    match mvmBad fb d.1 d.2 with
    | some i => .error (.trap .format (w64 (64 + i)))
    | none =>
      let rows := nbits d.1 15 0
      let klen := nbits d.1 31 16
      let nv := nbits d.2 50 48
      let voff := nbits d.2 31 0
      let vstr := nbits d.2 47 32
      let waddr := (rd64 s c (uS 1) a 0).toNat
      checkAligned 64 [waddr, voff]
      let vs := mvmVectors fb voff vstr klen nv
      let sc := mvmScales fb rows klen nv
      checkRanges c.tm.hdr.scr (vs ++ sc)
      match (List.range ((rows + 31) / 32)).find? fun i => !amHeld s c.isl c.core c.team (h.d + i) with
      | some i => .error (amTrap (h.d + i))
      | none =>
        let wrows ← weightRows s c waddr (nbits d.1 63 32) rows (rowBytes (fbA fb) klen)
        match spadRangesPoison s c.isl c.tm ((vs ++ sc).map fun r => (c.core, r)) with
        | some off => .error (.fault (.poison off) .read 1)
        | none =>
          let scale (i : Nat) : List Byte := match sc[i]? with
            | some r => resBytes s c.isl c.tm c.core r.1 r.2
            | none => []
          let cols := if nbit d.2 51 then [] else List.range (nv + 1)
          let words := (List.range rows).flatMap fun r => cols.map fun v => (h.d + r / 32, 16 * (r % 32) + v)
          consumeBanks s c.isl c.core words (startMatrix s c h {
            mvm := true, sparse := false, fmt := fb, bank := h.d, acore := c.core, aoff := 0, bcore := c.core,
            boff := c.tm.base c.core + voff, metas := [], asc := scale 0, bsc := scale 1, rows := rows, klen := klen,
            wrows := wrows, nv := nv, vstr := vstr, zacc := nbit d.2 51 })

/-- R420, R424: MVM; of its pair C it reads the even register. -/
def execMvm (h : Head) (a b c0 : Src) (s : State) : Out :=
  issue s h .sca (a :: pairSrcs b ++ (pairSrcs c0).take 1) fun c => mvmBody s c h a b c0

end Sys2Proof.Machine
end

