-- ==== Sys2Proof/Machine/Tasks.lean ====
section
/-! DEFINITION. Task records, join words and ready queues (R131 to R141), and the task instructions SPAWN and JOINDEC
(R437, R438). -/

namespace Sys2Proof.Machine

open Sys2Proof

/-! ### Fields -/

/-- The value `x` with its bits `[hi:lo]` replaced. -/
def putField (hi lo v x : Nat) : Nat :=
  x / 2 ^ (hi + 1) * 2 ^ (hi + 1) + v % 2 ^ (hi + 1 - lo) * 2 ^ lo + x % 2 ^ lo

/-! ### Join words -/

/-- R132: the state of a join word. -/
def jwState (w : Nat) : Nat := nbits w 63 56

/-- R132: LATE. -/
def jwLate (w : Nat) : Nat := nbits w 55 40

/-- R132: JCNT. -/
def jwCnt (w : Nat) : Nat := nbits w 31 0

/-- R132: a join word of its fields, RSVD zero. -/
def joinWord (st late cnt : Nat) : Nat := st % 256 * 2 ^ 56 + late % 2 ^ 16 * 2 ^ 40 + cnt % 2 ^ 32

/-- R134: SatAdd16. -/
def satAdd16 (a b : Nat) : Nat := min (a + b) 0xFFFF

/-- R134: the word after a join decrement, and whether the record has become READY. -/
def decremented (w count : Nat) : Nat × Bool :=
  if (jwState w = 1 ∨ jwState w = 7) ∧ 0 < jwCnt w then
    let late := satAdd16 (jwLate w) (count - jwCnt w)
    let cnt := jwCnt w - count
    let ready := jwState w == 1 && cnt == 0
    (joinWord (if ready then 2 else jwState w) late cnt, ready)
  else (joinWord (jwState w) (satAdd16 (jwLate w) count) (jwCnt w), false)

/-! ### Ready queues -/

/-- How the task unit reaches a record: by a translation made earlier (R99), or by one of its own for each write. -/
inductive Via where
  | held (pa : Nat)
  | fresh
deriving DecidableEq, Repr

/-- R147: the task unit writes bytes of a record at an offset; a write that fails is skipped and reported. -/
def writeRecord (s : State) (isl part va : Nat) (via : Via) (off : Nat) (bs : List Byte) : State :=
  match via with
  | .held pa => bypassBank s isl none (pa + off) bs
  | .fresh =>
    putVa s isl part (va + off) bs fun s => report s part 1 [isl, va]

/-- R70: a field of a completed command record that the spec does not state for its status (log entry 2). -/
def openField (s : State) (k bits : Nat) : Nat := (Config.freeWord (s.free * 4 + k)).toNat % 2 ^ bits

/-- R139: a LAUNCH whose record was left FAULTED or QFULL completes with NOTRUN. -/
def notRun (s : State) (isl part va st : Nat) : State :=
  { s with hub := { s.hub with cmds := s.hub.cmds.map fun c =>
      if c.ref.part = part ∧ c.trec = some (isl, va) ∧ c.res = none then { c with res := some (0x16, st, openField s 1 32) } else c } }

/-- R135, R138, R139: a record is left FAULTED or QFULL: STATE is written, which cures no poison (R217), and the reason is
reported; one that reads ORIGIN 0 or 2 completes no LAUNCH. -/
def leaveRecord (s : State) (isl part va pa st code : Nat) (why : List Nat) (origin : Option Nat) : State :=
  let s := report (bypassBank s isl none (pa + 7) [BitVec.ofNat 8 st]) part code ([isl, va] ++ why)
  if origin = some 0 ∨ origin = some 2 then s else notRun s isl part va st

/-- R131: the fields of a record the task unit captures. -/
def TaskRec.ofBits (x addr pa stamp : Nat) : TaskRec :=
  { addr := addr, pa := pa, frame := w64 (nbits x 511 448), khdr := nbits x 447 396, ji0 := nbits x 395 391,
    ja0 := nbits x 390 339, ji1 := nbits x 338 334, ja1 := nbits x 333 282, crec := nbits x 281 230,
    cisl := nbits x 229 225, part := nbits x 204 199, prio := nbits x 198 196, origin := nbits x 192 191, stamp := stamp }

/-- R135: the first check of a record that fails, as the report numbers them: alignment, MAGIC, RSVD with ORIGIN, PART. -/
def recordBad (x va part : Nat) : Option Nat :=
  if va % 64 ≠ 0 then some 0
  else if nbits x 190 183 ≠ 0xC5 then some 1
  else if nbits x 182 128 ≠ 0 ∨ nbits x 192 191 = 3 then some 2
  else if nbits x 204 199 ≠ part then some 3
  else none

/-- R138: the entries of a partition's ready queue on an island. -/
def queueOf (s : State) (isl part : Nat) : List QEntry := s.task.queue.filter fun q => q.isl == isl && q.part == part

/-- R138: QCAP of a partition. -/
def qcapOf (s : State) (part : Nat) : Nat := ((s.par.parts.get? part).map (·.qcap)).getD 65536

/-- R138: a record joins its partition's ready queue. -/
def enqueue (s : State) (isl part : Nat) (t : TaskRec) : State :=
  { s with task := { s.task with
      queue := s.task.queue ++ [⟨isl, part, t, s.task.nextOrder, none⟩]
      nextOrder := s.task.nextOrder + 1 } }

/-- R135, R138, R268: MakeReady of the record whose join word stands at `pa`. -/
def makeReady (s : State) (isl part va pa : Nat) (via : Via) : State :=
  match if va % 64 = 0 then s.mem.poisonedAt isl pa 64 else none with
  | some _ => leaveRecord s isl part va pa 6 2 [4] none
  | none =>
    let x := s.mem.nat isl pa 64
    let origin := some (nbits x 192 191)
    match recordBad x va part with
    | some k => leaveRecord s isl part va pa 6 2 [k] origin
    | none =>
      if qcapOf s part ≤ (queueOf s isl part).length then leaveRecord s isl part va pa 8 3 [] origin
      else
        let now := s.clk isl
        enqueue (writeRecord s isl part va via 8 (leBytes 8 now)) isl part (.ofBits x va pa now)

/-- R133, R134: a join decrement on the word at `pa`, one atomic step at its home bank; in a poisoned sector nothing is
applied (R134), and the answer is false. -/
def joinDecrement (s : State) (isl part va pa count : Nat) : State × Bool :=
  if (s.mem.poisonedAt isl pa 8).isSome then (s, false)
  else
    let r := decremented (s.mem.nat isl pa 8) count
    let s := bypassBank s isl none pa (leBytes 8 r.1)
    (if r.2 then makeReady s isl part va pa .fresh else s, true)

/-! ### SPAWN and JOINDEC -/

/-- R437: the record bytes 8 to 63 that SPAWN writes over those in memory. -/
def spawnBits (old part : Nat) (khdr frame : W64) (prio : Nat) : Nat :=
  putField 511 448 frame.toNat <| putField 447 396 khdr.toNat <| putField 281 230 0 <| putField 229 225 0 <|
  putField 224 213 0xFFF <| putField 212 205 0 <| putField 204 199 part <| putField 198 196 prio <|
  putField 195 193 prio <| putField 192 191 2 <| putField 190 183 0xC5 <| putField 182 128 0 old

/-- R437: the states of a record that SPAWN and LAUNCH refuse. -/
def recordHeld (st : Nat) : Bool := st == 2 || st == 3 || st == 5

/-- R437: SPAWN at its completion: the state, and the result word. -/
def spawnEffect (s : State) (isl part va pa : Nat) (khdr frame : W64) (join prio : Nat) : State × W64 :=
  let st := jwState (s.mem.nat isl pa 8)
  if recordHeld st then (s, w64 (2 ^ 63 + st))
  else
    let x := spawnBits (s.mem.nat isl pa 64) part khdr frame prio
    let s := bypassBank s isl none (pa + 8) ((leBytes 64 x).drop 8)
    if join = 0 then
      (makeReady (bypassBank s isl none pa (leBytes 8 (joinWord 2 0 0))) isl part va pa (.held pa), w64 st)
    else (bypassBank s isl none pa (leBytes 8 (joinWord 1 0 join)), w64 st)

/-- R437: SPAWN; its effect is that of its completion. -/
def execSpawn (h : Head) (a b c0 : Src) (s : State) : Out :=
  issue s h .sca (a :: pairSrcs b ++ [c0]) fun c => c.memory s true fun _ => settled do
    let va := (rd64 s c (uS 1) a 0).toNat
    let i := match b with
      | .sreg i | .greg i => i
      | _ => 0
    let khdr := readS s c.th.m 2 i
    let frame := readS s c.th.m 2 (i + 1)
    checkAligned 64 [va]
    checkAligned 256 [khdr.toNat]
    match c.access s va 64 .atomic true with
    | .error e => .error (.fault e .atomic 0)
    | .ok (pa, _) =>
      let ctl := (rd64 s c (uS 3) c0 0).toNat
      .ok (.done (startOp s c (c.op s h true (.sca h.d 1)
        (.spawn va pa khdr frame (nbits ctl 15 0) (nbits ctl 18 16)))) [])

/-- R438: JOINDEC; the decrement is applied at its completion. -/
def execJoindec (h : Head) (a b : Src) (s : State) : Out :=
  issue s h .sca [a, b] fun c => c.memory s true fun _ => settled do
    let va := (rd64 s c (uS 1) a 0).toNat
    checkAligned 8 [va]
    match c.access s va 8 .atomic true with
    | .error e => .error (.fault e .atomic 0)
    | .ok (pa, _) =>
      let n := (rd64 s c (uS 2) b 0).toNat % 65536
      if n = 0 then .ok (plainOp s s c h)
      else .ok (.done (startOp s c (c.op s h true .none (.joindec va pa n))) [])

end Sys2Proof.Machine
end

