-- ==== Sys2Proof/Machine/Chains.lean ====
section
/-! DEFINITION. Engine chains at the append unit: descriptors (R221, R222), binding (R223), appending (R224), halting and
release (R226), and the instructions CHPUT, CHADV and CHSEQ (R434 to R436). -/

namespace Sys2Proof.Machine

open Sys2Proof

/-! ### Descriptors -/

/-- R226: records of a chain that have started and not completed. -/
def inflight (s : State) (r : ChainRef) : Nat := (s.eng.recs.filter fun x => x.ref.chain == r && x.known).length

/-- R150, R222: CAIRN and BIV of a chain: a matrix chain shows those of its core's input queue. -/
def chainCairn (s : State) (r : ChainRef) (c : Chain) : Nat × Bool :=
  match c.eng with
  | .matrix core => s.eng.matCairn.getD (r.isl, core) (0, false)
  | .copy _ => (c.cairn, c.biv)

/-- R222: the engine status word. -/
def chainEsw (s : State) (r : ChainRef) (c : Chain) : Nat :=
  let q := chainCairn s r c
  q.1 % 2 ^ 16 * 2 ^ 48 + q.2.toNat * 2 ^ 47 + (if c.halted then c.hstat % 256 * 2 ^ 32 else 0) + inflight s r % 128

/-- R221: the words of a descriptor that the append unit and the engine keep: offsets and values. STATE of a bound chain
is RUN or HALTED, and UNBOUND while its copy engine is another partition's. -/
def chainWords (s : State) (r : ChainRef) (c : Chain) : List (Nat × Nat) :=
  [(0, c.tail), (8, c.last), (256, c.comp), (264, chainEsw s r c), (272, c.erraddr % 2 ^ 52 * 2 ^ 12),
    (280, (if c.halted then 2 else if c.away then 0 else 1) + (match c.eng with
      | .matrix _ => c.team * 256
      | .copy _ => 0))]

/-- R223, R226: words of a descriptor are written back; a write that fails is dropped and reported, and nothing parks. -/
def putWords (s : State) (r : ChainRef) (ws : List (Nat × Nat)) : State :=
  ws.foldl (fun s w =>
    putVa s r.isl r.part (r.desc + w.1) (leBytes 8 w.2) fun s => report s r.part 4 [r.isl, r.desc]) s

/-- Replace the record of a bound chain. -/
def setChain (s : State) (r : ChainRef) (c : Chain) : State :=
  { s with eng := { s.eng with chains := s.eng.chains.set r c } }

/-- R223: every change of a bound chain is written back: the words that `s'` shows otherwise than `s` did. -/
def syncChain (s s' : State) (r : ChainRef) : State :=
  match s.eng.chains.get? r, s'.eng.chains.get? r with
  | some c, some c' => putWords s' r ((chainWords s' r c').filter fun w => !(chainWords s r c).contains w)
  | _, _ => s'

/-- R223: one field change of a bound chain, written back. -/
def changeChain (s : State) (r : ChainRef) (f : Chain → Chain) : State :=
  match s.eng.chains.get? r with
  | some c => syncChain s (setChain s r (f c)) r
  | none => s

/-! ### Binding -/

/-- R223: the descriptor as its 4096 bits. -/
def descBits (s : State) (isl pa : Nat) : Nat := s.mem.nat isl pa 512

/-- R221: ENGINE. -/
def engineOf (d : Nat) : Option Engine :=
  let e := nbits d 199 192
  if nbit e 7 then (if e % 128 < 96 then some (.matrix (e % 128)) else none)
  else if e < 24 then some (.copy e)
  else none

/-- R223: MALFORMED: ENGINE, CAP, HEAD, LAST and the reserved fields that are read. -/
def descBad (d : Nat) : Bool :=
  (engineOf d).isNone || 64 < nbits d 231 224 || nbits d 179 128 % 64 != 0 || nbits d 115 64 % 64 != 0 ||
    nbits d 2187 2176 != 0 || nbits d 2047 232 != 0 || nbits d 223 200 != 0 || nbits d 191 180 != 0 || nbits d 127 116 != 0

/-- R85: a partition owns a copy engine of an island. -/
def ownsEngine (s : State) (part isl ce : Nat) : Bool :=
  match s.par.parts.get? part with
  | some p => nbit (p.ce.getD isl 0) ce
  | none => false

/-- R223: the checks of a binding, in the order of the table: HSTAT of the first that fails. -/
def bindBad (s : State) (r : ChainRef) (team d : Nat) : Option Nat :=
  if descBad d then some 0x03
  else
    match engineOf d with
    | none => some 0x03
    | some (.copy ce) =>
      if !ownsEngine s r.part r.isl ce then some 0x10
      else if 64 ≤ (s.eng.chains.filter fun x => x.1.isl == r.isl && !x.2.away && x.2.eng == .copy ce).length then some 0x13
      else none
    | some (.matrix core) =>
      if !((s.team? r.isl team).map fun t => t.inSpan core).getD false then some 0x08
      else if s.eng.chains.any fun x => x.1.isl == r.isl && x.2.eng == .matrix core && x.2.team == team then some 0x11
      else none

/-- R221, R223: the binding of a descriptor that passed its checks. Records that an earlier binding never read stay unread
(log entry 24). -/
def newChain (s : State) (r : ChainRef) (team d : Nat) (e : Engine) : Chain :=
  let cap := nbits d 231 224
  { eng := e, team := team, tail := nbits d 63 0, last := nbits d 115 64, head := nbits d 179 128, comp := nbits d 2111 2048,
    cap := if cap = 0 then 64 else cap, halted := false, hstat := 0, erraddr := nbits d 2239 2188, errseq := 0,
    read := nbits d 63 0, next := nbits d 115 64, doneAbove := [], cairn := 0, biv := false, lastAppend := s.clk r.isl, follows := [], away := false }

/-- R223: CHAIN_BIND of a descriptor that holds no binding and does not read HALTED; the answer is false when it fails. -/
def bindChain (s : State) (r : ChainRef) (pa team : Nat) : State × Bool :=
  let d := descBits s r.isl pa
  let old := [0, 8, 256, 264, 272, 280].map fun i => (i, s.mem.nat r.isl (pa + i) 8)
  match bindBad s r team d, engineOf d with
  | none, some e =>
    let c := newChain s r team d e
    let s' := setChain s r c
    (putWords s' r ((chainWords s' r c).filter fun w => !old.contains w), true)
  | b, _ =>
    let esw := s.mem.nat r.isl (pa + 264) 8
    (putWords s r [(264, putField 39 32 (b.getD 3) esw), (280, putField 7 0 2 (s.mem.nat r.isl (pa + 280) 8))], false)

/-! ### Appending -/

/-- R224: what a CHPUT or CHADV asks of the append unit. -/
structure Append where
  ref : ChainRef
  pa : Nat
  rec_ : Nat
  n : Nat
  adv : Bool
  team : Nat
  /-- R231: it is a follow-on. -/
  follow : Bool
deriving DecidableEq, Repr

/-- R224: NEXT of a record is written: bits [51:0] of its first word. -/
def writeNext (s : State) (isl part va rec_ : Nat) : Except XErr State :=
  match access s isl part va 8 .write true with
  | .ok (pa, _) => .ok (subByteBank s isl none pa (w64 rec_) (w64 (2 ^ 52 - 1)))
  | .error e => .error e

/-- R224: HEAD of a descriptor is written, through the translation of its append. -/
def writeHead (s : State) (isl pa rec_ : Nat) : State :=
  subByteBank s isl none (pa + 16) (w64 rec_) (w64 (2 ^ 52 - 1))

/-- R226: a chain halts on a record; of several failures the lowest record stands. -/
def haltChain (s : State) (r : ChainRef) (hstat addr seq : Nat) : State :=
  changeChain s r fun c =>
    if c.halted && c.errseq ≤ seq then c else { c with halted := true, hstat := hstat, erraddr := addr, errseq := seq }

/-- R224: the link of a CHPUT: NEXT of the record at LAST, or HEAD. -/
def linkRecord (s : State) (a : Append) (tail last : Nat) : Except XErr State :=
  if a.adv then .ok s
  else if tail = 0 then
    match s.mem.poisonedAt a.ref.isl (a.pa + 16) 8 with
    | some b => .error (.poison (a.ref.desc + (b - a.pa)))
    | none => .ok (writeHead s a.ref.isl a.pa a.rec_)
  else writeNext s a.ref.isl a.ref.part last a.rec_

/-- R226: the binding of a halted chain is released once no record of it is in flight; the descriptor stays HALTED, and a
record that the engine waits to read is never read. -/
def releaseHalted (s : State) (r : ChainRef) : State :=
  match s.eng.chains.get? r with
  | some c =>
    if c.halted && inflight s r == 0 then
      freeFaults { s with eng := { s.eng with
        chains := s.eng.chains.erase r, recs := s.eng.recs.filter fun x => x.ref.chain != r } } r.isl r.part
    else s
  | none => s

/-- R224: an append to a bound chain with room. A link that cannot be written halts the chain, and the append counts; which
address stands for a HEAD that cannot be written is open (log entry 2). -/
def appendBound (s : State) (a : Append) (c : Chain) : State :=
  let r := linkRecord s a c.tail c.last
  let s1 := match r with
    | .ok s' => s'
    | .error e => e.note s a.ref.isl a.ref.part
  let first := !a.adv && c.tail == 0
  let s2 := changeChain s1 a.ref fun c => { c with
    tail := c.tail + a.n, last := a.rec_, lastAppend := s.clk a.ref.isl, head := if first then a.rec_ else c.head
    follows := if a.follow then (c.tail + a.n) :: c.follows else c.follows }
  match r with
  | .ok _ => s2
  | .error _ =>
    releaseHalted
      (haltChain s2 a.ref 0x0B (if c.tail = 0 then (Config.freeWord s.free).toNat % 2 ^ 52 else c.last) c.tail) a.ref

/-- R226: an append to a released HALTED descriptor, from its own values. -/
def appendHalted (s : State) (a : Append) : State :=
  let d := descBits s a.ref.isl a.pa
  let s := match linkRecord s a (nbits d 63 0) (nbits d 115 64) with
    | .ok s' => s'
    | .error e => e.note s a.ref.isl a.ref.part
  putWords s a.ref [(0, nbits d 63 0 + a.n), (8, putField 51 0 a.rec_ (nbits d 127 64))]

/-- R221: the descriptor reads HALTED. -/
def descHalted (s : State) (isl pa : Nat) : Bool := s.mem.nat isl (pa + 280) 1 == 2

/-- R148, R224: an append fits, or its chain is not bound yet. -/
def Append.fits (s : State) (a : Append) : Bool :=
  match s.eng.chains.get? a.ref with
  | some c => c.tail + a.n ≤ c.cap + c.comp
  | none =>
    if descHalted s a.ref.isl a.pa then
      let d := descBits s a.ref.isl a.pa
      let cap := nbits d 231 224
      nbits d 63 0 + a.n ≤ (if cap = 0 then 64 else cap) + nbits d 2111 2048
    else true

/-- R434: the result word of an append that was made. -/
def appendResult (tail : Nat) : W64 := w64 (tail % 2 ^ 63)

/-- R434: the result word of an append that was not made: bit 63; the spec does not state the rest (log entry 2). -/
def appendRefused (s : State) : W64 := w64 (2 ^ 63) ||| Config.freeWord s.free

/-- R223, R224, R226: the append unit takes up an append: the result word, or none when it blocks after binding. `force`
takes the bivouac entry (R149). -/
def appendStep (s : State) (a : Append) (force : Bool) : State × Option W64 :=
  match s.eng.chains.get? a.ref with
  | some c => if force || a.fits s then (appendBound s a c, some (appendResult (c.tail + a.n))) else (s, none)
  | none =>
    if descHalted s a.ref.isl a.pa then
      if force || a.fits s then
        (appendHalted s a, some (appendResult (s.mem.nat a.ref.isl a.pa 8 + a.n)))
      else (s, none)
    else
      let b := bindChain s a.ref a.pa a.team
      if !b.2 then (b.1, some (appendRefused s))
      else
        match b.1.eng.chains.get? a.ref with
        | some c =>
          if a.fits b.1 then (appendBound b.1 a c, some (appendResult (c.tail + a.n))) else (b.1, none)
        | none => (b.1, none)

/-- The append an outstanding operation asks for. -/
def Op.append? (o : Op) : Option Append :=
  match o.act with
  | .append desc pa rec_ n adv => some ⟨⟨o.m.isl, o.part, desc⟩, pa, rec_, n, adv, o.m.team, false⟩
  | _ => none

/-- R224, R231: a follow-on stands at a chain's append unit, arrived before operation `id`. -/
def EngRec.ahead (r : EngRec) (ref : ChainRef) (id : Nat) : Bool :=
  match r.turn with
  | some (n, q) => q == ref && n ≤ id
  | none => false

/-- R224: appends to one chain are taken up in order: an earlier one of the same thread, or one that blocks, holds back the
later ones, and so does a follow-on that blocks (R231). -/
def appendTurn (s : State) (o : Op) (a : Append) : Bool :=
  ((s.core.ops.takeWhile (·.id != o.id)).all fun p =>
    match p.append? with
    | some b => b.ref != a.ref || (!p.sharesSplit o && b.fits s)
    | none => true) && !s.eng.recs.any (·.ahead a.ref o.id)

/-! ### Release of a binding -/

/-- R223: a chain becomes UNBOUND; STATE is written last. -/
def unbindChain (s : State) (r : ChainRef) : State :=
  match s.eng.chains.get? r with
  | none => s
  | some c =>
    let st := match c.eng with
      | .matrix _ => c.team * 256
      | .copy _ => 0
    putWords { s with eng := { s.eng with chains := s.eng.chains.erase r } } r [(280, st)]

/-! ### Instructions -/

/-- R435: CHPUT and CHADV. -/
def appendBody (s : State) (c : Issue) (h : Head) (a b : Src) (n : Nat) (adv : Bool) : Body :=
  c.memory s true fun _ => settled do
    let desc := (rd64 s c (uS 1) a 0).toNat
    let rec_ := (rd64 s c (uS 2) b 0).toNat
    checkAligned 512 [desc]
    checkAligned 64 [rec_]
    if adv && (n == 0 || 64 < n) then .error (.trap .operandRange (w64 (3 * 4096 + n % 4096)))
    let xd := c.xlate s desc .write
    match xd, c.xlate s rec_ .read with
    | .fault p l, _ => .error (.fault (.fault desc p l) .write 0)
    | _, .fault p l => .error (.fault (.fault rec_ p l) .read 0)
    | .sealedStore, _ => .error (.fault (.sealed desc) .write 0)
    | .ok pa _ _, _ =>
      match s.mem.poisonedAt c.isl pa 512 with
      | some x => .error (.fault (.poison (desc + (x - pa))) .write 0)
      | none =>
        .ok (.done (startOp s c (c.op s h true (.sca h.d 1) (.append desc pa rec_ n adv))) [])

/-- R434, R435: CHPUT; the append is that of its completion. -/
def execChput (h : Head) (a b : Src) (s : State) : Out :=
  issue s h .sca [a, b] fun c => appendBody s c h a b 1 false

/-- R434, R435: CHADV. -/
def execChadv (h : Head) (a b c0 : Src) (s : State) : Out :=
  issue s h .sca [a, b, c0] fun c => appendBody s c h a b (rd32 s c (uS 3) c0 0).toNat true

/-- R436: the byte of the descriptor that a selector names. -/
def chseqOffset : ChSel → Nat
  | .comp => 256
  | .tail => 0
  | .esw => 264

/-- R436: CHSEQ. -/
def execChseq (h : Head) (acq : Bool) (sel : ChSel) (a : Src) (s : State) : Out :=
  issue s h .sca [a] fun c => c.memory s false fun _ => settled do
    let desc := (rd64 s c (uS 1) a 0).toNat
    checkAligned 512 [desc]
    let accs ← reachGlobal s c .global .read true [⟨0, 0, (desc + chseqOffset sel) % 2 ^ 64, 8, .bank⟩]
    .ok (.done (startOp s c { c.op s h true (.sca h.d 1) (.load .n64 false) with accs := accs, acq := acq }) [])

end Sys2Proof.Machine
end

