-- ==== Sys2Proof/Machine/Interface.lean ====
section
/-! DEFINITION. The fabric interface of an island as the source of remote operations: destinations (R39), the injection of
requests (R31, R33, R40, R52), and the completion of a packet's share of an operation (R34, R41, R416). -/

namespace Sys2Proof.Machine

open Sys2Proof

/-! ### Destinations -/

/-- R39: the destination is a site of the population. -/
def present (s : State) (d : Nat) : Bool := d < 24 && s.unit.popmask.getLsbD d

/-- R37: a route whose every hop crosses a link that is UP. -/
def healthy (route : List Nat) (health : List Bool) : Bool := !route.isEmpty && health.all id

/-- R38, R39: the routes of a holder's view to a node that are healthy. -/
def routesTo (s : State) (holder d : Nat) : List (List Nat) :=
  match s.fab.views.get? (holder, d) with
  | none => []
  | some v =>
    (if healthy v.route0 v.health0 then [v.route0] else []) ++ if healthy v.route1 v.health1 then [v.route1] else []

/-- R37: REACH of a node in a holder's view. -/
def reaches (s : State) (holder d : Nat) : Bool := holder == d || !(routesTo s holder d).isEmpty

/-- R11: the hub can reach an island: its view has a healthy route, and the island's UCIe link is up. -/
def hubReaches (s : State) (isl : Nat) : Bool := reaches s 31 isl && (s.fab.ucieDown.get? isl).isNone

/-- R34: fabric status codes. -/
inductive FStatus where
  | islandDown | unreachable | drained | timeout | auth | misroute | translation | permission | poison | chBroken | absent
deriving DecidableEq, Repr

/-- R34: the code of a fabric status. -/
def FStatus.code : FStatus → Nat
  | .islandDown => 1
  | .unreachable => 2
  | .drained => 3
  | .timeout => 4
  | .auth => 5
  | .misroute => 6
  | .translation => 7
  | .permission => 8
  | .poison => 9
  | .chBroken => 10
  | .absent => 11

/-! ### The failure record -/

/-- R416: a failed operation joins a failure record. -/
def addFailure (o : Op) (st isl now : Nat) (f : Option FailRec) : FailRec :=
  match f with
  | none => ⟨st, isl, [o.id], false, now⟩
  | some f =>
    if f.ops.contains o.id then f
    else { f with ops := f.ops ++ [o.id], sat := f.sat || 0xFFFF ≤ f.ops.length + 1 }

/-- R416: the failure of an operation is recorded in every path that holds it. -/
def recordFailure (s : State) (o : Op) : State :=
  match o.failed with
  | none => s
  | some (st, isl) =>
    let s := { s with serial := s.serial + 1 }
    o.holders.foldl (fun s x => s.modPath o.m x.1 fun r => { r with fail := some (addFailure o st isl s.serial r.fail) }) s

/-- R416: a remote operation completes. -/
def finishRemote (s : State) (o : Op) : State := finishOp (recordFailure s o) o

/-! ### Channels -/

/-- R410: the key of a channel. -/
abbrev chanKey (isl team ch : Nat) : Nat × Nat × Nat := (isl, team, ch)

/-- Change a channel that is not closed. -/
def modChan (s : State) (isl team ch : Nat) (f : Chan → Chan) : State :=
  { s with fab := { s.fab with chans := s.fab.chans.modify (chanKey isl team ch) f } }

/-- R41: an injected packet of a channel that fails with these statuses has used its place in the order. -/
def keepsOrder (st : Nat) : Bool :=
  st == FStatus.translation.code || st == FStatus.permission.code || st == FStatus.poison.code

/-- R40, R41: a channel after one of its packets is answered. -/
def chanDone (s : State) (t : Txn) (st : Option Nat) : State :=
  match t.och with
  | none => s
  | some ch =>
    modChan s t.src t.steam ch fun c =>
      if t.op = .ochReset then { c with opening := false, broken := c.broken || st.isSome }
      else if t.injected then
        { c with unacked := c.unacked - 1, broken := c.broken || (st.map fun x => !keepsOrder x).getD false }
      else c

/-! ### Completion at the source -/

/-- R147: a completion decrement of a team end has been applied or has failed. -/
def endAcked (s : State) (isl team n : Nat) (st : Option Nat) : State :=
  { s with task := { s.task with ends := s.task.ends.map fun e =>
      if e.isl = isl ∧ e.team = team ∧ e.waiting.contains n then
        { e with waiting := e.waiting.filter (· ≠ n), fails := match st with
          | some x => e.fails ++ [(n, x)]
          | none => e.fails }
      else e } }

/-- R34, R416: a packet's share of its operation completes, with a status when it failed. -/
def packetDone (s : State) (t : Txn) (st : Option Nat) : State :=
  let s := { s with fab := { s.fab with txns := s.fab.txns.filter fun x => !(x.src == t.src && x.tag == t.tag) } }
  let s := chanDone s t st
  match t.use with
  | .engine => if st.isSome then report s t.kslot 5 [t.dest, t.addr] else s
  | .teamEnd isl team n => endAcked s isl team n st
  | .op id =>
    match s.op? id with
    | none => s
    | some o =>
      let o := { o with waiting := o.waiting - 1, failed := match o.failed, st with
        | none, some x => some (x, t.dest)
        | f, _ => f }
      let s := setOp s o
      if o.waiting = 0 then finishRemote s o else s

/-- The outstanding request of a source and tag. -/
def State.txn? (s : State) (src tag : Nat) : Option Txn := s.fab.txns.find? fun t => t.src == src && t.tag == tag

/-- The port number by which the model names the place of packets that an island's fabric interface serves for its own
island (R39): no router's buffer. -/
def ownPort : Nat := 25

/-- R47: the router input buffer in which a packet stands, by node and port. -/
def PktAt.buffer : PktAt → Option (Nat × Nat)
  | .queue n i => if i = ownPort then none else some (n, i)
  | _ => none

/-- R49: a packet is on the rope lane. -/
def PktAt.onRope : PktAt → Bool
  | .rope _ => true
  | _ => false

/-- R47: the packet stands at the head of its input buffer, or in none. -/
def atHead (s : State) (p : Packet) : Bool :=
  p.place.buffer.isNone || (s.fab.pkts.find? fun q => q.place.buffer == p.place.buffer).map (·.id) == some p.id

/-- A packet leaves the fabric. -/
def dropPacket (s : State) (id : Nat) : State :=
  { s with fab := { s.fab with pkts := s.fab.pkts.filter (·.id ≠ id) } }

/-- Replace a packet. -/
def setPacket (s : State) (p : Packet) : State :=
  { s with fab := { s.fab with pkts := s.fab.pkts.map fun x => if x.id = p.id then p else x } }

/-- A packet enters an input buffer behind those that stand there. -/
def enterBuffer (s : State) (p : Packet) (node inp : Nat) : State :=
  { s with fab := { s.fab with
    pkts := s.fab.pkts.filter (·.id ≠ p.id) ++ [{ p with place := .queue node inp, blocked := none, timedOut := false }] } }

/-- The packet of a number. -/
def State.pkt? (s : State) (id : Nat) : Option Packet := s.fab.pkts.find? (·.id = id)

/-! ### Requests -/

/-- A request that an agent of an island asks of its fabric interface. -/
structure RemoteReq where
  dest : Nat
  op : PktOp
  addr : Nat
  /-- Bytes carried or asked for. -/
  n : Nat
  payload : List Byte
  och : Option Nat
  dst : Space × List Nat
  /-- R415: the count of a NOTIFY. -/
  count : Nat := 0
  /-- R414: the lane of a remote atomic. -/
  lane : Nat := 0
deriving DecidableEq, Repr

/-- R30: the 32-byte units of its line that a range touches. -/
def flits (addr n : Nat) : Nat := if n = 0 then 0 else (addr + n - 1) / 32 - addr / 32 + 1

/-- R32: LEN of a request: the flits that a PUT carries or a GET_REQ asks for, one for operands. -/
def RemoteReq.len (r : RemoteReq) : Nat :=
  match r.op with
  | .put | .getReq => flits r.addr r.n
  | .ratom | .rred => 1
  | _ => 0

/-- R32: the OP value of an operation. -/
def PktOp.code : PktOp → Nat
  | .put => 0x01
  | .putAck => 0x02
  | .getReq => 0x03
  | .getData => 0x04
  | .ratom => 0x05
  | .ratomRes => 0x06
  | .rred => 0x07
  | .rredAck => 0x08
  | .notify => 0x09
  | .notifyAck => 0x0A
  | .error => 0x0B
  | .ochReset => 0x0C
  | .ochResetAck => 0x0D
  | .belay => 0x30
  | .ropeAck => 0x31

/-- R32: the OP values that are not reserved. -/
def opCodes : List Nat := List.range' 1 13 ++ [0x30, 0x31]

/-- R31, R32: the TYPE of an operation: 0 request, 1 response, 2 error reply, 3 control. -/
def PktOp.type : PktOp → Nat
  | .put | .getReq | .ratom | .rred | .notify | .ochReset => 0
  | .putAck | .getData | .ratomRes | .rredAck | .notifyAck | .ochResetAck => 1
  | .error => 2
  | .belay | .ropeAck => 3

/-- R32: the packets that are requests. -/
def PktOp.request (op : PktOp) : Bool := op.type == 0

/-- R31: a value in the bits `hi` to `lo` of a header, a table entry or a record. -/
def inBits (hi lo v : Nat) : Nat := v % 2 ^ (hi + 1 - lo) * 2 ^ lo

/-- R31, R37: the ROUTE field: hop `h` in bits 4h+3 to 4h. -/
def routeField (route : List Nat) : Nat := route.foldr (fun c a => c % 16 + 16 * a) 0

/-- R31: the header flit of a packet. -/
def Packet.header (p : Packet) : BitVec 256 := BitVec.ofNat 256 (
  inBits 255 252 p.op.type + inBits 251 204 (routeField p.route) + inBits 203 200 p.route.length + inBits 199 196 p.hidx +
  inBits 195 191 p.dest + inBits 190 186 p.src + inBits 185 180 p.kslot + inBits 179 174 p.op.code + inBits 173 170 p.len +
  inBits 169 154 p.tag + inBits 153 149 ((p.och.map (16 + ·)).getD 0) + inBits 148 137 p.chseq + inBits 136 125 p.steam +
  inBits 124 117 p.bcnt + inBits 116 65 (if p.op = .error then p.status else p.addr) + inBits 64 49 p.gen +
  inBits 48 1 p.pctr + inBits 0 0 p.kph.toNat)

/-- R32: a header with a reserved OP, TYPE or HOPS value. -/
def headerReserved (h : BitVec 256) : Bool :=
  3 < nbits h.toNat 255 252 || !opCodes.contains (nbits h.toNat 179 174) ||
    !(1 ≤ nbits h.toNat 203 200 && nbits h.toNat 203 200 ≤ 12)

/-- R31, R48, R49: the header of a control packet, which carries the current GEN; R31 names for it no key slot, tag, channel,
team or address, which the model sets to 0 (log entry 47). -/
def controlPacket (op : PktOp) (src dest gen : Nat) (route : List Nat) : Packet :=
  { id := 0, op := op, route := route, hidx := 0, dest := dest, src := src, kslot := 0, len := 0, tag := 0, och := none,
    chseq := 0, steam := 0, bcnt := 0, addr := 0, gen := gen, pctr := 0, kph := false, epoch := 0, payload := [],
    part := none, count := 0, status := 0, ofReply := false, place := .source, blocked := none, timedOut := false }

/-- R31, R35: a request enters its source's fabric interface, not yet sent. BCNT holds the byte count minus 1; a NOTIFY or an
OCH_RESET has no bytes, and the spec states no BCNT for it: the model writes 0 (log entry 47). -/
def addRequest (s : State) (src kslot steam : Nat) (use : TxnUse) (r : RemoteReq) : State :=
  let tag := s.fab.tags.getD src 0
  let p : Packet := {
    id := s.fab.nextPkt, op := r.op, route := [], hidx := 0, dest := r.dest, src := src, kslot := kslot,
    len := r.len, tag := tag, och := r.och, chseq := 0, steam := steam, bcnt := r.n - 1, addr := r.addr, gen := 0,
    pctr := 0, kph := false, epoch := 0, payload := r.payload, part := none, count := r.count, status := 0, ofReply := false,
    place := .source, blocked := none, timedOut := false }
  let t : Txn := ⟨src, tag, r.dest, kslot, steam, use, r.op, r.och, r.dst, r.lane, r.addr, 0, false⟩
  { s with fab := { s.fab with
    pkts := s.fab.pkts ++ [p]
    txns := s.fab.txns ++ [t]
    nextPkt := s.fab.nextPkt + 1
    tags := s.fab.tags.set src ((tag + 1) % 65536) } }

/-- R33: the anchor installs a new key of the other phase in a slot; both phases are accepted, and the sources count from
zero under the new key (log entry 9). -/
def rekey (s : State) (slot : Nat) : State :=
  let k := s.fab.keys.getD slot ⟨false, 0, none⟩
  { s with fab := { s.fab with
    keys := s.fab.keys.set slot ⟨!k.phase, s.fab.nextEpoch, some k.cur⟩, nextEpoch := s.fab.nextEpoch + 1
    pctr := s.fab.pctr.drop fun x => x.2 = slot } }

/-- R33: the sealing of a packet: the source's counter, the key phase and its epoch; a new key comes before the counter
reaches 2^48 - 1. -/
def sealPacket (s : State) (p : Packet) : State × Packet :=
  let s := if s.fab.pctr.getD (p.src, p.kslot) 0 < 2 ^ 48 - 2 then s else rekey s p.kslot
  let n := s.fab.pctr.getD (p.src, p.kslot) 0
  let k := s.fab.keys.getD p.kslot ⟨false, 0, none⟩
  ({ s with fab := { s.fab with pctr := s.fab.pctr.set (p.src, p.kslot) (n + 1) } },
    { p with pctr := n, kph := k.phase, epoch := k.cur })

/-- R39: the route a packet takes: the first healthy one, or, unordered, either (log entry 2). -/
def chooseRoute (s : State) (p : Packet) : List Nat :=
  match routesTo s p.src p.dest with
  | [] => []
  | [r] => r
  | r0 :: r1 :: _ => if p.och.isNone && Config.freeBit s.free p.id then r1 else r0

/-- R42, R52: injection is held: by a topology switch or a fence, or with the UCIe link down. -/
def injectionHeld (s : State) (src : Nat) : Bool := s.fab.quiesce.contains src || (s.fab.ucieDown.get? src).isSome

/-- R40, R410: a packet on a channel waits: while the channel opens, behind earlier packets, and at 2048 unacknowledged. -/
def channelHeld (s : State) (p : Packet) : Bool :=
  match p.och with
  | none => false
  | some ch =>
    if p.op = .ochReset then false
    else
      match s.fab.chans.get? (chanKey p.src p.steam ch) with
      | none => false
      | some c =>
        !c.broken && (c.opening || 2048 ≤ c.unacked ||
          s.fab.pkts.any fun q => q.place == .source && q.id < p.id && q.src == p.src && q.steam == p.steam && q.och == p.och)

/-- R414: a step on a word that an earlier participant's packet of the same operation names waits for its answer, so that
the steps are applied in ascending lane order. -/
def wordHeld (s : State) (p : Packet) : Bool :=
  (p.op == .ratom || p.op == .rred) && p.och.isNone &&
    match s.txn? p.src p.tag with
    | none => false
    | some t => (s.fab.txns.takeWhile fun x => !(x.src == t.src && x.tag == t.tag)).any fun x =>
        x.src == t.src && x.use == t.use && x.dest == t.dest && x.addr == t.addr

/-- R39 to R41, R414: a request that is not yet to be sent. -/
def requestHeld (s : State) (p : Packet) : Bool := channelHeld s p || wordHeld s p

/-- R41: the channel is broken. -/
def channelBroken (s : State) (p : Packet) : Bool :=
  match p.och with
  | none => false
  | some ch => p.op != .ochReset && ((s.fab.chans.get? (chanKey p.src p.steam ch)).map (·.broken)).getD false

/-! ### Arbitration -/

/-- R39, R52: a request that waits for its turn to be injected. -/
def wantsLink (s : State) (p : Packet) : Bool :=
  p.place == .source && p.dest != p.src && !channelBroken s p && !requestHeld s p && !injectionHeld s p.src &&
    reaches s p.src p.dest

/-- R30: the bytes of a request on a link: the header, the flits that it carries, the tag. -/
def Packet.bytes (p : Packet) : Nat := 48 + 32 * if p.op = .getReq then 0 else p.len

/-- R86: the weight of a partition at injection. -/
def fabWeight (s : State) (part : Nat) : Nat := if part = 0 then 255 else ((s.par.parts.get? part).map (·.fabw)).getD 16

/-- R86: the partitions with requests waiting at an island's fabric interface, in order of number. -/
def waitingParts (s : State) (src : Nat) : List Nat :=
  (List.range 64).filter fun k => s.fab.pkts.any fun p => p.src == src && p.kslot == k && wantsLink s p

/-- R86: the partition that follows another in turn. -/
def nextPart (ws : List Nat) (k : Nat) : Nat := ((ws.find? fun x => k < x).or ws.head?).getD k

/-- R86: the turn and the deficits after a request is injected; none while it is another's turn. A partition's turn brings it
304 bytes, those of the longest packet, for each unit of its weight (log entry 46). -/
def drrGrant (s : State) (p : Packet) : Option (Nat × Tbl (Nat × Nat) Nat) :=
  let ws := waitingParts s p.src
  let t := s.fab.drrTurn.getD p.src 0
  let credit (k : Nat) : Nat := s.fab.deficit.getD (p.src, k) 0
  let open_ := s.fab.pkts.any fun q => q.src == p.src && q.kslot == t && wantsLink s q && decide (q.bytes ≤ credit t)
  let kept : Tbl (Nat × Nat) Nat := s.fab.deficit.filter fun e => e.1.1 != p.src || ws.contains e.1.2
  if p.kslot = t ∧ p.bytes ≤ credit t then some (t, kept.set (p.src, t) (credit t - p.bytes))
  else if !open_ && nextPart ws t == p.kslot then
    some (p.kslot, kept.set (p.src, p.kslot) (credit p.kslot + 304 * fabWeight s p.kslot - p.bytes))
  else none

/-- R31, R35, R40: a request is sent. -/
def sendRequest (s : State) (p : Packet) : State :=
  let r := sealPacket s p
  let s := r.1
  let p : Packet := { r.2 with
    route := if p.dest = p.src then [] else chooseRoute s p
    gen := s.fab.topogen % 65536 }
  let seq := match p.och with
    | some ch => if p.op = .ochReset then 0 else ((s.fab.chans.get? (chanKey p.src p.steam ch)).map (·.next)).getD 0
    | none => 0
  let s := match p.och with
    | some ch => if p.op = .ochReset then s
        else modChan s p.src p.steam ch fun c => { c with next := (c.next + 1) % 4096, unacked := c.unacked + 1 }
    | none => s
  let s := enterBuffer s { p with chseq := seq } p.src (if p.dest = p.src then ownPort else 24)
  { s with fab := { s.fab with txns := s.fab.txns.map fun (t : Txn) =>
      if t.src == p.src && t.tag == p.tag then { t with injected := true, sentAt := s.hub.ns } else t } }

/-- A request completes at its source without having been sent. -/
def failRequest (s : State) (p : Packet) (st : FStatus) : State :=
  match s.txn? p.src p.tag with
  | some t => packetDone (dropPacket s p.id) t (some st.code)
  | none => dropPacket s p.id

/-- R39, R40, R41, R52: the fabric interface takes up one request: it is sent, waits, or completes without being sent. -/
def inject (s : State) (id : Nat) : State :=
  match s.pkt? id with
  | none => s
  | some p =>
    if p.place ≠ .source then s
    else if channelBroken s p then failRequest s p .chBroken
    else if p.dest = p.src then (if requestHeld s p then s else sendRequest s p)
    else if injectionHeld s p.src || requestHeld s p then s
    else if !reaches s p.src p.dest then failRequest s p .unreachable
    else
      match drrGrant s p with
      | some (t, d) =>
        sendRequest { s with fab := { s.fab with drrTurn := s.fab.drrTurn.set p.src t, deficit := d } } p
      | none => s

/-- R39, R40, R41, R52, R86: a request that its fabric interface may take up now. -/
def injectable (s : State) (p : Packet) : Bool :=
  p.place == .source && (channelBroken s p || (!requestHeld s p && (p.dest == p.src ||
    (!injectionHeld s p.src && (!reaches s p.src p.dest || (drrGrant s p).isSome)))))

/-- R39: requests of an agent come to its fabric interface. -/
def request (src kslot steam : Nat) (use : TxnUse) (s : State) (rs : List RemoteReq) : State :=
  rs.foldl (fun s r => addRequest s src kslot steam use r) s

end Sys2Proof.Machine
end

