-- ==== Sys2Proof/Machine/Remote.lean ====
section
/-! DEFINITION. Chapter 15: the remote instructions (R408 to R416). -/

namespace Sys2Proof.Machine

open Sys2Proof

/-! ### Pointers -/

/-- R408: the island of a remote pointer. -/
def ptrIsl (p : Nat) : Nat := nbits p 60 56

/-- R408: the address of a remote pointer. -/
def ptrVa (p : Nat) : Nat := p % 2 ^ 52

/-- R408: a reserved bit of a remote pointer is set. -/
def ptrReserved (p : Nat) : Bool := nbits p 63 61 != 0 || nbits p 55 52 != 0

/-- R31, R409, R412: the remote address: the pointer's plus the index, in the 52 bits of ADDR (log entry 39). -/
def remoteVa (s : State) (c : Issue) (sca : Bool) (p : Nat) (b : Option Src) (l : Nat) : Nat :=
  match b with
  | none => ptrVa p
  | some b => (ptrVa p + effBase s c sca (.konst .zero) b l) % 2 ^ 52

/-! ### Checks -/

/-- R410: the TVAL of CHANNEL. -/
def chanTval (ch isl reason : Nat) : W64 := w64 (ch % 16 + isl % 32 * 16 + reason * 512)

/-- R410: the state of a channel of the issuing team; none when it is closed. -/
def Issue.chan? (c : Issue) (s : State) (ch : Nat) : Option Chan := s.fab.chans.get? (chanKey c.isl c.team ch)

/-- R40: the packets of a channel that have not been sent. -/
def chanQueued (s : State) (c : Issue) (ch : Nat) : Nat :=
  (s.fab.pkts.filter fun p => p.place == .source && p.src == c.isl && p.steam == c.team && p.och == some ch).length

/-- R40, R410: the use of a channel for an operation to an island; issue stalls at 2048 packets unacknowledged. -/
def checkChan (s : State) (c : Issue) (och : Option Nat) (isl : Nat) : Except Body Unit :=
  match och with
  | none => .ok ()
  | some ch =>
    match c.chan? s ch with
    | none => .error (.trap .channel (chanTval ch isl 1))
    | some x =>
      if x.closing then .error (.trap .channel (chanTval ch isl 1))
      else if x.isl ≠ isl then .error (.trap .channel (chanTval ch isl 2))
      else if !x.broken && 2048 ≤ x.unacked + chanQueued s c ch then .error .stall
      else .ok ()

/-- R408, R411: no pointer has a reserved bit set. -/
def checkPtrs (ps : List Nat) : Except Body Unit :=
  match ps.find? ptrReserved with
  | some p => .error (.trap .permission (w64 p))
  | none => .ok ()

/-- R39, R410, R411: every pointer names a site of the population, and the channel admits each. -/
def checkDests (s : State) (c : Issue) (och : Option Nat) (ps : List Nat) : Except Body Unit :=
  match ps.find? fun p => !present s (ptrIsl p) with
  | some p => .error (.trap .islandAbsent (w64 p))
  | none => ps.forM fun p => checkChan s c och (ptrIsl p)

/-! ### Starting an operation -/

/-- A remote operation starts with its requests (R35, R39, R410). -/
def startRemote (s : State) (c : Issue) (o : Op) (och : Option Nat) (rs : List RemoteReq) : State :=
  let o := { o with remote := true, waiting := rs.length, chan := och }
  request c.isl c.part c.team (.op o.id) (startOp s c o) rs

/-- R412, R414: the participants: lane, pointer and remote address. -/
def remoteParts (s : State) (c : Issue) (a : Src) (b : Option Src) : List (Nat × Nat × Nat) :=
  (lanesIn c.exec).map fun l =>
    let p := (rd64 s c (uV 1) a l).toNat
    (l, p, remoteVa s c false p b l)

/-- R266, R412: the writes that no higher lane writes over. -/
def lastPuts : List RemoteReq → List RemoteReq
  | [] => []
  | r :: rs => if rs.any fun q => q.dest == r.dest && q.addr == r.addr then lastPuts rs else r :: lastPuts rs

/-- R412: PUT in register form. -/
def execPut (h : Head) (ty : Ty) (och : Option Nat) (a b : Src) (s : State) : Out :=
  issue s h .vec (pairSrc a ++ b :: dataSrcs false h.d (valueRegs false ty false)) fun c =>
    c.memory s false fun _ => settled do
      let size := ty.bits / 8
      let ps := remoteParts s c a (some b)
      checkAligned size (ps.map (·.2.2))
      checkPtrs (ps.map (·.2.1))
      checkDests s c och (ps.map (·.2.1))
      let rs := ps.map fun p => ({
        dest := ptrIsl p.2.1, op := .put, addr := p.2.2, n := size,
        payload := leBytes size (storeWord s c h false ty p.1 0).toNat, och := och, dst := (.global, []) } : RemoteReq)
      .ok (.done (startRemote s c (c.op s h false .none .put) och (lastPuts rs)) [])

/-! ### Blocks -/

/-- R30: a block within the lines of its destination: offsets and lengths. -/
def lineRuns : Nat → Nat → Nat → Nat → List (Nat × Nat)
  | 0, _, _, _ => []
  | fuel + 1, va, off, n =>
    if n = 0 then []
    else
      let k := min n (256 - (va + off) % 256)
      (off, k) :: lineRuns fuel va (off + k) (n - k)

/-- R411: the pages of a local block in global memory: the address of each part, its physical address and length, the first
page that faults ahead of the first that is sealed. -/
def localPages (s : State) (c : Issue) (acc : Acc) (va n : Nat) : Except Body (List (Nat × Nat × Nat)) :=
  let xs := (pageRuns (n / 65536 + 2) va n).map fun r => (r, c.xlate s (r.1 % 2 ^ 64) acc)
  match xs.findSome? fun x => match x.2 with | .fault p l => some (XErr.fault (x.1.1 % 2 ^ 64) p l) | _ => none with
  | some e => .error (.fault e acc 0)
  | none =>
    match xs.findSome? fun x => match x.2 with | .sealedStore => some (XErr.sealed (x.1.1 % 2 ^ 64)) | _ => none with
    | some e => .error (.fault e acc 0)
    | none => .ok (xs.filterMap fun x => match x.2 with | .ok pa _ _ => some (x.1.1 % 2 ^ 64, pa, x.1.2) | _ => none)

/-- R190, R411: a local block in scratchpad. -/
def localSpad (c : Issue) (writes : Bool) (off n : Nat) : Except Body Space :=
  match placeOf c.tm.hdr.scr off n with
  | .outside => .error (.trap .permission (w64 off))
  | .window => if writes then .error (.trap .barrierWindow (w64 off)) else .ok (.window c.core)
  | .reserved => .ok (.spad c.core)

/-- R215: the first poisoned byte of a source in scratchpad. -/
def spadSourceBad (s : State) (c : Issue) (sp : Space) (loc n : Nat) : Option Nat :=
  match sp with
  | .spad k => (s.mem.spadPoisonedAt c.isl k (c.tm.base k + loc) n).map (· - c.tm.base k)
  | _ => none

/-- R385, R411: the local side of a block: its space and the place of each byte; poison comes last. -/
def localSide (s : State) (c : Issue) (scr writes : Bool) (loc n : Nat) : Except Body (Space × List Nat) :=
  if scr then do
    let sp ← localSpad c writes loc n
    let base := match sp with
      | .spad k => c.tm.base k
      | _ => 0
    match if writes then none else spadSourceBad s c sp loc n with
    | some off => .error (.fault (.poison off) .read 1)
    | none => .ok (sp, (List.range n).map (base + loc + ·))
  else do
    let ps ← localPages s c (if writes then .write else .read) loc n
    match if writes then none else ps.findSome? fun x => (s.mem.poisonedAt c.isl x.2.1 x.2.2).map fun b => x.1 + (b - x.2.1) with
    | some va => .error (.fault (.poison va) .read 0)
    | none => .ok (.global, ps.flatMap fun x => (List.range x.2.2).map (x.2.1 + ·))

/-- The bytes of a local side. -/
def readLocal (s : State) (c : Issue) (x : Space × List Nat) : List Byte :=
  match x.1 with
  | .spad k => x.2.map fun o => s.mem.spad.get (skey c.isl k o)
  | .window k => x.2.map fun o => (windowBytes s c.isl c.team k o 1).headD 0
  | _ => x.2.map fun pa => s.mem.byte c.isl pa

/-- R411, R412, R413: the checks of a block and its requests. -/
def blockReqs (s : State) (c : Issue) (h : Head) (scr : Bool) (och : Option Nat) (a : Src) (b : Option Src) (get : Bool) :
    Except Body (List RemoteReq) := do
  let p := (rd64 s c (uS 1) a 0).toNat
  let va := remoteVa s c true p b 0
  let loc := (rd64 s c (uS 0) (.sreg h.d) 0).toNat
  let n := (rd64 s c (uS 0) (.sreg (h.d + 1)) 0).toNat % 65536 + 1
  checkPtrs [p]
  if scr then (localSpad c get loc n).map fun _ => ()
  checkDests s c och [p]
  let side ← localSide s c scr get loc n
  let bytes := if get then [] else readLocal s c side
  .ok ((lineRuns 300 va 0 n).map fun r => {
    dest := ptrIsl p, op := if get then .getReq else .put, addr := (va + r.1) % 2 ^ 52, n := r.2,
    payload := (bytes.drop r.1).take r.2, och := och, dst := (side.1, (side.2.drop r.1).take r.2) })

/-- R412: PUT.BLK; its source is read after the split's earlier accesses have performed. -/
def execPutBlk (h : Head) (scr : Bool) (och : Option Nat) (a : Src) (b : Option Src) (s : State) : Out :=
  issue s h .sca (a :: b.toList ++ dataSrcs true h.d 2) fun c => c.memory s true fun _ => settled do
    let rs ← blockReqs s c h scr och a b false
    .ok (.done (startRemote s c (c.op s h true .none .put) och rs) [])

/-- R413: GET. -/
def execGet (h : Head) (scr : Bool) (och : Option Nat) (a : Src) (b : Option Src) (s : State) : Out :=
  issue s h .sca (a :: b.toList ++ dataSrcs true h.d 2) fun c => c.memory s false fun _ => settled do
    let rs ← blockReqs s c h scr och a b true
    .ok (.done (startRemote s c (c.op s h true .none .get) och rs) [])

/-! ### Remote atomics -/

/-- R32: a remote atomic as a packet carries it, in one flit: operation, type, operand and compare value (log entry 30). -/
def stepBytes (op : AOp) (ty : Ty) (b cmp : W64) : List Byte :=
  [BitVec.ofNat 8 op.code, BitVec.ofNat 8 ty.code] ++ leBytes 8 b.toNat ++ leBytes 8 cmp.toNat

/-- R414: RATOM and RRED. -/
def ratomBody (s : State) (c : Issue) (h : Head) (red : Bool) (ty : Ty) (op : AOp) (och : Option Nat) (a b : Src) : Body :=
  c.memory s false fun _ => settled do
    let size := ty.bits / 8
    let ps := remoteParts s c a none
    checkAligned size (ps.map (·.2.2))
    checkPtrs (ps.map (·.2.1))
    checkDests s c och (ps.map (·.2.1))
    let rs := ps.map fun p => ({
      dest := ptrIsl p.2.1, op := if red then .rred else .ratom, addr := p.2.2, n := size
      payload := stepBytes op ty (atomB s c false ty b p.1) (atomCmp s c h false ty op p.1), och := och
      dst := (.global, []), lane := p.1 } : RemoteReq)
    let o := if red then c.op s h false .none .rred
      else c.op s h false (.vec h.d (valueRegs false ty false)) (.ratom ty)
    .ok (.done (startRemote s c o och rs) [])

/-- R414: RATOM. -/
def execRatom (h : Head) (ty : Ty) (op : AOp) (och : Option Nat) (a b : Src) (s : State) : Out :=
  issue s h .vec (atomSrcs false h ty op a b) fun c => ratomBody s c h false ty op och a b

/-- R414: RRED. -/
def execRred (h : Head) (ty : Ty) (op : AOp) (och : Option Nat) (a b : Src) (s : State) : Out :=
  issue s h .vec (pairSrc a ++ srcsI ty b) fun c => ratomBody s c h true ty op och a b

/-! ### NOTIFY -/

/-- R282: the remote writes. -/
def Op.isRemoteWrite (o : Op) : Bool :=
  match o.act with
  | .put | .rred | .ratom _ => true
  | _ => false

/-- R411, R415: NOTIFY and NOTIFY.REL after their waits. -/
def notifyBody (s : State) (c : Issue) (h : Head) (och : Option Nat) (a b : Src) : Body :=
  settled do
    let p := (rd64 s c (uS 1) a 0).toNat
    checkAligned 8 [ptrVa p]
    checkPtrs [p]
    checkDests s c och [p]
    let n := (rd64 s c (uS 2) b 0).toNat % 65536
    .ok (deliverFailure s c fun _ =>
      .done (startRemote s c (c.op s h true .none .notify) och (if n = 0 then [] else [{
        dest := ptrIsl p, op := .notify, addr := ptrVa p, n := 0, payload := [], och := och, dst := (.global, [])
        count := n }])) [])

/-- R415: NOTIFY. -/
def execNotify (h : Head) (och : Option Nat) (a b : Src) (s : State) : Out :=
  issue s h .sca [a, b] fun c => c.memory s false fun _ => notifyBody s c h och a b

/-- R282, R415: NOTIFY.REL waits for every local access and every remote write of its split. -/
def execNotifyRel (h : Head) (och : Option Nat) (a b : Src) (s : State) : Out :=
  issue s h .sca [a, b] fun c => c.memory s true fun _ =>
    if s.core.ops.any fun o => o.heldBy c.th && o.isRemoteWrite then .stall else notifyBody s c h och a b

/-! ### Channels and RFENCE -/

/-- R410: OCHOPEN. -/
def execOchopen (h : Head) (a b : Src) (s : State) : Out :=
  issue s h .sca [a, b] fun c => c.memory s false fun _ =>
    let isl := (rd64 s c (uS 1) a 0).toNat
    let ch := (rd64 s c (uS 2) b 0).toNat
    if !present s isl then .trap .islandAbsent (w64 isl)
    else if 15 < ch then .trap .channel (chanTval ch isl 5)
    else if (c.chan? s ch).isSome then .trap .channel (chanTval ch isl 3)
    else
      let s' := { s with fab := { s.fab with
        chans := s.fab.chans.set (chanKey c.isl c.team ch) ⟨isl, true, false, false, 1, 0⟩ } }
      .done (startRemote s' c (c.op s h true .none (.ochopen isl ch)) (some ch) [{
        dest := isl, op := .ochReset, addr := 0, n := 0, payload := [], och := some ch, dst := (.global, []) }]) []

/-- R410: OCHCLOSE; it closes the channel itself unless another is closing it. -/
def execOchclose (h : Head) (b : Src) (s : State) : Out :=
  issue s h .sca [b] fun c => c.memory s false fun _ =>
    let ch := (rd64 s c (uS 2) b 0).toNat
    if 15 < ch then .trap .channel (chanTval ch 0 5)
    else
      match c.chan? s ch with
      | none => .trap .channel (chanTval ch 0 4)
      | some x =>
        let s' := modChan s c.isl c.team ch fun x => { x with closing := true }
        .done (startOp s' c { c.op s h true .none (.ochclose ch) with waiting := (!x.closing).toNat }) []

/-- R280, R416: RFENCE waits for the split's remote operations and delivers its failure record. -/
def execRfence (h : Head) (s : State) : Out :=
  issue s h .sca [] fun c => c.memory s false fun _ =>
    if s.core.ops.any fun o => o.heldBy c.th && o.remote then .stall
    else deliverFailure s c fun _ => plainOp s s c h

end Sys2Proof.Machine
end

