-- ==== Sys2Proof/Machine/Topology.lean ====
section
/-! DEFINITION. The waveguides of the panel (R25, R27, R28): which port faces which, the state of their links (R45), and
LINKST (R42). -/

namespace Sys2Proof.Machine

open Sys2Proof

/-- R3: the island of a row and column. -/
def siteOf (row col : Nat) : Nat := row % 4 * 6 + col % 6

/-- R28: the displacement (rows, columns) of pair `m` in position `k`, modulo 4 and 6. -/
def displacement (m k : Nat) : Nat × Nat :=
  match m, k with
  | 0, 0 => (0, 2)
  | 0, 1 => (0, 3)
  | 0, 2 => (1, 1)
  | 0, _ => (2, 2)
  | 1, 0 => (2, 0)
  | 1, 1 => (1, 2)
  | 1, 2 => (1, 5)
  | 1, _ => (2, 3)
  | 2, 0 => (0, 1)
  | 2, 1 => (1, 0)
  | 2, 2 => (2, 1)
  | 2, _ => (1, 3)
  | _, 0 => (1, 0)
  | _, 1 => (0, 1)
  | _, 2 => (2, 3)
  | _, _ => (1, 4)

/-- R25, R27, R28: the end that a port faces under an express code; none for a number that is no port. -/
def farEnd (code : Nat) (e : LinkEnd) : Option LinkEnd :=
  let row := e.node / 6
  let col := e.node % 6
  if e.node = 31 then (if e.port < 24 then some ⟨e.port / 4, e.port % 4⟩ else none)
  else if 24 ≤ e.node ∨ 24 ≤ e.port then none
  else if e.port < 4 then
    if row = 0 then some ⟨31, 4 * col + e.port⟩ else some ⟨siteOf (row - 1) col, 8 + e.port⟩
  else if e.port < 8 then some ⟨siteOf row (col + 1), 8 + e.port⟩
  else if e.port < 12 then
    if row = 3 then some ⟨siteOf 3 (col + 3), e.port⟩ else some ⟨siteOf (row + 1) col, e.port - 8⟩
  else if e.port < 16 then some ⟨siteOf row (col + 5), e.port - 8⟩
  else
    let m := (e.port - 16) / 2
    let d := displacement m (nbits code (2 * m + 1) (2 * m))
    if e.port % 2 = 0 then some ⟨siteOf (row + d.1) (col + d.2), e.port + 1⟩
    else some ⟨siteOf (row + 4 - d.1) (col + 6 - d.2), e.port - 1⟩

/-- The end at which a link is kept: the lower one. -/
def canonEnd (code : Nat) (e : LinkEnd) : LinkEnd :=
  match farEnd code e with
  | some f => if f.node < e.node ∨ (f.node = e.node ∧ f.port < e.port) then f else e
  | none => e

/-- R52: the express code by which the waveguides are joined now: that of a switch under way once its ports have moved. -/
def codeNow (s : State) : Nat :=
  match s.fab.toposet with
  | some t => if t.phase = .retrain then t.code else s.fab.xcode
  | none => s.fab.xcode

/-- A link that is DOWN since a hub time, with or without a cause to train. -/
def downLink (since : Nat) (cause : Bool) : Link := ⟨.down, since, cause, none, none, none, none, none⟩

/-- R45: the link at a port. -/
def linkAt (s : State) (e : LinkEnd) : Link := s.fab.links.getD (canonEnd (codeNow s) e) (downLink 0 false)

/-- R45: the link at a port is UP. -/
def linkUp (s : State) (e : LinkEnd) : Bool := (linkAt s e).st == .up

/-- R45: change the link at a port. -/
def modLink (s : State) (e : LinkEnd) (f : Link → Link) : State :=
  let k := canonEnd (codeNow s) e
  { s with fab := { s.fab with links := s.fab.links.set k (f (s.fab.links.getD k (downLink 0 false))) } }

/-- R42: the bit of a node in an island's view; its own is set once a view has been published. -/
def reachBit (s : State) (isl n : Nat) : Bool :=
  if isl = n then (s.fab.views.get? (isl, 24)).isSome else reaches s isl n

/-- R42: LINKST of an island. -/
def linkst (s : State) (isl : Nat) : Nat :=
  let ports := (List.range 24).map fun p => (⟨isl, p⟩ : LinkEnd)
  let quiesce := s.fab.quiesce.contains isl
  let mism := ports.any fun e => (linkAt s e).st == .mismatch
  let ucie := (s.fab.ucieDown.get? isl).isNone
  let pdown := (ports.filter fun e => !linkUp s e).length
  let reach := (List.range 24).foldl (fun a n => if reachBit s isl n then a + 2 ^ n else a) 0
  quiesce.toNat * 2 ^ 42 + mism.toNat * 2 ^ 41 + ucie.toNat * 2 ^ 40 + pdown * 2 ^ 32 + (reaches s isl 24).toNat * 2 ^ 24 +
    reach

end Sys2Proof.Machine
end

