-- ==== Sys2Proof/Machine/System.lean ====
section
/-! DEFINITION. Chapter 16: decision queues (R439, R171, R172), special registers (R443), SLEEP and SAFEPT (R444, R445). -/

namespace Sys2Proof.Machine

open Sys2Proof

/-! ### Decision queues -/

/-- R171: the gaffer context of a team on a core. -/
def gafferOf (t : Team) (isl team core : Nat) : Member := ⟨isl, team, true, core - t.c0⟩

/-- R172: the queue of a context is closed: the context has ended, or the team has none. -/
def dqClosed (s : State) (g : Member) : Bool := ((s.member? g).map fun r => r.course == .ended).getD true

/-- R171: a decision queue. -/
def dqOf (s : State) (g : Member) : List W64 := s.core.dq.getD g []

/-- R213: the first entry of a decision queue leaves it, and the marks of poison follow their entries. -/
def dropHead (s : State) (g : Member) : State :=
  let mark (l : Loc) : Option Loc :=
    match l with
    | .dq m (i + 1) => some (if m = g then .dq m i else l)
    | .dq m 0 => if m = g then none else some l
    | l => some l
  { s with mem := { s.mem with poison := s.mem.poison.filterMap mark } }

/-- R171: replace a decision queue; the bivouac entry is free again once one entry less than the capacity is held (R149). -/
def setDq (s : State) (g : Member) (q : List W64) : State :=
  let r := s.core.dqCairn.getD g (0, false)
  { s with core := { s.core with
      dq := s.core.dq.set g q
      dqCairn := if r.2 && q.length ≤ 63 then s.core.dqCairn.set g (r.1, false) else s.core.dqCairn } }

/-- R172: the word DQSTAT returns. -/
def dqWord (s : State) (g : Member) : W64 :=
  let r := s.core.dqCairn.getD g (0, false)
  w64 (min r.1 0xFFFF * 2 ^ 48 + r.2.toNat * 2 ^ 47 + (dqClosed s g).toNat * 2 ^ 46 + (dqOf s g).length % 128)

/-- R439: PUSHDQ; the entry is in the queue at its completion. -/
def execPushdq (h : Head) (a : Src) (s : State) : Out :=
  issue s h .sca [a] fun c => c.memory s true fun _ =>
    .done (startOp s c (c.op s h true .none (.pushdq (rd64 s c (uS 1) a 0)))) []

/-- R439: POPDQ; it acquires on every return. -/
def execPopdq (h : Head) (pr : Nat) (s : State) : Out :=
  issue s h .sca [] fun c => c.memory s false fun _ =>
    .done (startOp s c { c.op s h true (.sca h.d 1) (.popdq pr) with lanes := c.active, acq := true }) []

/-- R439: DQSTAT; the word is read at its completion. -/
def execDqstat (h : Head) (s : State) : Out :=
  issue s h .sca [] fun c =>
    if c.exec = 0 then .done s [] else .done (startOp s c (c.op s h true (.sca h.d 1) .dqstat)) []

/-! ### Special registers -/

/-- R211: the command that a matrix engine performs writes a bank: it is no NOP, and has not failed before any word. -/
def MatRun.writesBank (s : State) (r : MatRun) : Bool :=
  match r.entry with
  | .instr .. => true
  | .record ref => s.eng.recs.any fun x => x.ref == ref && nbits x.bits 63 56 != 0 && (x.res.isNone || !r.writes.isEmpty)

/-- R211: AMSTAT of a team on a core. -/
def amstat (s : State) (isl core team : Nat) : Nat :=
  let a := amOf s isl core team
  let busy := (s.mem.am.any fun x => x.isl == isl && x.core == core && x.team == team && x.pending) ||
    ((s.eng.matRun.get? (isl, core)).map fun r => r.entry.ofTeam s team && r.writesBank s).getD false
  (a.map (·.first)).getD 0 * 2 ^ 16 + (a.map (·.count)).getD 0 * 2 ^ 8 + busy.toNat * 2 +
    (s.mem.ur.contains (isl, core, team)).toNat

/-- R140: the aging interval of a partition, in core clocks. -/
def ageiOf (s : State) (part : Nat) : Nat := 2 ^ ((s.par.parts.get? part).map (·.agei)).getD 21

/-- R141: an entry has been passed over for a whole aging interval. -/
def QEntry.held (s : State) (q : QEntry) : Bool :=
  match q.passed with
  | some t => ageiOf s q.part ≤ s.clk q.isl - t
  | none => false

/-- R179: PRESSURE. -/
def pressure (s : State) (isl part : Nat) : Nat :=
  let q := queueOf s isl part
  let waited (n : Nat) : Bool := q.any fun e => n < s.clk isl - e.task.stamp
  if q.any (·.held s) then 3
  else if waited (ageiOf s part / 2) then 2
  else if waited (ageiOf s part / 4) then 1
  else 0

/-- R443: the special registers whose values change on their own, read at completion. -/
def sysLive (s : State) (m : Member) (core reg : Nat) : Option Nat :=
  let part := ((s.team? m.isl m.team).map (·.part)).getD 0
  match reg with
  | 0x07 => some (s.clk m.isl)
  | 0x08 => some (linkst s m.isl)
  | 0x09 => some (s.fab.topogen % 2 ^ 32)
  | 0x13 => some (((s.member? m).map (·.fstat.toNat)).getD 0)
  | 0x14 => some (amstat s m.isl core m.team)
  | 0x18 => some (spanFree s m.isl m.team)
  | 0x19 => some (pressure s m.isl part)
  | 0x1A => some (((s.team? m.isl m.team).map (·.tokseq)).getD 0)
  | _ => none

/-- R443: the special registers of the issuing split or context, read at issue. -/
def sysFixed (c : Issue) (reg : Nat) : W64 :=
  match reg with
  | 0x00 => if c.gaffer then 0 else w64 c.low
  | 0x01 => if c.gaffer then 0xFFFF else w64 c.th.m.idx
  | 0x02 => w64 c.team
  | 0x03 => w64 c.core
  | 0x04 => w64 (c.core / 8)
  | 0x05 => w64 c.isl
  | 0x06 => w64 c.part
  | 0x10 => c.r.tcause
  | 0x11 => c.r.epc
  | 0x12 => c.r.tval
  | _ => 0

/-- R443: SYSRD. -/
def execSysrd (h : Head) (reg : Nat) (s : State) : Out :=
  issue s h .sca [] fun c =>
    if c.exec = 0 then .done s []
    else
      let act := if (sysLive s c.th.m c.core reg).isSome then OpAct.sysrd reg else .value [sysFixed c reg] 0
      .done (startOp s c (c.op s h true (.sca h.d 1) act)) []

/-- R443: SYSWR to a register that is read only. -/
def execSyswr (h : Head) (reg : Nat) (a : Src) (s : State) : Out :=
  issue s h .sca [a] fun c => if c.exec = 0 then .done s [] else .trap .permission (w64 reg)

/-- R182, R443: SYSWR to EPC, inside a handler only. -/
def execSyswrEpc (h : Head) (a : Src) (s : State) : Out :=
  issue s h .sca [a] fun c =>
    if c.exec = 0 then .done s []
    else if !c.r.handler then .trap .permission 0x11
    else .done (s.setThread c.th { c.r with epc := rd64 s c (uS 1) a 0, epcSet := true }) []

/-- R250, R443: SYSWR to FSTAT clears the bits written as 1. -/
def execSyswrFstat (h : Head) (a : Src) (s : State) : Out :=
  issue s h .sca [a] fun c =>
    if c.exec = 0 then .done s []
    else .done (s.setMember c.th.m { c.mr with fstat := c.mr.fstat &&& ~~~(rd64 s c (uS 1) a 0) }) []

/-- R211, R443: SYSWR to AMSTAT clears UR where bit 0 is written as 1. -/
def execSyswrAmstat (h : Head) (a : Src) (s : State) : Out :=
  issue s h .sca [a] fun c =>
    if c.exec = 0 ∨ !(rd64 s c (uS 1) a 0).getLsbD 0 then .done s []
    else .done { s with mem := { s.mem with ur := s.mem.ur.filter (· ≠ (c.isl, c.core, c.team)) } } []

/-! ### SLEEP and SAFEPT -/

/-- R444: SLEEP takes effect at the end of its clause. -/
def execSleep (h : Head) (a : Src) (s : State) : Out :=
  issue s h .sca [a] fun c =>
    if c.exec = 0 then .done s []
    else .done (s.setThread c.th { c.r with ends := c.r.ends ++ [.sleep (rd64 s c (uS 1) a 0).toNat] }) []

/-- R445: SAFEPT takes effect at the end of its clause. -/
def execSafept (h : Head) (id : Nat) (s : State) : Out :=
  issue s h .sca [] fun c =>
    if c.exec = 0 then .done s []
    else .done (s.setThread c.th { c.r with ends := c.r.ends ++ [.safept id] }) []

end Sys2Proof.Machine
end

