-- ==== Sys2Proof/Machine/Complete.lean ====
section
/-! DEFINITION. The completion of outstanding operations (R161, VARIABLE_LATENCY_COMPLETION): when one may complete, and
what its completion does. -/

namespace Sys2Proof.Machine

open Sys2Proof

/-! ### Waits -/

/-- R400: the timeout of an MWAIT has expired. -/
def mwaitExpired (s : State) (o : Op) : Bool :=
  match o.act with
  | .mwait (some d) _ => d ≤ s.clk o.m.isl
  | _ => false

/-- R276, R400: an MWAIT has a stated reason to return: no watch, a write or lost watch, an open request. -/
def mwaitReady (s : State) (o : Op) (nowatch : Bool) : Bool :=
  nowatch || watchHit s o || requested s o.m.isl o.m.team

/-- R171: the decision queue that an operation pops: that of the gaffer context on its core. -/
def Op.queue (s : State) (o : Op) : Member :=
  match s.team? o.m.isl o.m.team with
  | some t => gafferOf t o.m.isl o.m.team o.core
  | none => ⟨o.m.isl, o.m.team, true, 0⟩

/-- R410: another operation of the team still uses a channel. -/
def chanUsed (s : State) (o : Op) (ch : Nat) : Bool :=
  s.core.ops.any fun p => p.id != o.id && p.m.isl == o.m.isl && p.m.team == o.m.team && p.chan == some ch

/-- R410: the channel is being closed. -/
def chanClosing (s : State) (o : Op) (ch : Nat) : Bool :=
  ((s.fab.chans.get? (chanKey o.m.isl o.m.team ch)).map (·.closing)).getD false

/-- R171: pushes of one context enter its queue in order. -/
def pushTurn (s : State) (o : Op) : Bool :=
  (s.core.ops.takeWhile (·.id != o.id)).all fun p => !(p.m == o.m && (match p.act with
    | .pushdq _ => true
    | _ => false))

/-- R225: the matrix engine performs the operation, and has computed all its rows. -/
def matRunning (s : State) (o : Op) : Bool :=
  ((s.eng.matRun.get? (o.m.isl, o.core)).map fun r => match r.entry with
    | .instr id _ job => id == o.id && job.height ≤ r.rows
    | .record _ => false).getD false

/-- An outstanding operation may complete; a POPDQ of a team that is ending never does (R187). -/
def Op.ready (s : State) (o : Op) : Bool :=
  o.allDone && match o.act with
  | .append .. => ((o.append?).map fun a => appendTurn s o a && a.fits s).getD true
  | .pushdq _ => pushTurn s o && (dqOf s o.m).length < 64
  | .popdq _ => !((s.team? o.m.isl o.m.team).any (·.ending.isSome)) &&
      (!(dqOf s (o.queue s)).isEmpty || dqClosed s (o.queue s))
  | .matrix _ => matRunning s o
  | .seal pages dropped => dropped && !pagesBusy s o.m.isl pages true
  | .unseal _ dropped => dropped
  | .mwait _ nowatch => mwaitReady s o nowatch
  | .barwait .. => !o.holds s
  | .put | .get | .ratom _ | .rred | .notify | .ochopen .. => o.waiting == 0
  | .ochclose ch => if o.waiting = 0 then !chanClosing s o ch else !chanUsed s o ch
  | _ => true

/-! ### Completions -/

/-- An operation completes with a result. -/
def finishWith (s : State) (o : Op) (v : W64) : State := finishOp s { o with act := .value [v] 0 }

/-- R439: POPDQ takes an entry, or nothing from a closed queue: the state, and the result word. -/
def popEffect (s : State) (o : Op) (pr : Nat) : State × W64 :=
  let g := o.queue s
  match dqOf s g with
  | v :: q => (writeP (setDq (dropHead s g) g q) o.m pr o.lanes 0xFFFFFFFF, v)
  | [] => (writeP s o.m pr o.lanes 0, 0)

/-- R213: a poisoned entry leaves the register that takes it poisoned (log entry 29). -/
def poisonResult (s : State) (o : Op) : State :=
  match o.dst with
  | .sca d _ => if o.k ∨ o.lanes = 0 then s else { s with mem := { s.mem with poison := .sreg o.m d :: s.mem.poison } }
  | _ => s

/-- R439: POPDQ completes. -/
def completePop (s : State) (o : Op) (pr : Nat) : State :=
  let bad := s.mem.poison.contains (.dq (o.queue s) 0)
  let r := popEffect s o pr
  let s := finishWith r.1 o r.2
  if bad then poisonResult s o else s

/-- R213: the words that a spoilt matrix instruction writes are poisoned (log entry 29). -/
def spoilWords (s : State) (isl core : Nat) (ws : List (Nat × Nat)) : State :=
  { s with mem := { s.mem with poison := ws.map (fun w => Loc.acc isl core w.1 w.2) ++ s.mem.poison } }

/-- R212, R225: the entry that a matrix engine performs is done: its words stand in the banks, and the engine is free. -/
def matrixDone (s : State) (isl core : Nat) : State :=
  match s.eng.matRun.get? (isl, core) with
  | none => s
  | some r =>
    let ws := r.writes.filter fun w => !r.passed.contains w.1
    let s := spoilWords (accPut s isl core ws) isl core (if r.bad then ws.map (·.1) else [])
    { s with eng := { s.eng with matRun := s.eng.matRun.erase (isl, core) } }

/-- R425: a matrix instruction completes. -/
def completeMatrix (s : State) (o : Op) : State :=
  releaseBanks (finishOp (matrixDone s o.m.isl o.core) o) o.m.isl o.core o.m.team

/-- R410: OCHCLOSE completes: the channel is closed. -/
def completeClose (s : State) (o : Op) (ch : Nat) : State :=
  let s := if o.waiting = 0 then s
    else { s with fab := { s.fab with chans := s.fab.chans.erase (chanKey o.m.isl o.m.team ch) } }
  finishOp s o

/-- R435: CHPUT or CHADV is taken up by the append unit: it completes, or has bound its chain and blocks. -/
def completeAppend (s : State) (o : Op) (force : Bool) : State :=
  match o.append? with
  | none => finishWith s o 0
  | some a =>
    match appendStep s a force with
    | (s', some v) => finishWith s' o v
    | (s', none) => s'

/-- R272: the issuing core's L1 keeps no copy older than what an operation writes at the home bank, as a write of that core
that bypasses L1 leaves none (R195). -/
def forgetL1 (s : State) (o : Op) (pa n : Nat) : State := { s with mem := s.mem.dropStale o.m.isl o.core pa n }

/-- R162: what an operation makes of the state and its result word, before that lands; none where the two are one. -/
def effect (s : State) (o : Op) : Option (State × W64) :=
  match o.act with
  | .sysrd reg => some (s, w64 ((sysLive s o.m o.core reg).getD 0))
  | .dqstat => some (s, dqWord s (o.queue s))
  | .spawn va pa khdr frame join prio => some (spawnEffect (forgetL1 s o pa 64) o.m.isl o.part va pa khdr frame join prio)
  | .popdq pr => if s.mem.poison.contains (.dq (o.queue s) 0) then none else some (popEffect s o pr)
  | .append .. =>
    match (o.append?).map fun a => appendStep s a false with
    | some (s', some v) => some (s', v)
    | _ => none
  | .mwait _ nowatch => some (disarm s o, mwaitCause s o nowatch (mwaitExpired s o))
  | _ => none

/-- R162: an operation that may complete takes its effect, and its result is one that an early read may see. -/
def early (s : State) (o : Op) : Option State :=
  if !o.ready s then none
  else (effect s o).map fun r => setOp r.1 { o with act := .value [r.2] 0 }

/-- R161: the completion of an operation that may complete. -/
def complete (s : State) (o : Op) : State :=
  match o.act with
  | .sysrd reg => finishWith s o (w64 ((sysLive s o.m o.core reg).getD 0))
  | .append .. => completeAppend s o false
  | .spawn va pa khdr frame join prio =>
    let r := spawnEffect (forgetL1 s o pa 64) o.m.isl o.part va pa khdr frame join prio
    finishWith r.1 o r.2
  | .joindec va pa n =>
    finishOp (joinDecrement (forgetL1 s o pa 8) o.m.isl o.part va pa n).1 o
  | .pushdq v => finishOp (setDq s o.m (dqOf s o.m ++ [v])) o
  | .popdq pr => completePop s o pr
  | .dqstat => finishWith s o (dqWord s (o.queue s))
  | .matrix _ => completeMatrix s o
  | .seal pages _ => finishOp (dropPages s o.m.isl pages) o
  | .unseal pages _ => finishOp (loseWatches (dropPages s o.m.isl pages) o.m.isl (inPages pages)) o
  | .monitor pa => finishOp (arm s o pa) o
  | .mwait _ nowatch => returnMwait s o nowatch (mwaitExpired s o)
  | .put | .get | .ratom _ | .rred | .notify | .ochopen .. => finishRemote s o
  | .ochclose ch => completeClose s o ch
  | _ => finishOp s o

/-! ### The event -/

/-- The operation that the event under way names. -/
def occOp (s : State) : Option Op :=
  match s.occ with
  | .op id => s.op? id
  | _ => none

/-- An event that cannot take place. -/
def idle (m : String) : Out := .refused (.notEnabled m)

/-- An event on an operation that meets a condition. -/
def opEvent (s : State) (m : String) (p : Op → Bool) (f : Op → State) : Out :=
  match occOp s with
  | none => idle m
  | some o => if p o then .next (commit s (f o)) else idle m

/-- R161: VARIABLE_LATENCY_COMPLETION. -/
def execVariableLatencyCompletion (s : State) : Out :=
  opEvent s "VARIABLE_LATENCY_COMPLETION" (·.ready s) (complete s)

/-- R400: MWAIT_TIMEOUT. -/
def execMwaitTimeout (s : State) : Out :=
  opEvent s "MWAIT_TIMEOUT" (mwaitExpired s) fun o =>
    match o.act with
    | .mwait _ nowatch => returnMwait s o nowatch true
    | _ => s

/-- R276: MWAIT_RETURN_NO_REASON. -/
def execMwaitReturnNoReason (s : State) : Out :=
  opEvent s "MWAIT_RETURN_NO_REASON" (fun o => match o.act with
    | .mwait .. => true
    | _ => false) fun o =>
    match o.act with
    | .mwait _ nowatch => returnMwait s o nowatch (mwaitExpired s o)
    | _ => s

end Sys2Proof.Machine
end

