-- ==== Sys2Proof/Machine/Paths.lean ====
section
/-! DEFINITION. The paths of a strand: the merging of splits (R166, R167) and the popping of the split stack (R164). -/

namespace Sys2Proof.Machine

open Sys2Proof

/-! ### Merging -/

/-- R166: a split stands at a clause boundary. A split in a trap handler stays apart, since RTE returns it to its own shadow
(R182; log entry 26). -/
def ThreadRec.atBoundary (r : ThreadRec) : Bool := r.clause.isNone && r.ends.isEmpty && !r.handler

/-- R166, R167: two splits merge: they stand before the same clause. -/
def mergeable (r q : ThreadRec) : Bool := r.atBoundary && q.atBoundary && r.pc == q.pc

/-- The later of two times, where either is set. -/
def laterOf (a b : Option Nat) : Option Nat :=
  match a, b with
  | some x, some y => some (max x y)
  | none, b => b
  | a, none => a

/-- R166: what holds back a merged split: every reason that held back either (log entry 26). -/
def Wait.union (a b : Wait) : Wait :=
  { join := a.join.orElse fun _ => b.join
    yielded := laterOf a.yielded b.yielded
    asleep := laterOf a.asleep b.asleep
    parked := a.parked.orElse fun _ => b.parked
    stalled := false
    replay := a.replay.orElse fun _ => b.replay
    portless := false }

/-- R416: the failure record of two merged splits. -/
def mergeFail (f g : Option FailRec) : Option FailRec :=
  match f, g with
  | some f, some g =>
    let e := if f.first ≤ g.first then f else g
    some { e with ops := f.ops ++ g.ops.filter fun o => !f.ops.contains o, sat := f.sat || g.sat }
  | none, g => g
  | f, none => f

/-- R166: an operation of split `b` passes to split `a` of a strand; one that both hold is held once. -/
def Op.merged (o : Op) (m : Member) (a b : Nat) : Op :=
  if o.m ≠ m then o
  else { o with
    holders := if o.holders.any (·.1 == a) then o.holders.filter (·.1 != b)
      else o.holders.map fun x => if x.1 = b then (a, x.2) else x
    path := if o.path.contains (b, 0) && !o.path.contains (a, 0) then (a, 0) :: o.path else o.path }

/-- R161: the operations that count on a scoreboard of a path. -/
def sbCount (s : State) (m : Member) (n sb : Nat) : Nat :=
  (s.core.ops.filter fun o => o.m == m && o.holders.contains (n, sb)).length

/-- R166: split `u` merges into split `t` of its strand. Which of the two gives the trap registers and the watch of the
merged split is open (log entry 2). Its last clause start, for R115 and R153, is that of the split that stays, where it has
one. The spec does not say what a merge does that leaves more than 63 operations on a scoreboard: in the model all of them
count, and the scoreboard takes no further one until it falls below 63 (R161; log entry 26). -/
def mergeSplits (s : State) (t u : Thread) (r q : ThreadRec) : State :=
  let ops := s.core.ops.map fun (o : Op) => o.merged t.m t.split u.split
  let s := { s with core := { s.core with ops := ops, threads := s.core.threads.erase u } }
  let x := if Config.freeBit s.free (u.split * 2) then r else q
  let w := if Config.freeBit s.free (u.split * 2 + 1) then r else q
  s.setThread t { r with
    mask := r.mask ||| q.mask
    wait := r.wait.union q.wait
    sb := (List.range 7).map (sbCount s t.m t.split)
    fail := mergeFail r.fail q.fail
    tcause := x.tcause, tval := x.tval, epc := x.epc
    watch := w.watch
    lastStart := if r.lastStart = 0 then q.lastStart else r.lastStart
    lastClk := if r.lastStart = 0 then q.lastClk else r.lastClk }

/-- R166: the first other split that a split merges with. -/
def mergePartner (s : State) (t : Thread) (r : ThreadRec) : Option (Thread × ThreadRec) :=
  (s.splits t.m).find? fun e => e.1 != t && mergeable r e.2

/-- R166: a split merges with every other that stands where it stands; a strand has at most four. -/
def mergeAt : Nat → State → Thread → State
  | 0, s, _ => s
  | n + 1, s, t =>
    match s.thread? t with
    | none => s
    | some r =>
      match mergePartner s t r with
      | none => s
      | some e => mergeAt n (mergeSplits s t e.1 r e.2) t

/-! ### Popping -/

/-- R164: a strand has room for a pushed path. -/
def mayPop (s : State) (m : Member) (mr : MemberRec) : Bool :=
  liveSplits s m == 0 || (decide (liveSplits s m < 4) && decide (0 < freePool s m.isl mr.core mr.bay))

/-- R164: the most recent stack entry of a strand becomes a live split where there is room. -/
def popOne (s : State) (m : Member) : State :=
  match s.member? m with
  | none => s
  | some mr =>
    match mr.stack with
    | [] => s
    | (n, r) :: rest =>
      if mayPop s m mr then (s.setMember m { mr with stack := rest }).setThread ⟨m, n⟩ r else s

/-- R166: the paths of a strand merge where they meet. -/
def mergePaths (s : State) (m : Member) : State :=
  if m.gaffer then s else (s.splits m).foldl (fun s e => mergeAt 4 s e.1) s

/-- R164, R166: the paths of a strand merge where they meet, and stack entries are popped while there is room. -/
def settlePaths (s : State) (m : Member) : State :=
  if m.gaffer then s else (List.range 4).foldl (fun s _ => popOne s m) (mergePaths s m)

/-- R164, R166: a merge or a pop of a strand is due. -/
def settleDue (s : State) (m : Member) (mr : MemberRec) : Bool :=
  !m.gaffer && ((!mr.stack.isEmpty && mayPop s m mr) || (s.splits m).any fun e => (mergePartner s e.1 e.2).isSome)

/-- The strands of a bay. -/
def bayStrands (s : State) (isl core bay : Nat) : List Member :=
  (s.core.members.filter fun e => e.1.isl == isl && !e.1.gaffer && e.2.core == core && e.2.bay == bay).map (·.1)

/-- R187: the merges that are due in a bay. -/
def mergeBay (s : State) (isl core bay : Nat) : State := (bayStrands s isl core bay).foldl mergePaths s

/-- R164, R187: the merges and pops that are due in a bay; a merge in one strand may free the entry of a pop in another. -/
def settleBay (s : State) (isl core bay : Nat) : State :=
  let ms := bayStrands s isl core bay
  ms.foldl settlePaths (ms.foldl settlePaths s)

end Sys2Proof.Machine
end

