-- ==== Sys2Proof/Machine/Clauses.lean ====
section
/-! DEFINITION. Issue ports and the start of a clause (R153, R154, R159, R298), and the ends of waits (R354, R444). -/

namespace Sys2Proof.Machine

open Sys2Proof

/-! ### Eligibility -/

/-- R144: a gaffer context has issued its first clause. -/
def openedBy (s : State) (g : Member) (r : MemberRec) : Bool :=
  r.opened || (r.issued && ((s.thread? ⟨g, 0⟩).map (·.clause.isNone)).getD true)

/-- R144, R176: the member may issue its first clause: its memberships have taken effect, and the gaffer context of its core
has issued its own. -/
def mayBegin (s : State) (m : Member) (mr : MemberRec) (t : Team) : Bool :=
  mr.issued || m.gaffer ||
    (mr.groups.all (·.2) && (match s.member? (gafferOf t m.isl m.team mr.core) with
      | some g => openedBy s (gafferOf t m.isl m.team mr.core) g || !g.live
      | none => true))

/-- R167: a split held by JOIN may go on: every other live split of its strand is held there and no path is pushed. -/
def joinOpen (s : State) (t : Thread) (mr : MemberRec) (x : Nat) : Bool :=
  mr.stack.isEmpty && (s.splits t.m).all fun e => e.1 == t || e.2.wait.join == some x

/-- R159: the wait mask of a clause header, bits [54:48], and its bit 55. -/
def waitsFor (s : State) (t : Thread) (r : ThreadRec) (hdr : Nat) : Bool :=
  ((List.range 7).any fun i => nbit hdr (48 + i) && r.sb.getD i 0 != 0) ||
    (nbit hdr 55 && s.core.ops.any fun o => o.heldBy t && o.mem)

/-- R406: another split of the strand stands at a DETACH. -/
def detaching (s : State) (t : Thread) : Bool :=
  (s.splits t.m).any fun e => e.1 != t && e.2.ends.contains .detach

/-- R153: a split or context may begin a clause, its wait mask apart. -/
def eligible (s : State) (t : Thread) (r : ThreadRec) (mr : MemberRec) (tm : Team) : Bool :=
  r.clause.isNone && r.ends.isEmpty && r.wait.parked.isNone && r.wait.yielded.isNone && r.wait.asleep.isNone &&
    (match r.wait.join with
      | some x => joinOpen s t mr x
      | none => true) &&
    tm.released && tm.ending.isNone && !tm.expired && !tm.stopped && !(saves tm && !mr.issued) && mayBegin s t.m mr tm && !detaching s t &&
    !heldBack s t && (s.fab.fenced.get? t.m.isl).isNone

/-! ### Fetch -/

/-- R298: the words of a clause. -/
def fetchWords (isl part core : Nat) : Nat → Nat → State → Except XErr (State × List W64)
  | 0, _, s => .ok (s, [])
  | n + 1, va, s =>
    match fetchWord s isl part core va with
    | .error e => .error e
    | .ok (s, w) =>
      match fetchWords isl part core n (va + 8) s with
      | .error e => .error e
      | .ok (s, ws) => .ok (s, w64 w :: ws)

/-- R153: the words of the clause at an address stand in the core's instruction cache: it has been fetched (log entry 44). -/
def clauseFetched (s : State) (isl part core va : Nat) : Bool :=
  let held (a : Nat) : Option Nat :=
    match accessBy s isl (.core core) part a 8 .fetch false with
    | .ok (pa, _) => (s.mem.icache.get? (isl, core, pa / 64)).map fun bs => leNat ((bs.drop (pa % 64)).take 8)
    | .error _ => none
  match held va with
  | some hdr => (List.range (nbits hdr 59 56 + 1)).all fun i => (held (va + 8 + 8 * i)).isSome
  | none => false

/-! ### Ports -/

/-- R153, R154: two threads share issue ports: the splits of a bay its four, the gaffer contexts of a core its one. -/
def portMates (a b : Member × MemberRec) : Bool :=
  a.1.isl == b.1.isl && a.2.core == b.2.core && a.1.gaffer == b.1.gaffer && (a.1.gaffer || a.2.bay == b.2.bay)

/-- The other threads that share ports with a thread, with their records. -/
def portRivals (s : State) (t : Thread) (mr : MemberRec) : List (Thread × ThreadRec × MemberRec) :=
  s.core.threads.filterMap fun e =>
    if e.1 = t then none
    else (s.member? e.1.m).bind fun m => if portMates (t.m, mr) (e.1.m, m) then some (e.1, e.2, m) else none

/-- R153: a thread holds a port: it is within its clause and has not given the port up. -/
def ThreadRec.onPort (r : ThreadRec) : Bool := r.clause.isSome && !r.wait.portless

/-- R153, R154: a port of a bay, or the gaffer port of a core, is free for a thread. -/
def portFree (s : State) (t : Thread) (mr : MemberRec) : Bool :=
  decide (((portRivals s t mr).filter (·.2.1.onPort)).length < if t.m.gaffer then 1 else 4)

/-- R153: a thread could start its next clause in this clock: it is eligible, the clause has been fetched, and its wait
mask is satisfied. -/
def couldStart (s : State) (t : Thread) (r : ThreadRec) (mr : MemberRec) : Bool :=
  match s.team? t.m.isl t.m.team with
  | some tm =>
    eligible s t r mr tm && clauseFetched s t.m.isl tm.part mr.core r.pc &&
      match fetchWord s t.m.isl tm.part mr.core r.pc with
      | .ok (_, hdr) => !waitsFor s t r hdr
      | .error _ => false
  | none => false

/-- R153, R154: no thread that shares its ports and could start has waited longer. -/
def longest (s : State) (t : Thread) (r : ThreadRec) (mr : MemberRec) : Bool :=
  (portRivals s t mr).all fun e => r.lastStart ≤ e.2.1.lastStart || !couldStart s e.1 e.2.1 e.2.2

/-! ### The start -/

/-- R123: TOKSEQ: the lowest SEQ among the latest tokens of the slices of a team's span. -/
def spanSeq (s : State) (isl : Nat) (t : Team) : Nat :=
  let slices := (List.range 12).filter fun k => t.c0 / 8 ≤ k && k ≤ (t.c0 + t.n - 1) / 8
  let seqs := slices.map fun k => s.par.scrub.getD (isl, k) 0
  seqs.foldl min (seqs.headD 0)

/-- R115: the interval between clause starts that a start ends, on the lead cluster's cores. -/
def Team.addInterval (t : Team) (core : Nat) (r : ThreadRec) (now : Nat) : Team :=
  if r.lastStart ≠ 0 ∧ core / 4 = t.c0 / 4 then { t with cpc := ((now - r.lastClk) :: t.cpc).take 65536 } else t

/-- R122, R123, R185: the first issue of a team. -/
def Team.firstIssue (t : Team) (s : State) (isl : Nat) : Team :=
  if t.first.isSome then t else { t with first := some (s.clk isl), tokseq := spanSeq s isl t }

/-- R125: the course of a member that issues. -/
def Course.begun : Course → Course
  | .placed | .restoring _ => .running
  | c => c

/-- R153, R159, R160: a thread takes its clause and a port; the first issue of a member acquires (R269). -/
def takeClause (s : State) (t : Thread) (r : ThreadRec) (mr : MemberRec) (tm : Team) (cl : Clause) : State :=
  let now := s.clk t.m.isl
  let s := s.setTeam t.m.isl t.m.team ((tm.addInterval mr.core r now).firstIssue s t.m.isl)
  let s := s.setMember t.m { mr with issued := true, opened := mr.issued, course := mr.course.begun }
  let s := if mr.issued then s else { s with mem := s.mem.acquire t.m.isl mr.core }
  let s := s.setThread t { r with
    clause := some cl, slot := 0, latches := zeroLatches, exited := 0
    wait := { r.wait with join := none, stalled := false, replay := none, portless := false }
    lastStart := s.serial, lastClk := now }
  { s with serial := s.serial + 1, focus := some t }

/-- R297, R298: a thread that may issue reads its next clause: it begins it, waits for its wait mask, traps, or parks; none
when the wait mask holds it. -/
def enterClause (s : State) (t : Thread) (r : ThreadRec) (mr : MemberRec) (tm : Team) : Option State :=
  let isl := t.m.isl
  let cls := if t.m.gaffer then Cls.gaffer else .strand
  match clauseCheck s isl tm.part mr.core tm.hdr r.pc cls with
  | .bad => some (takeTrap s t .illegalClause (w64 r.pc) r.pc)
  | .err e f => some (accessFault s t e (if f then .fetch else .read) (if f then 4 else 0) r.pc)
  | .good =>
    match fetchWord s isl tm.part mr.core r.pc with
    | .error e => some (accessFault s t e .fetch 4 r.pc)
    | .ok (s1, hdr) =>
      match fetchWords isl tm.part mr.core (nbits hdr 59 56 + 1) (r.pc + 8) s1 with
      | .error e => some (accessFault s t e .fetch 4 r.pc)
      | .ok (s2, ws) =>
        if waitsFor s2 t r hdr then none else some (takeClause s2 t r mr tm ⟨r.pc, w64 hdr, ws⟩)

/-- R164, R166: the paths of the strands of a member's bay settle. -/
def settleAround (s : State) (m : Member) : State :=
  match s.member? m with
  | some mr => if m.gaffer then s else settleBay s m.isl mr.core mr.bay
  | none => s

/-- R153, R154, R159: a split or context that is eligible, and of those that could start has waited longest, takes a free
port and begins its next clause, after the paths of its bay have settled. -/
def clauseStart (s : State) (t : Thread) : Option State :=
  let s := settleAround s t.m
  match s.thread? t, s.member? t.m, s.team? t.m.isl t.m.team with
  | some r, some mr, some tm =>
    if eligible s t r mr tm && portFree s t mr && longest s t r mr then enterClause s t r mr tm else none
  | _, _, _ => none

/-- R153, R159: CLAUSE_START. -/
def execClauseStart (s : State) : Out :=
  match s.occ with
  | .thread t =>
    match clauseStart s t with
    | some s' => .next (commit s s')
    | none => idle "CLAUSE_START"
  | _ => idle "CLAUSE_START"

/-- The thread that the event under way names, with its record. -/
def occThread (s : State) : Option (Thread × ThreadRec) :=
  match s.occ with
  | .thread t => (s.thread? t).map fun r => (t, r)
  | _ => none

/-- R354: YIELD_EXPIRY. -/
def execYieldExpiry (s : State) : Out :=
  match occThread s with
  | some (t, r) =>
    match r.wait.yielded with
    | some n =>
      if n ≤ s.clk t.m.isl then .next (commit s (s.setThread t { r with wait := { r.wait with yielded := none } }))
      else idle "YIELD_EXPIRY"
    | none => idle "YIELD_EXPIRY"
  | none => idle "YIELD_EXPIRY"

/-- R444: SLEEP_EXPIRY. -/
def execSleepExpiry (s : State) : Out :=
  match occThread s with
  | some (t, r) =>
    match r.wait.asleep with
    | some n =>
      if n ≤ s.clk t.m.isl then .next (commit s (s.setThread t { r with wait := { r.wait with asleep := none } }))
      else idle "SLEEP_EXPIRY"
    | none => idle "SLEEP_EXPIRY"
  | none => idle "SLEEP_EXPIRY"

/-- R185: WATCHDOG_EXPIRY. -/
def execWatchdogExpiry (s : State) : Out :=
  match s.occ with
  | .team isl team =>
    match s.team? isl team with
    | some t =>
      if t.expired then .next (commit s (endTeam s isl team 0x20 0))
      else idle "WATCHDOG_EXPIRY"
    | none => idle "WATCHDOG_EXPIRY"
  | _ => idle "WATCHDOG_EXPIRY"

end Sys2Proof.Machine
end

