-- ==== Sys2Proof/Machine/Rotation.lean ====
section
/-! DEFINITION. Which partition has a slice or a copy engine now (R85, R113, R114, R119), and the tokens a team waits for
(R122). -/

namespace Sys2Proof.Machine

open Sys2Proof

/-- The record of a partition. -/
def State.part? (s : State) (p : Nat) : Option Part := s.par.parts.get? p

/-- R113: the rotation of a partition. -/
def rotationOf (s : State) (part : Nat) : Option Rotation := ((s.part? part).bind (·.rotation)).bind (s.par.rots.get? ·)

/-- R113: the resident member. -/
def Rotation.resident (r : Rotation) : Nat := r.order.getD r.pos 0

/-- R113: the position that follows. -/
def Rotation.nextPos (r : Rotation) : Nat := (r.pos + 1) % r.order.length

/-- R113: the member that a switch under way brings in. -/
def Rotation.incoming (r : Rotation) : Nat := r.order.getD r.nextPos 0

/-- R83: a partition's shape holds a slice of an island. -/
def Part.holds (p : Part) (isl slice : Nat) : Bool := nbit p.islands isl && nbit p.slices slice

/-- R83, R84: a partition owns a slice of an island, in turn where it is in a rotation; partition 0 owns the slices that
no tenant owns. -/
def ownsSlice (s : State) (part isl slice : Nat) : Bool :=
  if part = 0 then !s.par.parts.any fun e => e.1 != 0 && e.2.holds isl slice
  else ((s.part? part).map (·.holds isl slice)).getD false

/-- R113: a partition is to join a rotation that has not been formed, and owns nothing in turn yet. -/
def unformed (s : State) (part : Nat) : Bool := ((s.part? part).bind (·.rotation)).isSome && (rotationOf s part).isNone

/-- R113, R119: a partition may place teams on a slice now: it owns it, its token has been written, no check on it has
failed, and in a rotation the partition is the resident member, or the incoming one once the slice has been handed over. -/
def hasSlice (s : State) (part isl slice : Nat) : Bool :=
  ownsSlice s part isl slice && !s.par.fencedSlices.contains (isl, slice) && !s.par.deadSlices.contains (isl, slice) &&
    match rotationOf s part with
    | none => !unformed s part
    | some r =>
      match r.tick with
      | none => r.resident == part
      | some _ => r.incoming == part && !r.late.contains (isl, slice)

/-- R114: the copy engines of a partition on an island work for it now. -/
def hasEngines (s : State) (part isl : Nat) : Bool :=
  match rotationOf s part with
  | none => !unformed s part
  | some r =>
    match r.tick with
    | none => r.resident == part
    | some _ => r.incoming == part && !r.late.any fun x => x.1 == isl

/-- R114: the copy engines of a partition on an island still work, within DEADLINE, on the records that they held at the
tick. -/
def holdsEngines (s : State) (part isl : Nat) : Bool :=
  match rotationOf s part with
  | none => false
  | some r =>
    match r.tick with
    | none => false
    | some t => r.resident == part && (r.late.any fun x => x.1 == isl) && s.hub.ns < t + r.deadline

/-- R55, R114: an engine works on a record of a partition that it holds. -/
def recordActive (s : State) (isl part : Nat) (e : Engine) : Bool :=
  (s.fab.fenced.get? isl).isNone && (match e with
    | .copy _ => hasEngines s part isl || holdsEngines s part isl
    | .matrix _ => true)

/-- R55, R114: an engine works for a partition now: its island is not fenced, and a copy engine has passed to the
partition. -/
def engineActive (s : State) (isl part : Nat) (e : Engine) : Bool :=
  (s.fab.fenced.get? isl).isNone && (match e with
    | .copy _ => hasEngines s part isl
    | .matrix _ => true)

/-- R142: the slices of a span. -/
def spanSlices (c0 n : Nat) : List Nat := (List.range 12).filter fun k => c0 / 8 ≤ k && k ≤ (c0 + n - 1) / 8

/-- R122: the latest tokens of a span name the partition and have reached TMIN. -/
def tokensOk (s : State) (isl part tmin c0 n : Nat) : Bool :=
  (spanSlices c0 n).all fun k =>
    match s.par.tokens.get? (isl, k) with
    | some t => t.partIn == part && tmin ≤ t.seq
    | none => false

/-- R122: TOKREQ_RELEASE: a team that waited for tokens may issue. -/
def releaseTokens (s : State) (isl : Nat) : State :=
  { s with task := { s.task with teams := s.task.teams.map fun (k, t) =>
      if k.1 = isl ∧ !t.released ∧ tokensOk s isl t.part t.hdr.tmin t.c0 t.n then (k, { t with released := true }) else (k, t) } }

end Sys2Proof.Machine
end

