-- ==== Sys2Proof/Machine/Header.lean ====
section
/-! DEFINITION. The kernel header and the tables it names, with the checks of placement (R143, R145, R146, R323 to R325). -/

namespace Sys2Proof.Machine

open Sys2Proof

/-! ### The header -/

/-- R323: a signed 32-bit offset from a base. -/
def offsetFrom (base x : Nat) : Nat := (w64 base + (BitVec.ofNat 32 x).signExtend 64).toNat

/-- R323: an offset from the header where it is nonzero. -/
def optOffset (base x : Nat) : Option Nat := if x = 0 then none else some (offsetFrom base x)

/-- R323: the fields of a header's 2048 bits, with addresses made absolute; SCR rounded up (R142), WDOG 0 read as 2^48 − 1
(R185). -/
def KHdr.ofBits (x at_ frame : Nat) : KHdr :=
  { tmin := nbits x 703 640, dh := nbits x 639 576
    wdog := if nbits x 559 512 = 0 then 2 ^ 48 - 1 else nbits x 559 512
    resmap := offsetFrom frame (nbits x 511 480), spb := nbits x 447 416, spcount := nbits x 415 403
    gtbl := optOffset at_ (nbits x 383 352), spt := offsetFrom at_ (nbits x 351 320)
    strap := optOffset at_ (nbits x 319 288), gtrap := optOffset at_ (nbits x 287 256)
    sentry := offsetFrom at_ (nbits x 255 224), gentry := optOffset at_ (nbits x 223 192)
    code := offsetFrom at_ (nbits x 191 160), cmap := offsetFrom at_ (nbits x 159 128)
    scr := (nbits x 127 96 + 4095) / 4096 * 4096, codelen := nbits x 95 64, tokreq := nbit x 42, restartable := nbit x 41
    uchk := nbit x 40, sregs := nbits x 39 32, vr := 32 * nbits x 31 24, smax := nbits x 23 12, sinit := nbits x 11 0 }

/-- R142: C. -/
def KHdr.cap (h : KHdr) : Nat := 8 * min 16 (1024 / h.vr)

/-- R142: N. -/
def KHdr.cores (h : KHdr) : Nat := (h.smax + h.cap - 1) / h.cap

/-- R446: the team status of a failed access. -/
def XErr.status : XErr → Nat
  | .fault _ perm _ => if perm then Cause.permission.code else Cause.translation.code
  | .sealed _ => Cause.permission.code
  | .poison _ => Cause.uncorrectable.code

/-- Why a record ends before its team issues: the status, and the address whose walk failed, where one did. -/
abbrev HeadErr := Nat × Option Nat

/-- R446: a failed access as it ends a record. -/
def XErr.head (e : XErr) : HeadErr :=
  (e.status, match e with
    | .fault va _ _ => some va
    | _ => none)

/-- Bytes of a partition's memory can be read. -/
def readable (s : State) (isl part va n : Nat) : Except XErr Unit :=
  (pageRuns (n / 65536 + 2) va n).forM fun p => (access s isl part p.1 p.2 .read true).map fun _ => ()

/-- Bytes of a partition's memory read page by page, as one number. -/
def readLong (s : State) (isl part va n : Nat) : Except XErr Nat := do
  readable s isl part va n
  (pageRuns (n / 65536 + 2) va n).foldrM (fun p x =>
    match access s isl part p.1 p.2 .read true with
    | .ok (pa, _) => .ok (s.mem.nat isl pa p.2 + x * 2 ^ (8 * p.2))
    | .error e => .error e) 0

/-! ### Checks -/

/-- R142: a run of cores within two consecutive slices. -/
def spanShape (c0 n : Nat) : Bool := c0 + n ≤ 96 && (c0 + n - 1) / 8 - c0 / 8 ≤ 1

/-- R143: the partition has a run of `n` cores within two consecutive slices of its own. -/
def spanExists (s : State) (isl part n : Nat) : Bool :=
  (List.range 96).any fun c => spanShape c n && (spanSlices c n).all fun k => ownsSlice s part isl k

/-- R143, R324, order 2: the header is unplaceable. -/
def unplaceable (s : State) (isl part x : Nat) (h : KHdr) : Bool :=
  nbits x 31 24 == 0 || 32 < nbits x 31 24 || h.smax == 0 || 2048 < h.smax || h.sinit == 0 || h.smax < h.sinit ||
    520192 < nbits x 127 96 || 16 < h.cores || !spanExists s isl part h.cores

/-- R324, order 3: a malformed header. -/
def headerBad (x : Nat) (h : KHdr) : Bool :=
  nbits x 63 56 != 1 || nbits x 2047 704 != 0 || nbits x 575 560 != 0 || nbits x 479 448 != 0 || nbits x 402 384 != 0 ||
    nbits x 55 43 != 0 || 192 < h.sregs || nbits x 191 160 % 8 != 0 || h.codelen % 8 != 0 ||
    nbits x 511 480 % 256 != 0 || (h.spcount != 0 && h.spb == 0) || (h.spcount == 0 && h.spb != 0) ||
    (h.spcount != 0 && nbits x 351 320 % 16 != 0) || nbits x 383 352 % 8 != 0

/-- R324: the status of a clause check that fails. -/
def ClauseRes.status : ClauseRes → Except HeadErr Unit
  | .good => .ok ()
  | .bad => .error (Cause.illegalClause.code, none)
  | .err e _ => .error e.head

/-- R297, R324: ClauseCheck of an address for a class, by the task unit. -/
def taskCheck (s : State) (isl part : Nat) (h : KHdr) (a : Nat) (cls : Cls) : ClauseRes :=
  clauseCheckBy s isl h a cls (fun va => access s isl part va 1 .read true)
    fun va => (access s isl part va 8 .fetch true).map fun x => s.mem.nat isl x.1 8

/-- R324, order 5: an entry where there is one. -/
def entryCheck (s : State) (isl part : Nat) (h : KHdr) (a : Option Nat) (cls : Cls) : Except HeadErr Unit :=
  match a with
  | none => .ok ()
  | some a => (taskCheck s isl part h a cls).status

/-- R325: an entry of the safe-point table; none where it is malformed on its own. -/
def SafePt.ofBits (e at_ : Nat) : Option SafePt :=
  if nbits e 14 12 ≠ 0 ∨ nbits e 127 96 = 0 ∨ nbits e 95 64 = 0 then none
  else some { save := offsetFrom at_ (nbits e 127 96), rest := offsetFrom at_ (nbits e 95 64), scost := nbits e 63 40
              rcost := nbits e 39 16
              gaffer := nbit e 15, id := nbits e 11 0 }

/-- R325: no two entries share ID and CLS. -/
def sptUnique : List SafePt → Bool
  | [] => true
  | e :: es => (es.all fun f => f.id != e.id || f.gaffer != e.gaffer) && sptUnique es

/-- R324, orders 6 to 8: the safe-point table. -/
def readSpt (s : State) (isl part at_ : Nat) (h : KHdr) : Except HeadErr (List SafePt) := do
  let x ← match readLong s isl part h.spt (16 * h.spcount) with
    | .ok x => .ok x
    | .error e => .error e.head
  match (List.range h.spcount).mapM fun i => SafePt.ofBits (nbits x (128 * i + 127) (128 * i)) at_ with
  | none => .error (Cause.reservedField.code, none)
  | some es =>
    if !sptUnique es then .error (Cause.reservedField.code, none)
    else do
      es.forM fun e => do
        let cls := if e.gaffer then Cls.gaffer else .strand
        (taskCheck s isl part h e.save cls).status
        (taskCheck s isl part h e.rest cls).status
      .ok es

/-! ### The group table -/

/-- R145: the memberships of a row; none where a reserved bit is set. -/
def rowOf (r : Nat) : Option (List Nat) :=
  ((List.range 4).mapM fun i =>
    let m := nbits r (16 * i + 15) (16 * i)
    if nbits m 14 8 ≠ 0 then none else some (if nbit m 15 then [m % 256] else [])).map List.flatten

/-- R146: no group twice. -/
def distinct : List Nat → Bool
  | [] => true
  | x :: xs => !xs.contains x && distinct xs

/-- R146: the group table: GCOUNT and the rows. -/
def readGroups (s : State) (isl part : Nat) (h : KHdr) : Except HeadErr (Nat × Option (List (List Nat))) :=
  match h.gtbl with
  | none => .ok (1, none)
  | some gtbl =>
    match readLong s isl part gtbl 8 with
    | .error e => .error e.head
    | .ok w =>
      let g := nbits w 8 0
      if nbits w 63 32 ≠ 0 ∨ nbits w 19 9 ≠ 0 ∨ nbits w 31 20 ≠ h.smax ∨ g = 0 ∨ 256 < g then .error (Cause.group.code, none)
      else
        match readLong s isl part (gtbl + 8) (8 * h.smax) with
        | .error e => .error e.head
        | .ok x =>
          match (List.range h.smax).mapM fun k => rowOf (nbits x (64 * k + 63) (64 * k)) with
          | none => .error (Cause.group.code, none)
          | some rows =>
            if rows.all fun r => distinct r && r.all (· < g) then .ok (g, some rows) else .error (Cause.group.code, none)

/-- What placement learns from a kernel header. -/
structure Kernel where
  hdr : KHdr
  spts : List SafePt
  gcount : Nat
  rows : Option (List (List Nat))
deriving DecidableEq, Repr

/-- R324: the checks of a header in order, or the status that ends the team. -/
def readKernel (s : State) (isl part : Nat) (t : TaskRec) : Except HeadErr Kernel := do
  let x ← match readLong s isl part t.khdr 256 with
    | .ok x => .ok x
    | .error e => .error e.head
  let h := KHdr.ofBits x t.khdr t.frame.toNat
  if unplaceable s isl part x h then .error (0x23, none)
  else if headerBad x h then .error (Cause.reservedField.code, none)
  else do
    (match readable s isl part h.cmap ((h.codelen + 63) / 64) with
      | .ok _ => .ok ()
      | .error e => .error e.head)
    (taskCheck s isl part h h.sentry .strand).status
    entryCheck s isl part h h.gentry .gaffer
    entryCheck s isl part h h.strap .strand
    entryCheck s isl part h h.gtrap .gaffer
    let es ← readSpt s isl part t.khdr h
    let g ← readGroups s isl part h
    .ok ⟨h, es, g.1, g.2⟩

end Sys2Proof.Machine
end

