-- ==== Sys2Proof/Machine/Place.lean ====
section
/-! DEFINITION. Dispatch and placement (R140 to R144), the restore placement (R128), and the end of a team (R147). -/

namespace Sys2Proof.Machine

open Sys2Proof

/-! ### Record writes -/

/-- R147: the task unit writes a field of a record, between bits `lo` and `hi` of its 512. -/
def writeField (s : State) (isl part va hi lo v : Nat) : State :=
  let b := lo / 8
  let n := hi / 8 + 1 - b
  match access s isl part (va + b) n .write true with
  | .ok (pa, _) => bypassBank s isl none pa (leBytes n (putField (hi - 8 * b) (lo - 8 * b) v (s.mem.nat isl pa n)))
  | .error e => report (e.note s isl part) part 1 [isl, va]

/-- R69, R131, R147: the LAUNCH command record that a task record's CREC and CISL name: its address, and the home island of
its chain. -/
def namesLaunch (s : State) (part : Nat) (t : TaskRec) (c : CmdRec) : Bool :=
  c.ref.part == part && c.trec.isSome && c.res.isNone && c.addr == t.crec &&
    match s.hub.chains.get? (c.ref.part, c.ref.chain) with
    | some ch => ch.reg == c.ref.reg && ch.home == t.cisl
    | none => false

/-- R69, R147: the LAUNCH that made a record completes. -/
def endLaunch (s : State) (part : Nat) (t : TaskRec) (res : Nat × Nat × Nat) : State :=
  let cmds := s.hub.cmds.map fun c => if namesLaunch s part t c then { c with res := some res } else c
  { s with hub := { s.hub with cmds := cmds } }

/-- R136, R147, steps 3 and 4: TEAM and ENDST, then STATE = DONE, then the LAUNCH record. `fail` is the fabric status of the
first completion decrement that failed, or 0; the TEAM of a record that no team was placed on is 0xFFF. -/
def closeRecord (s : State) (isl part : Nat) (team : Option Nat) (t : TaskRec) (status fail : Nat) : State :=
  let s0 := writeField s isl part t.addr 224 213 (team.getD 0xFFF)
  let s1 := writeField s0 isl part t.addr 212 205 status
  let s2 := writeField s1 isl part t.addr 63 56 4
  if t.origin ≠ 1 then s2
  else
    endLaunch s2 part t
      (if status = 0 then (0x00, fail, openField s 1 32) else (0x03, openField s 0 24, status))

/-! ### What a core has free -/

/-- R144, R147: a team holds its scratchpad reservation on a core. -/
def Team.reserves (t : Team) (s : State) (isl team core : Nat) : Bool :=
  t.inSpan core && (!t.gone || matBusy s isl core team)

/-- R142: the teams that hold a reservation on a core. -/
def reservers (s : State) (isl core : Nat) : List Team :=
  (s.task.teams.filter fun e => e.1.1 == isl && e.2.reserves s isl e.1.2 core).map (·.2)

/-- R142: the lowest run of scratchpad of a size, on a 4 KiB boundary, that is free. -/
def spadRun (s : State) (isl core scr : Nat) : Option Nat :=
  let held := (reservers s isl core).map fun t => (t.base core, t.hdr.scr)
  ((List.range 128).map (· * 4096)).find? fun b =>
    b + scr ≤ 520192 && held.all fun r => scr == 0 || r.2 == 0 || b + scr ≤ r.1 || r.1 + r.2 ≤ b

/-- R170: the lowest gaffer context of a core that no team holds. -/
def freeCtx (s : State) (isl core : Nat) : Option Nat :=
  let held := (s.task.teams.filter fun e => e.1.1 == isl && e.2.inSpan core && !e.2.gone).map fun e =>
    e.2.ctx.getD (core - e.2.c0) 0
  (List.range 4).find? fun k => !held.contains k

/-- R142, R152: the strands of a size that a core still has room for. -/
def strandRoom (s : State) (isl core vr : Nat) : Nat :=
  ((List.range 8).map fun b =>
    let u := bayUse s isl core b
    min (16 - u.length) ((131072 - u.sum) / (vr * 128))).sum

/-- R142: what each core of a span offers: its scratchpad base and gaffer context. -/
def spanOffer (s : State) (isl part c0 : Nat) (h : KHdr) (need : Nat → Nat) : Option (List (Nat × Nat)) :=
  if !spanShape c0 h.cores || !(spanSlices c0 h.cores).all fun k => hasSlice s part isl k then none
  else
    (List.range h.cores).mapM fun i =>
      match spadRun s isl (c0 + i) h.scr, freeCtx s isl (c0 + i) with
      | some b, some k => if need i ≤ strandRoom s isl (c0 + i) h.vr then some (b, k) else none
      | _, _ => none

/-- R142: the lowest span that qualifies. -/
def findSpan (s : State) (isl part : Nat) (h : KHdr) (need : Nat → Nat) (ok : Nat → Bool) :
    Option (Nat × List (Nat × Nat)) :=
  (List.range 96).findSome? fun c =>
    if ok c then (spanOffer s isl part c h need).map fun o => (c, o) else none

/-- R144: the lowest team id of an island that no live or saved team holds; a team whose end is complete has given up its
own (R147). -/
def freeTeamId (s : State) (isl : Nat) : Option Nat :=
  (List.range 4095).find? fun k =>
    (s.team? isl k).isNone && !s.task.saved.any fun v => v.isl == isl && v.team == k

/-! ### Placement -/

/-- R142: the initial strands that land on span core `i`. -/
def initialOn (h : KHdr) (i : Nat) : Nat := min h.sinit ((i + 1) * h.cap) - min h.sinit (i * h.cap)

/-- R146: the member count of a group among the initial strands. -/
def initialMembers (k : Kernel) (g : Nat) : Nat :=
  match k.rows with
  | none => k.hdr.sinit
  | some rows => ((rows.take k.hdr.sinit).filter (·.contains g)).length

/-- R144: the record of a team as it is placed. -/
def newTeam (s : State) (isl part : Nat) (t : TaskRec) (k : Kernel) (c0 : Nat) (o : List (Nat × Nat)) : Team :=
  { part := part, task := t, hdr := k.hdr, spts := k.spts, c0 := c0, n := k.hdr.cores, cap := k.hdr.cap
    spad := o.map (·.1), ctx := o.map (·.2)
    groups := (List.range k.gcount).map fun g => ⟨initialMembers k g, 0, 0, 0⟩
    rows := k.rows
    released := !k.hdr.tokreq || tokensOk s isl part k.hdr.tmin c0 k.hdr.cores
    first := none, before := 0, wdog := 0, tokseq := 0, ending := none, preempt := none, pcount := 0, restoring := false, gone := false
    cpc := [] }

/-- R171: the decision queue of a context, anew. -/
def freshDq (s : State) (g : Member) (q : List W64) : State :=
  { s with core := { s.core with dq := s.core.dq.set g q, dqCairn := s.core.dqCairn.erase g } }

/-- R144, R170: the gaffer context of span core `i` stands before a clause. -/
def startGaffer (s : State) (isl team : Nat) (t : Team) (i pc : Nat) : State :=
  startMember s ⟨isl, team, true, i⟩ ⟨t.c0 + i, 0, .placed, false, false, 0, [], [], 1⟩ t.task.frame (some (freshThread pc 1))

/-- R144: the gaffer contexts and the initial strands. -/
def startMembers (s : State) (isl team : Nat) (t : Team) : State :=
  let s := (List.range t.n).foldl (fun s i =>
    let s := freshDq s ⟨isl, team, true, i⟩ []
    match t.hdr.gentry with
    | none => s
    | some pc => startGaffer s isl team t i pc) s
  (List.range t.hdr.sinit).foldl (fun s k =>
    match bayFor s isl (t.coreOf k) t.hdr.vr with
    | some b => startStrand s isl team k t b ((t.row k).map fun g => (g, true))
    | none => s) s

/-- R144, R268: an acquire on behalf of a team on its span cores. -/
def acquireSpan (s : State) (isl c0 n : Nat) : State :=
  (List.range n).foldl (fun (s : State) i => { s with mem := s.mem.acquire isl (c0 + i) }) s

/-- R144: TEAM, EPRIO and STATE = PLACED are written. -/
def writePlaced (s : State) (isl part team eprio : Nat) (t : TaskRec) : State :=
  let s1 := writeField s isl part t.addr 195 193 eprio
  let s2 := writeField s1 isl part t.addr 224 213 team
  writeField s2 isl part t.addr 63 56 3

/-- R211: AMSTAT.UR of a new team is clear. -/
def clearUr (s : State) (isl team : Nat) : State :=
  { s with mem := { s.mem with ur := s.mem.ur.filter fun x => !(x.1 == isl && x.2.2 == team) } }

/-- R325: the RCOST of each safe point is reported, and not used (log entry 23). -/
def reportCosts (s : State) (isl part team : Nat) (es : List SafePt) : State :=
  if es.isEmpty then s else report s part 20 ([isl, team] ++ es.flatMap fun e => [e.id, e.gaffer.toNat, e.rcost])

/-- R144: a team is placed. -/
def placeTeam (s : State) (isl part team eprio : Nat) (t : TaskRec) (k : Kernel) (c0 : Nat) (o : List (Nat × Nat)) : State :=
  let tm := newTeam s isl part t k c0 o
  let s1 := reportCosts (writePlaced s isl part team eprio t) isl part team k.spts
  startMembers ((acquireSpan (clearUr s1 isl team) isl c0 tm.n).setTeam isl team tm) isl team tm

/-! ### The choice of a record -/

/-- R140: the effective priority of a record since a core clock. -/
def eprio (s : State) (isl part prio since : Nat) : Nat := min 7 (prio + (s.clk isl - since) / ageiOf s part)

/-- A record that dispatch may take: a saved team, or a queued record. -/
inductive Cand where
  | saved (v : SavedTeam)
  | ready (q : QEntry)
deriving DecidableEq, Repr

/-- R140: the effective priority of a candidate. -/
def Cand.prio (c : Cand) (s : State) : Nat :=
  match c with
  | .saved v => eprio s v.isl v.old.task.part v.old.task.prio v.savedAt
  | .ready q => eprio s q.isl q.part q.task.prio q.task.stamp

/-- R140: one candidate comes before another: by priority, a saved team first, then by STAMP, then by the order in which
they became READY. -/
def Cand.before (a b : Cand) (s : State) : Bool :=
  if a.prio s ≠ b.prio s then b.prio s < a.prio s
  else
    match a, b with
    | .saved _, .ready _ => true
    | .ready _, .saved _ => false
    | .saved v, .saved w => v.savedAt ≤ w.savedAt
    | .ready p, .ready q => if p.task.stamp ≠ q.task.stamp then p.task.stamp < q.task.stamp else p.order ≤ q.order

/-- A candidate is put in its place. -/
def insertCand (s : State) (c : Cand) : List Cand → List Cand
  | [] => [c]
  | d :: ds => if c.before d s then c :: d :: ds else d :: insertCand s c ds

/-- R128, R140, R151: the resume map of a saved team has MAPVALID, or cannot be read, which loses the team. -/
def SavedTeam.due (s : State) (v : SavedTeam) : Bool :=
  match readVa s v.isl v.old.part (v.old.hdr.resmap + 8) 8 with
  | .ok x => nbit x 0
  | .error _ => true

/-- R140, R141: the candidates of a partition on an island, in order. -/
def candidatesOf (s : State) (isl part : Nat) : List Cand :=
  (((s.task.saved.filter fun v => v.isl == isl && v.old.task.part == part && v.due s).map Cand.saved) ++
    ((queueOf s isl part).map Cand.ready)).foldl (fun l c => insertCand s c l) []

/-! ### The pre-emption status word -/

/-- R118: the code of a decision. -/
def Decision.code : Decision → Nat
  | .drain => 1
  | .save => 2
  | .saveLate => 3
  | .discard => 4
  | .lost => 5

/-- R117: core clocks past DEADLINE. -/
def overrun (s : State) (isl : Nat) (p : Preempt) : Nat :=
  match p.past with
  | some c => min (s.clk isl - c) (2 ^ 32 - 1)
  | none => 0

/-- R118: the PSW that a pre-emption leaves. -/
def pswOf (s : State) (isl lcause : Nat) (t : Team) (p : Preempt) : Nat :=
  let ov := overrun s isl p
  min (t.pcount + 1) 0xFFFF * 2 ^ 48 + ov * 2 ^ 16 + lcause % 8 * 2 ^ 8 + (p.ovr || ov != 0).toNat * 2 ^ 7 +
    (if lcause = 0 then p.decision.code else Decision.lost.code)

/-- R127: a team has a resume map. -/
def Team.hasMap (t : Team) : Bool := t.hdr.spcount != 0

/-- R118, R126: the PSW is written; a write that fails is dropped and reported. -/
def writePsw (s : State) (isl : Nat) (t : Team) (psw : Nat) : State :=
  if !t.hasMap then report s t.part 8 [isl, psw]
  else
    putVa s isl t.part t.hdr.resmap (leBytes 8 psw) fun s => report s t.part 8 [isl, psw]

/-- R118: the PSW of a team whose decision has been carried out. -/
def closePsw (s : State) (isl lcause : Nat) (t : Team) : State :=
  match t.preempt with
  | some p => writePsw s isl t (pswOf s isl lcause t p)
  | none => s

/-! ### The restore placement -/

/-- R127: the resume map. -/
def mapBytes : Nat := 17408

/-- R127: a word of a resume map. -/
def mapWord (x off : Nat) : Nat := nbits x (8 * off + 63) (8 * off)

/-- R128: what a resume map says of a member: its safe point, not started, or no member. -/
def mapMember (x : Nat) (gaffer : Bool) (i : Nat) : Nat :=
  let b := 8 * ((if gaffer then 0x1100 else 0x100) + 2 * i)
  nbits x (b + 15) b

/-- R127: the bank run of span core `i`: first bank and count. -/
def mapBanks (x i : Nat) : Nat × Nat := (nbits (mapWord x (0x40 + 8 * i)) 15 8, nbits (mapWord x (0x40 + 8 * i)) 7 0)

/-- R128: the recorded banks are free on a core. -/
def banksFree (s : State) (isl core : Nat) (b : Nat × Nat) : Bool :=
  s.mem.am.all fun a => a.isl != isl || a.core != core || b.1 + b.2 ≤ a.first || a.first + a.count ≤ b.1

/-- R128: strand indices that a resume map brings back. -/
def mapStrands (x : Nat) (h : KHdr) : List Nat := (List.range h.smax).filter fun k => mapMember x false k != 0xFFFF

/-- R127, R128: the group counts of a resume map. A pending count is not recorded; every membership counts as effective. -/
def mapGroups (x n : Nat) : List Group :=
  (List.range n).map fun g =>
    let w := mapWord x (0x1200 + 8 * g)
    ⟨nbits w 11 0, nbits w 23 12, 0, nbits w 55 24⟩

/-- R127: a decision queue of a resume map. -/
def mapQueue (x i : Nat) : List W64 :=
  let b := 0x2000 + 576 * i
  (List.range (min (mapWord x b) 64)).map fun j => w64 (mapWord x (b + 8 + 8 * j))

/-- R124, R128: a member runs the restore routine of a safe point with its registers. The spec does not say what an id does
that the kernel's table does not hold: the model leaves that member out (log entry 27). -/
def restoreMember (s : State) (m : Member) (r : MemberRec) (t : Team) (id : Nat) : State :=
  match t.spts.find? fun e => e.id = id ∧ e.gaffer = m.gaffer with
  | none => s
  | some sp =>
    let s := startMember s m r t.task.frame (some (freshThread sp.rest (if m.gaffer then 1 else 0xFFFFFFFF)))
    { s with core := { s.core with sreg := s.core.sreg.set (m, if m.gaffer then 61 else 189) (w64 id) } }

/-- R128: a gaffer context comes back: it restores, starts, or stays ended. -/
def restoreGaffer (s : State) (isl team : Nat) (t : Team) (x i : Nat) : State :=
  let m : Member := ⟨isl, team, true, i⟩
  let s := freshDq s m (mapQueue x i)
  match mapMember x true i with
  | 0xFFFF => if t.hdr.gentry = none then s else s.setMember m ⟨t.c0 + i, 0, .ended, false, false, 0, [], [], 1⟩
  | 0xFFFE =>
    match t.hdr.gentry with
    | none => s
    | some pc => startGaffer s isl team t i pc
  | id => restoreMember s m ⟨t.c0 + i, 0, .restoring id, false, false, 0, [], [], 1⟩ t id

/-- R128: a strand comes back; one that had not started is attached again (R180). -/
def restoreStrand (s : State) (isl team : Nat) (t : Team) (x k : Nat) : State :=
  match bayFor s isl (t.coreOf k) t.hdr.vr with
  | none => s
  | some b =>
    match mapMember x false k, s.team? isl team with
    | 0xFFFE, some tm =>
      let r := joinGroups tm (tm.row k)
      startStrand (s.setTeam isl team r.1) isl team k r.1 b r.2
    | id, _ =>
      let gs := (t.row k).map fun g => (g, true)
      restoreMember s ⟨isl, team, false, k⟩ ⟨t.coreOf k, b, .restoring id, false, false, 0, [], gs, 1⟩ t id

/-- R128: the banks of a resume map are allocated again, reading zero and without grants. -/
def restoreBanks (s : State) (isl team core : Nat) (b : Nat × Nat) : State :=
  if b.2 = 0 then s
  else
    let inRun (k : Nat × Nat × Nat × Nat) : Bool := k.1 == isl && k.2.1 == core && b.1 ≤ k.2.2.1 && k.2.2.1 < b.1 + b.2
    { s with mem := { s.mem with
      am := s.mem.am ++ [⟨isl, core, team, b.1, b.2, false⟩]
      acc := s.mem.acc.drop inRun
      grants := s.mem.grants.drop inRun
      poison := s.mem.poison.filter fun l => match l with
        | .acc i c n w => !inRun (i, c, n, w)
        | _ => true } }

/-- R128: the saved team is placed again and its control state reinstalled. -/
def restoreTeam (s : State) (v : SavedTeam) (k : Kernel) (x c0 : Nat) (o : List (Nat × Nat)) : State :=
  let isl := v.isl
  let part := v.old.task.part
  let tm := { newTeam s isl part v.old.task k c0 o with
    groups := mapGroups x k.gcount, wdog := mapWord x 0x18, first := v.old.first, before := v.old.before, tokseq := v.old.tokseq
    released := !k.hdr.tokreq || tokensOk s isl part k.hdr.tmin c0 k.hdr.cores
    restoring := true, pcount := nbits (mapWord x 0) 63 48 }
  let s1 := writeField s isl part v.old.task.addr 224 213 v.team
  let s2 := writeField s1 isl part v.old.task.addr 63 56 3
  let s3 := (acquireSpan (clearUr s2 isl v.team) isl c0 tm.n).setTeam isl v.team tm
  let s4 := (List.range tm.n).foldl (fun s i => restoreBanks s isl v.team (c0 + i) (mapBanks x i)) s3
  let s5 := (List.range tm.n).foldl (fun s i => restoreGaffer s isl v.team tm x i) s4
  let known := (mapStrands x k.hdr).filter fun i => mapMember x false i != 0xFFFE
  let fresh := (mapStrands x k.hdr).filter fun i => mapMember x false i == 0xFFFE
  let s6 := (known ++ fresh).foldl (fun s i => restoreStrand s isl v.team tm x i) s5
  { s6 with task := { s6.task with saved := s6.task.saved.filter (· ≠ v) } }

/-- R118: the PSW of a saved team whose map cannot be read: LOST with LCAUSE 4 (log entry 27). -/
def lostPsw (v : SavedTeam) : Nat := min (v.old.pcount + 2) 0xFFFF * 2 ^ 48 + 4 * 2 ^ 8 + Decision.lost.code

/-- R128: a saved team that cannot be read ends with PREEMPT_LOST. -/
def loseSaved (s : State) (v : SavedTeam) : State :=
  let s0 := writePsw s v.isl v.old (lostPsw v)
  let s1 := { s0 with task := { s0.task with saved := s0.task.saved.filter (· ≠ v) } }
  report (closeRecord s1 v.isl v.old.task.part (some v.team) v.old.task 0x21 0) v.old.task.part 7 [v.isl, v.team, 4]

/-- R128: RESTORE_PLACEMENT of a saved team; none while it cannot be placed. -/
def tryRestore (s : State) (v : SavedTeam) : Option State :=
  let isl := v.isl
  let part := v.old.part
  let k : Kernel := ⟨v.old.hdr, v.old.spts, v.old.groups.length, v.old.rows⟩
  match readLong s isl part k.hdr.resmap mapBytes with
  | .error e => some (loseSaved (e.note s isl part) v)
  | .ok x =>
    if !nbit (mapWord x 8) 0 then none
    else
    let need (i : Nat) : Nat := ((mapStrands x k.hdr).filter fun n => n / k.hdr.cap == i).length
    let fits (c : Nat) : Bool := (List.range k.hdr.cores).all fun i => banksFree s isl (c + i) (mapBanks x i)
    (findSpan s isl part k.hdr need fits).map fun f => restoreTeam s v k x f.1 f.2

/-! ### TEAM_PLACEMENT -/

/-- R138: a record leaves its ready queue. -/
def unqueue (s : State) (q : QEntry) : State :=
  { s with
    mem := { s.mem with poison := s.mem.poison.filter (· ≠ .ready q.isl q.order) }
    task := { s.task with queue := s.task.queue.filter (·.order ≠ q.order) } }

/-- R91: the walk by which an address was not reached, where it is one. -/
def noteHead (s : State) (isl part : Nat) (e : HeadErr) : State :=
  match e.2 with
  | some va => noteWalk s isl part va
  | none => s

/-- R213: the queue entry of a record that an error has spoilt. -/
def QEntry.mark (q : QEntry) : Loc := .ready q.isl q.order

/-- R142 to R144: a record is placed, or ends before issue, as one does whose queue entry an error has spoilt (log entry 29);
none while it cannot be placed. -/
def tryReady (s : State) (q : QEntry) : Option State :=
  match if s.mem.poison.contains q.mark then .error (Cause.uncorrectable.code, none) else readKernel s q.isl q.part q.task with
  | .error e => some (closeRecord (noteHead (unqueue s q) q.isl q.part e) q.isl q.part none q.task e.1 0)
  | .ok k =>
    match findSpan s q.isl q.part k.hdr (initialOn k.hdr) (fun _ => true), freeTeamId s q.isl with
    | some f, some team =>
      some (placeTeam (unqueue s q) q.isl q.part team (Cand.prio (.ready q) s) q.task k f.1 f.2)
    | _, _ => none

/-- R141: one candidate. -/
def tryCand (s : State) : Cand → Option State
  | .saved v => tryRestore s v
  | .ready q => tryReady s q

/-- R141: the chosen record has been passed over from now on. -/
def passOver (s : State) (c : Cand) : State :=
  match c with
  | .saved v =>
    { s with task := { s.task with saved := s.task.saved.map fun e =>
        if e = v ∧ e.passed = none then { e with passed := some (s.clk v.isl) } else e } }
  | .ready q =>
    { s with task := { s.task with queue := s.task.queue.map fun e =>
        if e.order = q.order ∧ e.passed = none then { e with passed := some (s.clk q.isl) } else e } }

/-- R141: since when a candidate has been passed over. -/
def Cand.passed : Cand → Option Nat
  | .saved v => v.passed
  | .ready q => q.passed

/-- R141: a candidate has been passed over for one whole AGEI: it holds back the others of its partition. -/
def Cand.holds (c : Cand) (s : State) (isl part : Nat) : Bool :=
  match c.passed with
  | some t => ageiOf s part ≤ s.clk isl - t
  | none => false

/-- R114, R141: a partition dispatches on an island while some slice there is its own to place teams on. -/
def dispatches (s : State) (isl part : Nat) : Bool := (List.range 12).any (hasSlice s part isl)

/-- R141: the candidates that a partition may place on an island now, in order: those that hold back the others, or all. -/
def placeable (s : State) (isl part : Nat) : List Cand :=
  let cs := candidatesOf s isl part
  match cs.filter (·.holds s isl part) with
  | [] => cs
  | h => h

/-- R141: dispatch for a partition on an island: the chosen record, or one of the next in its stead; none when nothing
changes. -/
def dispatch (s : State) (isl part : Nat) : Option State :=
  if (s.fab.fenced.get? isl).isSome || !dispatches s isl part then none
  else
    match placeable s isl part with
    | [] => none
    | c :: cs =>
      match tryCand s c with
      | some s' => some s'
      | none =>
        let s1 := passOver s c
        if c.holds s isl part then none
        else
          match cs.findSome? (tryCand s1) with
          | some s' => some s'
          | none => if c.passed.isSome then none else some s1

/-- R141: a partition has a record that it could dispatch on an island. -/
def dispatchDue (s : State) (isl part : Nat) : Bool := (dispatch s isl part).isSome

/-- R141: the weighted round robin by DISPW serves a partition on an island: it has services left in its turn, or it is the
next that has work after the one whose turn is over; none while it is another's turn. -/
def dispatchTurn (s : State) (isl part : Nat) : Option (Nat × Nat) :=
  let t := s.task.turn.getD isl (0, 0)
  if 0 < t.2 && dispatchDue s isl t.1 then (if part = t.1 then some (part, t.2 - 1) else none)
  else
    let next := ((List.range 64).map fun i => (t.1 + 1 + i) % 64).find? (dispatchDue s isl)
    if next = some part then some (part, ((s.part? part).map (·.dispw)).getD 1 - 1) else none

/-- R141, R142: TEAM_PLACEMENT. -/
def execTeamPlacement (s : State) : Out :=
  match s.occ with
  | .place isl part =>
    match dispatchTurn s isl part, dispatch s isl part with
    | some turn, some s' => .next (commit s { s' with task := { s'.task with turn := s'.task.turn.set isl turn } })
    | _, _ => .refused (.notEnabled "TEAM_PLACEMENT")
  | _ => .refused (.notEnabled "TEAM_PLACEMENT")

end Sys2Proof.Machine
end

