-- ==== Sys2Proof/Machine/Ends.lean ====
section
/-! DEFINITION. The end of a team (R147) and the return of a record to its queue (R114, R116). -/

namespace Sys2Proof.Machine

open Sys2Proof

/-! ### What a team leaves -/

/-- An operation of a team. -/
def Op.ofTeam (o : Op) (isl team : Nat) : Bool := o.m.isl == isl && o.m.team == team

/-- R147, R187: an operation that can no longer complete once its team has stopped. -/
def Op.endless (s : State) (normal : Bool) (o : Op) : Bool :=
  match o.act with
  | .mwait .. | .popdq _ | .barwait .. => true
  | .pushdq _ | .ochclose _ | .append .. | .matrix _ => !normal && o.holds s
  | _ => false

/-- R147: operations that can no longer complete are dropped. -/
def dropEndless (s : State) (isl team : Nat) (normal : Bool) : State :=
  { s with core := { s.core with ops := s.core.ops.filter fun o => !(o.ofTeam isl team && o.endless s normal) } }

/-- R147, step 1: memory and remote operations of a team that have not completed. -/
def memoryOpen (s : State) (isl team : Nat) : Bool :=
  s.core.ops.any fun o => o.ofTeam isl team && (o.remote || (o.mem && (match o.act with
    | .matrix _ => false
    | _ => true)))

/-- R223, R238: a chain is released: its records not yet read are dropped, and its descriptor reads UNBOUND, or stays
HALTED. -/
def releaseChain (s : State) (r : ChainRef) (c : Chain) : State :=
  let s1 := { s with eng := { s.eng with recs := s.eng.recs.filter fun x => x.ref.chain != r || x.known } }
  let s2 := if c.halted then { s1 with eng := { s1.eng with chains := s1.eng.chains.erase r } } else unbindChain s1 r
  freeFaults s2 r.isl r.part

/-- R223: the bindings of a team's matrix chains are released. -/
def releaseChains (s : State) (isl team : Nat) : State :=
  (s.eng.chains.filter fun c => c.1.isl == isl && c.2.team == team && (match c.2.eng with
    | .matrix _ => true
    | .copy _ => false)).foldl (fun s c => releaseChain s c.1 c.2) s

/-- Every member of a team is forgotten, with its registers and queues. -/
def forgetMembers (s : State) (isl team : Nat) : State :=
  let mine (m : Member) : Bool := m.isl == isl && m.team == team
  let poison := s.mem.poison.filter fun l => !(l.member.map mine).getD false
  { s with mem := { s.mem with poison := poison }, core := { s.core with
    vreg := s.core.vreg.drop (fun k => mine k.1), sreg := s.core.sreg.drop (fun k => mine k.1)
    pred := s.core.pred.drop (fun k => mine k.1), members := s.core.members.drop mine
    threads := s.core.threads.drop (fun t => mine t.m)
    dq := s.core.dq.drop mine, dqCairn := s.core.dqCairn.drop mine } }

/-- R208: the allocations of a team return to the pool once its matrix work has completed. -/
def releaseAm (s : State) (isl team : Nat) (t : Team) : State :=
  let s1 := { s with mem := { s.mem with am := s.mem.am.map fun a =>
    if a.isl = isl ∧ a.team = team then { a with pending := true } else a } }
  (List.range t.n).foldl (fun s i => releaseBanks s isl (t.c0 + i) team) s1

/-- R225: the same entry, of team `b` where it was of team `a`. -/
def MatEntry.renamed (isl a b : Nat) (e : MatEntry) : MatEntry :=
  match e with
  | .instr op m job => .instr op (if m.isl = isl ∧ m.team = a then { m with team := b } else m) job
  | .record r => .record r

/-- R144, R147: what a team leaves outstanding goes on under another number, so that its id is free; `b` is above 4095, and
the model's own. -/
def renameTeam (s : State) (isl a b : Nat) : State :=
  let ren (e : MatEntry) : MatEntry := e.renamed isl a b
  let ops := s.core.ops.map fun (o : Op) => if o.ofTeam isl a then { o with m := { o.m with team := b } } else o
  let teams := s.task.teams.map fun e => if e.1 = (isl, a) then ((isl, b), e.2) else e
  let recs := s.eng.recs.map fun r => if r.ref.chain.isl = isl ∧ r.team = a then { r with team := b } else r
  let am := s.mem.am.map fun x => if x.isl = isl ∧ x.team = a then { x with team := b } else x
  { s with
    core := { s.core with ops := ops }
    task := { s.task with teams := teams }
    mem := { s.mem with am := am }
    eng := { s.eng with
      recs := recs
      matq := s.eng.matq.map fun e => if e.1.1 = isl then (e.1, e.2.map ren) else e
      matRun := s.eng.matRun.map fun e => if e.1.1 = isl then (e.1, { e.2 with entry := ren e.2.entry }) else e } }

/-- R144: a number for what the team of an id leaves: the next above 4095 that no other has. -/
def leftId (s : State) (isl team : Nat) : Nat :=
  (s.task.teams.foldl (fun n e => if e.1.1 = isl ∧ e.1.2 % 4096 = team % 4096 then max n e.1.2 else n) team) + 4096

/-- R144, R147: a team whose end is complete is removed once nothing of it is outstanding. -/
def removeTeam (s : State) (isl team : Nat) : State :=
  match s.team? isl team with
  | none => s
  | some t =>
    if t.gone && !(s.core.ops.any (·.ofTeam isl team)) && !(List.range t.n).any fun i => matBusy s isl (t.c0 + i) team then
      { s with task := { s.task with teams := s.task.teams.erase (isl, team) } }
    else s

/-- R117: a team that overran its DEADLINE has stopped: its partition's next residency is shortened by the largest overrun. -/
def markOverrun (s : State) (t : Team) : State :=
  match (s.part? t.part).bind (·.rotation), rotationOf s t.part with
  | some n, some r =>
    let excess := s.hub.ns - (r.tick.getD s.hub.ns + r.deadline)
    if t.preempt.isSome = true ∧ r.shorten.getD t.part 0 < excess then
      { s with par := { s.par with rots := s.par.rots.set n { r with shorten := r.shorten.set t.part excess } } }
    else s
  | _, _ => s

/-- R147: what a team held is released; a copy's writes to its scratchpads perform before. -/
def retireTeam (s : State) (isl team : Nat) (t : Team) : State :=
  let s0 := flushOuts (stopTeam s isl team) fun x => x.ref.chain.isl == isl && (x.core.map t.inSpan).getD false
  let s1 := dropEndless s0 isl team false
  let s2 := forgetMembers (releaseChains s1 isl team) isl team
  let s3 := { s2 with fab := { s2.fab with chans := s2.fab.chans.drop fun k => k.1 == isl && k.2.1 == team } }
  let s4 := s3.setTeam isl team { t with gone := true, ending := some (t.ending.getD (0, 0)), preempt := none }
  let s5 := removeTeam (releaseAm (markOverrun s4 t) isl team t) isl team
  if (s5.team? isl team).isSome then renameTeam s5 isl team (leftId s5 isl team) else s5

/-! ### The return of a record -/

/-- R114, R116: a record goes back to its ready queue with its STAMP; its join count is zero. -/
def giveBack (s : State) (isl team : Nat) (t : Team) : State :=
  let s1 := retireTeam s isl team t
  let s2 := writeField s1 isl t.part t.task.addr 224 213 0xFFF
  let s3 := writeField s2 isl t.part t.task.addr 31 0 0
  enqueue (writeField s3 isl t.part t.task.addr 63 56 2) isl t.part t.task

/-- R114: the matrix engines have read every command that a team's chains on an island hold, but for those of a chain that has
halted. -/
def chainsRead (s : State) (isl team : Nat) : Bool :=
  s.eng.chains.all fun c => c.1.isl != isl || c.2.team != team || c.2.halted || decide (c.2.tail ≤ c.2.read) || (match c.2.eng with
    | .matrix _ => false
    | .copy _ => true)

/-- R114, R116: DISCARD has been carried out: every split and context of the team stands at a clause boundary, and its matrix
commands have gone to their engines. -/
def discardDone (s : State) (isl team : Nat) (t : Team) : Bool :=
  t.stopped && !t.expired && chainsRead s isl team && s.core.threads.all fun e => e.1.m.isl != isl || e.1.m.team != team || e.2.clause.isNone

/-! ### TEAM_END -/

/-- R147, step 2: a completion decrement on the team's own island; its fabric status when it fails. The spec gives no check of
an address that a program wrote and that is not 8-byte aligned: the model decrements the 8 bytes at the address as it stands
(log entry 36). -/
def endDecrement (s : State) (isl part va : Nat) : State × Option Nat :=
  match translate s isl part va .atomic with
  | .fault p _ => (noteWalk s isl part va, some (if p then FStatus.permission.code else FStatus.translation.code))
  | .sealedStore => (s, some FStatus.permission.code)
  | .ok pa _ _ =>
    let r := joinDecrement s isl part va pa 1
    (r.1, if r.2 then none else some FStatus.poison.code)

/-- R147, step 2: completion target `n` of a team's record; its address is taken as it stands (log entry 36). -/
def sendTarget (isl team : Nat) (t : Team) (s : State) (x : Nat × Nat × Nat) : State :=
  let n := x.1
  let ji := x.2.1
  let ja := x.2.2
  if ja = 0 then s
  else if ji = isl then
    let r := endDecrement s isl t.part ja
    endAcked r.1 isl team n r.2
  else if !present s ji then endAcked s isl team n (some FStatus.absent.code)
  else
    request isl t.part 0xFFF (.teamEnd isl team n) s [{
      dest := ji, op := .notify, addr := ja, n := 0, payload := [], och := none, dst := (.global, []), count := 1 }]

/-- R147: the end of a team begins: its completion decrements, where it ended normally. -/
def beginEnd (s : State) (isl team : Nat) (t : Team) (st lcause : Nat) : State :=
  let ts := if st = 0 then [(0, t.task.ji0, t.task.ja0), (1, t.task.ji1, t.task.ja1)] else []
  let waiting := (ts.filter (·.2.2 != 0)).map (·.1)
  let s1 := dropEndless s isl team (st == 0)
  let s2 := { s1 with task := { s1.task with ends := s1.task.ends ++ [⟨isl, team, t.part, t.task, st, lcause, waiting, [], none⟩] } }
  ts.foldl (sendTarget isl team t) s2

/-- R147: the fabric status of the first completion decrement that failed, JA0 before JA1. -/
def EndRec.fail (e : EndRec) : Nat :=
  match e.fails.find? (·.1 == 0), e.fails with
  | some x, _ => x.2
  | none, x :: _ => x.2
  | none, [] => 0

/-- R147, steps 3 and 4: the record of a team that ends is closed. -/
def closeEnd (s : State) (t : Team) (e : EndRec) : State :=
  closeRecord (closePsw s e.isl e.lcause t) e.isl t.part (some e.team) t.task e.status e.fail

/-- R147: the end of a team is complete, and what it held is released. -/
def retireEnd (s : State) (t : Team) (e : EndRec) : State :=
  retireTeam { s with task := { s.task with ends := s.task.ends.filter fun x => !(x.isl == e.isl && x.team == e.team) } }
    e.isl e.team t

/-- R147, step 4: the end of a team completes, or, for ORIGIN 1, once its LAUNCH record has (R485). -/
def finishEnd (s : State) (t : Team) (e : EndRec) : State :=
  let s1 := closeEnd s t e
  match if t.task.origin = 1 then s.hub.cmds.find? (namesLaunch s t.part t.task) else none with
  | none => retireEnd s1 t e
  | some c =>
    { s1 with task := { s1.task with ends := s1.task.ends.map fun x =>
        if x.isl = e.isl ∧ x.team = e.team then { x with cmd := some c.ref } else x } }

/-- R147: the next step of an end in progress; none while it waits for a decrement or for its LAUNCH record. -/
def endGoesOn (s : State) (t : Team) (e : EndRec) : Option State :=
  match e.cmd with
  | some r => if s.hub.cmds.any (·.ref == r) then none else some (retireEnd s t e)
  | none => if e.waiting = [] then some (finishEnd s t e) else none

/-- R147: the next step of a team's end; none while it waits. -/
def endStep (s : State) (isl team : Nat) : Option State :=
  match s.team? isl team with
  | none => none
  | some t =>
    if t.gone then
      let s' := removeTeam s isl team
      if (s'.team? isl team).isSome then none else some s'
    else
      match t.ending with
      | none => if discardDone s isl team t then some (giveBack (closePsw s isl 0 t) isl team t) else none
      | some (st, lc) =>
        match s.task.ends.find? fun e => e.isl = isl ∧ e.team = team with
        | some e => endGoesOn s t e
        | none =>
          if st = 0 ∧ (memoryOpen (dropEndless s isl team true) isl team) = true then none
          else some (beginEnd s isl team t st lc)

/-- R147: TEAM_END. -/
def execTeamEnd (s : State) : Out :=
  match s.occ with
  | .team isl team =>
    match endStep s isl team with
    | some s' => .next (commit s s')
    | none => .refused (.notEnabled "TEAM_END")
  | _ => .refused (.notEnabled "TEAM_END")

end Sys2Proof.Machine
end

