-- ==== Sys2Proof/Machine/Engines.lean ====
section
/-! DEFINITION. The engines' walk of their chains (R225), the matrix engine's queue and records (R233 to R236), and the
completion of records (R226, R232). -/

namespace Sys2Proof.Machine

open Sys2Proof

/-! ### Records -/

/-- The lowest nonzero bit of a field. -/
def firstBit (x hi lo : Nat) : Option Nat := ((List.range (hi + 1 - lo)).find? fun i => nbit x (lo + i)).map (lo + ·)

/-- R232: the lowest of the offending bits. -/
def lowestBit (cs : List (Option Nat)) : Option Nat :=
  match cs.filterMap id with
  | [] => none
  | x :: xs => some (xs.foldl min x)

/-- An offending bit where a condition holds. -/
def badIf (p : Bool) (bit : Nat) : Option Nat := if p then some bit else none

/-- R227: OP of a record. -/
def recOp (x : Nat) : Nat := nbits x 63 56

/-- R227: the reserved fields of every record, and the alignment of JA. -/
def recCommon (x : Nat) : List (Option Nat) :=
  [firstBit x 52 52, firstBit x 134 128, badIf (nbits x 186 135 % 8 != 0) 135]

/-- R227: MALFORMED in a NOP. -/
def nopMal (x : Nat) : Option Nat := lowestBit (recCommon x)

/-- R233: MALFORMED in an MMA record. -/
def mmaMal (x : Nat) : Option Nat :=
  lowestBit (recCommon x ++ [firstBit x 280 192, badIf (nbits x 312 281 % 4 != 0 && nbit x (448 + 13)) 281,
    badIf (nbits x 353 346 == 0) 346, badIf (128 ≤ nbits x 361 354) 354, badIf (4 ≤ nbits x 380 378) 378,
    badIf (4 ≤ nbits x 383 381) 381, badIf (nbits x 415 384 % 64 != 0) 384, badIf (nbits x 447 416 % 64 != 0) 416])

/-- R236: MALFORMED in an MVM record. -/
def mvmMal (x : Nat) : Option Nat :=
  let rows := nbits x 395 380
  let klen := nbits x 379 364
  let blk := fbBlk (nbits x 511 448)
  lowestBit (recCommon x ++ [firstBit x 271 192, badIf (nbits x 299 284 % 64 != 0) 284,
    badIf (nbits x 363 332 % 64 != 0) 332,
    badIf (klen == 0 || klen % 16 != 0 || (blk != 0 && klen % blk != 0)) 364, badIf (rows == 0 || 4096 < rows) 380,
    badIf (nbits x 447 396 % 64 != 0) 396])

/-- R238: the checks made when a matrix engine reads a record: MALFORMED, FORMAT, AM_UNALLOCATED. -/
def matCheck (s : State) (isl core team x : Nat) : Option (Nat × Nat) :=
  if recOp x = 0 then (nopMal x).map fun b => (0x03, b)
  else if recOp x = 0x10 then
    let fb := nbits x 511 448
    match mmaMal x, fbBad fb (if fbSp fb then .mmasp else .mma) with
    | some b, _ => some (0x03, b)
    | none, some b => some (0x04, b)
    | none, none =>
      if amHeld s isl core team (nbits x 361 354) then none else some (0x09, nbits x 361 354)
  else if recOp x = 0x11 then
    let first := nbits x 280 273
    match mvmMal x, fbBad (nbits x 511 448) .mvm with
    | some b, _ => some (0x03, b)
    | none, some b => some (0x04, b)
    | none, none =>
      ((List.range ((nbits x 395 380 + 31) / 32)).find? fun i => !amHeld s isl core team (first + i)).map
        fun i => (0x09, (first + i) % 256)
  else some (0x03, (lowestBit (recCommon x ++ [some 56])).getD 56)

/-- Replace the record of an engine's work. -/
def setRec (s : State) (r : EngRec) : State :=
  { s with eng := { s.eng with recs := s.eng.recs.map fun x => if x.ref = r.ref then r else x } }

/-- The work on a record. -/
def State.rec? (s : State) (r : RecRef) : Option EngRec := s.eng.recs.find? (·.ref = r)

/-! ### An engine's view of memory -/

/-- R100: an engine as the holder of a translation cache. -/
def Engine.agent : Engine → TlbAgent
  | .copy ce => .copy ce
  | .matrix core => .matrix core

/-- R277: memory with a sector as an engine has read it. -/
def MemSt.overlay (m : MemSt) (isl : Nat) (core : Option Nat) (sec : Nat) (bs : List Byte) : MemSt :=
  match core with
  | none => { m with
      l2 := m.l2.putBytes (gkey isl (sec * 64)) bs
      l2mark := m.l2mark.putBytes (gkey isl (sec * 64)) (bs.map fun _ => 1)
      poison := m.poison.filter fun l => l != .global isl sec && l != .hbm isl sec }
  | some c => { m with
      spad := m.spad.putBytes (skey isl c (sec * 64)) bs
      poison := m.poison.filter fun l => l != .spad isl c sec }

/-- R277: memory as an engine reads it: the sectors that it has read ahead stand as it read them. -/
def engineView (s : State) (isl : Nat) (e : Engine) : State :=
  let bs := s.eng.bufs.filter fun b => b.1.1 == isl && b.1.2.1 == e
  { s with mem := bs.foldl (fun m b => m.overlay isl b.1.2.2.1 b.1.2.2.2 b.2) s.mem }

/-- R277: the acquire of an engine: what it has read ahead is dropped. -/
def acquireEngine (s : State) (isl : Nat) (e : Engine) : State := dropBufs s isl fun x _ _ => x == e

/-- R85, R113: the partition that an engine of an island works for now. -/
def enginePart (s : State) (isl : Nat) (e : Engine) (part : Nat) : Bool :=
  match e with
  | .copy ce => ownsEngine s part isl ce && engineActive s isl part e
  | .matrix core => hasSlice s part isl (core / 8)

/-- R277: an engine may read a sector ahead: of its partition's frames, or of a scratchpad of its partition's slices. -/
def mayBuffer (s : State) (isl : Nat) (e : Engine) (core : Option Nat) (sec : Nat) : Bool :=
  s.par.parts.any fun p => enginePart s isl e p.1 && (match core with
    | none => s.par.frames.get? (isl, sec / 1024) == some (.owned, p.1) && !s.mem.sectorPoisoned isl sec
    | some c => hasSlice s p.1 isl (c / 8) && decide (sec < 8192) && !s.mem.poison.contains (.spad isl c sec))

/-- R277: an engine reads a sector ahead; none where it may not. -/
def fillBuf (s : State) (isl : Nat) (e : Engine) (core : Option Nat) (sec : Nat) : Option State :=
  if !mayBuffer s isl e core sec then none
  else
    let bs := match core with
      | none => s.mem.bytes isl (sec * 64) 64
      | some c => s.mem.spadBytes isl c (sec * 64) 64
    some { s with eng := { s.eng with bufs := s.eng.bufs.set (isl, e, core, sec) bs } }

/-- R228, R265: a write in the queue is whole: the record will not add to its word. -/
def outWhole (s : State) (n : Nat) (x : EngWrite) : Bool :=
  (x.addr + x.val.length) % 8 == 0 || (s.eng.outs.drop (n + 1)).any (·.ref == x.ref) ||
    ((s.rec? x.ref).map fun r => r.res.isSome || r.parked.isSome).getD true

/-- R228: a write in the queue to the place of an earlier one. -/
def outBehind (s : State) (n : Nat) (x : EngWrite) : Bool :=
  (s.eng.outs.take n).any fun w => w.ref.chain.isl == x.ref.chain.isl && w.core == x.core &&
    decide (w.addr < x.addr + x.val.length) && decide (x.addr < w.addr + w.val.length)

/-- R277: a write of a copy engine performs; none where there is none, its word is not whole, or an earlier one to its place
has not performed. -/
def drainOut (s : State) (n : Nat) : Option State :=
  match s.eng.outs[n]? with
  | none => none
  | some x =>
    if outWhole s n x && !outBehind s n x then
      some (performOut { s with eng := { s.eng with outs := s.eng.outs.take n ++ s.eng.outs.drop (n + 1) } } x)
    else none

/-- R226, R231: the release of a record: its writes perform. -/
def releaseRec (s : State) (r : EngRec) : State := flushOuts s fun x => x.ref == r.ref

/-! ### Faults -/

/-- R102, R103, R106: an engine parks on a fault; what a replay that faults again counts is kept until an entry holds it. -/
def parkEngine (s : State) (r : EngRec) (va : Nat) (perm : Bool) (level : Nat) (acc : Acc) : State :=
  let isl := r.ref.chain.isl
  let key : FaultKey := ⟨isl, r.ref.chain.part, nbits va 51 16, perm, true⟩
  let again := if r.lastAcc = (acc.code, r.step) then r.replay else none
  let e := match r.eng with
    | .copy ce => (127, 2, ce)
    | .matrix core => (core, 3, 0xFF)
  let s1 := faultEntry (noteWalk s isl r.ref.chain.part va) {
    key := key, va := va, core := e.1, agent := e.2.1, acc := acc.code, level := level, team := 0xFFF, engine := e.2.2,
    retry := retryOf again key, stamp := 0, fseq := none, held := none, order := 0 }
  setRec s1 { r with
    parked := some (parkedOn s1 key), replay := keptReplay s1 key again, lastAcc := (acc.code, r.step) }

/-- The work on a record is done, with a status and DETAIL. -/
def doneRec (s : State) (r : EngRec) (st detail : Nat) : State := setRec s { r with res := some (st, detail) }

/-- R102, R232: a failed access of an engine: it parks, or its record ends with SEALED or POISON. -/
def failRec (s : State) (r : EngRec) (acc : Acc) (detail : Nat) : XErr → State
  | .fault va perm level => parkEngine s r va perm level acc
  | .sealed _ => doneRec s r 0x05 detail
  | .poison _ => doneRec s r 0x07 detail

/-! ### Walking -/

/-- R225: the address of the next record: HEAD, or NEXT of the record last read. -/
def nextRecord (s : State) (r : ChainRef) (c : Chain) : Except XErr Nat :=
  if c.read = 0 then .ok c.head
  else (accessBy s r.isl c.eng.agent r.part c.next 8 .read true).map fun a => s.mem.nat r.isl a.1 8 % 2 ^ 52

/-- R225: an engine has room for another record: a copy engine works on eight of a partition at once, a matrix engine's
queue holds 32. -/
def engineRoom (s : State) (isl part : Nat) : Engine → Bool
  | .copy ce =>
    (s.eng.recs.filter fun r => r.known && r.ref.chain.isl == isl && r.ref.chain.part == part && r.eng == .copy ce).length < 8
  | .matrix core => (s.eng.matq.getD (isl, core) []).length < 32

/-- R225, R232: what reading decides of a copy engine's record: MALFORMED where its OP is none of the engine's. -/
def copyStart (x : Nat) : Option (Nat × Nat) :=
  if recOp x ≤ 1 then none else some (0x03, (lowestBit (recCommon x ++ [some 56])).getD 56)

/-- R225: a record that has been read is started: it joins its matrix engine's queue, or the copy engine's work. One with
FENCE comes after the writes of the records before it (R277). -/
def startRec (s : State) (ref : RecRef) (c : Chain) (addr pa x : Nat) : State :=
  let isl := ref.chain.isl
  let res := match c.eng with
    | .matrix core => matCheck s isl core c.team x
    | .copy _ => copyStart x
  let r : EngRec := {
    ref := ref, eng := c.eng, team := c.team, addr := addr, pa := pa, known := true, bits := x, res := res,
    step := 0, parked := none, replay := none, lastAcc := (0, 0), follow := c.follows.contains ref.seq, since := s.clk isl
    turn := none, lays := none }
  let s := if nbit x 53 then flushOuts s fun w => w.ref.chain == ref.chain else s
  let recs := s.eng.recs.filter (·.ref ≠ ref) ++ [r]
  let matq := match c.eng with
    | .matrix core => s.eng.matq.set (isl, core) (s.eng.matq.getD (isl, core) [] ++ [.record ref])
    | .copy _ => s.eng.matq
  let s' := setChain { s with eng := { s.eng with
    recs := recs, matq := matq, served := s.eng.served.set (isl, c.eng) ref.chain } } ref.chain
    { c with read := ref.seq, next := addr, follows := c.follows.filter (· ≠ ref.seq) }
  syncChain s s' ref.chain

/-- R148, R231: a copy engine stands still while a full chain blocks the follow-on of another of its records. -/
def engineBlocked (s : State) (isl : Nat) (e : Engine) (ref : RecRef) : Bool :=
  s.eng.recs.any fun r => r.ref.chain.isl == isl && r.eng == e && r.ref != ref && r.turn.isSome && r.res.isNone && r.parked.isNone

/-- R225: an engine reads the next record of a chain, or parks at it. None when it may not read one. -/
def readChain (s : State) (ref : ChainRef) : Option State :=
  match s.eng.chains.get? ref with
  | none => none
  | some c =>
    let n := c.read + 1
    let rr : RecRef := ⟨ref, n⟩
    let blank : EngRec := {
      ref := rr, eng := c.eng, team := c.team, addr := 0, pa := 0, known := false, bits := 0, res := none, step := 0
      parked := none, replay := (s.rec? rr).bind (·.replay), lastAcc := (0, 0), follow := false, since := s.clk ref.isl, turn := none, lays := none }
    let park (va : Nat) (p : Bool) (l : Nat) : State :=
      parkEngine { s with eng := { s.eng with recs := s.eng.recs.filter (·.ref ≠ rr) ++ [blank] } } blank va p l .read
    let poisoned (addr : Nat) : State := doneRec (startRec s rr c addr 0 0) { blank with addr := addr, known := true } 0x07 0
    if c.halted || c.tail < n || engineBlocked s ref.isl c.eng rr || !engineRoom s ref.isl ref.part c.eng || !engineActive s ref.isl ref.part c.eng || ((s.rec? rr).bind (·.parked)).isSome then none
    else
      match nextRecord s ref c with
      | .error (.fault va p l) => some (park va p l)
      | .error _ => some (poisoned 0)
      | .ok addr =>
        match accessBy s ref.isl c.eng.agent ref.part addr 64 .read true with
        | .error (.fault va p l) => some (park va p l)
        | .error _ => some (poisoned addr)
        | .ok (pa, _) =>
          let x := s.mem.nat ref.isl pa 64
          if nbit x 53 && c.comp + 1 < n then none else some (startRec s rr c addr pa x)

/-- R225: the chains of an engine in the order of its round robin: from the one after that it served last. -/
def roundRobin (s : State) (isl : Nat) (e : Engine) : List ChainRef :=
  let cs := (s.eng.chains.filter fun c => c.1.isl == isl && c.2.eng == e).map (·.1)
  match s.eng.served.get? (isl, e) with
  | none => cs
  | some r => if cs.contains r then ((cs.dropWhile (· != r)).drop 1) ++ cs.takeWhile (· != r) ++ [r] else cs

/-- R225: an engine serves a chain: of those whose next record it may read, the next in turn. -/
def engRead (s : State) (ref : ChainRef) : Option State :=
  match s.eng.chains.get? ref with
  | none => none
  | some c =>
    if ((roundRobin s ref.isl c.eng).find? fun r => (readChain s r).isSome) == some ref then readChain s ref else none

/-! ### The matrix engine -/

/-- R222: CAIRN and BIV of a core's input queue have changed, and the status words of its chains follow. -/
def syncMatrix (s s' : State) (isl core : Nat) : State :=
  (s'.eng.chains.filter fun c => c.1.isl == isl && c.2.eng == .matrix core).foldl (fun t c => syncChain s t c.1) s'

/-- R213: a matrix engine takes a spoilt record, which ends with POISON (log entry 29). -/
def spoil (s : State) (e : MatEntry) (bad : Bool) : State :=
  match e with
  | .record ref => if bad then { s with eng := { s.eng with recs := s.eng.recs.map fun r =>
      if r.ref = ref ∧ r.res = none then { r with res := some (0x07, 0) } else r } } else s
  | .instr .. => s

/-- R149, R225: a matrix engine takes the next entry of its queue. None when it is busy or has no entry. -/
def matStart (s : State) (isl core : Nat) : Option State :=
  match s.eng.matRun.get? (isl, core), s.eng.matq.getD (isl, core) [] with
  | none, e :: q =>
    let mark : Loc := .matq isl core e.key
    let bad := s.mem.poison.contains mark
    let cairn := s.eng.matCairn.getD (isl, core) (0, false)
    let cairns := if cairn.2 && q.length ≤ 31 then s.eng.matCairn.set (isl, core) (cairn.1, false) else s.eng.matCairn
    let s1 := { s with
      mem := { s.mem with poison := s.mem.poison.erase mark }
      eng := { s.eng with
        matq := s.eng.matq.set (isl, core) q, matRun := s.eng.matRun.set (isl, core) ⟨e, [], 0, [], bad⟩
        matCairn := cairns } }
    some (syncMatrix s (spoil s1 e bad) isl core)
  | _, _ => none

/-- R265, R425: a matrix engine reads the operands of some rows of its instruction, and computes their results, which stand
in its banks at its completion. None when no row is left. -/
def matRows (s : State) (isl core n : Nat) : Option State :=
  match s.eng.matRun.get? (isl, core) with
  | some r =>
    match r.entry with
    | .instr _ _ job =>
      let is := ((List.range job.height).drop r.rows).take n
      if is.isEmpty then none
      else some { s with eng := { s.eng with matRun := s.eng.matRun.set (isl, core) { r with
        writes := r.writes ++ is.flatMap (jobRow s isl core job), rows := r.rows + is.length } } }
    | .record _ => none
  | none => none

/-- The words a matrix engine has yet to write. -/
def setWrites (s : State) (isl core : Nat) (ws : List ((Nat × Nat) × W32)) : State :=
  { s with eng := { s.eng with matRun := s.eng.matRun.modify (isl, core) fun r => { r with writes := ws } } }

/-- R255: the scale ranges of step `k` of an MMA record. -/
def stepScales (fb k : Nat) : List (Nat × Nat) :=
  (mmaScales fb).map fun r => (r.1 + k * r.2, r.2)

/-- R233: the operand ranges of step `k` of an MMA record. -/
def stepRanges (x k : Nat) : List (Nat × Nat) :=
  let fb := nbits x 511 448
  let da := 64 * k * nbits x 345 330
  mmaRanges fb (nbits x 447 416 + da) (nbits x 415 384 + 64 * k * nbits x 329 314) (nbits x 312 281 + da / 2) (fbSp fb)

/-- R232, R234: the status of a check of ranges. -/
def rangeStatus (scr : Nat) (rs : List (Nat × Nat)) : Option (Nat × Nat) :=
  match rangesBad scr rs with
  | .inl off => some (0x0A, off)
  | .inr true => some (0x04, 0)
  | .inr false => none

/-- R234: the checks of every step, before step 0. -/
def mmaPre (t : Team) (core x : Nat) : Option (Nat × Nat) :=
  let fb := nbits x 511 448
  let near (q : Nat) : Nat := 4 * (core / 4) + q
  if !t.inSpan (near (nbits x 383 381)) || !t.inSpan (near (nbits x 380 378)) then some (0x08, 0)
  else (List.range (nbits x 353 346)).findSome? fun k => rangeStatus t.hdr.scr (stepRanges x k ++ stepScales fb k)

/-- R233: step `k` of an MMA record as a job; or the status of a step that fails. -/
def stepJob (s : State) (isl core : Nat) (t : Team) (x k : Nat) : Except (Nat × Nat) MatJob :=
  let fb := nbits x 511 448
  let ca := 4 * (core / 4) + nbits x 383 381
  let cb := 4 * (core / 4) + nbits x 380 378
  let rs := stepRanges x k
  let sc := stepScales fb k
  match spadRangesPoison s isl t (([ca, cb, ca].zip rs) ++ sc.map fun r => (core, r)) with
  | some _ => .error (0x07, 0)
  | none =>
    let bytes (c : Nat) (r : Option (Nat × Nat)) : List Byte :=
      match r with
      | some r => resBytes s isl t c r.1 r.2
      | none => []
    let metas := bytes ca rs[2]?
    match if fbSp fb then metaBad (fbK fb) metas else none with
    | some i => .error (0x04, 256 + i)
    | none =>
      let fresh := k == 0 && !nbit x 313
      if fresh && (banksPoison s isl core ((List.range 512).map (nbits x 361 354, ·))).isSome then .error (0x07, 0)
      else .ok {
            mvm := false, sparse := fbSp fb, fmt := fb, bank := nbits x 361 354, acore := ca,
            aoff := t.base ca + (rs.headD (0, 0)).1, bcore := cb, boff := t.base cb + ((rs[1]?).getD (0, 0)).1,
            metas := metas, asc := bytes core sc[0]?, bsc := bytes core sc[1]?, rows := 0, klen := 0, wrows := [], nv := 0,
            vstr := 0, zacc := false }

/-- An accumulator word as the words written so far leave it. -/
def wordAfter (s : State) (isl core : Nat) (ws : List ((Nat × Nat) × W32)) (bank word : Nat) : W32 :=
  match ws.find? fun w => w.1 == (bank, word) with
  | some w => w.2
  | none => accWord s isl core bank word

/-- R233, R234, R260: the steps of an MMA record, up to the first that fails. -/
def mmaSteps (s : State) (isl core : Nat) (t : Team) (x : Nat) :
    List Nat → List ((Nat × Nat) × W32) → List ((Nat × Nat) × W32) × (Nat × Nat)
  | [], ws => (ws, (0, 0))
  | k :: ks, ws =>
    match stepJob s isl core t x k with
    | .error e => (ws, e)
    | .ok j => mmaSteps s isl core t x ks (mmaWrites s isl j (wordAfter s isl core ws))

/-- R265: as much of a record's work as the event under way does. -/
def takeSome (s : State) (xs : List Nat) : List Nat :=
  match s.occ with
  | .engineSome _ n => xs.take n
  | _ => xs

/-- R270, R277: the acquire before a record's first read: with ACQ, and always for a follow-on. -/
def beginRec (s : State) (r : EngRec) : State :=
  if (nbit r.bits 55 || r.follow) && r.step == 0 && r.lays.isNone then acquireEngine s r.ref.chain.isl r.eng else s

/-- The bank words that a matrix engine has yet to write. -/
def unwritten (s : State) (isl core : Nat) : List ((Nat × Nat) × W32) :=
  ((s.eng.matRun.get? (isl, core)).map (·.writes)).getD []

/-- R233, R265: MMA_RECORD in the matrix engine of a core: its steps, or some of them. -/
def runMma (s : State) (r : EngRec) (core : Nat) : State :=
  let s := beginRec s r
  let isl := r.ref.chain.isl
  match s.team? isl r.team with
  | none => doneRec s r 0x08 0
  | some t =>
    match mmaPre t core r.bits with
    | some e => doneRec s r e.1 e.2
    | none =>
      let bank := nbits r.bits 361 354
      let zero := if nbit r.bits 313 then (List.range 512).map fun w => ((bank, w), (0 : W32)) else []
      let ks := takeSome s ((List.range (nbits r.bits 353 346)).drop r.step)
      let res := mmaSteps (engineView s isl r.eng) isl core t r.bits ks (if r.step = 0 then zero else unwritten s isl core)
      let s := setWrites s isl core res.1
      if res.2 = (0, 0) ∧ r.step + ks.length < nbits r.bits 353 346 then setRec s { r with step := r.step + ks.length }
      else doneRec s r res.2.1 res.2.2

/-- R236: row `i` of an MVM record: the runs of physical addresses of its weights, as the engine reads them. -/
def recRow (s v : State) (r : EngRec) (i : Nat) : Except XErr (List (Nat × Nat)) :=
  let x := r.bits
  let fb := nbits x 511 448
  let va := nbits x 447 396 + i * nbits x 363 332
  let isl := r.ref.chain.isl
  (pageRuns 8 va (rowBytes (fbA fb) (nbits x 379 364))).mapM fun p =>
    match accessBy s isl r.eng.agent r.ref.chain.part p.1 p.2 .read false with
    | .error e => .error e
    | .ok (pa, _) => if (v.mem.poisonedAt isl pa p.2).isSome then .error (.poison p.1) else .ok (pa, p.2)

/-- R236: a row reads a poisoned word of its banks. -/
def rowPoison (s : State) (isl core : Nat) (j : MatJob) (i : Nat) : Bool :=
  !j.zacc && (banksPoison s isl core ((List.range (j.nv + 1)).map fun v => (j.bank + i / 32, 16 * (i % 32) + v))).isSome

/-- R236: rows of an MVM record, up to one that faults or fails: the words, how many rows are done, and the error. `v` is
memory as the engine reads it. -/
def mvmRows (s v : State) (r : EngRec) (core : Nat) (j : MatJob) :
    List Nat → List ((Nat × Nat) × W32) → Nat → List ((Nat × Nat) × W32) × Nat × Option XErr
  | [], ws, n => (ws, n, none)
  | i :: is, ws, n =>
    match if rowPoison s r.ref.chain.isl core j i then .error (.poison 0) else recRow s v r i with
    | .error e => (ws, n, some e)
    | .ok runs =>
      let j' := { j with wrows := List.replicate i [] ++ [runs] }
      mvmRows s v r core j is (ws ++ mvmRow v r.ref.chain.isl j' (accWord s r.ref.chain.isl core) i) (n + 1)

/-- R236, R265: MVM_RECORD in the matrix engine of a core: its rows, or some of them. -/
def runMvm (s : State) (r : EngRec) (core : Nat) : State :=
  let s := beginRec s r
  let isl := r.ref.chain.isl
  let v := engineView s isl r.eng
  let x := r.bits
  let fb := nbits x 511 448
  let rows := nbits x 395 380
  let klen := nbits x 379 364
  let nv := nbits x 283 281
  match s.team? isl r.team with
  | none => doneRec s r 0x08 0
  | some t =>
    let vs := mvmVectors fb (nbits x 331 300) (nbits x 299 284) klen nv
    let sc := mvmScales fb rows klen nv
    match rangeStatus t.hdr.scr (vs ++ sc) with
    | some e => doneRec s r e.1 e.2
    | none =>
      match spadRangesPoison v isl t ((vs ++ sc).map fun r => (core, r)) with
      | some _ => doneRec s r 0x07 r.step
      | none =>
        let bytes (q : Option (Nat × Nat)) : List Byte :=
          match q with
          | some q => resBytes v isl t core q.1 q.2
          | none => []
        let j : MatJob := {
          mvm := true, sparse := false, fmt := fb, bank := nbits x 280 273, acore := core, aoff := 0,
          bcore := core, boff := t.base core + nbits x 331 300, metas := [], asc := bytes sc[0]?, bsc := bytes sc[1]?,
          rows := rows, klen := klen, wrows := [], nv := nv, vstr := nbits x 299 284, zacc := nbit x 272 }
        let res := mvmRows s v r core j (takeSome s ((List.range rows).drop r.step)) (unwritten s isl core) 0
        let s := setWrites s isl core res.1
        let r := { r with step := r.step + res.2.1, parked := none }
        match res.2.2 with
        | none => if r.step = rows then doneRec s r 0 0 else setRec s r
        | some (.fault va p l) => parkEngine s r va p l .read
        | some _ => doneRec s r 0x07 r.step

/-! ### Events -/

/-- The record that the event under way names, where it is being worked on, not done, not parked. -/
def occRec (s : State) : Option EngRec :=
  match s.occ with
  | .engine r | .engineSome r _ => (s.rec? r).filter fun e =>
    e.known && e.res.isNone && e.parked.isNone && !engineBlocked s r.chain.isl e.eng r && recordActive s r.chain.isl r.chain.part e.eng
  | _ => none

/-- R225: the matrix engine of a core performs a record. -/
def atEngine (s : State) (r : EngRec) (core : Nat) : Bool :=
  ((s.eng.matRun.get? (r.ref.chain.isl, core)).map fun x => x.entry == .record r.ref).getD false

/-- A record event of a matrix engine. -/
def matEvent (s : State) (m : String) (op : Nat) (f : EngRec → Nat → State) : Out :=
  match occRec s with
  | none => idle m
  | some r =>
    match r.eng with
    | .matrix core => if recOp r.bits = op ∧ atEngine s r core then .next (commit s (f r core)) else idle m
    | .copy _ => idle m

/-- R227: NOP_RECORD. -/
def execNopRecord (s : State) : Out :=
  match occRec s with
  | none => idle "NOP_RECORD"
  | some r =>
    let ok := match r.eng with
      | .matrix core => atEngine s r core
      | .copy _ => true
    if recOp r.bits ≠ 0 ∨ !ok then idle "NOP_RECORD"
    else
      match nopMal r.bits with
      | some b => .next (commit s (doneRec s r 0x03 b))
      | none => .next (commit s (doneRec s r 0 0))

/-- R233: MMA_RECORD. -/
def execMmaRecord (s : State) : Out := matEvent s "MMA_RECORD" 0x10 (runMma s)

/-- R236: MVM_RECORD. -/
def execMvmRecord (s : State) : Out := matEvent s "MVM_RECORD" 0x11 (runMvm s)

/-! ### Completion -/

/-- R226: COMP rises as far as the completed prefix allows. -/
def raiseComp : Nat → Chain → Chain
  | 0, c => c
  | n + 1, c =>
    if c.doneAbove.contains (c.comp + 1) then
      raiseComp n { c with comp := c.comp + 1, doneAbove := c.doneAbove.filter (· ≠ c.comp + 1) }
    else c

/-- R226: record `n` of a chain has completed with a status. The bivouac entry is free again once the chain holds one record
less than its capacity (R149). -/
def Chain.complete (c : Chain) (n st addr : Nat) : Chain :=
  let c := raiseComp 65 { c with doneAbove := n :: c.doneAbove }
  let c := if c.biv && c.tail < c.cap + c.comp then { c with biv := false } else c
  if st = 0 ∨ (c.halted ∧ c.errseq ≤ n) then c
  else { c with halted := true, hstat := st, erraddr := addr, errseq := n }

/-- R226, step 1: STATUS and DETAIL are written; a write that fails makes the status RECORD. -/
def writeStatus (s : State) (r : EngRec) (st detail : Nat) : State × Nat :=
  let isl := r.ref.chain.isl
  match accessBy s isl r.eng.agent r.ref.chain.part (r.addr + 8) 8 .write true with
  | .ok (pa, _) => (bypassBank s isl none pa (leBytes 8 (detail % 2 ^ 56 + st * 2 ^ 56)), st)
  | .error e => (e.note s isl r.ref.chain.part, 0x0B)

/-- R226, step 3: the join decrement of a record that completed with OK; or the fault at which the engine parks. -/
def recordJoin (s : State) (r : EngRec) : Except XErr State :=
  let ji := nbits r.bits 191 187
  let ja := nbits r.bits 186 135
  let isl := r.ref.chain.isl
  let part := r.ref.chain.part
  if ja = 0 then .ok s
  else if ji = isl then
    match accessBy s isl r.eng.agent part ja 8 .atomic false with
    | .error (.fault va p l) => .error (.fault va p l)
    | .error _ => .ok (report s part 5 [isl, ja])
    | .ok (pa, _) =>
      let d := joinDecrement s isl part ja pa 1
      .ok (if d.2 then d.1 else report d.1 part 5 [isl, ja])
  else if !present s ji then .ok (report s part 5 [ji, ja])
  else
    .ok (request isl part 0xFFF .engine s [{
      dest := ji, op := .notify, addr := ja, n := 0, payload := [], och := none, dst := (.global, []), count := 1 }])

/-- R225, R226: the engine has done with a record: its banks are written, COMP rises, and its place is free. -/
def closeRec (s : State) (r : EngRec) (st : Nat) : State :=
  let isl := r.ref.chain.isl
  let s := match r.eng with
    | .matrix core => matrixDone s isl core
    | .copy _ => s
  let s1 := { s with eng := { s.eng with recs := s.eng.recs.filter (·.ref ≠ r.ref) } }
  let s2 := match s1.eng.chains.get? r.ref.chain with
    | some c => releaseHalted (syncChain s (setChain s1 r.ref.chain (c.complete r.ref.seq st r.addr)) r.ref.chain) r.ref.chain
    | none => s1
  match r.eng with
  | .matrix core => releaseBanks s2 isl core r.team
  | .copy _ => s2

/-- R226: a record completes, or parks at its join target; with REL its writes perform first. -/
def completeRec (s : State) (r : EngRec) (st detail : Nat) : State :=
  let w := writeStatus s r st detail
  let w := if nbit r.bits 54 then (releaseRec w.1 r, w.2) else w
  if w.2 ≠ 0 then closeRec w.1 r w.2
  else
    match recordJoin w.1 r with
    | .ok s' => closeRec s' r 0
    | .error (.fault va p l) => parkEngine w.1 r va p l .atomic
    | .error _ => closeRec w.1 r 0

/-- R226: ENGINE_RECORD_COMPLETION. -/
def execEngineRecordCompletion (s : State) : Out :=
  match s.occ with
  | .engine ref =>
    match s.rec? ref with
    | some r =>
      let ok := match r.eng with
        | .matrix core => atEngine s r core
        | .copy _ => true
      match r.res, r.parked with
      | some (st, d), none => if ok && recordActive s ref.chain.isl ref.chain.part r.eng then .next (commit s (completeRec s r st d)) else idle "ENGINE_RECORD_COMPLETION"
      | _, _ => idle "ENGINE_RECORD_COMPLETION"
    | none => idle "ENGINE_RECORD_COMPLETION"
  | _ => idle "ENGINE_RECORD_COMPLETION"

/-- R223: COPY_CHAIN_IDLE_UNBIND. -/
def execCopyChainIdleUnbind (s : State) : Out :=
  match s.occ with
  | .engineChain r =>
    match s.eng.chains.get? r with
    | some c =>
      let copy := match c.eng with
        | .copy _ => true
        | .matrix _ => false
      if copy && !c.halted && c.comp == c.tail && 65536 ≤ s.clk r.isl - c.lastAppend then
        .next (commit s (unbindChain s r))
      else idle "COPY_CHAIN_IDLE_UNBIND"
    | none => idle "COPY_CHAIN_IDLE_UNBIND"
  | _ => idle "COPY_CHAIN_IDLE_UNBIND"

end Sys2Proof.Machine
end

