-- ==== Sys2Proof/Machine/Faults.lean ====
section
/-! DEFINITION. The fault unit: fault chains and records (R103 to R106), and the release of parked agents (R107). -/

namespace Sys2Proof.Machine

open Sys2Proof

/-! ### Records -/

/-- R106: a fault record as 512 bits. -/
def faultBits (s : State) (e : FaultEnt) (n : Nat) : Nat :=
  n % 2 ^ 64 * 2 ^ 448 + e.stamp % 2 ^ 64 * 2 ^ 384 + e.va % 2 ^ 52 * 2 ^ 332 + e.key.isl % 32 * 2 ^ 327 +
    e.core % 128 * 2 ^ 320 + e.agent % 16 * 2 ^ 316 + e.acc % 4 * 2 ^ 314 + e.key.perm.toNat * 2 ^ 313 +
    e.level % 4 * 2 ^ 311 + e.team % 4096 * 2 ^ 299 + e.engine % 256 * 2 ^ 291 + min e.retry 255 * 2 ^ 283 +
    min (agentsOn s e.key) 0xFFFF * 2 ^ 267

/-- R69, R105: a SEND on the event queue pair that an EVQP field selects, where it is enabled and not in error. -/
def sendEvent (s : State) (part evqp : Nat) (bs : List Byte) : State :=
  if nbit evqp 19 && !s.hub.qpError.contains (part, evqp % 256) then { s with hub := { s.hub with out := s.hub.out ++ [.send part (evqp % 256) bs] } } else s

/-- R11, R105: a SEND of an island's fault unit, which waits while the island has no way to the hub (log entry 47). -/
def sendFrom (s : State) (isl part evqp : Nat) (bs : List Byte) : State :=
  if hubReaches s isl then sendEvent s part evqp bs
  else if nbit evqp 19 then { s with hub := { s.hub with sends := s.hub.sends ++ [(isl, .send part (evqp % 256) bs)] } } else s

/-- R11, R105: the SENDs that waited for a way to the hub go, but for those on a queue pair in error. -/
def sendHeld (s : State) : State :=
  let bad (m : HostMsg) : Bool := match m with
    | .send p q _ => s.hub.qpError.contains (p, q)
    | _ => false
  let go := (s.hub.sends.filter fun x => hubReaches s x.1).map (·.2)
  { s with hub := { s.hub with
    out := s.hub.out ++ go.filter (!bad ·), sends := s.hub.sends.filter fun x => !hubReaches s x.1 } }

/-- Replace a pending-fault entry. -/
def setFault (s : State) (e : FaultEnt) : State :=
  { s with par := { s.par with faults := s.par.faults.map fun x => if x.order = e.order then e else x } }

/-- R105: the outcome of an attempt to post. -/
inductive Post where
  | full
  | failed (s : State)
  | done (s : State)

/-- R105: an attempt to post an entry's record: the record is written first, then WIDX. -/
def tryPost (s : State) (e : FaultEnt) (f : FaultChain) : Post :=
  let isl := e.key.isl
  let part := e.key.part
  let n := f.widx + 1
  match readVa s isl part (f.desc + 256) 8, readVa s isl part (f.desc + 8) 8 with
  | .ok ridx, .ok w =>
    if 2 ^ (f.size + 6) ≤ f.widx - min ridx f.widx then .full
    else
      match writeVa s isl part (f.base + 64 * (f.widx % 2 ^ (f.size + 6))) (leBytes 64 (faultBits s e n)) with
      | .error e => .failed (e.note s isl part)
      | .ok s1 =>
        match writeVa s1 isl part (f.desc + 16) (leBytes 8 n) with
        | .error e => .failed (e.note s1 isl part)
        | .ok s2 =>
          let s3 := setFault s2 { e with fseq := some n, held := none }
          let s4 := { s3 with par := { s3.par with fchains := s3.par.fchains.set (part, isl) { f with widx := n } } }
          .done (sendFrom s4 isl part (nbits w 63 44) (leBytes 8 n))
  | .error x, _ | .ok _, .error x => .failed (x.note s isl part)

/-- R105: the oldest entry of a partition on an island whose record has not been posted. -/
def nextPost (s : State) (isl part : Nat) : Option FaultEnt :=
  s.par.faults.find? fun e => e.key.isl == isl && e.key.part == part && e.fseq.isNone

/-- R105: the entry's record is posted, or held for 65,536 core clocks; none while no chain is registered or the ring is
full. -/
def post (s : State) (e : FaultEnt) : Option State :=
  match s.par.fchains.get? (e.key.part, e.key.isl) with
  | none => none
  | some f =>
    match tryPost s e f with
    | .full => none
    | .failed s1 =>
      some (report (setFault s1 { e with held := some (s.clk e.key.isl + 65536) }) e.key.part 12 [e.key.isl, f.desc])
    | .done s' => some s'

/-- The pending-fault entry that the event under way names, the oldest of its partition still to be posted. -/
def occFault (s : State) : Option FaultEnt :=
  match s.occ with
  | .fault isl part order => (nextPost s isl part).filter (·.order == order)
  | _ => none

/-- R103, R105: FAULT_RECORD_POST. -/
def execFaultRecordPost (s : State) : Out :=
  match occFault s with
  | some e =>
    match if e.held.isNone ∧ e.stamp + 1024 ≤ s.clk e.key.isl then post s e else none with
    | some s' => .next (commit s s')
    | none => idle "FAULT_RECORD_POST"
  | none => idle "FAULT_RECORD_POST"

/-- R105: FAULT_POST_RETRY. -/
def execFaultPostRetry (s : State) : Out :=
  match occFault s with
  | some e =>
    match if (e.held.map fun t => decide (t ≤ s.clk e.key.isl)).getD false then post s e else none with
    | some s' => .next (commit s s')
    | none => idle "FAULT_POST_RETRY"
  | none => idle "FAULT_POST_RETRY"

/-! ### Release -/

/-- R103, R107: the agents of an entry are released to replay, and the entry is freed. -/
def releaseFault (s : State) (e : FaultEnt) : State :=
  let again := some (e.key, min (e.retry + 1) 255)
  let threads := s.core.threads.map fun (t, r) =>
    if r.wait.parked = some e.key then (t, { r with wait := { r.wait with parked := none, replay := again } }) else (t, r)
  let recs := s.eng.recs.map fun (r : EngRec) =>
    if r.parked = some e.key then { r with parked := none, replay := again } else r
  rewalk { s with
    core := { s.core with threads := threads }
    eng := { s.eng with recs := recs }
    par := { s.par with faults := s.par.faults.filter (·.order ≠ e.order) } } e.key.isl e.key.part

end Sys2Proof.Machine
end

