-- ==== Sys2Proof/Machine/Pcp.lean ====
section
/-! DEFINITION. The panel command processor: command chains (R64 to R70, R76), LAUNCH (R72, R137), NOTIFY (R73), RESUME
(R75, R107). -/

namespace Sys2Proof.Machine

open Sys2Proof

/-! ### Who may be reached -/

/-- R79: the anchor runs. -/
def anchorUp (s : State) : Bool := s.hub.boot == .running

/-- R78: the service firmware runs, so Redfish, TOPOSET, MAP and UNMAP are served. -/
def serviceUp (s : State) : Bool := anchorUp s && s.hub.service

/-- R84: a partition holds an island. -/
def holdsIsland (s : State) (part isl : Nat) : Bool :=
  if part = 0 then present s isl else ((s.part? part).map fun p => nbit p.islands isl).getD false

/-- R70: ABSENT or UNREACHABLE for a command's island. An ISLAND field of 24 to 31 gives ABSENT: the spec leaves open
whether it is a field out of range (log entry 43). -/
def targetBad (s : State) (part isl : Nat) : Option Nat :=
  if !present s isl then some 0x12
  else if !holdsIsland s part isl || !hubReaches s isl then some 0x13
  else none

/-! ### Chains -/

/-- Replace a command chain's record. -/
def setCmdChain (s : State) (k : Nat × Nat) (c : CmdChain) : State :=
  { s with hub := { s.hub with chains := s.hub.chains.set k c } }

/-- R11, R91: a read of the hub's in an island's memory; none where it fails or the hub cannot reach the island. -/
def hubRead (s : State) (isl part va n : Nat) : Option Nat :=
  if hubReaches s isl then (readVa s isl part va n).toOption else none

/-- R11: a write of the hub's in an island's memory; none where it fails or the hub cannot reach the island. -/
def hubPut (s : State) (isl part va : Nat) (bs : List Byte) : Option State :=
  if hubReaches s isl then (writeVa s isl part va bs false).toOption else none

/-- R65, R76, R91: a device write of a command chain's descriptor or records; one that fails is dropped and reported. -/
def hubWrite (s : State) (isl part va : Nat) (bs : List Byte) : State :=
  (hubPut s isl part va bs).getD (report (noteWalk s isl part va) part 4 [isl, va])

/-- R69: COMP rises as far as the completed prefix allows. -/
def raisePrefix : Nat → CmdChain → CmdChain
  | 0, c => c
  | n + 1, c =>
    if c.done.contains (c.comp + 1) then
      raisePrefix n { c with comp := c.comp + 1, done := c.done.filter (· ≠ c.comp + 1) }
    else c

/-- R69: a record of a chain has completed: COMP is written, and an event is sent where EVQP is enabled. The spec gives the
16 bytes of the SEND no layout: the model puts the chain number, 16 for the service chain, in the first 8 bytes and COMP in
the last 8, both little-endian (log entry 43). -/
def completeSeq (s : State) (k : Nat × Nat) (seq : Nat) : State :=
  match s.hub.chains.get? k with
  | none => s
  | some c =>
    let c' := raisePrefix (c.done.length + 1) { c with done := seq :: c.done }
    let s1 := setCmdChain s k c'
    if c'.comp = c.comp then s1
    else
      let s2 := hubWrite s1 c.home k.1 (c.desc + 280) (leBytes 8 c'.comp)
      match hubRead s2 c.home k.1 (c.desc + 256) 8 with
      | some w => sendEvent s2 k.1 (w % 2 ^ 20) (leBytes 8 k.2 ++ leBytes 8 c'.comp)
      | none => noteWalk s2 c.home k.1 (c.desc + 256)

/-- R76: CHAIN_HALT: STATE and ERRADDR are written. -/
def haltCmd (s : State) (k : Nat × Nat) (addr : Nat) : State :=
  match s.hub.chains.get? k with
  | none => s
  | some c =>
    if c.halted then s
    else
      let s1 := setCmdChain s k { c with halted := true }
      hubWrite (hubWrite s1 c.home k.1 (c.desc + 272) (leBytes 8 addr)) c.home k.1 (c.desc + 271) [2]

/-! ### Starting records -/

/-- R71: a command code that is not reserved. -/
def cmdKnown (code : Nat) : Bool := 1 ≤ code && code ≤ 6

/-- R51: a partition that may submit TOPOSET. -/
def mayToposet (s : State) (part : Nat) : Bool :=
  part == 0 || (List.range 24).all fun i => !present s i || holdsIsland s part i

/-- R71: the status of a record that is decided before its body is looked at. -/
def cmdEarly (s : State) (part chain x : Nat) : Option (Nat × Nat × Nat) :=
  let code := nbits x 63 56
  match lowestBit [firstBit x 54 52, badIf (!cmdKnown code) 56] with
  | some b => some (0x11, b, openField s 1 32)
  | none =>
    if (chain == 16) != (code == 4 || code == 5) || (code == 3 && !mayToposet s part) then
      some (0x10, openField s 0 24, openField s 1 32)
    else none

/-- R68: the address of a chain's next record, or the record at fault: HEAD, or NEXT of the last record read. -/
def nextCmd (s : State) (k : Nat × Nat) (c : CmdChain) : Except Nat Nat :=
  if c.consumed = 0 then .ok c.head
  else
    match readVa s c.home k.1 c.last 8 with
    | .ok w =>
      let a := w % 2 ^ 52
      match if a % 64 = 0 then translate s c.home k.1 a .read else .fault false 1 with
      | .ok .. => .ok a
      | _ => .error c.last
    | .error _ => .error c.last

/-- R76: the chain halts at record `n`, past which COMP rises. -/
def haltAt (s : State) (k : Nat × Nat) (c : CmdChain) (n addr : Nat) : State :=
  completeSeq (haltCmd (setCmdChain s k { c with consumed := n, last := addr }) k addr) k n

/-- R91: the walk to the record that follows the last one read, reported where it meets a bad entry. -/
def noteNext (s : State) (k : Nat × Nat) (c : CmdChain) : State :=
  match readVa s c.home k.1 c.last 8 with
  | .ok w => noteWalk s c.home k.1 (w % 2 ^ 52)
  | .error _ => noteWalk s c.home k.1 c.last

/-- R68, R71, R91: the next record of a chain starts, or halts it; none when it may not start. -/
def startCmd (s : State) (k : Nat × Nat) (c : CmdChain) : Option State :=
  let n := c.consumed + 1
  match nextCmd s k c with
  | .error a => some (haltCmd (noteNext s k c) k a)
  | .ok a =>
    match if a % 64 = 0 then readVa s c.home k.1 a 64 else .error (.poison a) with
    | .error _ => some (haltAt (noteWalk s c.home k.1 a) k c n a)
    | .ok x =>
      if nbit x 55 && c.comp + 1 < n then none
      else
        let s1 := setCmdChain s k { c with consumed := n, last := a }
        some { s1 with hub := { s1.hub with cmds := s1.hub.cmds ++ [{
          ref := ⟨k.1, k.2, c.reg, n⟩, addr := a, bits := x, res := cmdEarly s k.1 k.2 x, begun := false, trec := none, pages := none
          dropped := false }] } }

/-- R68: the PCP serves a chain now. -/
def chainServed (s : State) (k : Nat × Nat) (c : CmdChain) : Bool :=
  !c.halted && anchorUp s && (k.2 != 16 || s.hub.service) && hubReaches s c.home

/-- R68: TAIL of a chain that the PCP serves now; none where it cannot be read. The spec is silent on a TAIL that fails
translation or meets poison: in the model the chain waits, without halt (log entry 43). -/
def tailOf (s : State) (k : Nat × Nat) (c : CmdChain) : Option Nat :=
  if chainServed s k c then (readVa s c.home k.1 c.desc 8).toOption else none

/-- R68, R137: the LAUNCH records of a chain start in the order of their numbers. -/
def launchTurn (s : State) (c : CmdRec) : Bool :=
  s.hub.cmds.all fun d => d.ref.part != c.ref.part || d.ref.chain != c.ref.chain || d.ref.reg != c.ref.reg ||
    decide (c.ref.seq ≤ d.ref.seq) || d.res.isSome || d.begun || nbits d.bits 63 56 != 1

/-- R86: the partition has a record to start or a LAUNCH to build. -/
def pcpWants (s : State) (part : Nat) : Bool :=
  (s.hub.chains.any fun e => e.1.1 == part &&
    ((tailOf s e.1 e.2).map fun tail => e.2.consumed < tail && (startCmd s e.1 e.2).isSome).getD false) ||
  s.hub.cmds.any fun c => c.ref.part == part && c.res.isNone && !c.begun && nbits c.bits 63 56 == 1 && launchTurn s c

/-- R86: the weighted round robin serves a partition: it has services left in its turn, or it is the next that has work
after the one whose turn is over; none while it is another's turn. -/
def pcpServe (s : State) (part : Nat) : Option State :=
  let t := s.hub.pcpTurn
  let take (left : Nat) : State := { s with hub := { s.hub with pcpTurn := (part, left) } }
  if 0 < t.2 && pcpWants s t.1 then (if part = t.1 then some (take (t.2 - 1)) else none)
  else
    let next := ((List.range 64).map fun i => (t.1 + 1 + i) % 64).find? (pcpWants s)
    if next = some part then some (take (((s.part? part).map (·.dispw)).getD 1 - 1)) else none

/-- R66, R68, R86, R91, R94: the PCP finds TAIL beyond what it has consumed and starts a record; a TAIL below that is counted,
and a bad entry in the walk to TAIL is reported. -/
def tailWake (s : State) (k : Nat × Nat) : Option State :=
  match s.hub.chains.get? k with
  | none => none
  | some c =>
    match tailOf s k c with
    | none => if chainServed s k c && (walkBad s c.home k.1 c.desc).isSome then some (noteWalk s c.home k.1 c.desc) else none
    | some tail =>
      if tail < c.consumed then some (report (setCmdChain s k { c with low := c.low + 1 }) k.1 13 [k.2, tail])
      else if tail = c.consumed then none
      else (pcpServe s k.1).bind fun s1 => startCmd s1 k c

/-- R68: PCP_TAIL_WAKE. -/
def execPcpTailWake (s : State) : Out :=
  match s.occ with
  | .chain part chain =>
    match tailWake s (part, chain) with
    | some s' => .next (commit s s')
    | none => idle "PCP_TAIL_WAKE"
  | _ => idle "PCP_TAIL_WAKE"

/-! ### Commands -/

/-- Replace a started record. -/
def setCmd (s : State) (c : CmdRec) : State :=
  { s with hub := { s.hub with cmds := s.hub.cmds.map fun x => if x.ref = c.ref then c else x } }

/-- A command's status is decided; fields that the spec does not state for it are open. -/
def endCmd (s : State) (c : CmdRec) (st : Nat) (detail info : Option Nat) : State :=
  setCmd s { c with
    begun := true, res := some (st, detail.getD (openField s 0 24), info.getD (openField s 1 32)) }

/-- The started record that the event under way names, of a command code, that has not begun to act. -/
def occCmd (s : State) (code : Nat) : Option CmdRec :=
  match s.occ with
  | .cmd r => (s.hub.cmds.find? (·.ref = r)).filter fun c => c.res.isNone && !c.begun && nbits c.bits 63 56 == code
  | _ => none

/-- The home island of a record's chain. -/
def homeOf (s : State) (c : CmdRec) : Nat := ((s.hub.chains.get? (c.ref.part, c.ref.chain)).map (·.home)).getD 0

/-- R72: MALFORMED in a LAUNCH. -/
def launchMal (x : Nat) : Option Nat :=
  lowestBit [badIf (nbits x 391 384 != 0) 384, firstBit x 447 436, badIf (nbits x 314 263 % 8 != 0) 263,
    badIf (nbits x 257 206 % 8 != 0) 206, badIf (nbits x 181 130 % 64 != 0) 130, firstBit x 129 128]

/-- R137, step 2: the record bytes 8 to 63 that LAUNCH writes over those in memory. -/
def launchBits (old x part crec cisl : Nat) : Nat :=
  putField 511 448 (nbits x 383 320) <| putField 447 396 (nbits x 447 384) <| putField 395 391 (nbits x 319 315) <|
  putField 390 339 (nbits x 314 263) <| putField 338 334 (nbits x 262 258) <| putField 333 282 (nbits x 257 206) <|
  putField 281 230 crec <| putField 229 225 cisl <| putField 224 213 0xFFF <| putField 212 205 0 <|
  putField 204 199 part <| putField 198 196 (nbits x 189 187) <| putField 195 193 (nbits x 189 187) <|
  putField 192 191 1 <| putField 190 183 0xC5 <| putField 182 128 0 old

/-- R137: LAUNCH builds its task record. -/
def launch (s : State) (c : CmdRec) : State :=
  let x := c.bits
  let part := c.ref.part
  let isl := nbits x 186 182
  let va := nbits x 181 130
  match launchMal x, targetBad s part isl with
  | some b, _ => endCmd s c 0x11 (some b) none
  | none, some st => endCmd s c st none none
  | none, none =>
    match translate s isl part va .atomic with
    | .fault .. => endCmd (noteWalk s isl part va) c 0x14 none none
    | .sealedStore => endCmd s c 0x14 none none
    | .ok pa _ _ =>
      if (s.mem.poisonedAt isl pa 8).isSome then endCmd s c 0x17 none none
      else
        let st := jwState (s.mem.nat isl pa 8)
        if recordHeld st then endCmd s c 0x10 (some st) none
        else
          let s1 := setCmd s { c with begun := true, trec := some (isl, va) }
          let bits := launchBits (s.mem.nat isl pa 64) x part c.addr (homeOf s c)
          let s2 := bypassBank s1 isl none (pa + 8) ((leBytes 64 bits).drop 8)
          let join := nbits x 205 190
          if join = 0 then makeReady (bypassBank s2 isl none pa (leBytes 8 (joinWord 2 0 0))) isl part va pa (.held pa)
          else bypassBank s2 isl none pa (leBytes 8 (joinWord 1 0 join))

/-- R72, R86, R137: LAUNCH, in the PCP's round robin. -/
def execLaunch (s : State) : Out :=
  match occCmd s 1 with
  | some c =>
    match if launchTurn s c then pcpServe s c.ref.part else none with
    | some s1 => .next (commit s (launch s1 c))
    | none => idle "LAUNCH"
  | none => idle "LAUNCH"

/-- R73: NOTIFY. -/
def notify (s : State) (c : CmdRec) : State :=
  let x := c.bits
  let part := c.ref.part
  let isl := nbits x 447 443
  let va := nbits x 442 391
  match lowestBit [badIf (va % 8 != 0) 391, badIf (nbits x 390 375 == 0) 375, firstBit x 374 128], targetBad s part isl with
  | some b, _ => endCmd s c 0x11 (some b) none
  | none, some st => endCmd s c st none none
  | none, none =>
    match translate s isl part va .atomic with
    | .fault .. => endCmd (noteWalk s isl part va) c 0x14 none none
    | .sealedStore => endCmd s c 0x14 none none
    | .ok pa _ _ =>
      let r := joinDecrement s isl part va pa (nbits x 390 375)
      if r.2 then endCmd r.1 c 0x00 none none else endCmd s c 0x17 none none

/-- R73: NOTIFY_COMMAND. -/
def execNotifyCommand (s : State) : Out :=
  match occCmd s 2 with
  | some c => .next (commit s (notify s c))
  | none => idle "NOTIFY_COMMAND"

/-- R75, R107: RESUME; INFO holds the number of agents released. -/
def resume (s : State) (c : CmdRec) : State :=
  let x := c.bits
  let part := c.ref.part
  let isl := nbits x 447 443
  match firstBit x 378 128, targetBad s part isl with
  | some b, _ => endCmd s c 0x11 (some b) none
  | none, some st => endCmd s c st none none
  | none, none =>
    match s.par.faults.find? fun e => e.key.isl = isl ∧ e.key.part = part ∧ e.fseq = some (nbits x 442 379) with
    | none => endCmd s c 0x00 none (some 0)
    | some e => endCmd (releaseFault s e) c 0x00 none (some (agentsOn s e.key))

/-- R75, R107: RESUME. -/
def execResume (s : State) : Out :=
  match occCmd s 6 with
  | some c => .next (commit s (resume s c))
  | none => idle "RESUME"

/-! ### Completion -/

/-- R99: the translation caches of an island drop what an UNMAP cleared. -/
def shootdown (s : State) (r : CmdRef) : Option State :=
  match s.hub.cmds.find? (·.ref = r) with
  | none => none
  | some c =>
    match c.pages with
    | none => none
    | some (isl, ps) =>
      if c.dropped then none
      else some (setCmd (emptyTlb s isl fun _ e => inPages ps (e.pte.pfn * 65536)) { c with dropped := true })

/-- R11, R69, R99: a record whose status is decided may complete: an UNMAP after its drop and the accesses made before it, a
LAUNCH once the island of its task has a way to the hub or is fenced, and any record once the hub can reach its home island
(log entry 43). -/
def CmdRec.ready (s : State) (c : CmdRec) : Bool :=
  c.res.isSome && (c.trec.map fun t => hubReaches s t.1 || (s.fab.fenced.get? t.1).isSome).getD true && (match c.pages with
    | some p => c.dropped && !pagesBusy s p.1 p.2 false
    | none => true) &&
  match s.hub.chains.get? (c.ref.part, c.ref.chain) with
  | some ch => ch.reg != c.ref.reg || hubReaches s ch.home
  | none => true

/-- R69, R76: a record completes: STATUS, DETAIL and INFO are written, and COMP rises; a record that cannot be written
halts its chain. The spec is silent on the records started under an earlier registration of their chain's number: in the model
they still act, but no STATUS is written to them and COMP does not rise for them (log entry 47). -/
def completeCmd (s : State) (c : CmdRec) (res : Nat × Nat × Nat) : State :=
  let s1 := { s with hub := { s.hub with cmds := s.hub.cmds.filter (·.ref ≠ c.ref) } }
  let k := (c.ref.part, c.ref.chain)
  match s.hub.chains.get? k with
  | none => s1
  | some ch =>
    if ch.reg ≠ c.ref.reg then s1
    else
      let w := res.1 % 256 * 2 ^ 56 + res.2.1 % 2 ^ 24 * 2 ^ 32 + res.2.2 % 2 ^ 32
      let s2 := match hubPut s1 ch.home c.ref.part (c.addr + 56) (leBytes 8 w) with
        | some s' => s'
        | none => haltCmd (noteWalk s1 ch.home c.ref.part (c.addr + 56)) k c.addr
      completeSeq s2 k c.ref.seq

/-- R69: COMMAND_RECORD_COMPLETION. -/
def execCommandRecordCompletion (s : State) : Out :=
  match s.occ with
  | .cmd r =>
    match s.hub.cmds.find? (·.ref = r) with
    | some c =>
      match c.res with
      | some res => if c.ready s then .next (commit s (completeCmd s c res)) else idle "COMMAND_RECORD_COMPLETION"
      | none => idle "COMMAND_RECORD_COMPLETION"
    | none => idle "COMMAND_RECORD_COMPLETION"
  | _ => idle "COMMAND_RECORD_COMPLETION"

end Sys2Proof.Machine
end

