-- ==== Sys2Proof/Machine/Map.lean ====
section
/-! DEFINITION. MAP and UNMAP (R94 to R99): the anchor's changes of the page tables. -/

namespace Sys2Proof.Machine

open Sys2Proof

/-! ### Tables in TABLE frames -/

/-- Replace a partition's record. -/
def State.modPart (s : State) (p : Nat) (f : Part → Part) : State :=
  { s with par := { s.par with parts := s.par.parts.modify p f } }

/-- R91: the lowest TABLE frame of a partition on an island that holds no live table (log entry 19). -/
def freeTable (s : State) (part isl : Nat) : Option Nat :=
  ((s.par.frames.filter fun e =>
    e.1.1 == isl && e.2 == (FrameSt.table, part) && (s.par.tables.get? e.1).isNone).map (·.1.2)).min?

/-- R97: a table takes a TABLE frame; none when there is no free space. -/
def takeTable (s : State) (part isl : Nat) : Option (State × Nat) :=
  (freeTable s part isl).map fun f => ({ s with par := { s.par with tables := s.par.tables.set (isl, f) part } }, f)

/-- R96: a table gives its frame back. -/
def giveTable (s : State) (isl frame : Nat) : State := { s with par := { s.par with tables := s.par.tables.erase (isl, frame) } }

/-- R98: the anchor writes a page-table entry. -/
def writePte (s : State) (isl pa x : Nat) : State := bypassBank s isl none pa (leBytes 8 x)

/-- R91: the entry that points to a table in a frame. -/
def tableEntry (frame : Nat) : Nat := ({ v := true, l := false, pfn := frame, sl := false, x := false, w := false, r := false } : Pte).toNat

/-- R95: the leaf that MAP installs. -/
def leafEntry (frame perm : Nat) : Nat :=
  ({ v := true, l := true, pfn := frame, sl := false, x := nbit perm 2, w := nbit perm 1, r := nbit perm 0 } : Pte).toNat

/-- R96: a table of `n` entries has none that is valid. -/
def tableEmpty (s : State) (isl base n : Nat) : Bool := (List.range n).all fun i => !(readPte s isl (base + 8 * i)).v

/-- R90: the root of a partition on an island, which takes a TABLE frame at its first MAP (log entry 19). -/
def takeRoot (s : State) (part isl : Nat) : Option (State × Nat) :=
  match (s.part? part).bind fun p => p.roots.get? isl with
  | some r => some (s, r)
  | none =>
    (takeTable s part isl).map fun x =>
      (x.1.modPart part fun p => { p with roots := p.roots.set isl (x.2 * 65536) }, x.2 * 65536)

/-- R90: the table below an entry, installed where there is none. -/
def takeNext (s : State) (part isl at_ : Nat) : Option (State × Nat) :=
  let e := readPte s isl at_
  if e.v && !e.l then some (s, e.pfn * 65536)
  else (takeTable s part isl).map fun x => (writePte x.1 isl at_ (tableEntry x.2), x.2 * 65536)

/-! ### The checks of the fields -/

/-- R97: MALFORMED in the fields that MAP and UNMAP share. -/
def rangeMal (x : Nat) : List (Option Nat) :=
  let va := nbits x 442 391
  let lg := nbit x 351
  let size := if lg then 2 ^ 29 else 2 ^ 16
  let n := nbits x 367 352
  [badIf (23 < nbits x 447 443) 443, badIf (va % size != 0) 391, badIf (2 ^ 52 < va + n * size) 391, badIf (n == 0) 352]

/-- R97: MALFORMED in MAP. -/
def mapMal (x : Nat) : Option Nat :=
  let pfn := nbits x 390 368
  let step := if nbit x 351 then 8192 else 1
  let perm := nbits x 350 348
  lowestBit (rangeMal x ++ [badIf (pfn % step != 0) 368, badIf (0x600000 < pfn + nbits x 367 352 * step) 368,
    badIf (perm == 0 || (nbit perm 1 && !nbit perm 0)) 348, firstBit x 347 128])

/-- R97: MALFORMED in UNMAP. -/
def unmapMal (x : Nat) : Option Nat := lowestBit (rangeMal x ++ [firstBit x 390 368, firstBit x 350 128])

/-- R97: frames of a partition are being zeroed after a function-level reset. -/
def scrubbing (s : State) (part : Nat) : Bool := s.par.flr.any fun f => f.part == part && !f.frames.isEmpty

/-! ### MAP -/

/-- R95, R97: one page of a MAP; the reason when a check fails. -/
def mapPage (s : State) (part isl va pfn : Nat) (lg : Bool) (perm : Nat) : Except Nat State :=
  if !(List.range (if lg then 8192 else 1)).all fun i => s.par.frames.get? (isl, pfn + i) == some (.owned, part) then .error 2
  else
    match (takeRoot s part isl).bind fun x => takeNext x.1 part isl (x.2 + 8 * nbits va 51 42) with
    | none => .error 5
    | some (s1, t2) =>
      let a2 := t2 + 8 * nbits va 41 29
      let e2 := readPte s1 isl a2
      if lg then
        if e2.v && e2.l then .error 3
        else if e2.v && !tableEmpty s1 isl (e2.pfn * 65536) 8192 then .error 4
        else .ok (writePte (if e2.v then giveTable s1 isl e2.pfn else s1) isl a2 (leafEntry pfn perm))
      else if e2.v && e2.l then .error 4
      else
        match takeNext s1 part isl a2 with
        | none => .error 5
        | some (s2, t3) =>
          let a3 := t3 + 8 * nbits va 28 16
          if (readPte s2 isl a3).v then .error 3 else .ok (writePte s2 isl a3 (leafEntry pfn perm))

/-- R97: the pages of a MAP from index `i`; the reason and the index of the first that fails. -/
def mapPages (part isl va pfn : Nat) (lg : Bool) (perm : Nat) : Nat → Nat → State → Except (Nat × Nat) State
  | 0, _, s => .ok s
  | n + 1, i, s =>
    match mapPage s part isl (va + i * if lg then 2 ^ 29 else 2 ^ 16) (pfn + i * if lg then 8192 else 1) lg perm with
    | .error r => .error (r, i)
    | .ok s' => mapPages part isl va pfn lg perm n (i + 1) s'

/-- R95, R97: MAP, all or nothing. Where several checks fail the spec gives no order and no page for a partition whose frames
are being zeroed: the model tests SCRUBBING first, for the whole record, with INFO 0, then page by page NOTOWNED, NOTABLE,
MAPPED and SIZE as the walk meets them (log entry 19). -/
def map (s : State) (c : CmdRec) : State :=
  let x := c.bits
  let part := c.ref.part
  let isl := nbits x 447 443
  match mapMal x with
  | some b => endCmd s c 0x11 (some b) none
  | none =>
    if !present s isl || !holdsIsland s part isl then endCmd s c 0x10 (some 1) (some 0)
    else if !hubReaches s isl then endCmd s c 0x13 none none
    else if scrubbing s part then endCmd s c 0x10 (some 6) (some 0)
    else
      match mapPages part isl (nbits x 442 391) (nbits x 390 368) (nbit x 351) (nbits x 350 348) (nbits x 367 352) 0 s with
      | .error r => endCmd s c 0x10 (some r.1) (some r.2)
      | .ok s' => endCmd s' c 0x00 none none

/-- R97, R98: MAP. -/
def execMap (s : State) : Out :=
  match occCmd s 4 with
  | some c => if serviceUp s then .next (commit s (map s c)) else idle "MAP"
  | none => idle "MAP"

/-! ### UNMAP -/

/-- R92: where a walk finds the level-1 and level-2 entries of an address, where the tables exist. -/
def tableWalk (s : State) (part isl va : Nat) : Option (Nat × Nat × Nat) :=
  match (s.part? part).bind fun p => p.roots.get? isl with
  | none => none
  | some root =>
    let a1 := root + 8 * nbits va 51 42
    let e1 := readPte s isl a1
    if e1.v && !e1.l then some (root, a1, e1.pfn * 65536 + 8 * nbits va 41 29) else none

/-- R97: SIZE for one page of an UNMAP. -/
def unmapBad (s : State) (part isl va : Nat) (lg : Bool) : Bool :=
  match tableWalk s part isl va with
  | none => false
  | some (_, _, a2) =>
    let e2 := readPte s isl a2
    e2.v && (if lg then !e2.l && !tableEmpty s isl (e2.pfn * 65536) 8192 else e2.l)

/-- R96: tables left with no valid entry are freed, from the level-2 table upwards. -/
def freeUp (s : State) (part isl root a1 : Nat) : State :=
  let t2 := (readPte s isl a1).pfn
  if !tableEmpty s isl (t2 * 65536) 8192 then s
  else
    let s1 := giveTable (writePte s isl a1 0) isl t2
    if !tableEmpty s1 isl root 1024 then s1
    else giveTable (s1.modPart part fun p => { p with roots := p.roots.erase isl }) isl (root / 65536)

/-- R96: one page of an UNMAP: the leaf is cleared where there is one, and the page is noted. -/
def unmapPage (part isl : Nat) (lg : Bool) (x : State × List (Nat × Nat)) (va : Nat) : State × List (Nat × Nat) :=
  let s := x.1
  match tableWalk s part isl va with
  | none => x
  | some (root, a1, a2) =>
    let e2 := readPte s isl a2
    if !e2.v then x
    else if lg then
      if e2.l then (freeUp (writePte s isl a2 0) part isl root a1, x.2 ++ [(e2.pfn * 65536, 2 ^ 29)]) else x
    else if e2.l then x
    else
      let t3 := e2.pfn
      let a3 := t3 * 65536 + 8 * nbits va 28 16
      let e3 := readPte s isl a3
      if !e3.v then x
      else
        let s1 := writePte s isl a3 0
        let s2 := if tableEmpty s1 isl (t3 * 65536) 8192 then freeUp (giveTable (writePte s1 isl a2 0) isl t3) part isl root a1
          else s1
        (s2, x.2 ++ [(e3.pfn * 65536, 2 ^ 16)])

/-- R96, R97, R99: UNMAP, all or nothing; the record completes once accesses through the cleared pages have performed. -/
def unmap (s : State) (c : CmdRec) : State :=
  let x := c.bits
  let part := c.ref.part
  let isl := nbits x 447 443
  let lg := nbit x 351
  match unmapMal x with
  | some b => endCmd s c 0x11 (some b) none
  | none =>
    if !present s isl || !holdsIsland s part isl then endCmd s c 0x10 (some 1) (some 0)
    else if !hubReaches s isl then endCmd s c 0x13 none none
    else
      let vas := (List.range (nbits x 367 352)).map fun i => nbits x 442 391 + i * if lg then 2 ^ 29 else 2 ^ 16
      match vas.findIdx? fun va => unmapBad s part isl va lg with
      | some i => endCmd s c 0x10 (some 4) (some i)
      | none =>
        let r := vas.foldl (unmapPage part isl lg) (s, [])
        endCmd r.1 { c with pages := some (isl, r.2) } 0x00 none (some r.2.length)

/-- R96, R99: UNMAP. -/
def execUnmap (s : State) : Out :=
  match occCmd s 5 with
  | some c => if serviceUp s then .next (commit s (unmap s c)) else idle "UNMAP"
  | none => idle "UNMAP"

end Sys2Proof.Machine
end

