-- ==== Sys2Proof/Machine/HostPort.lean ====
section
/-! DEFINITION. What hosts send (R58 to R64, R94, R104): RDMA, and the registration of chains, fault chains and memory
regions through Redfish. -/

namespace Sys2Proof.Machine

open Sys2Proof

/-- A message to hosts. -/
def sendHost (s : State) (m : HostMsg) : State := { s with hub := { s.hub with out := s.hub.out ++ [m] } }

/-- R63, R77: a Redfish request that the anchor refuses; its codes are the model's own (log entry 23). -/
def refuse (s : State) (code : Nat) : State := sendHost s (.refusedRequest code)

/-- R63: the credentials admit a request whose scope is one partition, or, with no scope, the system. -/
def Cred.may (c : Cred) (scope : Option Nat) : Bool :=
  match c.tenant with
  | none => true
  | some p => scope == some p

/-- R63: what a Redfish request leads to: without effect outside the management VLAN, refused without the credentials for
its scope. -/
def redfish (s : State) (scope : Option Nat) (t : State) : Out :=
  .next (commit s (if !s.cred.mgmt then s else if s.cred.may scope then t else refuse s 11))

/-! ### RDMA -/

/-- R58: the queue pair of a frame is bound to the port that the frame came in on, or to none yet (log entry 31). -/
def qpOn (s : State) (f : Frame) : Bool := ((s.hub.qps.get? (f.part, f.qp)).map (·.port == f.port)).getD true

/-- R58: a queue pair is bound to the port of its first frame (log entry 31). -/
def bindQp (s : State) (f : Frame) : State :=
  if (s.hub.qps.get? (f.part, f.qp)).isSome then s
  else { s with hub := { s.hub with qps := s.hub.qps.set (f.part, f.qp) ⟨f.port, [], []⟩ } }

/-- R58, R59: the partition whose virtual function accepts a frame, on a queue pair that is not in error; none where the frame
is dropped. -/
def frameTo (s : State) (f : Frame) : Option Nat :=
  match s.part? f.part with
  | none => none
  | some p =>
    if f.len ≤ 9216 ∧ f.port < 2 ∧ f.qp < 256 ∧ qpOn s f ∧ f.vlan = p.vlan ∧ f.mac = (if f.port = 0 then p.mac.1 else p.mac.2) ∧
        !s.hub.qpError.contains (f.part, f.qp) then some f.part
    else none

/-- R61, R62: the bytes of a message are written page by page, up to the first page that fails. -/
def rdmaWrite (isl part : Nat) : List (Nat × Nat) → List Byte → State → State × Bool
  | [], _, s => (s, true)
  | (va, n) :: rs, bs, s =>
    match writeBy s isl .remote part va (bs.take n) with
    | .ok s' => rdmaWrite isl part rs (bs.drop n) s'
    | .error _ => (s, false)

/-- R61: the bytes a read returns, or whether the failure is poison. -/
def rdmaRead (s : State) (isl part : Nat) : List (Nat × Nat) → Except Bool (List Byte)
  | [] => .ok []
  | (va, n) :: rs =>
    match accessBy s isl .remote part va n .read true with
    | .ok (pa, _) => (rdmaRead s isl part rs).map (s.mem.bytes isl pa n ++ ·)
    | .error (.poison _) => .error true
    | .error _ => .error false

/-- R61: the region that a message names, where it holds the whole range. -/
def regionOf (s : State) (part n off len : Nat) : Option Region :=
  (s.hub.regions.get? (part, n)).filter fun r => off + len ≤ r.len

/-- R60: a message is placed in the oldest receive buffer that the host has posted on the queue pair, and acknowledged;
without one that holds it, it is answered with a receiver-not-ready NAK (log entry 31). -/
def receive (s : State) (part qp : Nat) (bs : List Byte) : State :=
  match s.hub.qps.get? (part, qp) with
  | none => sendHost s (.nakNotReady part qp)
  | some q =>
    match q.posted with
    | n :: ns =>
      if n < bs.length then sendHost s (.nakNotReady part qp)
      else
        sendHost { s with hub := { s.hub with qps := s.hub.qps.set (part, qp) { q with posted := ns, got := q.got ++ [bs] } } }
          (.ack part qp)
    | [] => sendHost s (.nakNotReady part qp)

/-- R60: the host posts a receive buffer. -/
def postRecv (s : State) (part qp size : Nat) : State :=
  { s with hub := { s.hub with qps := s.hub.qps.modify (part, qp) fun q => { q with posted := q.posted ++ [size] } } }

/-- R60: the answer to a read in packets of the path MTU, 4,096 bytes. -/
def sendData (part qp : Nat) : Nat → List Byte → State → State
  | 0, _, s => s
  | n + 1, bs, s =>
    let s1 := sendHost s (.data part qp (bs.take 4096))
    if bs.length ≤ 4096 then s1 else sendData part qp n (bs.drop 4096) s1

/-- R91: the walks of a range of a region that failed on a bad entry are reported. -/
def noteWalks (s : State) (r : Region) (part off len : Nat) : State :=
  (pageRuns (len / 65536 + 2) (r.va + off) len).foldl (fun s p => noteWalk s r.isl part p.1) s

/-- R61, R62: an RDMA WRITE of a partition. -/
def applyWrite (s : State) (part qp n off : Nat) (bs : List Byte) (imm : Option (BitVec 32)) : State :=
  match regionOf s part n off bs.length with
  | none => sendHost s (.nakAccess part qp)
  | some r =>
    let w := rdmaWrite r.isl part (pageRuns (bs.length / 65536 + 2) (r.va + off) bs.length) bs s
    if !w.2 then sendHost (noteWalks w.1 r part off bs.length) (.nakAccess part qp)
    else
      match imm with
      | some i => receive w.1 part qp (leBytes 4 i.toNat)
      | none => sendHost w.1 (.ack part qp)

/-- R61, R62: an RDMA READ of a partition. -/
def applyRead (s : State) (part qp n off len : Nat) : State :=
  match regionOf s part n off len with
  | none => sendHost s (.nakAccess part qp)
  | some r =>
    match rdmaRead s r.isl part (pageRuns (len / 65536 + 2) (r.va + off) len) with
    | .ok bs => sendData part qp (bs.length / 4096 + 1) bs s
    | .error true => sendHost s (.nakOper part qp)
    | .error false => sendHost (noteWalks s r part off len) (.nakAccess part qp)

/-- R61: the island of a message's region can be reached from the hub. The spec is silent on a message whose region lies on
an island that the hub cannot reach: in the model it waits (log entry 43). -/
def regionReached (s : State) (part n : Nat) : Bool :=
  match s.hub.regions.get? (part, n) with
  | some r => hubReaches s r.isl
  | none => true

/-- R59 to R62: RDMA_WRITE. -/
def execRdmaWrite (s : State) : Out :=
  match s.occ with
  | .rdmaWrite f n off bs none =>
    if !anchorUp s || !regionReached s f.part n then idle "RDMA_WRITE"
    else
      .next (commit s (match frameTo s f with
        | some part => applyWrite (bindQp s f) part f.qp n off bs none
        | none => s))
  | _ => idle "RDMA_WRITE"

/-- R60: RDMA_WRITE_WITH_IMMEDIATE. -/
def execRdmaWriteWithImmediate (s : State) : Out :=
  match s.occ with
  | .rdmaWrite f n off bs (some i) =>
    if !anchorUp s || !regionReached s f.part n then idle "RDMA_WRITE_WITH_IMMEDIATE"
    else
      .next (commit s (match frameTo s f with
        | some part => applyWrite (bindQp s f) part f.qp n off bs (some i)
        | none => s))
  | _ => idle "RDMA_WRITE_WITH_IMMEDIATE"

/-- R61, R62: RDMA_READ. -/
def execRdmaRead (s : State) : Out :=
  match s.occ with
  | .rdmaRead f n off len =>
    if !anchorUp s || !regionReached s f.part n then idle "RDMA_READ"
    else
      .next (commit s (match frameTo s f with
        | some part => applyRead (bindQp s f) part f.qp n off len
        | none => s))
  | _ => idle "RDMA_READ"

/-- R60: SEND; the step also takes a host's posting of a receive buffer, for which the opcode table has no step of its own
(log entry 31). -/
def execSend (s : State) : Out :=
  match s.occ with
  | .send f bs =>
    if !anchorUp s then idle "SEND"
    else
      .next (commit s (match frameTo s f with
        | some part => receive (bindQp s f) part f.qp bs
        | none => s))
  | .postRecv f size =>
    if !anchorUp s then idle "SEND"
    else
      .next (commit s (match frameTo s f with
        | some part => postRecv (bindQp s f) part f.qp size
        | none => s))
  | _ => idle "SEND"

/-- R60: RDMA_ATOMIC_REQUEST. -/
def execRdmaAtomicRequest (s : State) : Out :=
  match s.occ with
  | .rdmaAtomic f =>
    if !anchorUp s then idle "RDMA_ATOMIC_REQUEST"
    else
      .next (commit s (match frameTo s f with
        | some part => sendHost (bindQp s f) (.nakInvalid part f.qp)
        | none => s))
  | _ => idle "RDMA_ATOMIC_REQUEST"

/-! ### Command chains -/

/-- R64, R65: a descriptor at registration: TAIL zero in the first line; EVQP, HEAD and STATE in the second; zero in every
other field. -/
def descriptorBytes (head : Nat) : List Byte :=
  leBytes 256 0 ++ leBytes 16 (head % 2 ^ 52 * 2 ^ 20 + 2 ^ 120) ++ leBytes 240 0

/-- R64: a chain is registered. The spec is silent on an island that the hub cannot reach and on a descriptor that cannot
be written: the model refuses the registration (log entry 43). -/
def registerChain (s : State) (part chain isl desc head : Nat) : State :=
  if (s.part? part).isNone ∨ !holdsIsland s part isl ∨ !hubReaches s isl ∨ desc % 512 ≠ 0 ∨ 2 ^ 52 ≤ head then refuse s 1
  else
    match writeVa s isl part desc (descriptorBytes head) false with
    | .error e => refuse (e.note s isl part) 1
    | .ok s1 =>
      { s1 with
        serial := s1.serial + 1
        hub := { s1.hub with chains := s1.hub.chains.set (part, chain) {
          home := isl, desc := desc, head := head, consumed := 0, comp := 0, halted := false, last := 0, done := [],
          reg := s1.serial, low := 0 } } }

/-- R64: CHAIN_REGISTRATION. -/
def execChainRegistration (s : State) : Out :=
  match s.occ with
  | .register part chain isl desc head =>
    if serviceUp s then redfish s (some part) (if chain < 16 then registerChain s part chain isl desc head else refuse s 1)
    else idle "CHAIN_REGISTRATION"
  | _ => idle "CHAIN_REGISTRATION"

/-- R94: SERVICE_CHAIN_REGISTRATION; the service chain is number 16 of the model. -/
def execServiceChainRegistration (s : State) : Out :=
  match s.occ with
  | .register part _ isl desc head =>
    if serviceUp s then redfish s (some part) (registerChain s part 16 isl desc head) else idle "SERVICE_CHAIN_REGISTRATION"
  | _ => idle "SERVICE_CHAIN_REGISTRATION"

/-! ### Fault chains -/

/-- R105: the held records of a partition on an island are posted at once, oldest first, as far as the ring has room. -/
def postHeld (isl part : Nat) : Nat → State → State
  | 0, s => s
  | n + 1, s =>
    match nextPost s isl part, s.par.fchains.get? (part, isl) with
    | some e, some f =>
      if s.clk isl < e.stamp + 1024 then s
      else
        match tryPost s e f with
        | .full => s
        | .done s' => postHeld isl part n s'
        | .failed s1 => report (setFault s1 { e with held := some (s.clk isl + 65536) }) part 12 [isl, f.desc]
    | _, _ => s

/-- R104: a fault chain is registered: every field of its descriptor but BASE and SIZE reads zero. -/
def registerFaults (s : State) (part isl desc base size : Nat) : State :=
  if 10 < size ∨ (s.part? part).isNone ∨ !holdsIsland s part isl ∨ !hubReaches s isl ∨ desc % 512 ≠ 0 ∨ base % 4096 ≠ 0 ∨
      2 ^ 52 ≤ base then refuse s 2
  else
    match writeVa s isl part desc (leBytes 16 (base * 2 ^ 52 + size * 2 ^ 104) ++ leBytes 496 0) false with
    | .error e => refuse (e.note s isl part) 2
    | .ok s1 =>
      let s2 := { s1 with par := { s1.par with
        fchains := s1.par.fchains.set (part, isl) ⟨desc, base, size, 0⟩
        faults := s1.par.faults.map fun (e : FaultEnt) => if e.key.isl = isl ∧ e.key.part = part then { e with held := none } else e } }
      postHeld isl part 256 s2

/-- R104, R105: FAULT_CHAIN_REGISTRATION. -/
def execFaultChainRegistration (s : State) : Out :=
  match s.occ with
  | .fchain part isl desc base size =>
    if serviceUp s then redfish s (some part) (registerFaults s part isl desc base size) else idle "FAULT_CHAIN_REGISTRATION"
  | _ => idle "FAULT_CHAIN_REGISTRATION"

/-! ### Memory regions -/

/-- R61: a memory region is registered. -/
def registerRegion (s : State) (part n : Nat) (r : Region) : State :=
  if (s.part? part).isNone ∨ 1024 ≤ n ∨ r.va % 65536 ≠ 0 ∨ r.len % 65536 ≠ 0 ∨ r.len = 0 ∨ 2 ^ 52 < r.va + r.len ∨
      !holdsIsland s part r.isl then refuse s 3
  else { s with hub := { s.hub with regions := s.hub.regions.set (part, n) r } }

/-- R61: MEMORY_REGION_REGISTRATION. -/
def execMemoryRegionRegistration (s : State) : Out :=
  match s.occ with
  | .region part n r =>
    if serviceUp s then redfish s (some part) (registerRegion s part n r) else idle "MEMORY_REGION_REGISTRATION"
  | _ => idle "MEMORY_REGION_REGISTRATION"

end Sys2Proof.Machine
end

