-- ==== Sys2Proof/Machine/Links.lean ====
section
/-! DEFINITION. Routes and the publication of the topology table (R36 to R38, R46, R50), and the training of links (R44 to
R46). -/

namespace Sys2Proof.Machine

open Sys2Proof

/-! ### Hops -/

/-- R36: the ports that a hop code selects at a node; none for a reserved code. -/
def hopPorts (node code : Nat) : List Nat :=
  if node = 31 then (if code < 6 then (List.range 4).map (4 * code + ·) else [])
  else if code < 4 then (List.range 4).map (4 * code + ·)
  else if code < 12 then [12 + code]
  else []

/-- R29: a node takes part in the fabric: the hub, or a present island that is not fenced. -/
def nodeUp (s : State) (n : Nat) : Bool := n == 31 || (present s n && (s.fab.fenced.get? n).isNone)

/-- R3, R55: both ends of a port's waveguide are nodes of the unit. -/
def joined (s : State) (e : LinkEnd) : Bool :=
  match farEnd (codeNow s) e with
  | some f => (e.node == 31 || present s e.node) && (f.node == 31 || present s f.node)
  | none => false

/-- R29: a port carries traffic: its link is UP and both ends take part. -/
def carries (s : State) (e : LinkEnd) : Bool :=
  linkUp s e && nodeUp s e.node && ((farEnd (codeNow s) e).map fun f => nodeUp s f.node).getD false

/-- The node that a hop leads to over a port that carries traffic. -/
def hopTo (s : State) (node code : Nat) : Option Nat :=
  ((hopPorts node code).find? fun p => carries s ⟨node, p⟩).bind fun p => (farEnd (codeNow s) ⟨node, p⟩).map (·.node)

/-! ### Routes -/

/-- R27, R8: the nodes of the panel. -/
def allNodes : List Nat := List.range 24 ++ [31]

/-- The hops that lead somewhere, by node. -/
abbrev Hops := List (Nat × List (Nat × Nat))

/-- R38: the hops over links that carry traffic. -/
def hopsOf (s : State) : Hops :=
  allNodes.map fun n => (n, (List.range 12).filterMap fun c => (hopTo s n c).map fun m => (c, m))

/-- A list begun at another place. -/
def rotated {α : Type} (k : Nat) (l : List α) : List α := l.drop (k % max l.length 1) ++ l.take (k % max l.length 1)

/-- One layer of a breadth-first search: the nodes first reached, each with its route. -/
def nextLayer (hops : Hops) (tie : Nat) (seen : List Nat) (layer : List (Nat × List Nat)) : List (Nat × List Nat) :=
  layer.foldl (fun acc x =>
    (rotated tie (Tbl.getD hops x.1 [])).foldl (fun acc h =>
      if seen.contains h.2 || acc.any (·.1 == h.2) then acc else acc ++ [(h.2, x.2 ++ [h.1])]) acc) []

/-- R38: a shortest route of at most `fuel` hops; which of several is the firmware's choice (log entry 18). -/
def searchRoute (hops : Hops) (tie dest : Nat) : Nat → List Nat → List (Nat × List Nat) → Option (List Nat)
  | 0, _, _ => none
  | fuel + 1, seen, layer =>
    let next := nextLayer hops tie seen layer
    match next.find? (·.1 == dest) with
    | some x => some x.2
    | none => if next.isEmpty then none else searchRoute hops tie dest fuel (seen ++ next.map (·.1)) next

/-- R25, R36: the links that a hop may cross, each by its canonical end. -/
def hopLinks (code node c : Nat) : List LinkEnd := (hopPorts node c).map fun p => canonEnd code ⟨node, p⟩

/-- The links that a route may cross. -/
def routeLinks (code : Nat) (hops : Hops) : Nat → List Nat → List LinkEnd
  | _, [] => []
  | n, c :: cs =>
    match Tbl.get? (Tbl.getD hops n []) c with
    | some m => hopLinks code n c ++ routeLinks code hops m cs
    | none => []

/-- R38: the hops that share no link with a route, in either direction. -/
def without (code : Nat) (hops : Hops) (used : List LinkEnd) : Hops :=
  hops.map fun x => (x.1, x.2.filter fun h => !(hopLinks code x.1 h.1).any used.contains)

/-- R37, R38: the routes of a view to a node. -/
def routesOf (code : Nat) (hops : Hops) (tie holder dest : Nat) : Route :=
  match searchRoute hops tie dest 12 [holder] [(holder, [])] with
  | none => ⟨[], [], [], []⟩
  | some r0 =>
    let r1 := (searchRoute (without code hops (routeLinks code hops holder r0)) tie dest 12 [holder] [(holder, [])]).getD []
    ⟨r0, r1, r0.map fun _ => true, r1.map fun _ => true⟩

/-- R37: the number of the entry of a node. -/
def entryOf (n : Nat) : Nat := if n = 31 then 24 else n

/-- R37: the view of a holder. -/
def viewOf (code : Nat) (hops : Hops) (gen holder : Nat) : List ((Nat × Nat) × Route) :=
  (allNodes.filter (· ≠ holder)).map fun d =>
    ((holder, entryOf d), routesOf code hops (Config.routeTie gen holder d) holder d)

/-! ### The belay ring -/

/-- R50: consecutive nodes, round the ring, are joined by hops that carry traffic. -/
def ringOk (hops : Hops) (r : List Nat) : Bool :=
  let joined (a b : Nat) : Bool := (Tbl.getD hops a []).any (·.2 == b)
  !r.isEmpty && r.length ≤ 25 && r.Nodup && (r.length == 1 || (r.zip (rotated 1 r)).all fun x => joined x.1 x.2)

/-- R50: a ring through every node of a whole panel. -/
def wholeRing : List Nat := [31, 0, 6, 12, 18, 19, 13, 7, 8, 14, 20, 21, 15, 9, 10, 16, 22, 23, 17, 11, 5, 4, 3, 2, 1]

/-- R50: the ring of a publication: the firmware's choice where it is one, else the first ring of a short list (log
entry 18). -/
def ringOf (s : State) (hops : Hops) (gen : Nat) : List Nat :=
  let rs := [Config.ringChoice gen, wholeRing.filter (nodeUp s)] ++ (allNodes.map fun n => [31, n])
  (rs.find? (ringOk hops)).getD [31]

/-! ### Publication -/

/-- R38, R46, R50: a publication: TOPOGEN rises by one, every view is installed at once, and a new belay token starts. A
packet that the discarded token put on the rope lane stays there (log entry 42). -/
def publish (s : State) : State :=
  sendHeld <|
  let gen := (s.fab.topogen + 1) % 2 ^ 32
  let hops := hopsOf s
  let views := (allNodes.filter fun n => n == 31 || present s n).flatMap (viewOf (codeNow s) hops gen)
  let ring := ringOf s hops gen
  { s with fab := { s.fab with
    topogen := gen, views := views, ring := ring, belay := some ⟨ring.headD 31, gen % 65536, none, 0⟩ } }

/-- R46: a link has entered or left UP: one publication, unless a topology event folds it into its own. It comes at once,
also while the service firmware is stopped, which R78 leaves open (log entry 42). -/
def linkChanged (s : State) : State :=
  if s.fab.toposet.isSome || !s.fab.fenced.isEmpty then s else publish s

/-! ### The table as it is read -/

/-- R37: the nodes of the ring, 5 bits each, 0x1F where there is none. -/
def ringField (ring : List Nat) : Nat := (List.range 25).foldr (fun i a => ring.getD i 0x1F % 32 + 32 * a) 0

/-- R37: the header of the topology table. -/
def topoHeader (s : State) : Nat :=
  inBits 193 69 (ringField s.fab.ring) + inBits 68 64 s.fab.ring.length + inBits 63 40 s.unit.popmask.toNat +
    inBits 39 32 s.fab.xcode + inBits 31 0 s.fab.topogen

/-- R37: health bits, bit `h` for hop `h`. -/
def healthField (hs : List Bool) : Nat := hs.foldr (fun b a => b.toNat + 2 * a) 0

/-- R37: entry `n` of a view; 24 is the hub's. -/
def topoEntry (s : State) (holder n : Nat) : Nat :=
  let r := s.fab.views.getD (holder, n) ⟨[], [], [], []⟩
  let up := n = entryOf holder ∨ healthy r.route0 r.health0 = true ∨ healthy r.route1 r.health1 = true
  inBits 255 255 (n == 24 || present s n).toNat + inBits 254 254 (decide up).toNat + inBits 251 248 r.route0.length +
    inBits 247 244 r.route1.length + inBits 243 196 (routeField r.route0) + inBits 195 148 (routeField r.route1) +
    inBits 147 136 (healthField r.health0) + inBits 135 124 (healthField r.health1)

/-- R37: the bytes of the table as seen from a holder: the header, then the 25 entries. -/
def topoView (s : State) (holder : Nat) : List Byte :=
  leBytes 32 (topoHeader s) ++ (List.range 25).flatMap fun n => leBytes 32 (topoEntry s holder n)

/-! ### Error replies -/

/-- R32: LEN of a packet that answers another. -/
def PktOp.replyLen (op : PktOp) (p : Packet) : Nat :=
  match op with
  | .getData => p.len
  | .ratomRes => 1
  | _ => 0

/-- R33, R39: a packet that answers another, sent by a node with the view it holds; it is lost when the source cannot be
reached, and the source's timer then completes the operation. -/
def answer (s : State) (node : Nat) (p : Packet) (op : PktOp) (bytes : List Byte) (st : Nat) : State :=
  let q : Packet := { p with
    id := s.fab.nextPkt, op := op, route := [], hidx := 0, dest := p.src, src := node, och := none, chseq := 0,
    len := op.replyLen p, payload := bytes, part := none, count := 0, status := st, ofReply := !p.op.request,
    gen := s.fab.topogen % 65536 }
  if node ≠ p.src ∧ !reaches s node p.src then s
  else
    let r := sealPacket s q
    let route := if node = p.src then [] else chooseRoute r.1 r.2
    let s1 := { r.1 with fab := { r.1.fab with nextPkt := r.1.fab.nextPkt + 1 } }
    enterBuffer s1 { r.2 with route := route } node (if node = p.src then ownPort else 24)

/-- R33, R34, R36, R46: a node discards a packet and answers it with an ERROR (log entry 42). -/
def reject (s : State) (node : Nat) (p : Packet) (st : FStatus) : State :=
  answer (dropPacket s p.id) node p .error [] st.code

/-- The node at which a packet waits for its next hop, on either lane. -/
def PktAt.router : PktAt → Option Nat
  | .queue n i => if i = ownPort then none else some n
  | .rope n => some n
  | _ => none

/-- R36: the hop code that a packet takes next. -/
def Packet.nextHop (p : Packet) : Option Nat := p.route[p.hidx]?

/-- R55: the hop leads into a fenced island. -/
def leadsFenced (s : State) (node code : Nat) : Bool :=
  (hopPorts node code).any fun x =>
    ((farEnd (codeNow s) ⟨node, x⟩).map fun f => (s.fab.fenced.get? f.node).isSome).getD false

/-- R34, R46, R55: what a router answers a packet with whose next hop no link can take: ISLAND_DOWN where the hop leads into a
fenced island, else UNREACHABLE. -/
def noWay (s : State) (node code : Nat) : FStatus := if leadsFenced s node code then .islandDown else .unreachable

/-- R46, R55: packets queued for a port whose bundle has no port left that carries traffic are answered. -/
def strand (s : State) (e : LinkEnd) : State :=
  (s.fab.pkts.filter fun p => p.place.router == some e.node &&
    (p.nextHop.map fun c => (hopPorts e.node c).contains e.port && (hopTo s e.node c).isNone).getD false).foldl
    (fun s p => reject s e.node p (noWay s e.node (p.nextHop.getD 0))) s

/-- R46: both ends of a link that has left UP deal with the packets queued for it. -/
def strandBoth (s : State) (e : LinkEnd) : State :=
  match farEnd (codeNow s) e with
  | some f => strand (strand s e) f
  | none => strand s e

/-! ### Link training -/

/-- R44: wavelengths of a map. -/
def lanesIn8 (m : BitVec 8) : Nat := ((List.range 8).filter fun i => m.getLsbD i).length

/-- R44: the intersection of two proposals; width 0 when the common map allows none. -/
def LinkCfg.meet (a b : LinkCfg) : LinkCfg :=
  let lanes := a.lanes &&& b.lanes
  let most := min (min a.width b.width) (lanesIn8 lanes)
  ⟨([8, 6, 4, 2].find? (· ≤ most)).getD 0, lanes, min a.speed b.speed⟩

/-- R44: a proposal in the terms of the rule. -/
def LinkCfg.legal (c : LinkCfg) : Bool := [8, 6, 4, 2].contains c.width && (c.speed == 200 || c.speed == 100)

/-- R44, R45: a link starts to train. -/
def Link.train (l : Link) (now : Nat) : Link :=
  { l with st := .train, since := now, cause := false, prop0 := none, prop1 := none, echo0 := none, echo1 := none, cfg := none }

/-- R44: an end's own proposal. -/
def Link.prop (l : Link) (near : Bool) : Option LinkCfg := if near then l.prop0 else l.prop1

/-- R44: an end's own echo. -/
def Link.echo (l : Link) (near : Bool) : Option LinkCfg := if near then l.echo0 else l.echo1

/-- R44: an end sends its proposal, or echoes the intersection of its own proposal and of the other end's as it received
it (log entry 20). -/
def Link.heard (l : Link) (first near : Bool) (c : LinkCfg) : Link :=
  match first, near with
  | true, true => { l with prop0 := some c }
  | true, false => { l with prop1 := some c }
  | false, true => { l with echo0 := l.prop0.map (·.meet c) }
  | false, false => { l with echo1 := l.prop1.map (·.meet c) }

/-- R44, R45: what the two echoes decide. -/
def Link.decided (l : Link) (now : Nat) : Link :=
  match l.echo0, l.echo1 with
  | some a, some b =>
    if a ≠ b then { l with st := .mismatch, since := now }
    else if a.width = 0 then downLink now false
    else { l with st := .up, since := now, cfg := some a }
  | _, _ => l

/-- R44: the echo that an end sends on a proposal it received is not one that both ends get wrong alike: echoes that agree
are the intersection of the two proposals (log entry 20). -/
def echoOk (l : Link) (near : Bool) (c : LinkCfg) : Bool :=
  match l.prop near, l.prop (!near) with
  | some own, some other => (c.legal || c == other) && (l.echo (!near) != some (own.meet c) || own.meet c == own.meet other)
  | _, _ => false

/-- R44: each end sends one proposal, and one echo once both have sent theirs; in MISMATCH the next echoes come with the
next third handshake. -/
def handshakeOk (l : Link) (first near : Bool) (c : LinkCfg) : Bool :=
  if first then l.st == .train && c.legal && (l.prop near).isNone
  else (l.st == .train || l.st == .mismatch) && (l.echo near).isNone && echoOk l near c

/-- R45: LINK_TRAINING_START. -/
def execLinkTrainingStart (s : State) : Out :=
  match s.occ with
  | .link e =>
    let l := linkAt s e
    if anchorUp s && joined s e && l.st == .down && l.cause then .next (commit s (modLink s e (·.train s.hub.ns)))
    else idle "LINK_TRAINING_START"
  | _ => idle "LINK_TRAINING_START"

/-- R44, R45, R46: TRAINING_HANDSHAKE: an end's proposal or echo is received. -/
def execTrainingHandshake (s : State) : Out :=
  match s.occ with
  | .handshake e first c =>
    let l := linkAt s e
    if !joined s e || !handshakeOk l first (canonEnd (codeNow s) e == e) c then idle "TRAINING_HANDSHAKE"
    else
      let s1 := modLink s e fun l => (l.heard first (canonEnd (codeNow s) e == e) c).decided s.hub.ns
      .next (commit s (if linkUp s1 e then linkChanged s1 else s1))
  | _ => idle "TRAINING_HANDSHAKE"

/-- R44: what the third handshake restarts from: the intersection of the echoes. -/
def Link.restart (l : Link) (now : Nat) : Link :=
  let c := match l.echo0, l.echo1 with
    | some a, some b => some (a.meet b)
    | _, _ => l.prop0
  { l with since := now, prop0 := c, prop1 := c, echo0 := none, echo1 := none }

/-- R44: THIRD_HANDSHAKE_TIMER. -/
def execThirdHandshakeTimer (s : State) : Out :=
  match s.occ with
  | .link e =>
    let l := linkAt s e
    if l.st == .mismatch && l.since + 1000000 ≤ s.hub.ns then .next (commit s (modLink s e (·.restart s.hub.ns)))
    else idle "THIRD_HANDSHAKE_TIMER"
  | _ => idle "THIRD_HANDSHAKE_TIMER"

/-- R45: TRAIN_REPLY_TIMEOUT. -/
def execTrainReplyTimeout (s : State) : Out :=
  match s.occ with
  | .link e =>
    let l := linkAt s e
    if l.st == .train && l.since + 10000000 ≤ s.hub.ns then .next (commit s (modLink s e fun _ => downLink s.hub.ns false))
    else idle "TRAIN_REPLY_TIMEOUT"
  | _ => idle "TRAIN_REPLY_TIMEOUT"

/-- R45: neither end of a port's link is absent or fenced. -/
def eligible45 (s : State) (e : LinkEnd) : Bool :=
  joined s e && nodeUp s e.node && ((farEnd (codeNow s) e).map fun f => nodeUp s f.node).getD false

/-- R45: LINK_DOWN_RETRY_TIMER. -/
def execLinkDownRetryTimer (s : State) : Out :=
  match s.occ with
  | .link e =>
    let l := linkAt s e
    if anchorUp s && l.st == .down && !l.cause && l.since + 100000000 ≤ s.hub.ns && eligible45 s e then
      .next (commit s (modLink s e (·.train s.hub.ns)))
    else idle "LINK_DOWN_RETRY_TIMER"
  | _ => idle "LINK_DOWN_RETRY_TIMER"

/-- R45, R46: LINK_LOSS. -/
def execLinkLoss (s : State) : Out :=
  match s.occ with
  | .link e =>
    if linkUp s e then .next (commit s (linkChanged (strandBoth (modLink s e (·.train s.hub.ns)) e))) else idle "LINK_LOSS"
  | _ => idle "LINK_LOSS"

/-- R45, R46: a link is forced down. -/
def forceLink (s : State) (e : LinkEnd) : State :=
  let s1 := modLink s e fun _ => { downLink s.hub.ns false with st := .forced }
  if linkUp s e then linkChanged (strandBoth s1 e) else s1

/-- R45, R63: LINK_FORCE, by system software through Redfish. -/
def execLinkForce (s : State) : Out :=
  match s.occ with
  | .link e =>
    if !serviceUp s || !joined s e then idle "LINK_FORCE" else redfish s none (forceLink s e)
  | _ => idle "LINK_FORCE"

/-- R45, R63: LINK_RELEASE, by system software through Redfish. -/
def execLinkRelease (s : State) : Out :=
  match s.occ with
  | .link e =>
    if serviceUp s && (linkAt s e).st == .forced then redfish s none (modLink s e fun _ => downLink s.hub.ns true)
    else idle "LINK_RELEASE"
  | _ => idle "LINK_RELEASE"

end Sys2Proof.Machine
end

