-- ==== Sys2Proof/Machine/Packets.lean ====
section
/-! DEFINITION. Packets: the hops of routers (R32, R34, R36, R53), what a destination does with requests (R33, R40, R41,
R101, R281 to R284), what a source does with replies (R280, R413, R414, R416), timers (R35, R41, R47) and the belay token
(R48, R49). -/

namespace Sys2Proof.Machine

open Sys2Proof

/-- The packet that the event under way names. -/
def occPacket (s : State) : Option Packet :=
  match s.occ with
  | .packet id | .packetSome id _ | .hop id _ => s.pkt? id
  | _ => none

/-! ### Routers -/

/-- R53: a GEN is older than a router's switch generation. -/
def stale (switchGen gen : Nat) : Bool :=
  let d := (switchGen % 65536 + 65536 - gen % 65536) % 65536
  1 ≤ d && d ≤ 32767

/-- R36: the ports on which a packet may leave: of its bundle those that carry traffic, and for an ordered packet the one
its source and channel select. -/
def exits (s : State) (node code : Nat) (p : Packet) : List Nat :=
  let ports := (hopPorts node code).filter fun x => carries s ⟨node, x⟩
  match p.och with
  | none => ports
  | some ch =>
    let all := hopPorts node code
    ((rotated ((p.src + ch) % max all.length 1) all).find? fun x => ports.contains x).toList

/-- R47: the input buffer of a port has room for one packet more; an empty one always has (log entry 37). -/
def bufferRoom (s : State) (e : LinkEnd) : Bool :=
  let q := s.fab.pkts.filter fun p => p.place.buffer == some (e.node, e.port)
  q.isEmpty || decide (q.length < Config.bufferPackets)

/-- R47, R49: the far end of a port has room for a packet: on the rope lane always, since at most one packet occupies it. -/
def farRoom (s : State) (node port : Nat) (p : Packet) : Option LinkEnd :=
  (farEnd (codeNow s) ⟨node, port⟩).filter fun far => p.place.onRope || bufferRoom s far

/-- A packet moves to the next router on its route, into the input buffer of the port that it arrives on, or to the
router's place on the rope lane. -/
def advance (s : State) (p : Packet) (far : LinkEnd) : State :=
  match p.place with
  | .rope _ =>
    let s1 := setPacket s { p with hidx := p.hidx + 1, place := .rope far.node }
    { s1 with fab := { s1.fab with belay := s1.fab.belay.map fun b => { b with rope := far.node } } }
  | _ => enterBuffer s { p with hidx := p.hidx + 1 } far.node far.port

/-- R32: a router discards a packet and counts it. -/
def discard (s : State) (node : Nat) (p : Packet) : State :=
  let s1 := dropPacket s p.id
  { s1 with fab := { s1.fab with discards := s1.fab.discards.set node (s1.fab.discards.getD node 0 + 1) } }

/-- R53: a request packet in a router whose GEN is older than the router's switch generation; one that its destination has
begun to serve is the router's no more. -/
def tooOld (s : State) (p : Packet) : Bool :=
  p.op.request && p.place.router.isSome && p.part.isNone && stale s.fab.switchGen p.gen

/-- R32, R34, R36, R47, R53, R55: what a router does with a packet, on a port that the fabric chose. R32 names no hop code
among the reserved values for which a router discards a packet: that a hop code which R36 reserves has the same outcome is the
model's choice (log entry 47). -/
def hop (s : State) (node port : Nat) (p : Packet) : Option State :=
  if tooOld s p then some (reject s node p .drained)
  else
    match p.nextHop with
    | none => if node = p.dest then none else some (reject s node p .misroute)
    | some code =>
      if headerReserved p.header ∨ hopPorts node code = [] then some (discard s node p)
      else if (exits s node code p).isEmpty then some (reject s node p (noWay s node code))
      else if !(exits s node code p).contains port then none
      else (farRoom s node port p).map (advance s p)

/-- R36: PACKET_HOP. -/
def execPacketHop (s : State) : Out :=
  match s.occ with
  | .hop id port =>
    match s.pkt? id with
    | some p =>
      match p.place.router with
      | some n =>
        match if atHead s p then hop s n port p else none with
        | some s' => .next (commit s s')
        | none => idle "PACKET_HOP"
      | none => idle "PACKET_HOP"
    | none => idle "PACKET_HOP"
  | _ => idle "PACKET_HOP"

/-! ### Destinations -/

/-- R33, R39: the destination holds the key that a packet was sealed under; an operation on the issuing island itself
crosses no link and is not checked, and a packet is checked once; one that an error has spoilt fails (log entry 29). -/
def authentic (s : State) (p : Packet) : Bool :=
  let k := s.fab.keys.getD p.kslot ⟨false, 0, none⟩
  !s.mem.poison.contains (.packet p.id) && (p.src == p.dest || p.part.isSome || if p.kph = k.phase then p.epoch == k.cur else k.old == some p.epoch)

/-- R11, R55: the fabric interface of a node takes packets in: its island is not fenced and its UCIe link is up, or the
packet is the island's own. -/
def takesIn (s : State) (p : Packet) : Bool :=
  nodeUp s p.dest && (p.src == p.dest || (s.fab.ucieDown.get? p.dest).isNone)

/-- A packet has arrived at its destination, at the head of its buffer, or is held there. -/
def arrived (s : State) (p : Packet) : Bool :=
  match p.place with
  | .queue n _ | .rope n => n == p.dest && p.hidx == p.route.length && atHead s p
  | .held _ => true
  | .source => false

/-- R41: the key of a packet's channel at its destination. -/
def orderKey (p : Packet) (ch : Nat) : Nat × Nat × Nat × Nat × Nat := (p.dest, p.src, p.kslot, p.steam, ch)

/-- R40, R41: the packet stands next in its channel's order; an unordered one always does. -/
def inTurn (s : State) (p : Packet) : Bool :=
  match p.och with
  | none => true
  | some ch => s.fab.expect.get? (orderKey p ch) == some p.chseq

/-- R40, R41: the packet has used its place in its channel's order. -/
def usePlace (s : State) (p : Packet) : State :=
  match p.och with
  | none => s
  | some ch => { s with fab := { s.fab with expect := s.fab.expect.set (orderKey p ch) ((p.chseq + 1) % 4096) } }

/-- R33, R40, R41: a request at its destination: rejected, held, served in part (R265), or served. -/
def receiveReq (s : State) (op : PktOp) (piece : State → Packet → Option State) (serve : State → Packet → State) :
    Option State :=
  match occPacket s with
  | none => none
  | some p =>
    if p.op ≠ op ∨ !arrived s p ∨ !takesIn s p then none
    else if tooOld s p then some (reject s p.dest p .drained)
    else if !authentic s p then some (reject s p.dest p .auth)
    else if inTurn s p then
      match piece s p with
      | some s' => some s'
      | none => some (serve (dropPacket (usePlace s p) p.id) p)
    else
      match p.place with
      | .held _ => none
      | _ => some (setPacket s { p with place := .held s.hub.ns, blocked := none, timedOut := false })

/-- R34, R101: the fabric status of a failed translation. -/
def xlateStatus (perm : Bool) : FStatus := if perm then .permission else .translation

/-- R34, R101: the fabric status of a failed access. -/
def XErr.fstatus : XErr → FStatus
  | .fault _ p _ => xlateStatus p
  | .sealed _ => .permission
  | .poison _ => .poison

/-- R101: an access of a packet at its destination, through the fabric interface's translation cache. -/
def Packet.access (p : Packet) (s : State) (n : Nat) (acc : Acc) (reads : Bool) : Except XErr Nat :=
  (accessBy s p.dest .remote p.kslot p.addr n acc reads).map (·.1)

/-- R265: where the bytes of a packet stand that its destination has not served: how many it has, and the physical address
of the first. -/
def Packet.served (p : Packet) (s : State) (acc : Acc) : Except XErr (Nat × Nat) :=
  match p.part with
  | some x => .ok x
  | none => (p.access s (p.bcnt + 1) acc (acc == .read)).map fun pa => (0, pa)

/-- R265: the bytes of `n` aligned words from an address on. -/
def wordsFrom (a n : Nat) : Nat := n * 8 - a % 8

/-- R265: how many bytes the event under way serves of a packet, where it leaves some. -/
def pieceOf (s : State) (a rest : Nat) : Option Nat :=
  match s.occ with
  | .packetSome _ n => if wordsFrom a n < rest then some (wordsFrom a n) else none
  | _ => none

/-- R265: some of the bytes of a PUT. -/
def putPiece (s : State) (p : Packet) : Option State :=
  match p.served s .write with
  | .error _ => none
  | .ok (k, pa) =>
    (pieceOf s (pa + k) (p.bcnt + 1 - k)).map fun n =>
      setPacket (bypassBank s p.dest none (pa + k) ((p.payload.drop k).take n)) { p with part := some (k + n, pa) }

/-- R40, R218, R412: a remote write is applied. -/
def servePut (s : State) (p : Packet) : State :=
  match p.served s .write with
  | .ok (k, pa) => answer (bypassBank s p.dest none (pa + k) (p.payload.drop k)) p.dest p .putAck [] 0
  | .error e => answer (e.note s p.dest p.kslot) p.dest p .error [] e.fstatus.code

/-- R265: some of the bytes of a GET, which stand in its packet. -/
def getPiece (s : State) (p : Packet) : Option State :=
  match p.served s .read with
  | .error _ => none
  | .ok (k, pa) =>
    match pieceOf s (pa + k) (p.bcnt + 1 - k) with
    | none => none
    | some n =>
      if (s.mem.poisonedAt p.dest (pa + k) n).isSome then none
      else some (setPacket s { p with payload := p.payload ++ s.mem.bytes p.dest (pa + k) n, part := some (k + n, pa) })

/-- R283: the bytes of a GET are read at the home bank. -/
def serveGet (s : State) (p : Packet) : State :=
  match p.served s .read with
  | .error e => answer (e.note s p.dest p.kslot) p.dest p .error [] e.fstatus.code
  | .ok (k, pa) =>
    let n := p.bcnt + 1 - k
    if (s.mem.poisonedAt p.dest (pa + k) n).isSome then answer s p.dest p .error [] FStatus.poison.code
    else answer s p.dest p .getData (p.payload ++ s.mem.bytes p.dest (pa + k) n) 0

/-- R395: the operation of a code. -/
def aopOf (n : Nat) : AOp :=
  ([AOp.add, .min, .max, .and, .or, .xor, .exch, .cas].find? fun o => o.code == n).getD .add

/-- R395: the type of a code. -/
def atyOf (n : Nat) : Ty := ([Ty.n32, .i32, .n64, .i64, .f32].find? fun t => t.code == n).getD .n32

/-- R284: the new value of a word under the operation, type, operand and compare value that a packet carries. -/
def remoteStep (bs : List Byte) (v : W64) : W64 :=
  atomicOp (aopOf (leNat (bs.take 1))) (atyOf (leNat ((bs.drop 1).take 1))) v (w64 (leNat ((bs.drop 2).take 8)))
    (w64 (leNat ((bs.drop 10).take 8)))

/-- R284, R414: a remote atomic or reduction is applied at the home bank. -/
def serveAtomic (s : State) (p : Packet) (reply : PktOp) : State :=
  let n := p.bcnt + 1
  match p.access s n .atomic true with
  | .error e => answer (e.note s p.dest p.kslot) p.dest p .error [] e.fstatus.code
  | .ok pa =>
    let old := w64 (s.mem.nat p.dest pa n)
    let s1 := bypassBank s p.dest none pa (leBytes n (remoteStep p.payload old).toNat)
    answer s1 p.dest p reply (if reply = .ratomRes then leBytes 8 old.toNat else []) 0

/-- R134, R415: a remote join decrement. -/
def serveNotify (s : State) (p : Packet) : State :=
  match p.access s 8 .atomic false with
  | .error e => answer (e.note s p.dest p.kslot) p.dest p .error [] e.fstatus.code
  | .ok pa =>
    let r := joinDecrement s p.dest p.kslot p.addr pa p.count
    if r.2 then answer r.1 p.dest p .notifyAck [] 0 else answer s p.dest p .error [] FStatus.poison.code

/-- R41: OCH_RESET discards what is held for the key, sets the expected sequence to 1 and is acknowledged. -/
def serveReset (s : State) (p : Packet) : State :=
  match p.och with
  | none => s
  | some ch =>
    let held := s.fab.pkts.filter fun q => q.och.isSome && orderKey q ch == orderKey p ch && q.och == some ch && (match q.place with
      | .held _ => true
      | _ => false)
    let s1 := held.foldl (fun s q => reject s q.dest q .drained) s
    answer { s1 with fab := { s1.fab with expect := s1.fab.expect.set (orderKey p ch) 1 } } p.dest p .ochResetAck [] 0

/-- An event of a request at its destination. -/
def reqEvent (s : State) (m : String) (op : PktOp) (piece : State → Packet → Option State) (serve : State → Packet → State) :
    Out :=
  match receiveReq s op piece serve with
  | some s' => .next (commit s s')
  | none => idle m

/-- R412: PUT_PACKET. -/
def execPutPacket (s : State) : Out := reqEvent s "PUT_PACKET" .put putPiece servePut

/-- R283: GET_REQ. -/
def execGetReq (s : State) : Out := reqEvent s "GET_REQ" .getReq getPiece serveGet

/-- R284: RATOM_PACKET. -/
def execRatomPacket (s : State) : Out := reqEvent s "RATOM_PACKET" .ratom (fun _ _ => none) fun s p => serveAtomic s p .ratomRes

/-- R284: RRED_PACKET. -/
def execRredPacket (s : State) : Out := reqEvent s "RRED_PACKET" .rred (fun _ _ => none) fun s p => serveAtomic s p .rredAck

/-- R415: NOTIFY_PACKET. -/
def execNotifyPacket (s : State) : Out := reqEvent s "NOTIFY_PACKET" .notify (fun _ _ => none) serveNotify

/-- R41: OCH_RESET; it is applied on arrival, whatever is held for its key. -/
def execOchReset (s : State) : Out :=
  match occPacket s with
  | some p =>
    if p.op ≠ .ochReset ∨ !arrived s p ∨ !takesIn s p then idle "OCH_RESET"
    else if tooOld s p then .next (commit s (reject s p.dest p .drained))
    else if !authentic s p then .next (commit s (reject s p.dest p .auth))
    else .next (commit s (serveReset (dropPacket s p.id) p))
  | none => idle "OCH_RESET"

/-- R39, R41: HELD_PACKET_TIMEOUT; an operation on the issuing island itself is never answered DRAINED. -/
def execHeldPacketTimeout (s : State) : Out :=
  match occPacket s with
  | some p =>
    match p.place with
    | .held t => if p.src ≠ p.dest ∧ t + 10000000 ≤ s.hub.ns then .next (commit s (reject s p.dest p .drained)) else idle "HELD_PACKET_TIMEOUT"
    | _ => idle "HELD_PACKET_TIMEOUT"
  | none => idle "HELD_PACKET_TIMEOUT"

/-! ### Sources -/

/-- R283, R413: the bytes of GET_DATA are written to the local destination as a write of the issuing split. -/
def deliver (s : State) (t : Txn) (bs : List Byte) : State :=
  let core := match t.use with
    | .op id => (s.op? id).map (·.core)
    | _ => none
  match t.dst.1 with
  | .global =>
    (t.dst.2.zip bs).foldl (fun s x => bypassBank s t.src core x.1 [x.2]) s
  | .spad c =>
    { s with mem := (t.dst.2.zip bs).foldl (fun (m : MemSt) (x : Nat × Byte) => m.spadPut t.src c x.1 [x.2]) s.mem }
  | _ => s

/-- R414: the old value that a RATOM packet returns reaches its operation, in the packet's lane. -/
def addRet (s : State) (t : Txn) (old : W64) : State :=
  match t.use with
  | .op id =>
    match s.op? id with
    | some o => setOp s { o with rets := o.rets ++ [(t.lane, old)] }
    | none => s
  | _ => s

/-- R265: some of the bytes of a GET_DATA. -/
def dataPiece (s : State) (t : Txn) (p : Packet) : Option State :=
  let k := (p.part.map (·.1)).getD 0
  let at_ := t.dst.2.drop k
  (pieceOf s (at_.headD 0) (p.payload.length - k)).map fun n =>
    setPacket (deliver s { t with dst := (t.dst.1, at_.take n) } ((p.payload.drop k).take n)) { p with part := some (k + n, 0) }

/-- R283, R413: the bytes of a GET_DATA that its source has not taken. -/
def takeData (s : State) (t : Txn) (p : Packet) : State :=
  let k := (p.part.map (·.1)).getD 0
  packetDone (deliver s { t with dst := (t.dst.1, t.dst.2.drop k) } (p.payload.drop k)) t none

/-- R272, R274, R283: an earlier operation of the split has yet to reach the local destination of a GET. -/
def heldData (s : State) (t : Txn) : Bool :=
  match t.use with
  | .op id =>
    match s.op? id with
    | some o => (s.core.ops.takeWhile (·.id != id)).any fun p => p.sharesSplit o && t.dst.2.any fun a =>
        let x : Access := ⟨0, 0, t.dst.1, a, 1, .write 0, false, false, 0, 0⟩
        p.claims s x || p.accs.any fun b => !b.done && b.meets x
    | none => false
  | _ => false

/-- R33, R35: a reply at its source: one that fails its check is answered with an ERROR, and one that answers no request
that is still outstanding is discarded. -/
def receiveReply (s : State) (op : PktOp) (piece : State → Txn → Packet → Option State) (take : State → Txn → Packet → State) :
    Option State :=
  match occPacket s with
  | none => none
  | some p =>
    if p.op ≠ op ∨ !arrived s p ∨ !takesIn s p then none
    else if !authentic s p then some (reject s p.dest p .auth)
    else
      let s1 := dropPacket s p.id
      match s.txn? p.dest p.tag with
      | some t =>
        if t.injected ∧ !p.ofReply then
          if op = .getData ∧ heldData s t then none
          else match piece s t p with
          | some s' => some s'
          | none => some (take s1 t p)
        else some s1
      | none => some s1

/-- An event of a reply at its source. -/
def replyEvent (s : State) (m : String) (op : PktOp) (take : State → Txn → Packet → State)
    (piece : State → Txn → Packet → Option State := fun _ _ _ => none) : Out :=
  match receiveReply s op piece take with
  | some s' => .next (commit s s')
  | none => idle m

/-- R280: PUT_ACK. -/
def execPutAck (s : State) : Out := replyEvent s "PUT_ACK" .putAck fun s t _ => packetDone s t none

/-- R413: GET_DATA. -/
def execGetData (s : State) : Out := replyEvent s "GET_DATA" .getData takeData dataPiece

/-- R414: RATOM_RES. -/
def execRatomRes (s : State) : Out :=
  replyEvent s "RATOM_RES" .ratomRes fun s t p => packetDone (addRet s t (w64 (leNat p.payload))) t none

/-- R414: RRED_ACK. -/
def execRredAck (s : State) : Out := replyEvent s "RRED_ACK" .rredAck fun s t _ => packetDone s t none

/-- R415: NOTIFY_ACK. -/
def execNotifyAck (s : State) : Out := replyEvent s "NOTIFY_ACK" .notifyAck fun s t _ => packetDone s t none

/-- R34, R416: ERROR_PACKET. -/
def execErrorPacket (s : State) : Out := replyEvent s "ERROR_PACKET" .error fun s t p => packetDone s t (some p.status)

/-- R41, R410: OCH_RESET_ACK. -/
def execOchResetAck (s : State) : Out := replyEvent s "OCH_RESET_ACK" .ochResetAck fun s t _ => packetDone s t none

/-- R413: the GET_DATA of a request that its source has begun to write. Such a request no longer fails, so that the bytes of
a packet that fails keep their old values. -/
def landing (s : State) (t : Txn) : Option Packet :=
  s.fab.pkts.find? fun p => p.op == .getData && p.dest == t.src && p.tag == t.tag && p.part.isSome

/-- R265: a packet whose bytes have been served or written in part goes through to its end. -/
def flushPacket (s : State) (p : Packet) : State :=
  if p.part.isNone then s
  else
    let s1 := dropPacket s p.id
    match p.op, s.txn? p.dest p.tag with
    | .put, _ => servePut s1 p
    | .getReq, _ => serveGet s1 p
    | .getData, some t => takeData s1 t p
    | _, _ => s1

/-- R265: the packets that meet a condition and have been served in part go through. -/
def flushPackets (s : State) (p : Packet → Bool) : State := (s.fab.pkts.filter p).foldl flushPacket s

/-- R35: RESPONSE_TIMER_EXPIRY. -/
def execResponseTimerExpiry (s : State) : Out :=
  match s.occ with
  | .txn src tag =>
    match s.txn? src tag with
    | some t =>
      if t.injected ∧ t.dest ≠ t.src ∧ t.sentAt + s.hub.respNs ≤ s.hub.ns ∧ landing s t = none then
        .next (commit s (packetDone s t (some FStatus.timeout.code)))
      else idle "RESPONSE_TIMER_EXPIRY"
    | none => idle "RESPONSE_TIMER_EXPIRY"
  | _ => idle "RESPONSE_TIMER_EXPIRY"

/-! ### Stuck packets -/

/-- R50: a node's counts of timer expiries and rope moves. -/
def countRope (s : State) (node expiries moves : Nat) : State :=
  let c := s.fab.ropeStats.getD node (0, 0)
  { s with fab := { s.fab with ropeStats := s.fab.ropeStats.set node (c.1 + expiries, c.2 + moves) } }

/-- R47: the packet at the head of a router's input buffer can advance: its destination takes it in, or the router passes it
on or answers it. -/
def canAdvance (s : State) (node : Nat) (p : Packet) : Bool :=
  if node = p.dest ∧ p.hidx = p.route.length then takesIn s p
  else (List.range 24).any fun port => (hop s node port p).isSome

/-- R47: the timer of an input buffer runs while the packet at its head cannot advance. -/
def Packet.timed (s : State) (p : Packet) : Packet :=
  match p.place with
  | .queue n _ =>
    if p.place.buffer.isNone || p.timedOut || !atHead s p then p
    else if canAdvance s n p then { p with blocked := none }
    else { p with blocked := some (p.blocked.getD s.hub.ns) }
  | _ => p

/-- R47: the blocked-packet timers, as they stand before time passes. -/
def runTimers (s : State) : State := { s with fab := { s.fab with pkts := s.fab.pkts.map (·.timed s) } }

/-- R47: BLOCKED_PACKET_TIMER: a packet at the head of its input buffer could not advance for the timer's time (log entry
37). -/
def execBlockedPacketTimer (s : State) : Out :=
  match occPacket s with
  | some p =>
    match p.place, p.blocked with
    | .queue n _, some t =>
      if !p.timedOut && atHead s p && !canAdvance s n p && t + s.hub.blockNs ≤ s.hub.ns then
        .next (commit s (countRope (setPacket s { p with timedOut := true }) n 1 0))
      else idle "BLOCKED_PACKET_TIMER"
    | _, _ => idle "BLOCKED_PACKET_TIMER"
  | none => idle "BLOCKED_PACKET_TIMER"

/-- R48: the oldest timed-out packet at a router. The spec does not say what makes a packet the oldest: the model takes the one
that has been blocked longest (log entry 47). -/
def oldestStuck (s : State) (node : Nat) : Option Packet :=
  (s.fab.pkts.filter fun p => p.timedOut && p.place.router == some node).foldl
    (fun (a : Option Packet) p => match a with
      | some q => if p.blocked.getD 0 < q.blocked.getD 0 then some p else a
      | none => some p) none

/-- R48: the node that follows on the ring. -/
def nextOnRing (s : State) (node : Nat) : Nat :=
  (rotated 1 s.fab.ring).getD (s.fab.ring.findIdx (· == node)) node

/-- R48: the token passes on. -/
def passBelay (s : State) (b : Belay) : State :=
  { s with fab := { s.fab with belay := some { b with node := nextOnRing s b.node, holding := none } } }

/-- R48, R49: BELAY. While a packet that an earlier token moved is still on the rope lane, the token moves no other (log
entry 42). -/
def execBelay (s : State) : Out :=
  match s.fab.belay with
  | none => idle "BELAY"
  | some b =>
    if s.occ ≠ .node b.node ∨ b.holding.isSome then idle "BELAY"
    else
      .next (commit s (match if s.fab.pkts.any (·.place.onRope) then none else oldestStuck s b.node with
        | none => passBelay s b
        | some p =>
          let s1 := countRope (setPacket s { p with place := .rope b.node, timedOut := false }) b.node 0 1
          { s1 with fab := { s1.fab with belay := some { b with holding := some p.id, rope := b.node } } }))

/-- R49: the packet is still on the rope lane. -/
def onRope (s : State) (id : Nat) : Bool := ((s.pkt? id).map (·.place.onRope)).getD false

/-- R48: the node that stands before another on the ring. -/
def prevOnRing (s : State) (node : Nat) : Nat :=
  s.fab.ring.getD ((rotated 1 s.fab.ring).findIdx (· == node)) node

/-- R31, R48, R49: the control packets on the panel: the token on its hop to a node, or the acknowledgement on its way from the
node that took or answered the rope packet to the node that keeps the token. -/
def controlPackets (s : State) : List Packet :=
  s.fab.belay.toList.flatMap fun b =>
    match b.holding with
    | some id =>
      if onRope s id || b.rope == b.node then []
      else ((routesTo s b.rope b.node).take 1).map (controlPacket .ropeAck b.rope b.node b.gen)
    | none =>
      let a := prevOnRing s b.node
      ((Tbl.getD (hopsOf s) a []).find? (·.2 == b.node)).toList.map fun h => controlPacket .belay a b.node b.gen [h.1]

/-- R48, R49: ROPE_ACK: the rope packet has been taken or answered, and the token passes on. -/
def execRopeAck (s : State) : Out :=
  match s.fab.belay with
  | some b =>
    match b.holding with
    | some id => if s.occ = .node b.node ∧ !onRope s id then .next (commit s (passBelay s b)) else idle "ROPE_ACK"
    | none => idle "ROPE_ACK"
  | none => idle "ROPE_ACK"

end Sys2Proof.Machine
end

