-- ==== Sys2Proof/Machine/Copy.lean ====
section
/-! DEFINITION. Copy records (R228 to R231, R237) and the follow-on append (R231). -/

namespace Sys2Proof.Machine

open Sys2Proof

/-! ### Layouts -/

/-- R229: one bit of the reflected CRC-32C. -/
def crcBit (c : Nat) : Nat := if c % 2 = 1 then (c / 2) ^^^ 0x82F63B78 else c / 2

/-- R229: one byte of the CRC-32C. -/
def crcByte (c : Nat) (b : Byte) : Nat := (List.range 8).foldl (fun c _ => crcBit c) (c ^^^ b.toNat)

/-- R229: the CRC-32C of bytes. -/
def crc32c (bs : List Byte) : Nat := (bs.foldl crcByte 0xFFFFFFFF) ^^^ 0xFFFFFFFF

/-- R229: a layout record's seal holds. -/
def layoutSealed (x : Nat) : Bool := nbits x 511 480 == crc32c (leBytes 60 x) && nbits x 479 472 == 1

/-- R229: the element size of a layout. -/
def layEsz (x : Nat) : Nat := 2 ^ nbits x 447 446

/-- R229: the extents D0 to D3 of a layout. -/
def layExtents (x : Nat) : List Nat := [nbits x 383 368, nbits x 399 384, nbits x 415 400, nbits x 431 416]

/-- R229: the elements of a layout. -/
def layCount (x : Nat) : Nat := (layExtents x).foldl (· * ·) 1

/-- R229: the byte offset of element `k` in visiting order. -/
def layOffset (x k : Nat) : Nat :=
  let d (i : Nat) : Nat := (layExtents x).getD i 1
  k % d 0 * layEsz x + k / d 0 % d 1 * nbits x 367 328 + k / (d 0 * d 1) % d 2 * nbits x 327 288 +
    k / (d 0 * d 1 * d 2) * nbits x 287 248

/-- R229: a layout has an extent of 0, an unused extent that is not 1, or an element that is not aligned. -/
def layoutBad (x base : Nat) : Bool :=
  (layExtents x).any (· == 0) || ((layExtents x).drop (nbits x 445 444 + 1)).any (· != 1) ||
    (List.range (layCount x)).any fun k => (base + layOffset x k) % layEsz x != 0

/-- R229: an element of a layout overlaps an earlier one. -/
def layoutOverlaps (x : Nat) : Bool :=
  (List.range (layCount x)).any fun k =>
    (List.range k).any fun j => layOffset x k < layOffset x j + layEsz x && layOffset x j < layOffset x k + layEsz x

/-! ### The record -/

/-- R228: MALFORMED in a COPY. -/
def copyMal (x : Nat) : Option Nat :=
  lowestBit (recCommon x ++ [firstBit x 221 192, badIf (2 ≤ nbits x 251 250) 250, badIf (2 ≤ nbits x 249 248) 248,
    badIf (nbits x 251 250 == 1 && nbits x 249 248 == 1) 248, badIf (95 < nbits x 247 241) 241,
    badIf (5 ≤ nbits x 228 226) 226, badIf (5 ≤ nbits x 225 223) 223])

/-- R228, R230: the formats of a conversion: target and source. -/
def convTypes (conv : Nat) : Option (Ty × Ty) :=
  match conv with
  | 1 => some (.e4m3, .bf16)
  | 2 => some (.e5m2, .bf16)
  | 3 => some (.bf16, .e4m3)
  | 4 => some (.bf16, .e5m2)
  | _ => none

/-- R228: the rounding mode of a code. -/
def rndOf (n : Nat) : Rnd :=
  match n with
  | 0 => .rne
  | 1 => .rtz
  | 2 => .rdn
  | 3 => .rup
  | _ => .rmm

/-- R230: the element sizes, source and destination, that the conversion requires; none when they are to be equal. -/
def convSizes (conv : Nat) : Option (Nat × Nat) :=
  match conv with
  | 1 | 2 => some (2, 1)
  | 3 | 4 => some (1, 2)
  | _ => none

/-- R230: FORMAT. -/
def copyFormatBad (conv ssz dsz : Nat) : Bool :=
  match convSizes conv with
  | some p => p != (ssz, dsz)
  | none => ssz != dsz

/-- R230: an element as the copy writes it. -/
def convElement (x v : Nat) : Nat :=
  match convTypes (nbits x 228 226) with
  | some (target, source) => (convert target source (rndOf (nbits x 225 223)) (nbit x 222) v).1
  | none => v

/-- R229: the shape checks of a copy: DETAIL of the first that fails. -/
def copyShapeBad (x sl dl : Nat) : Option Nat :=
  if layoutBad sl (nbits x 511 460) then some 0
  else if layoutBad dl (nbits x 459 408) then some 1
  else if layCount sl ≠ layCount dl ∨ (layoutOverlaps dl) = true then some 1
  else none

/-! ### Elements -/

/-- R190, R228: one side of a copy: global memory, or the reservation of a team on a core. -/
inductive Side where
  | global
  | spad (core team : Nat) (t : Team)
deriving DecidableEq, Repr

/-- R228: the team that a copy's scratchpad side names, live, of the engine's partition, CORE in its span. -/
def copyTeam (s : State) (r : EngRec) : Option Team :=
  (s.team? r.ref.chain.isl (nbits r.bits 240 229)).filter fun t =>
    !t.gone && t.part == r.ref.chain.part && t.inSpan (nbits r.bits 247 241)

/-- R228: a side by its space code. -/
def copySide (s : State) (r : EngRec) (code : Nat) : Option Side :=
  if code = 0 then some .global
  else (copyTeam s r).map fun t => .spad (nbits r.bits 247 241) (nbits r.bits 240 229) t

/-- R190, R228: the lowest-visited offset of a scratchpad side that lies outside the reservation and the window. -/
def sideOutside (sd : Side) (base lay : Nat) : Option Nat :=
  match sd with
  | .global => none
  | .spad _ _ t =>
    ((List.range (layCount lay)).map fun k => base % 2 ^ 32 + layOffset lay k).find? fun o =>
      placeOf t.hdr.scr o (layEsz lay) == .outside

/-- Why an element stops a copy. -/
inductive CopyErr where
  | fault (va : Nat) (perm : Bool) (level : Nat) (acc : Acc)
  | status (st : Nat)
deriving DecidableEq, Repr

/-- What stops a copy at a global access. -/
def copyErr (acc : Acc) : XErr → CopyErr
  | .fault va p l => .fault va p l acc
  | .sealed _ => .status 0x05
  | .poison _ => .status 0x07

/-- R92, R100: a translation by the engine of a record. -/
def EngRec.access (r : EngRec) (s : State) (va n : Nat) (acc : Acc) : Except XErr Nat :=
  (accessBy s r.ref.chain.isl r.eng.agent r.ref.chain.part va n acc false).map (·.1)

/-- R228, R237: one source element; `v` is memory as the engine reads it. -/
def copyRead (s v : State) (r : EngRec) (sd : Side) (base lay k : Nat) : Except CopyErr Nat :=
  let isl := r.ref.chain.isl
  let n := layEsz lay
  match sd with
  | .global =>
    match r.access s (base + layOffset lay k) n .read with
    | .error e => .error (copyErr .read e)
    | .ok pa => if (v.mem.poisonedAt isl pa n).isSome then .error (.status 0x07) else .ok (v.mem.nat isl pa n)
  | .spad core team t =>
    let o := base % 2 ^ 32 + layOffset lay k
    match placeOf t.hdr.scr o n with
    | .window => .ok (leNat (windowBytes s isl team core o n))
    | _ =>
      if (v.mem.spadPoisonedAt isl core (t.base core + o) n).isSome then .error (.status 0x07)
      else .ok (leNat (v.mem.spadBytes isl core (t.base core + o) n))

/-- R228, R237: the write of one destination element. -/
def copyWrite (s : State) (r : EngRec) (sd : Side) (base lay k v : Nat) : Except CopyErr EngWrite :=
  let bs := leBytes (layEsz lay) v
  match sd with
  | .global =>
    match r.access s (base + layOffset lay k) bs.length .write with
    | .ok pa => .ok ⟨r.ref, r.eng, none, pa, bs⟩
    | .error e => .error (copyErr .write e)
  | .spad core _ t =>
    let o := base % 2 ^ 32 + layOffset lay k
    match placeOf t.hdr.scr o (layEsz lay) with
    | .window => .error (.status 0x06)
    | _ => .ok ⟨r.ref, r.eng, some core, t.base core + o, bs⟩

/-- R228, R265: a write joins those of the copy engines, the latest first: it is one with the write before it of its record in
its aligned 8-byte word, wherever that stands. -/
def pushOut (ws : List EngWrite) (x : EngWrite) : List EngWrite :=
  match ws with
  | [] => [x]
  | y :: ys =>
    if y.ref = x.ref then
      if y.core = x.core ∧ y.addr + y.val.length = x.addr ∧ x.addr % 8 ≠ 0 then { y with val := y.val ++ x.val } :: ys
      else x :: ws
    else if (ys.find? fun z => z.ref == x.ref).any fun z => z.core == x.core && z.addr + z.val.length == x.addr && x.addr % 8 != 0
      then y :: pushOut ys x
    else x :: ws

/-- R228, R265: where a copy stops at a fault within an aligned 8-byte word, what it has of that word leaves the queue, and the
copy takes it up again from the word's first element. The writes stand the latest first; the answer counts those elements. -/
def takeBack (ws : List EngWrite) (ref : RecRef) (esz : Nat) : List EngWrite × Nat :=
  match ws with
  | [] => ([], 0)
  | y :: ys =>
    if y.ref = ref then (if (y.addr + y.val.length) % 8 = 0 then (y :: ys, 0) else (ys, y.val.length / esz))
    else
      let r := takeBack ys ref esz
      (y :: r.1, r.2)

/-- R229, R237: elements in visiting order, up to the first that stops the copy: the writes, the latest first, how many
elements were copied, and why it stopped. -/
def copyElements (s v : State) (r : EngRec) (ss ds : Side) (sl dl : Nat) :
    List Nat → List EngWrite → Nat → List EngWrite × Nat × Option CopyErr
  | [], ws, done => (ws, done, none)
  | k :: ks, ws, done =>
    match copyRead s v r ss (nbits r.bits 511 460) sl k with
    | .error e => (ws, done, some e)
    | .ok x =>
      match copyWrite s r ds (nbits r.bits 459 408) dl k (convElement r.bits x) with
      | .error e => (ws, done, some e)
      | .ok w => copyElements s v r ss ds sl dl ks (pushOut ws w) (done + 1)

/-! ### The follow-on -/

/-- R231: the matrix chain a follow-on goes to. -/
def followChain (s : State) (r : EngRec) : Option (ChainRef × Chain) :=
  let team := nbits r.bits 240 229
  s.eng.chains.find? fun c =>
    c.1.isl == r.ref.chain.isl && c.1.part == r.ref.chain.part && c.2.eng == .matrix (nbits r.bits 247 241) &&
      c.2.team == team && !c.2.halted &&
      ((s.team? r.ref.chain.isl team).map fun t => t.ending.isNone).getD false

/-- R224, R231: FOLLOW_ON_APPEND to a chain with room, or into its bivouac entry (R149). -/
def followAppend (s : State) (r : EngRec) (ref : ChainRef) (c : Chain) : State :=
  let rec_ := nbits r.bits 303 252
  match xlate s ref.isl r.eng.agent ref.part ref.desc .write with
  | .ok pa _ _ => appendBound s ⟨ref, pa, rec_, 1, false, c.team, true⟩ c
  | _ =>
    if c.tail = 0 then
      releaseHalted (haltChain (changeChain s ref fun c =>
        { c with tail := c.tail + 1, last := rec_, lastAppend := s.clk ref.isl }) ref 0x0B
          ((Config.freeWord s.free).toNat % 2 ^ 52) 0) ref
    else appendBound s ⟨ref, 0, rec_, 1, false, c.team, true⟩ c

/-- R224, R231: nothing that arrived at a chain's append unit before a follow-on blocks there: `n` is the first operation
that arrived later. -/
def followTurn (s : State) (r : EngRec) (ref : ChainRef) (n : Nat) : Bool :=
  (s.core.ops.all fun p => match p.append? with
    | some b => b.ref != ref || n ≤ p.id || b.fits s
    | none => true) &&
  (s.eng.recs.takeWhile (·.ref != r.ref)).all (fun q => !q.ahead ref n) &&
  s.eng.recs.all fun q => q.ref == r.ref || match q.turn with
    | some (m, x) => x != ref || n ≤ m
    | none => true

/-- R231: the follow-on of a copy whose last byte has landed, after the release of its writes; none while a full chain blocks
the engine. -/
def follow (s : State) (r : EngRec) (force : Bool) : Option State :=
  if nbits r.bits 303 252 = 0 then some (doneRec s r 0 0)
  else
    let s := releaseRec s r
    let r' := { r with turn := none }
    match followChain s r with
    | none => some (doneRec s r' 0x0D 0)
    | some (ref, c) =>
      let n := (r.turn.map (·.1)).getD s.core.nextOp
      if force || (c.tail + 1 ≤ c.cap + c.comp && followTurn s r ref n) then some (doneRec (followAppend s r' ref c) r' 0 0)
      else none

/-- R224, R231: a copy whose follow-on blocks waits at the append unit of the chain. -/
def awaitTurn (s : State) (r : EngRec) : State :=
  let s := releaseRec s r
  setRec s { r with turn := r.turn.or ((followChain s r).map fun c => (s.core.nextOp, c.1)) }

/-- R231: a copy waits for room in the chain of its follow-on. -/
def waitsFollow (s : State) (r : EngRec) : Bool :=
  r.known && r.res.isNone && r.parked.isNone && recOp r.bits == 1 && (match r.lays with
    | some l => r.step == layCount l.1 && (follow s r false).isNone
    | none => false)

/-! ### COPY -/

/-- R228 to R230: the checks of a copy whose layouts have been read, beyond their seals: its status and DETAIL. -/
def copyCheck (s : State) (r : EngRec) (sl dl : Nat) : Option (Nat × Nat) :=
  let x := r.bits
  if !layoutSealed sl then some (0x01, 0)
  else if !layoutSealed dl then some (0x01, 1)
  else
    match copyShapeBad x sl dl with
    | some d => some (0x02, d)
    | none =>
      if copyFormatBad (nbits x 228 226) (layEsz sl) (layEsz dl) then some (0x04, 226)
      else
        match copySide s r (nbits x 251 250), copySide s r (nbits x 249 248) with
        | some ss, some ds =>
          match (sideOutside ss (nbits x 511 460) sl).or (sideOutside ds (nbits x 459 408) dl) with
          | some o => some (0x0A, o)
          | none => none
        | _, _ => some (0x08, 0)

/-- R229: a layout record is read; a fault parks the engine, poison ends the copy. -/
def readLayout (s : State) (r : EngRec) (va : Nat) : Except State Nat :=
  let v := engineView s r.ref.chain.isl r.eng
  match r.access s va 64 .read with
  | .error (.fault a p l) => .error (parkEngine s r a p l .read)
  | .error _ => .error (doneRec s r 0x07 0)
  | .ok pa =>
    if (v.mem.poisonedAt r.ref.chain.isl pa 64).isSome then .error (doneRec s r 0x07 0)
    else .ok (v.mem.nat r.ref.chain.isl pa 64)

/-- R237, R265: the elements not copied yet, or some of them, then the follow-on, which the copied elements no longer bear on
(R231). -/
def copyRun (s : State) (r : EngRec) (sl dl : Nat) : State :=
  if r.lays.isSome && r.step == layCount sl then (follow s r false).getD (awaitTurn s r)
  else
  match copySide s r (nbits r.bits 251 250), copySide s r (nbits r.bits 249 248) with
  | some ss, some ds =>
    let v := engineView s r.ref.chain.isl r.eng
    let ks := takeSome s ((List.range (layCount sl)).drop r.step)
    let res := copyElements s v r ss ds sl dl ks s.eng.outs.reverse r.step
    let s1 := { s with eng := { s.eng with outs := res.1.reverse } }
    let r := { r with step := res.2.1, lays := some (sl, dl), since := s.clk r.ref.chain.isl }
    match res.2.2 with
    | some (.fault va p l acc) =>
      let back := takeBack res.1 r.ref (layEsz dl)
      parkEngine { s with eng := { s.eng with outs := back.1.reverse } } { r with step := r.step - back.2 } va p l acc
    | some (.status st) => doneRec s1 r st (r.step * layEsz dl)
    | none => if r.step < layCount sl then setRec s1 r else (follow s1 r false).getD (awaitTurn s1 r)
  | _, _ => doneRec s r 0x08 0

/-- R228: a copy starts, or goes on where it parked. -/
def runCopy (s : State) (r : EngRec) : State :=
  match r.lays with
  | some l => copyRun s r l.1 l.2
  | none =>
    match copyMal r.bits with
    | some b => doneRec s r 0x03 b
    | none =>
      let s := beginRec s r
      match readLayout s r (nbits r.bits 407 356) with
      | .error s' => s'
      | .ok sl =>
        match readLayout s r (nbits r.bits 355 304) with
        | .error s' => s'
        | .ok dl =>
          match copyCheck s r sl dl with
          | some e => doneRec s r e.1 e.2
          | none => copyRun s r sl dl

/-- R228: COPY. -/
def execCopy (s : State) : Out :=
  match occRec s with
  | some r =>
    match r.eng with
    | .copy _ =>
      if recOp r.bits = 1 ∧ (waitsFollow s r) = false then .next (commit s (runCopy s r)) else idle "COPY"
    | .matrix _ => idle "COPY"
  | none => idle "COPY"

end Sys2Proof.Machine
end

