-- ==== Sys2Proof/Machine/Preempt.lean ====
section
/-! DEFINITION. Pre-emption: the switch tick and its decisions (R114 to R117, R129), the resume map (R126, R127) and the end
of a restore (R128). -/

namespace Sys2Proof.Machine

open Sys2Proof

/-! ### The decision -/

/-- R16: the clock step of an island, in units of 25 MHz: 2.0 GHz unless a budget round has changed it. -/
def stepOf (s : State) (isl : Nat) : Nat := ((s.hub.power.get? isl).map (·.step)).getD 80

/-- R115: E, the core clocks since a team's first issue. -/
def Team.elapsed (t : Team) (now : Nat) : Nat := t.before + (now - t.first.getD now)

/-- R115: CPC. -/
def cpcOf (s : State) (isl : Nat) (t : Team) : Nat :=
  if t.cpc.isEmpty then max (t.elapsed (s.clk isl)) 1 else (t.cpc.sum + t.cpc.length - 1) / t.cpc.length

/-- R115: PK. -/
def parkedTeam (s : State) (isl team : Nat) : Bool :=
  s.core.threads.any fun e => e.1.m.isl == isl && e.1.m.team == team && e.2.wait.parked.isSome

/-- R115: SC. -/
def saveCost (t : Team) : Nat := t.spts.foldl (fun a e => max a e.scost) 0

/-- R115: PreemptDecision. -/
def decide_ (s : State) (isl team : Nat) (t : Team) (dc : Nat) : Decision :=
  let e := t.elapsed (s.clk isl)
  let point := t.hdr.spb != 0 && !parkedTeam s isl team
  if t.hdr.dh ≠ 0 ∧ t.hdr.dh ≤ dc + e then .drain
  else if point && t.hdr.spb * cpcOf s isl t + saveCost t ≤ dc then .save
  else if t.hdr.restartable then .discard
  else if point then .saveLate
  else .lost

/-- R115, R129: the decision of a team, with the LCAUSE of one that is lost: in a gang rotation SAVE_LATE is not
available. -/
def decision (s : State) (isl team : Nat) (t : Team) (dc : Nat) (gang : Bool) : Decision × Nat :=
  match decide_ s isl team t dc with
  | .saveLate => if gang then (.lost, 3) else (.saveLate, 0)
  | .lost => (.lost, 2)
  | d => (d, 0)

/-! ### The request -/

/-- R114: sleeping splits and contexts of a team wake. -/
def wakeTeam (s : State) (isl team : Nat) : State :=
  { s with core := { s.core with threads := s.core.threads.map fun (t, r) =>
      if t.m.isl = isl ∧ t.m.team = team then (t, { r with wait := { r.wait with asleep := none } }) else (t, r) } }

/-- R125, R180: a strand that has not started is recorded as such: its memberships are removed and it does not run. -/
def recordUnstarted (s : State) (m : Member) : State :=
  match (leaveGroups s m).member? m with
  | some r => orphanOps ((leaveGroups s m).setMember m { r with course := .notStarted, stack := [] }) m
  | none => s

/-- R125, R128: a member that stands before its restore routine stays saved at its safe point, and does not run. -/
def keepSaved (s : State) (m : Member) (id : Nat) : State :=
  match s.member? m with
  | some r => orphanOps (s.setMember m { r with course := .saved id, stack := [] }) m
  | none => s

/-- R125: a member that has not issued its first clause when a save is asked for. -/
def recordUnissued (s : State) (e : Member × MemberRec) : State :=
  match e.2.course with
  | .restoring id => keepSaved s e.1 id
  | _ => recordUnstarted s e.1

/-- R114, R125: a pre-emption request with its decision. -/
def openRequest (s : State) (isl team : Nat) (t : Team) (ns : Nat) (gang : Bool) : State :=
  let dc := ns * stepOf s isl / 40
  let d := decision s isl team t dc gang
  let t' := { t with preempt := some ⟨d.1, s.hub.ns + ns, none, false⟩ }
  let s1 := wakeTeam (s.setTeam isl team t') isl team
  match d.1 with
  | .lost => endTeam s1 isl team 0x21 d.2
  | .save | .saveLate =>
    (((s1.membersOf isl team).filter fun e => !e.2.issued && e.2.live).foldl recordUnissued s1).modTeam isl team
      fun t => { t with restoring := false }
  | _ => s1

/-- R114: a team meets the tick: given up where it has not issued, else asked. -/
def meetTick (ns : Nat) (gang : Bool) (s : State) (k : Nat × Nat) : State :=
  match s.team? k.1 k.2 with
  | none => s
  | some t =>
    if t.gone || t.ending.isSome then s
    else if t.first.isNone then giveBack s k.1 k.2 t
    else openRequest s k.1 k.2 t ns gang

/-- R113: the islands of a partition. -/
def islandsOf (s : State) (part : Nat) : List Nat :=
  match s.part? part with
  | some p => (List.range 24).filter fun i => nbit p.islands i
  | none => []

/-- R113: the slices of a partition on its islands. -/
def slicesOf (s : State) (part : Nat) : List (Nat × Nat) :=
  (islandsOf s part).flatMap fun i =>
    ((List.range 12).filter fun k => nbit (((s.part? part).map (·.slices)).getD 0) k).map fun k => (i, k)

/-- The teams of a partition on an island. -/
def teamsOn (s : State) (part isl : Nat) : List (Nat × Nat) :=
  (s.task.teams.filter fun e => e.1.1 == isl && e.2.part == part).map (·.1)

/-- Replace the record of a rotation. -/
def setRot (s : State) (n : Nat) (r : Rotation) : State := { s with par := { s.par with rots := s.par.rots.set n r } }

/-- R113, R117: the resident member's quantum is over. -/
def quantumOver (s : State) (r : Rotation) : Bool :=
  r.start + (r.quantum.getD r.resident 0 - r.shorten.getD r.resident 0) ≤ s.hub.ns

/-- R78, R113, R130: a switch tick may take place: the quantum is over and no lehr event is under way on its islands. -/
def tickReady (s : State) (r : Rotation) : Bool :=
  r.tick.isNone && quantumOver s r && !s.par.jobs.any fun j => (islandsOf s r.resident).contains j.isl

/-- R129: the islands of a gang rotation that are in warm reset at the tick are reported. -/
def reportFenced (s : State) (part : Nat) : State :=
  ((islandsOf s part).filter fun i => (s.fab.fenced.get? i).isSome).foldl (fun s i => report s 0 9 [i]) s

/-- R114, R129: the switch tick of a rotation. -/
def switchTick (s : State) (n : Nat) (r : Rotation) : State :=
  let part := r.resident
  let s1 := setRot s n { r with tick := some s.hub.ns, late := slicesOf s part, shorten := r.shorten.erase part }
  let s2 := if r.gang then reportFenced s1 part else s1
  ((islandsOf s part).flatMap (teamsOn s part)).foldl (meetTick r.deadline r.gang) s2

/-- R114: SWITCH_TICK. -/
def execSwitchTick (s : State) : Out :=
  match s.occ with
  | .slot n =>
    match s.par.rots.get? n with
    | some r => if tickReady s r then .next (commit s (switchTick s n r)) else idle "SWITCH_TICK"
    | none => idle "SWITCH_TICK"
  | _ => idle "SWITCH_TICK"

/-! ### DEADLINE and the overrun limit -/

/-- R116: a team still has to carry out its decision. -/
def Team.running (t : Team) : Bool := t.preempt.isSome && t.ending.isNone && !t.gone

/-- R117: OVR is set. -/
def setOvr (s : State) (k : Nat × Nat) : State :=
  s.modTeam k.1 k.2 fun t =>
    if t.running then { t with preempt := t.preempt.map fun p => { p with ovr := true } } else t

/-- R114: a copy record is abandoned: it runs again from its first byte. -/
def EngRec.abandoned (r : EngRec) : EngRec :=
  { r with step := 0, lays := none, parked := none, replay := none, turn := none, res := if r.known then copyStart r.bits else r.res }

/-- R114, R500: the copy engines of an island abandon the records of a partition that have not completed; writes already
made perform. -/
def abandonCopies (s : State) (isl part : Nat) : State :=
  let s := flushOuts s fun x => x.ref.chain.isl == isl && x.ref.chain.part == part
  { s with eng := { s.eng with recs := s.eng.recs.map fun r =>
      match r.eng with
      | .copy _ => if r.ref.chain.isl = isl ∧ r.ref.chain.part = part then r.abandoned else r
      | .matrix _ => r } }

/-- R129: a team is lost at a gang rotation's DEADLINE. -/
def loseGang (s : State) (k : Nat × Nat) : State :=
  match s.team? k.1 k.2 with
  | some t => if t.running then endTeam s k.1 k.2 0x21 3 else s
  | none => s

/-- R117: a switch of a rotation has run for `n` times its DEADLINE. -/
def deadlinePast (s : State) (r : Rotation) (n : Nat) : Bool :=
  match r.tick with
  | some t => t + n * r.deadline ≤ s.hub.ns
  | none => false

/-- R114: a copy record of a partition on an island has work behind it that abandoning undoes. -/
def copiesBegun (s : State) (isl part : Nat) : Bool :=
  s.eng.recs.any fun r => r.ref.chain.isl == isl && r.ref.chain.part == part && r != r.abandoned &&
    (match r.eng with
      | .copy _ => true
      | .matrix _ => false)

/-- R117, R129: DEADLINE finds work on an island: a copy to abandon, or a team still running that has not been marked. -/
def deadlineDue (s : State) (isl : Nat) (r : Rotation) : Bool :=
  deadlinePast s r 1 && (r.late.any fun x => x.1 == isl) && (copiesBegun s isl r.resident ||
    (teamsOn s r.resident isl).any fun k =>
      match s.team? k.1 k.2 with
      | some t => t.running && (r.gang || !((t.preempt.map (·.ovr)).getD false))
      | none => false)

/-- R117, R129: DEADLINE passes on an island. -/
def deadline (s : State) (isl : Nat) (r : Rotation) : State :=
  let part := r.resident
  let s1 := freeFaults (abandonCopies s isl part) isl part
  let late := (teamsOn s part isl).filter fun k => ((s.team? k.1 k.2).map (·.running)).getD false
  if r.gang then (if late.isEmpty then s1 else report (late.foldl loseGang s1) 0 9 [isl])
  else late.foldl setOvr s1

/-- R117, R129: DEADLINE_EXPIRY. -/
def execDeadlineExpiry (s : State) : Out :=
  match s.occ with
  | .islandIn isl n =>
    match s.par.rots.get? n with
    | some r =>
      if deadlineDue s isl r then .next (commit s (deadline s isl r))
      else idle "DEADLINE_EXPIRY"
    | none => idle "DEADLINE_EXPIRY"
  | _ => idle "DEADLINE_EXPIRY"

/-- R117: the teams still running at the overrun limit end. -/
def overrunTeams (s : State) (isl : Nat) (r : Rotation) : State :=
  (teamsOn s r.resident isl).foldl (fun s k =>
    if ((s.team? k.1 k.2).map (·.running)).getD false then endTeam s k.1 k.2 0x21 1 else s) s

/-- R117: OVERRUN_LIMIT. -/
def execOverrunLimit (s : State) : Out :=
  match s.occ with
  | .islandIn isl n =>
    match s.par.rots.get? n with
    | some r =>
      if deadlinePast s r 16 && (teamsOn s r.resident isl).any fun k => ((s.team? k.1 k.2).map (·.running)).getD false then
        .next (commit s (overrunTeams s isl r))
      else idle "OVERRUN_LIMIT"
    | none => idle "OVERRUN_LIMIT"
  | _ => idle "OVERRUN_LIMIT"

/-! ### The resume map -/

/-- R127: what the map says of a member. -/
def memberEntry (s : State) (m : Member) : Nat :=
  match s.member? m with
  | some r =>
    match r.course with
    | .saved id => id
    | .notStarted => 0xFFFE
    | _ => 0xFFFF
  | none => 0xFFFF

/-- R126: every member is saved, has ended, or is recorded as not started, and some member is to be restored. -/
def allSaved (s : State) (isl team : Nat) : Bool :=
  let ms := s.membersOf isl team
  (ms.all fun e => match e.2.course with
    | .saved _ | .ended | .notStarted => true
    | _ => false) && ms.any fun e => e.2.course != .ended

/-- R127: the 8 bytes of a number. -/
def word8 (x : Nat) : List Byte := leBytes 8 x

/-- R127: a decision queue in the map: its count and its first 64 entries. -/
def queueBytes (q : List W64) : List Byte :=
  word8 (min q.length 64) ++ (List.range 64).flatMap fun j => word8 (q.getD j 0).toNat

/-- R126, R127: the pieces of a team's control state: offsets and bytes. -/
def mapPieces (s : State) (isl team : Nat) (t : Team) : List (Nat × List Byte) :=
  let strands := (List.range 2048).map fun k => memberEntry s ⟨isl, team, false, k⟩
  let gaffers := (List.range 16).map fun k => memberEntry s ⟨isl, team, true, k⟩
  let count := ((strands ++ gaffers).filter (· != 0xFFFF)).length
  let bank (i : Nat) : Nat :=
    match if i < t.n then amOf s isl (t.c0 + i) team else none with
    | some a => a.first * 256 + a.count
    | none => 0
  let group (g : Nat) : Nat :=
    let x := t.group g
    x.memb % 4096 + x.arr % 4096 * 2 ^ 12 + x.phase % 2 ^ 32 * 2 ^ 24
  [(0x10, word8 (t.n + count * 32)), (0x18, word8 t.wdog),
    (0x40, (List.range 16).flatMap fun i => word8 (bank i)),
    (0x100, strands.flatMap (leBytes 2)), (0x1100, gaffers.flatMap (leBytes 2)),
    (0x1200, (List.range 256).flatMap fun g => word8 (group g))] ++
    (List.range 16).map fun i => (0x2000 + 576 * i, queueBytes (dqOf s ⟨isl, team, true, i⟩))

/-- Bytes of a partition's memory are written page by page, up to one that cannot be written. -/
def writeLong (s : State) (isl part va : Nat) (bs : List Byte) : Except XErr State :=
  (List.foldlM (m := Except XErr) (fun (a : State × List Byte) (p : Nat × Nat) =>
    (writeVa a.1 isl part p.1 (a.2.take p.2)).map fun s' => (s', a.2.drop p.2))
    (s, bs) (pageRuns (bs.length / 65536 + 2) va bs.length)).map fun (a : State × List Byte) => a.1

/-- R126: the control state, then the PSW, then MAPVALID, up to a write that fails. -/
def writeMap (s : State) (isl team : Nat) (t : Team) (p : Preempt) : Except XErr State := do
  let s1 ← (mapPieces s isl team t).foldlM (fun s x => writeLong s isl t.part (t.hdr.resmap + x.1) x.2) s
  let s2 ← writeLong s1 isl t.part t.hdr.resmap (word8 (pswOf s isl 0 t p))
  writeLong s2 isl t.part (t.hdr.resmap + 8) (word8 1)

/-- R126, R147: a team is saved; a map that cannot be written loses it. -/
def saveTeam (s : State) (isl team : Nat) (t : Team) (p : Preempt) : State :=
  match writeMap s isl team t p with
  | .error e => endTeam (report (e.note s isl t.part) t.part 10 [isl, team]) isl team 0x21 4
  | .ok s1 =>
    let s2 := writeField s1 isl t.part t.task.addr 63 56 5
    let s3 := retireTeam s2 isl team t
    { s3 with task := { s3.task with saved := s3.task.saved ++ [⟨isl, team, t, s.clk isl, none⟩] } }

/-- R114, R125, R126: every member of a team that is to be saved has saved, and nothing of the team is outstanding. -/
def saveReady (s : State) (isl team : Nat) (t : Team) : Bool :=
  saves t && t.ending.isNone && !t.gone && !t.expired && chainsRead s isl team && allSaved s isl team && !(s.core.ops.any (·.ofTeam isl team)) &&
    !(List.range t.n).any fun i => matBusy s isl (t.c0 + i) team

/-- R126: RESUME_MAP_WRITE. -/
def execResumeMapWrite (s : State) : Out :=
  match s.occ with
  | .team isl team =>
    match s.team? isl team with
    | some t =>
      match t.preempt with
      | some p =>
        if saveReady s isl team t then .next (commit s (saveTeam s isl team t p)) else idle "RESUME_MAP_WRITE"
      | none => idle "RESUME_MAP_WRITE"
    | none => idle "RESUME_MAP_WRITE"
  | _ => idle "RESUME_MAP_WRITE"

/-! ### The end of a restore -/

/-- R118, R128: MAPVALID is cleared and RESTORED set; a write that fails is dropped and reported. -/
def closeRestore (s : State) (isl : Nat) (t : Team) : State :=
  let s1 := putVa s isl t.part (t.hdr.resmap + 8) (word8 0) fun s => report s t.part 8 [isl, 0]
  match readVa s1 isl t.part t.hdr.resmap 8 with
  | .ok x => writePsw s1 isl t (putField 6 6 1 x)
  | .error e => report (e.note s1 isl t.part) t.part 8 [isl, 0]

/-- R128: every restore routine of a team that still runs has issued its first clause. -/
def restoreDone (s : State) (isl team : Nat) (t : Team) : Bool :=
  t.restoring && t.ending.isNone && !t.gone && (s.membersOf isl team).all fun e => match e.2.course with
    | .restoring _ => false
    | _ => true

/-- R128: RESTORE_COMPLETE. -/
def execRestoreComplete (s : State) : Out :=
  match s.occ with
  | .team isl team =>
    match s.team? isl team with
    | some t =>
      if restoreDone s isl team t then
        .next (commit s ((closeRestore s isl t).setTeam isl team { t with restoring := false }))
      else idle "RESTORE_COMPLETE"
    | none => idle "RESTORE_COMPLETE"
  | _ => idle "RESTORE_COMPLETE"

end Sys2Proof.Machine
end

