-- ==== Sys2Proof/Machine/Lehr.lean ====
section
/-! DEFINITION. The lehr (R119 to R121, R500): write-back, clearing, scrub sequences and tokens. -/

namespace Sys2Proof.Machine

open Sys2Proof

/-! ### Write-back and clearing -/

/-- R119, step 2: the marked bytes of an island's lines whose home bank meets a condition go to HBM, and their poison with
them (R214). -/
def writeBack (s : State) (isl : Nat) (p : Nat → Bool) : State :=
  let mine (k : Nat) : Bool := k / 2 ^ 39 == isl && p (k % 2 ^ 39)
  let secs := s.mem.poison.filterMap fun l =>
    match l with
    | .global i sec | .hbm i sec => if i = isl ∧ p (sec * 64) then some sec else none
    | _ => none
  let s := { s with mem := secs.foldl (fun m sec => m.evictPoison isl sec) s.mem }
  let keys := (s.mem.l2mark.cells.map (·.1)).filter mine
  let hbm := keys.foldl (fun (m : Mem) k => m.put k (s.mem.l2.get k)) s.mem.hbm
  { s with mem := { s.mem with hbm := hbm, l2 := s.mem.l2.clear mine, l2mark := s.mem.l2mark.clear mine } }

/-- R119: a core lies in a slice of a mask. -/
def inSlices (mask core : Nat) : Bool := nbit mask (core / 8)

/-- R121, classes 3 to 7: the memories and translation caches of the cores of slices are cleared. -/
def clearCores (s : State) (isl mask : Nat) : State :=
  let core (i c : Nat) : Bool := i == isl && inSlices mask c
  let s := dropBufs s isl fun _ c _ => (c.map (inSlices mask)).getD false
  let s := emptyTlb s isl fun ag _ => match ag with
    | .core c => inSlices mask c
    | _ => false
  { s with mem := { s.mem with
    spad := s.mem.spad.clear fun k => core (k / 2 ^ 19 / 96) (k / 2 ^ 19 % 96)
    acc := s.mem.acc.drop fun k => core k.1 k.2.1
    am := s.mem.am.filter fun a => !core a.isl a.core
    grants := s.mem.grants.drop fun k => core k.1 k.2.1
    ur := s.mem.ur.filter fun x => !core x.1 x.2.1
    l1 := s.mem.l1.drop fun k => core k.1 k.2.1
    owner := s.mem.owner.filter fun e => !core e.1.1 e.2
    ccache := s.mem.ccache.drop fun k => core k.1 k.2.1
    icache := s.mem.icache.drop fun k => core k.1 k.2.1
    poison := s.mem.poison.filter fun p => match p with
      | .spad i c _ => !core i c
      | .acc i c _ _ | .matq i c _ => !core i c
      | _ => true } }

/-- R121, classes 0 to 2: the registers and threads of members on the cores of slices are cleared. -/
def clearMembers (s : State) (isl mask : Nat) : State :=
  let on (m : Member) : Bool :=
    m.isl == isl && ((s.member? m).map fun r => inSlices mask r.core).getD false
  { s with
    core := { s.core with
      vreg := s.core.vreg.drop (fun k => on k.1), sreg := s.core.sreg.drop (fun k => on k.1)
      pred := s.core.pred.drop (fun k => on k.1), threads := s.core.threads.drop (fun t => on t.m)
      members := s.core.members.drop on, dq := s.core.dq.drop on, dqCairn := s.core.dqCairn.drop on }
    mem := { s.mem with poison := s.mem.poison.filter fun l => !(l.member.map on).getD false } }

/-- R121, class 10: the matrix engines of the cores of slices are cleared. -/
def clearMatrix (s : State) (isl mask : Nat) : State :=
  let on (k : Nat × Nat) : Bool := k.1 == isl && inSlices mask k.2
  let s := dropBufs s isl fun e _ _ => match e with
    | .matrix c => inSlices mask c
    | .copy _ => false
  let s := emptyTlb s isl fun ag _ => match ag with
    | .matrix c => inSlices mask c
    | _ => false
  { s with eng := { s.eng with
    matq := s.eng.matq.drop on, matRun := s.eng.matRun.drop on, matCairn := s.eng.matCairn.drop on
    recs := s.eng.recs.filter fun r => match r.eng with
      | .matrix c => !on (r.ref.chain.isl, c)
      | .copy _ => true } }

/-- R121, class 9: the buffers of the copy engines of a mask are cleared, their translation caches among them; what they have
written performs before. -/
def clearEngines (s : State) (isl mask : Nat) : State :=
  let on (e : Engine) : Bool := match e with
    | .copy ce => nbit mask ce
    | .matrix _ => false
  let s := flushOuts s fun x => x.ref.chain.isl == isl && on x.eng
  emptyTlb (dropBufs s isl fun e _ _ => on e) isl fun ag _ => match ag with
    | .copy ce => nbit mask ce
    | _ => false

/-- R121, class 11: the entries of a partition in the remote translation cache, and its ordered-channel state, at an
island's fabric interface are cleared. -/
def clearChannels (s : State) (isl : Nat) (part : Nat → Bool) : State :=
  let s := emptyTlb s isl fun ag e => ag == .remote && part e.part
  { s with fab := { s.fab with
    expect := s.fab.expect.drop fun k => k.1 == isl && part k.2.2.1
    chans := s.fab.chans.drop fun k => k.1 == isl && ((s.team? isl k.2.1).map fun t => part t.part).getD true } }

/-- R119, steps 1 to 3, for slices of an island. -/
def scrubSlices (s : State) (isl mask : Nat) : State :=
  let home (pa : Nat) : Bool := nbit mask (homeSlice s isl pa)
  clearMatrix (clearCores (clearMembers (writeBack (loseWatches s isl home) isl home) isl mask) isl mask) isl mask

/-! ### Tokens -/

/-- R121: CLASSES of a reason. -/
def classesOf (reason : Nat) : Nat :=
  match reason with
  | 1 => 0x7FF
  | 6 => 0x200
  | _ => 0xFFF

/-- R120, R121: the partition that has a slice after an event: the one the event names, or, after a warm reset, the slice's
own: in a rotation its resident member, or the incoming one where a switch has handed the slice over. -/
def tokenPart (s : State) (j : LehrJob) (slice out : Nat) : Nat :=
  if j.reason = 5 then
    ((s.par.parts.find? fun e => e.1 != 0 && ownsSlice s e.1 j.isl slice &&
      ((rotationOf s e.1).map fun r =>
        (if r.tick.isSome && !r.late.contains (j.isl, slice) then r.incoming else r.resident) == e.1).getD true).map (·.1)).getD 0
  else out

/-- R82: a big-endian integer of `n` bytes. -/
def bigEndian (n v : Nat) : List Byte := (leBytes n v).reverse

/-- R120: bits [991:0] of a token. -/
def tokenBody (isl : Nat) (t : Token) : Nat :=
  inBits 991 960 t.fwver + inBits 959 896 t.hubtime + inBits 895 832 t.stamp + inBits 831 768 t.seq +
    inBits 767 736 t.classes + inBits 735 712 t.cemask + inBits 711 700 t.slicemask + inBits 699 696 t.slice +
    inBits 695 691 isl + inBits 690 688 t.reason + inBits 687 680 t.partIn + inBits 679 672 t.partOut

/-- R120: the 256 bytes of a token. -/
def tokenBytes (isl : Nat) (t : Token) : List Byte :=
  leBytes 124 (tokenBody isl t) ++ bigEndian 66 t.sig.1 ++ bigEndian 66 t.sig.2

/-- R120: the token of a slice, or the engine token (slice 15), signed with the attestation key (log entry 10). -/
def makeToken (s : State) (j : LehrJob) (slice seq : Nat) : Token :=
  let t : Token := {
    seq := seq, partIn := tokenPart s j slice j.partIn, partOut := tokenPart s j slice j.partOut, reason := j.reason
    slice := slice, slicemask := j.slices, cemask := j.cemask, classes := classesOf j.reason, stamp := s.clk j.isl
    hubtime := s.hub.ns, fwver := s.hub.image.version, sig := (0, 0) }
  { t with sig := Config.sign s.hub.attKey (Config.sha512 (leBytes 124 (tokenBody j.isl t))) }

/-- R119, R120: steps 5 and 6 for one slice, or for the engine sequence. -/
def writeToken (j : LehrJob) (s : State) (slice : Nat) : State :=
  let k := (j.isl, slice)
  let n := s.par.scrub.getD k 0 + 1
  { s with par := { s.par with scrub := s.par.scrub.set k n, tokens := s.par.tokens.set k (makeToken s j slice n) } }

/-- R119: the slices of a mask. -/
def maskSlices (mask : Nat) : List Nat := (List.range 12).filter fun k => nbit mask k

/-- R119: slices fenced until their tokens are written. -/
def fenceSlices (s : State) (isl mask : Nat) : State :=
  { s with par := { s.par with
    fencedSlices := (maskSlices mask).foldl (fun l k => if l.contains (isl, k) then l else l ++ [(isl, k)]) s.par.fencedSlices } }

/-- R119: slices whose tokens have been written take teams again; those whose check failed only after a warm reset. -/
def unfenceSlices (s : State) (isl mask reason : Nat) : State :=
  let keep (x : Nat × Nat) : Bool := !(x.1 == isl && nbit mask x.2)
  { s with par := { s.par with
    fencedSlices := s.par.fencedSlices.filter keep
    deadSlices := if reason = 5 then s.par.deadSlices.filter keep else s.par.deadSlices } }

/-- R119: slices whose check has failed. -/
def deadenSlices (s : State) (isl mask : Nat) : State :=
  { s with par := { s.par with
    deadSlices := (maskSlices mask).foldl (fun l k => if l.contains (isl, k) then l else l ++ [(isl, k)]) s.par.deadSlices } }

/-! ### A rotation's slices -/

/-- R114, R119: the rotation whose switch an event serves. -/
def rotationFor (s : State) (j : LehrJob) : Option (Nat × Rotation) :=
  s.par.rots.find? fun e => e.2.tick.isSome && e.2.resident == j.partOut && e.2.incoming == j.partIn &&
    e.2.late.any fun x => x.1 == j.isl

/-- R119: no team of a partition, or of any, remains on slices, and their matrix engines are idle. -/
def slicesIdle (s : State) (isl mask : Nat) (part : Option Nat) : Bool :=
  (s.task.teams.all fun e => e.1.1 != isl || (part.map fun p => e.2.part != p).getD false || (spanSlices e.2.c0 e.2.n).all fun k => !nbit mask k) &&
    (List.range 96).all fun c => !inSlices mask c ||
      ((s.eng.matq.getD (isl, c) []).isEmpty && (s.eng.matRun.get? (isl, c)).isNone)

/-- R500: the copy engines of a partition on an island. -/
def enginesOf (s : State) (part isl : Nat) : Nat := ((s.part? part).map fun p => p.ce.getD isl 0).getD 0

/-- R114: the copy engines of an island hold records of a partition that have not completed. -/
def copiesHeld (s : State) (isl part : Nat) : Bool :=
  s.eng.recs.any fun r => r.ref.chain.isl == isl && r.ref.chain.part == part && r.known && (match r.eng with
    | .copy _ => true
    | .matrix _ => false)

/-- R119, R121: an event of a rotation switch may take place; the last of an island waits, within DEADLINE, for the records
that the copy engines hold (R114). -/
def switchJobOk (s : State) (j : LehrJob) : Bool :=
  match rotationFor s j with
  | some (_, r) =>
    j.reason == 1 && !(s.par.jobs.any fun (q : LehrJob) => q.isl == j.isl && q.slices &&& j.slices != 0) && maskSlices j.slices != [] && (maskSlices j.slices).all (fun k => r.late.contains (j.isl, k)) &&
      (deadlinePast s r 1 || !copiesHeld s j.isl j.partOut || r.late.any fun x => x.1 == j.isl && !nbit j.slices x.2) &&
      j.slices < 4096 && slicesIdle s j.isl j.slices (some j.partOut) && j.cemask == enginesOf s j.partOut j.isl
  | none => false

/-- R223, R226: the bindings of the copy chains that meet a condition are released as their engine passes on; a chain that
has halted stays HALTED. Where `all` does not hold, a chain whose records have not all completed becomes UNBOUND too, and the
engine keeps what it has to run when the partition is next resident (R114; log entry 24). -/
def unbindCopies (s : State) (p : ChainRef → Nat → Bool) (all : Bool) : State :=
  (s.eng.chains.filter fun c => match c.2.eng with
    | .copy ce => p c.1 ce
    | .matrix _ => false).foldl (fun s c =>
      if all || c.2.halted || c.2.comp == c.2.tail then releaseChain s c.1 c.2
      else changeChain s c.1 fun c => { c with away := true }) s

/-- R114, R223: the copy engines of an island have passed to a partition: its chains with records to run are bound again (log
entry 24). -/
def rebindCopies (s : State) (isl part : Nat) : State :=
  (s.eng.chains.filter fun c => c.1.isl == isl && c.1.part == part && c.2.away).foldl (fun s c =>
    changeChain s c.1 fun c => { c with away := false }) s

/-- R113, R114: slices of a rotation have been handed over; the copy engines of an island pass with its last, and the last
of all starts the incoming member's quantum. -/
def handOver (s : State) (j : LehrJob) : State :=
  match rotationFor s j with
  | none => s
  | some (n, r) =>
    let late := r.late.filter fun x => !(x.1 == j.isl && nbit j.slices x.2)
    let s := if late.any fun x => x.1 == j.isl then s
      else rebindCopies (unbindCopies (abandonCopies s j.isl j.partOut)
        (fun c _ => c.isl == j.isl && c.part == j.partOut) false) j.isl j.partIn
    if late = [] then setRot s n { r with late := [], tick := none, pos := r.nextPos, start := s.hub.ns }
    else setRot s n { r with late := late }

/-! ### Engine moves -/

/-- R85: the copy engines of a mask work on no record. -/
def enginesIdle (s : State) (isl mask : Nat) : Bool :=
  s.eng.recs.all fun r => match r.eng with
    | .copy ce => r.ref.chain.isl != isl || !nbit mask ce
    | .matrix _ => true

/-- Change the copy engines of a partition on an island. -/
def modEngines (s : State) (part isl : Nat) (f : Nat → Nat) : State :=
  { s with par := { s.par with parts := s.par.parts.modify part fun p => { p with ce := p.ce.set isl (f (p.ce.getD isl 0)) } } }

/-- R85: copy engines pass from one partition to another. -/
def moveEngines (s : State) (j : LehrJob) : State :=
  let s1 := unbindCopies s (fun c ce => c.isl == j.isl && nbit j.cemask ce) true
  modEngines (modEngines s1 j.partOut j.isl fun m => m - (m &&& j.cemask)) j.partIn j.isl fun m => m ||| j.cemask

/-! ### LEHR_EVENT -/

/-- R119: a queued event may take place. -/
def queuedJobOk (s : State) (j : LehrJob) : Bool :=
  s.par.jobs.contains j && (if j.reason = 6 then enginesIdle s j.isl j.cemask else slicesIdle s j.isl j.slices (if j.reason = 5 then none else some j.partOut))

/-- R119: the event leaves the queue. -/
def dropJob (s : State) (j : LehrJob) : State := { s with par := { s.par with jobs := s.par.jobs.erase j } }

/-- R121, class 11: which partitions' channel state an event clears. -/
def channelPart (j : LehrJob) (p : Nat) : Bool := j.reason == 5 || p == j.partOut

/-- R119: an event that clears engine buffers alone. The spec does not say what its failed check does, since it has no slice
to fence: in the model the engines stay with their old owner, no token is written, and the failure is reported (log entry
47). -/
def lehrEngines (s : State) (j : LehrJob) (bad : Nat) : State :=
  let s1 := dropJob (clearEngines s j.isl j.cemask) j
  if bad = 0 then moveEngines (writeToken j s1 15) j else report s1 0 11 [j.isl, 0]

/-- R119: an event, with the slices whose check fails: these stay fenced, get no token, and are reported. -/
def lehrDone (s : State) (j : LehrJob) (bad : Nat) : State :=
  if j.reason = 6 then lehrEngines s j bad
  else
    let s1 := scrubSlices (clearEngines s j.isl j.cemask) j.isl j.slices
    let s2 := if j.reason = 1 then s1 else clearChannels s1 j.isl (channelPart j)
    let s3 := ((maskSlices j.slices).filter (!nbit bad ·)).foldl (writeToken j) s2
    let s4 := unfenceSlices (handOver (dropJob s3 j) j) j.isl j.slices j.reason
    let fail := j.slices &&& bad
    releaseTokens (if fail = 0 then s4 else report (deadenSlices s4 j.isl fail) 0 11 [j.isl, fail]) j.isl

/-- R119: LEHR_EVENT. -/
def execLehrEvent (s : State) : Out :=
  match s.occ with
  | .lehr j bad =>
    if queuedJobOk s j || switchJobOk s j then .next (commit s (lehrDone s j bad))
    else idle "LEHR_EVENT"
  | _ => idle "LEHR_EVENT"

end Sys2Proof.Machine
end

