-- ==== Sys2Proof/Machine/Partition.lean ====
section
/-! DEFINITION. Partitions (R83 to R89), rotations (R113), copy-engine moves (R85), function-level reset and deletion (R110
to R112). -/

namespace Sys2Proof.Machine

open Sys2Proof

/-! ### Shapes -/

/-- The bits of a mask. -/
def maskBits (n mask : Nat) : List Nat := (List.range n).filter fun i => nbit mask i

/-- R83: LegalShape. -/
def legalShape (s : State) (islands slices : Nat) : Bool :=
  let is_ := maskBits 24 islands
  let ks := maskBits 12 slices
  islands < 2 ^ 24 && slices < 2 ^ 12 && is_.all (present s) &&
    (if is_.length = 1 then
      let n := ks.length
      let lo := ks.headD 0
      [1, 2, 3, 4, 6, 12].contains n && lo % n == 0 && slices == (2 ^ n - 1) * 2 ^ lo
    else 2 ≤ is_.length && slices == 0xFFF)

/-- R83: two partitions have a slice in common. -/
def Part.overlaps (p q : Part) : Bool := p.islands &&& q.islands != 0 && p.slices &&& q.slices != 0

/-- R83, R113: another tenant that shares slices is a member of the same rotation, formed or to be formed. -/
def mayShare (p q : Part) : Bool :=
  p.rotation.isSome && (q.rotation == p.rotation || q.rotation.isNone) && p.islands == q.islands && p.slices == q.slices

/-- R83, R84: the copy engines of an island that no other tenant owns, but for members of the same rotation. -/
def ceFree (s : State) (id : Nat) (p : Part) (isl mask : Nat) : Bool :=
  s.par.parts.all fun e => e.1 == 0 || e.1 == id || mayShare p e.2 || (e.2.ce.getD isl 0) &&& mask == 0

/-- R83 to R85, R138, R140: the checks of a partition's parameters. -/
def partOk (s : State) (id : Nat) (p : Part) : Bool :=
  legalShape s p.islands p.slices &&
    (s.par.parts.all fun e => e.1 == 0 || e.1 == id || !p.overlaps e.2 || mayShare p e.2) &&
    (maskBits 24 p.islands).all (fun i => 0 < p.ce.getD i 0 && p.ce.getD i 0 < 2 ^ 24 && ceFree s id p i (p.ce.getD i 0)) &&
    1 ≤ p.dispw && p.dispw ≤ 255 && 1 ≤ p.fabw && p.fabw ≤ 255 &&
    (List.range 9).any (fun k => p.qcap == 2 ^ (k + 12)) && 14 ≤ p.agei && p.agei ≤ 27

/-! ### Slices and engines that pass -/

/-- R113: a partition holds a slice at this moment. -/
def holdsNow (s : State) (part isl slice : Nat) : Bool :=
  ownsSlice s part isl slice &&
    match rotationOf s part with
    | none => !unformed s part
    | some r =>
      match r.tick with
      | none => r.resident == part
      | some _ => if r.resident = part then r.late.contains (isl, slice) else r.incoming == part && !r.late.contains (isl, slice)

/-- R113: the slices of an island that a partition holds at this moment. -/
def heldMask (s : State) (part isl : Nat) : Nat :=
  (List.range 12).foldl (fun m k => if holdsNow s part isl k then m + 2 ^ k else m) 0

/-- R119: slices wait for an event of the lehr, and take no team meanwhile. -/
def addJob (s : State) (j : LehrJob) : State :=
  if j.slices = 0 ∧ j.reason ≠ 6 then s
  else fenceSlices { s with par := { s.par with jobs := s.par.jobs ++ [j] } } j.isl j.slices

/-- R33: a slot takes a new key of the other phase, and its old one is retired at once. -/
def freshKey (s : State) (slot : Nat) : State :=
  let k := s.fab.keys.getD slot ⟨true, 0, none⟩
  { s with fab := { s.fab with
    keys := s.fab.keys.set slot ⟨!k.phase, s.fab.nextEpoch, none⟩
    nextEpoch := s.fab.nextEpoch + 1
    pctr := s.fab.pctr.drop fun x => x.2 = slot } }

/-! ### Creation and change -/

/-- R112: nothing of an earlier holder of the id remains. -/
def idFree (s : State) (id : Nat) : Bool :=
  1 ≤ id && id ≤ 63 && (s.part? id).isNone && !(s.par.flr.any fun f => f.part == id) &&
    !(s.par.jobs.any fun j => j.partOut == id || j.partIn == id) && !(s.par.frames.any fun e => e.2.2 == id)

/-- R84, R121: a partition takes its slices and copy engines of an island from partition 0, and the lehr starts. -/
def takeIsland (id : Nat) (s : State) (isl : Nat) : State :=
  match s.part? id with
  | none => s
  | some p =>
    let mine := p.ce.getD isl 0 &&& enginesOf s 0 isl
    let s1 := modEngines (unbindCopies s (fun c ce => c.isl == isl && nbit mine ce) true) 0 isl fun m => m - (m &&& mine)
    let shared := s.par.parts.any fun e => e.1 != 0 && e.1 != id && p.overlaps e.2
    if shared then s1 else addJob s1 ⟨isl, p.slices, mine, 2, 0, id⟩

/-- R84: the parameters of a partition to be created, with 16 for a weight that the request does not name. -/
def Part.requested (body : Part) : Part :=
  { body with
    roots := [], dispw := if body.dispw = 0 then 16 else body.dispw, fabw := if body.fabw = 0 then 16 else body.fabw }

/-- R84: a partition is created. -/
def createPart (s : State) (id : Nat) (body : Part) : State :=
  let p := body.requested
  if !idFree s id || !partOk s id p ||
      (maskBits 24 p.islands).any (fun i => !enginesIdle s i (p.ce.getD i 0 &&& enginesOf s 0 i)) then refuse s 4
  else
    (maskBits 24 p.islands).foldl (takeIsland id)
      (freshKey { s with par := { s.par with parts := s.par.parts.set id p } } id)

/-- R84: PARTITION_CREATE. -/
def execPartitionCreate (s : State) : Out :=
  match s.occ with
  | .partition p body => if serviceUp s then redfish s none (createPart s p body) else idle "PARTITION_CREATE"
  | _ => idle "PARTITION_CREATE"

/-- R84: a partition gives its slices and copy engines of an island back to partition 0. -/
def leaveIsland (id : Nat) (old : Part) (mask : Nat) (s : State) (isl : Nat) : State :=
  let mine := if mask = old.slices then old.ce.getD isl 0 else 0
  let s1 := modEngines (unbindCopies s (fun c ce => c.isl == isl && nbit mine ce) true) 0 isl fun m => m ||| mine
  addJob s1 ⟨isl, mask, mine, 3, id, 0⟩

/-- R83, R84: a partition changes shape or parameters; slices that it gives up or takes pass through the lehr as in a
deletion or creation. -/
def changePart (s : State) (id : Nat) (old body : Part) : State :=
  let p := { body with roots := old.roots, rotation := old.rotation }
  let kept := maskBits 24 (old.islands &&& p.islands)
  let left := (maskBits 24 old.islands).filter fun i => !nbit p.islands i
  let came := (maskBits 24 p.islands).filter fun i => !nbit old.islands i
  let moved := old.islands != p.islands || old.slices != p.slices
  if !partOk s id p || (moved && old.rotation.isSome) || kept.any (fun i => old.ce.getD i 0 != p.ce.getD i 0) ||
      left.any (fun i => !enginesIdle s i (old.ce.getD i 0) || s.par.frames.any fun e => e.1.1 == i && e.2.2 == id) ||
      came.any (fun i => !enginesIdle s i (p.ce.getD i 0 &&& enginesOf s 0 i)) then refuse s 4
  else
    let s1 := { s with par := { s.par with parts := s.par.parts.set id p } }
    let s2 := left.foldl (leaveIsland id old old.slices) s1
    let s3 := came.foldl (takeIsland id) s2
    kept.foldl (fun s i =>
      let lost := old.slices - (old.slices &&& p.slices)
      let won := p.slices - (old.slices &&& p.slices)
      addJob (addJob s ⟨i, lost, 0, 3, id, 0⟩) ⟨i, won, 0, 2, 0, id⟩) s3

/-- R83, R84: PARTITION_CHANGE. -/
def execPartitionChange (s : State) : Out :=
  match s.occ with
  | .partition p body =>
    if !serviceUp s then idle "PARTITION_CHANGE"
    else
      redfish s none (match if p = 0 then none else s.part? p with
        | some old => changePart s p old body
        | none => refuse s 4)
  | _ => idle "PARTITION_CHANGE"

/-! ### Frames -/

/-- R88: the frames of a range. -/
def frameRange (first count : Nat) : List Nat := (List.range count).map (first + ·)

/-- R88: the byte of the ownership table for a frame. -/
def ownershipByte (s : State) (isl f : Nat) : Nat :=
  match s.par.frames.get? (isl, f) with
  | none => if Config.sysFrame isl f then 3 * 64 else 0
  | some (.free, p) => p % 64
  | some (.owned, p) => 1 * 64 + p % 64
  | some (.table, p) => 2 * 64 + p % 64
  | some (.scrub, p) => 3 * 64 + p % 64
  | some (.sys, _) => 3 * 64

/-- R89: FREE frames are granted. -/
def grantFrames (s : State) (isl part first count : Nat) (table : Bool) : State :=
  if !present s isl || !holdsIsland s part isl || (s.part? part).isNone || 0x600000 < first + count ||
      (frameRange first count).any fun f => (s.par.frames.get? (isl, f)).isSome || Config.sysFrame isl f then refuse s 5
  else { s with par := { s.par with
    frames := s.par.frames ++ (frameRange first count).map fun f => ((isl, f), (if table then FrameSt.table else .owned), part) } }

/-- R89: FRAME_GRANT. -/
def execFrameGrant (s : State) : Out :=
  match s.occ with
  | .frames isl part first count table =>
    if serviceUp s then redfish s none (grantFrames s isl part first count table) else idle "FRAME_GRANT"
  | _ => idle "FRAME_GRANT"

/-- R91: the valid entries of a table, with their fields. -/
def tablePtes (s : State) (isl base n : Nat) : List Pte :=
  ((List.range n).map fun i => readPte s isl (base + 8 * i)).filter (·.v)

/-- R91: the ranges of frames that a partition's page tables map on an island. -/
def mappedRuns (s : State) (part isl : Nat) : List (Nat × Nat) :=
  match (s.part? part).bind fun p => p.roots.get? isl with
  | none => []
  | some root =>
    (tablePtes s isl root 1024).flatMap fun e1 =>
      if e1.l then []
      else
        (tablePtes s isl (e1.pfn * 65536) 8192).flatMap fun e2 =>
          if e2.l then [(e2.pfn, 8192)]
          else ((tablePtes s isl (e2.pfn * 65536) 8192).filter (·.l)).map fun e3 => (e3.pfn, 1)

/-- R89: a frame may be revoked: OWNED and mapped by no entry, or TABLE without a live table. -/
def revocable (s : State) (isl part : Nat) (runs : List (Nat × Nat)) (f : Nat) : Bool :=
  match s.par.frames.get? (isl, f) with
  | some (.owned, p) => p == part && !runs.any fun r => decide (r.1 ≤ f) && decide (f < r.1 + r.2)
  | some (.table, p) => p == part && (s.par.tables.get? (isl, f)).isNone
  | _ => false

/-- R89: frames are revoked, and pass to SCRUB. -/
def revokeFrames (s : State) (isl part first count : Nat) : State :=
  let runs := mappedRuns s part isl
  if (frameRange first count).any fun f => !revocable s isl part runs f then refuse s 5
  else { s with par := { s.par with
    frames := (frameRange first count).foldl (fun t f => t.set (isl, f) (.scrub, part)) s.par.frames } }

/-- R89: FRAME_REVOKE. -/
def execFrameRevoke (s : State) : Out :=
  match s.occ with
  | .frames isl part first count _ =>
    if serviceUp s then redfish s none (revokeFrames s isl part first count) else idle "FRAME_REVOKE"
  | _ => idle "FRAME_REVOKE"

/-- R89, R217, R276: the bytes of a frame are zeroed, with every copy of them, and their poison is gone; watches on its lines
are lost. -/
def zeroFrame (s : State) (isl f : Nat) : State :=
  let at_ (k : Nat) : Bool := k / 65536 == isl * 2 ^ 23 + f
  let word (i w : Nat) : Bool := i == isl && w / 16384 == f
  let sec (i x : Nat) : Bool := i == isl && x / 1024 == f
  let bad (l : Loc) : Bool := match l with
    | .global i x | .hbm i x => sec i x
    | _ => false
  let s := loseWatches (dropBufs s isl fun _ c x => c.isNone && x / 1024 == f) isl fun a => a / 65536 == f
  { s with mem := { s.mem with
    hbm := s.mem.hbm.clear at_, l2 := s.mem.l2.clear at_, l2mark := s.mem.l2mark.clear at_
    owner := s.mem.owner.drop fun k => word k.1 k.2
    l1 := s.mem.l1.drop fun k => word k.1 k.2.2
    icache := s.mem.icache.drop fun k => sec k.1 k.2.2
    ccache := s.mem.ccache.drop fun k => sec k.1 k.2.2
    poison := s.mem.poison.filter fun l => !bad l
    fresh := s.mem.fresh.drop bad } }

/-- R89, R110: the state of a frame that has been zeroed. -/
def frameDone (s : State) (isl f : Nat) : State :=
  let mine (j : FlrJob) : Bool := j.frames.contains (isl, f)
  let back := s.par.flr.find? fun j => mine j && !j.delete
  let flr := (s.par.flr.map fun j => { j with frames := j.frames.filter (· ≠ (isl, f)) }).filter fun j => !j.frames.isEmpty
  let frames := match back with
    | some j => s.par.frames.set (isl, f) (.owned, j.part)
    | none => s.par.frames.erase (isl, f)
  { s with par := { s.par with flr := flr, frames := frames } }

/-- R89: FRAME_SCRUB_DONE, for the first frame that the event names. -/
def execFrameScrubDone (s : State) : Out :=
  match s.occ with
  | .frames isl _ f _ _ =>
    match s.par.frames.get? (isl, f) with
    | some (.scrub, _) => .next (commit s (frameDone (zeroFrame s isl f) isl f))
    | _ => idle "FRAME_SCRUB_DONE"
  | _ => idle "FRAME_SCRUB_DONE"

/-! ### Rotations -/

/-- R113: DEADLINE of a set-up, in ns: 200 us where it names none. -/
def Rotation.due (r : Rotation) : Nat := if r.deadline = 0 then 200000 else r.deadline

/-- R113: the parameters of a rotation. -/
def rotationOk (s : State) (n : Nat) (r : Rotation) : Bool :=
  let ps := r.order.map s.part?
  2 ≤ r.order.length && r.order.length ≤ 8 && r.order.Nodup && !r.order.contains 0 &&
    ps.all (fun p => match p, (s.part? (r.order.headD 0)) with
      | some p, some q => p.islands == q.islands && p.slices == q.slices && (p.rotation.isNone || p.rotation == some n)
      | _, _ => false) &&
    r.order.all (fun p => 100000 ≤ r.quantum.getD p 0 && r.quantum.getD p 0 ≤ 1000000000) &&
    10000 ≤ r.due && r.due ≤ 10000000 &&
    (!r.gang || ((s.part? (r.order.headD 0)).map fun p => p.slices == 0xFFF).getD false) &&
    s.par.parts.all (fun e => e.2.rotation != some n || r.order.contains e.1) &&
    (match s.par.rots.get? n with
      | some old => old.tick.isNone && r.order.contains old.resident
      | none => true)

/-- R113: the member that holds the slices now: the resident one, or, for a new rotation, the one without a rotation. -/
def holderOf (s : State) (n : Nat) (r : Rotation) : Nat :=
  match s.par.rots.get? n with
  | some old => old.resident
  | none => (r.order.find? fun p => ((s.part? p).map fun x => x.rotation.isNone).getD false).getD (r.order.headD 0)

/-- R113: a rotation is formed or changed. -/
def setupRotation (s : State) (n : Nat) (r : Rotation) : State :=
  if !rotationOk s n r then refuse s 6
  else
    let h := holderOf s n r
    let r' := { r with
      deadline := r.due
      pos := r.order.findIdx (· == h)
      start := ((s.par.rots.get? n).map (·.start)).getD s.hub.ns
      shorten := ((s.par.rots.get? n).map (·.shorten)).getD []
      tick := none, late := [] }
    r.order.foldl (fun s p => s.modPart p fun x => { x with rotation := some n }) (setRot s n r')

/-- R113: ROTATION_SETUP. -/
def execRotationSetup (s : State) : Out :=
  match s.occ with
  | .rotation n r => if serviceUp s then redfish s none (setupRotation s n r) else idle "ROTATION_SETUP"
  | _ => idle "ROTATION_SETUP"

/-! ### Copy-engine moves -/

/-- R85: the copy engines of an island that are about to leave a partition. -/
def enginesLeaving (s : State) (part isl : Nat) : Nat :=
  (s.par.jobs.filter fun (j : LehrJob) => j.isl == isl && j.reason == 6 && j.partOut == part).foldl (fun m j => m ||| j.cemask) 0

/-- R85: copy engines are to pass from one partition to another: owned by the first and idle, leaving it one where it is a
tenant, also once the moves under way are done. -/
def moveOk (s : State) (isl ces from_ into : Nat) : Bool :=
  let own := enginesOf s from_ isl
  present s isl && ces != 0 && ces &&& own == ces && from_ != into &&
    (from_ == 0 || own &&& (ces ||| enginesLeaving s from_ isl) != own) &&
    holdsIsland s into isl && (s.part? into).isSome && enginesIdle s isl ces &&
    !(s.par.jobs.any fun (j : LehrJob) => j.isl == isl && j.reason == 6 && j.cemask &&& ces != 0)

/-- R85: COPY_ENGINE_MOVE; the engines pass once the lehr has scrubbed their buffers. -/
def execCopyEngineMove (s : State) : Out :=
  match s.occ with
  | .move isl ces from_ into =>
    if !serviceUp s then idle "COPY_ENGINE_MOVE"
    else redfish s none (if moveOk s isl ces from_ into then addJob s ⟨isl, 0, ces, 6, from_, into⟩ else refuse s 7)
  | _ => idle "COPY_ENGINE_MOVE"

/-! ### Function-level reset -/

/-- R76: step 1: queue pairs, regions, records and chains of a partition. -/
def flrStop (s : State) (part : Nat) : State :=
  let s1 : State := { s with hub := { s.hub with
    sends := s.hub.sends.filter fun x => match x.2 with
      | .send p _ _ => p != part
      | _ => true
    qpError := (s.hub.qpError.filter fun (q : Nat × Nat) => q.1 != part) ++ (List.range 256).map fun q => (part, q)
    qps := s.hub.qps.drop (fun k => k.1 == part)
    regions := s.hub.regions.drop (fun k => k.1 == part) } }
  let s2 := (s1.hub.cmds.filter fun c => c.ref.part == part).foldl
    (fun (s : State) c => completeCmd s c (0x15, openField s 0 24, openField s 1 32)) s1
  { s2 with
    hub := { s2.hub with chains := s2.hub.chains.drop fun k => k.1 == part }
    fab := { s2.fab with topoq := s2.fab.topoq.filter fun x => match x with
      | .inl c => c.part != part
      | .inr _ => true } }

/-- R110: a team of the partition ends at once with RESET; nothing of it stays outstanding. -/
def flrTeam (s : State) (k : Nat × Nat) : State :=
  match s.team? k.1 k.2 with
  | none => s
  | some t =>
    let own (m : Member) : Bool := m.isl == k.1 && m.team == k.2
    let s1 := stopTeam s k.1 k.2
    let s2 := { s1 with
      core := { s1.core with ops := s1.core.ops.filter fun o => !own o.m }
      task := { s1.task with ends := s1.task.ends.filter fun e => !(e.isl == k.1 && e.team == k.2) } }
    if t.gone then removeTeam s2 k.1 k.2
    else
      let t := { t with preempt := none }
      let e : EndRec := ⟨k.1, k.2, t.part, t.task, 0x24, 0, [], [], none⟩
      retireEnd (closeEnd s2 t e) t e

/-- R110: the engines of a partition abandon their commands. -/
def flrEngines (s : State) (part : Nat) : State :=
  let mine (e : MatEntry) : Bool := match e with
    | .instr op _ _ => ((s.op? op).map fun o => o.part == part).getD true
    | .record r => r.chain.part == part
  { s with eng := { s.eng with
    chains := s.eng.chains.drop (fun c => c.part == part)
    recs := s.eng.recs.filter fun r => r.ref.chain.part != part
    outs := s.eng.outs.filter fun x => x.ref.chain.part != part
    matq := s.eng.matq.map fun e => (e.1, e.2.filter fun x => !mine x)
    matRun := s.eng.matRun.filter fun e => !mine e.2.entry } }

/-- R110, R130: step 2: teams, saved teams, queued records, engines, faults and fault chains. -/
def flrEnd (s : State) (part : Nat) : State :=
  let s1 := (s.task.saved.filter (·.old.part = part)).foldl (fun s e =>
    putVa s e.isl part (e.old.hdr.resmap + 8) (leBytes 8 0) id) (flrEngines s part)
  let s2 := ((s1.task.teams.filter (·.2.part = part)).map (·.1)).foldl flrTeam s1
  { s2 with
    task := { s2.task with
      saved := s2.task.saved.filter (·.old.part ≠ part), queue := s2.task.queue.filter (·.part ≠ part) }
    par := { s2.par with
      faults := s2.par.faults.filter (·.key.part ≠ part), fchains := s2.par.fchains.drop fun k => k.1 == part } }

/-- R110: step 4: every table of a partition is cleared and its frame is free again; the translation caches drop what they
hold of it. -/
def flrTables (s : State) (part : Nat) : State :=
  let fs := (s.par.tables.filter (·.2 = part)).map (·.1)
  let s0 := (islandsOf s part).foldl (fun s i => emptyTlb s i fun _ e => e.part == part) s
  let s1 := fs.foldl (fun s f => zeroFrame s f.1 f.2) s0
  ({ s1 with par := { s1.par with tables := s1.par.tables.filter (·.2 ≠ part) } } : State).modPart part
    fun p => { p with roots := [] }

/-- R110, R112: step 5: frames pass to SCRUB: the OWNED ones, and in a deletion the TABLE ones too. -/
def flrFrames (s : State) (part : Nat) (delete : Bool) : State :=
  let goes (x : FrameSt × Nat) : Bool := x.2 == part && (x.1 == .owned || x.1 == .scrub || (delete && x.1 == .table))
  let fs := (s.par.frames.filter fun e => goes e.2 && (delete || e.2.1 != .scrub)).map (·.1)
  { s with par := { s.par with
    frames := s.par.frames.map fun e => if goes e.2 then (e.1, .scrub, part) else e
    flr := (s.par.flr.filter (·.part ≠ part)) ++
      let old := (s.par.flr.filter (·.part = part)).flatMap (·.frames)
      let all := old ++ fs.filter (!old.contains ·)
      if all.isEmpty then [] else [⟨part, delete, all⟩] } }

/-- R110, R130: step 5: the slices that the partition holds wait for the lehr; in a switch, one event serves both causes. -/
def flrSlices (s : State) (part : Nat) : State :=
  match s.part? part with
  | none => s
  | some p =>
    let into := match rotationOf s part with
      | some r => if r.tick.isSome ∧ r.resident = part then r.incoming else part
      | none => part
    (islandsOf s part).foldl (fun s i => addJob s ⟨i, heldMask s part i, p.ce.getD i 0, 4, part, into⟩) s

/-- R110, R286: what the partition's agents have asked of a fabric interface and it has not sent is gone, and so are the packets
that its own islands' fabric interfaces still serve for them, which no change of key meets; nothing waits for a reply. -/
def flrPackets (s : State) (part : Nat) : State :=
  { s with fab := { s.fab with
    pkts := s.fab.pkts.filter fun p => p.kslot != part || (p.place != .source && p.src != p.dest)
    txns := s.fab.txns.filter fun t => t.kslot != part } }

/-- R110: steps 1 to 4; a packet that has been served in part goes through first. -/
def flrSteps (s : State) (part : Nat) : State :=
  let s1 := flrEnd (flrStop (flushPackets s fun p => p.kslot == part) part) part
  flrTables (freshKey (flrPackets s1 part) part) part

/-- R110: a function-level reset. -/
def flr (s : State) (part : Nat) : State := flrSlices (flrFrames (flrSteps s part) part false) part

/-- R63, R76, R110: FUNCTION_LEVEL_RESET; the partition's own tenant may ask for it too (log entry 43). -/
def execFunctionLevelReset (s : State) : Out :=
  match s.occ with
  | .part p =>
    if !serviceUp s then idle "FUNCTION_LEVEL_RESET"
    else redfish s (some p) (if p = 0 ∨ (s.part? p).isNone then refuse s 4 else flr s p)
  | _ => idle "FUNCTION_LEVEL_RESET"

/-! ### Deletion -/

/-- R112: the rotation that a partition leaves; one member left is a rotation no more. -/
def leaveRotation (s : State) (part : Nat) : State :=
  match (s.part? part).bind (·.rotation), rotationOf s part with
  | some n, some r =>
    let order := r.order.filter (· ≠ part)
    let held := if r.resident = part then r.incoming else r.resident
    if order.length < 2 then
      order.foldl (fun s p => s.modPart p fun x => { x with rotation := none })
        { s with par := { s.par with rots := s.par.rots.erase n } }
    else if r.resident = part then
      setRot s n { r with order := order, pos := order.findIdx (· == held), tick := none, late := [], start := s.hub.ns }
    else setRot s n { r with order := order, pos := order.findIdx (· == held) }
  | _, _ => s

/-- R112: who has a deleted partition's slices afterwards: partition 0, or the next member of its rotation. -/
def heirOf (s : State) (part : Nat) : Nat := ((rotationOf s part).map (·.incoming)).getD 0

/-- R112: slices and copy engines pass on through the lehr. -/
def giveSlices (part heir : Nat) (p : Part) (masks : List (Nat × Nat)) (s : State) : State :=
  masks.foldl (fun s x =>
    let mine := p.ce.getD x.1 0
    let s1 := if heir = 0 then modEngines s 0 x.1 fun m => m ||| mine else s
    addJob s1 ⟨x.1, x.2, mine, 3, part, heir⟩) s

/-- R112: a partition is deleted. -/
def deletePart (s : State) (part : Nat) (p : Part) : State :=
  let masks := (islandsOf s part).map fun i => (i, heldMask s part i)
  let heir := heirOf s part
  let s1 := leaveRotation (flrFrames (flrSteps s part) part true) part
  giveSlices part heir p masks { s1 with
    par := { s1.par with parts := s1.par.parts.erase part }
    hub := { s1.hub with qpError := s1.hub.qpError.filter (·.1 ≠ part) } }

/-- R112: PARTITION_DELETE. -/
def execPartitionDelete (s : State) : Out :=
  match s.occ with
  | .part p =>
    if !serviceUp s then idle "PARTITION_DELETE"
    else
      redfish s none (match if p = 0 then none else s.part? p with
        | some x => deletePart s p x
        | none => refuse s 4)
  | _ => idle "PARTITION_DELETE"

end Sys2Proof.Machine
end

