-- ==== Sys2Proof/Machine/Topo.lean ====
section
/-! DEFINITION. Topology events: TOPOSET (R51 to R54), the UCIe link (R11), and the warm reset of an island (R54 to R56). -/

namespace Sys2Proof.Machine

open Sys2Proof

/-! ### One event at a time -/

/-- R54: a topology event is under way. -/
def topoBusy (s : State) : Bool := s.fab.toposet.isSome || !s.fab.fenced.isEmpty

/-- R54: an event that must wait joins the queue. -/
def waitTopo (s : State) (x : Sum CmdRef Nat) : State := { s with fab := { s.fab with topoq := s.fab.topoq ++ [x] } }

/-- R54: an event that arrives may begin at once. -/
def topoFree (s : State) : Bool := !topoBusy s && s.fab.topoq.isEmpty

/-- R54: an event that waits may begin: nothing is under way, and it is the first that waits. -/
def topoTurn (s : State) (x : Sum CmdRef Nat) : Bool := !topoBusy s && s.fab.topoq.head? == some x

/-- R54: an event that begins waits no more. -/
def leaveTopoq (s : State) (x : Sum CmdRef Nat) : State := { s with fab := { s.fab with topoq := s.fab.topoq.erase x } }

/-! ### TOPOSET -/

/-- R74: MALFORMED in a TOPOSET. -/
def toposetMal (x : Nat) : Option Nat :=
  let d := nbits x 439 426
  lowestBit [badIf (d != 0 && (d < 100 || 10000 < d)) 426, firstBit x 425 128]

/-- R51, R52: TOPOSET is checked, and injection is held on every island. -/
def toposet (s : State) (c : CmdRec) : State :=
  let code := nbits c.bits 447 440
  let d := nbits c.bits 439 426
  match toposetMal c.bits with
  | some b => endCmd s c 0x11 (some b) none
  | none =>
    if code = s.fab.xcode then endCmd s c 0x01 none none
    else
      let s1 := setCmd s { c with begun := true }
      { s1 with fab := { s1.fab with
        quiesce := (List.range 24).filter (present s)
        toposet := some ⟨c.ref, code, (if d = 0 then 500 else d) * 1000, s.hub.ns, .drain, []⟩ } }

/-- R51: TOPOSET. -/
def execToposet (s : State) : Out :=
  match occCmd s 3 with
  | none => idle "TOPOSET"
  | some c =>
    if !serviceUp s then idle "TOPOSET"
    else if topoFree s || topoTurn s (.inl c.ref) then .next (commit s (toposet (leaveTopoq s (.inl c.ref)) c))
    else if s.fab.topoq.contains (.inl c.ref) then idle "TOPOSET"
    else .next (commit s (waitTopo s (.inl c.ref)))

/-- R52: the requests that have been injected and not answered. -/
def requestsOut (s : State) : List Txn := s.fab.txns.filter fun t => t.injected && t.src != t.dest

/-- R52: the request packets that routers still carry or destinations hold, also those whose source waits for them no more. -/
def requestsLeft (s : State) : List Packet :=
  s.fab.pkts.filter fun p => p.op.request && p.src != p.dest && p.place != .source

/-- R52, R413: a source completes an operation with DRAINED; one whose bytes have begun to land goes through. -/
def drain (s : State) (t : Txn) : State :=
  match landing s t with
  | some p => flushPacket s p
  | none => packetDone s t (some FStatus.drained.code)

/-- R52: at the drain limit routers discard what remains, and each source completes those operations. -/
def drainAll (s : State) : State :=
  (requestsOut s).foldl drain ((requestsLeft s).foldl (fun s p => dropPacket s p.id) s)

/-- R52: nothing that was injected remains. -/
def drained (s : State) : Bool := (requestsOut s).isEmpty && (requestsLeft s).isEmpty

/-- R52: TOPOSET_DRAIN_LIMIT. -/
def execToposetDrainLimit (s : State) : Out :=
  match s.fab.toposet with
  | some t =>
    if serviceUp s = true ∧ t.phase = .drain ∧ t.since + t.drainNs ≤ s.hub.ns ∧ drained s = false then
      .next (commit s (drainAll s))
    else idle "TOPOSET_DRAIN_LIMIT"
  | none => idle "TOPOSET_DRAIN_LIMIT"

/-- R45, R46: a link goes down with a cause to train; where it was UP, its ends answer what was queued for it. -/
def dropLink (s : State) (e : LinkEnd) : State :=
  let s1 := modLink s e fun _ => downLink s.hub.ns true
  if linkUp s e then strandBoth s1 e else s1

/-- R25: one end of each express link. -/
def expressLinks : List LinkEnd := (List.range 24).flatMap fun n => (List.range 4).map fun m => ⟨n, 16 + 2 * m⟩

/-- R46, R52: the express links leave their old positions, where what is queued for them is answered, and have a cause to train
in their new ones; the record of a link that is forced down goes with its old position. -/
def switchLinks (s : State) (t : Toposet) : State :=
  let s0 := expressLinks.foldl (fun s e => if linkUp s e then dropLink s e else s) s
  let s1 := { s0 with fab := { s0.fab with
    links := s0.fab.links.drop (fun e => 16 ≤ e.port && e.node != 31), toposet := some { t with phase := .retrain } } }
  expressLinks.foldl (fun s e => if joined s e then modLink s e fun _ => downLink s.hub.ns true else s) s1

/-- R52: TOPOSET_SWITCH; a reply that the switch strands is answered by its router as R46 states. -/
def execToposetSwitch (s : State) : Out :=
  match s.fab.toposet with
  | some t =>
    if serviceUp s = true ∧ t.phase = .drain ∧ drained s = true then .next (commit s (switchLinks s t))
    else idle "TOPOSET_SWITCH"
  | none => idle "TOPOSET_SWITCH"

/-- R53: the express ends of links that join two present islands that are not fenced. -/
def expressEnds (s : State) : List LinkEnd :=
  ((List.range 24).flatMap fun n => (List.range 8).map fun k => (⟨n, 16 + k⟩ : LinkEnd)).filter (eligible45 s)

/-- R52: a link still trains, or is about to. -/
def training (s : State) (e : LinkEnd) : Bool :=
  let l := linkAt s e
  l.st == .train || (l.st == .down && l.cause)

/-- R53: the islands with an express port on a link that is not UP. -/
def partialMask (s : State) : Nat :=
  (List.range 24).foldl (fun m n => if (expressEnds s).any fun e => e.node == n && !linkUp s e then m + 2 ^ n else m) 0

/-- R53, R70: the record of a TOPOSET completes with DONE or PARTIAL. -/
def finishToposet (s : State) (t : Toposet) (mask : Nat) : State :=
  match s.hub.cmds.find? (·.ref = t.cmd) with
  | some c => if mask = 0 then endCmd s c 0x00 none none else endCmd s c 0x02 (some mask) none
  | none => s

/-- R52, R53: steps 5 and 6. -/
def toposetPublish (s : State) (t : Toposet) : State :=
  let mask := partialMask s
  let s1 := publish { s with fab := { s.fab with xcode := t.code, toposet := none } }
  let s2 := { s1 with fab := { s1.fab with
    switchGen := s1.fab.topogen % 65536, quiesce := s1.fab.quiesce.filter fun i => (s1.fab.fenced.get? i).isSome } }
  finishToposet s2 t mask

/-- R52, R53: TOPOSET_PUBLISH. -/
def execToposetPublish (s : State) : Out :=
  match s.fab.toposet with
  | some t =>
    if serviceUp s = true ∧ t.phase = .retrain ∧ !(expressEnds s).any (training s) then .next (commit s (toposetPublish s t))
    else idle "TOPOSET_PUBLISH"
  | none => idle "TOPOSET_PUBLISH"

/-! ### The UCIe link -/

/-- R45, R46, R55: a link of a re-admitted island trains again, or waits where its far end is fenced too; what was queued for
it is answered. -/
def retrainLink (s : State) (e f : LinkEnd) : State :=
  let s1 := dropLink s e
  if f.node = 31 ∨ (s.fab.fenced.get? f.node).isNone then modLink s1 e (·.train s.hub.ns) else s1

/-- R55: the fabric links of an island train again, once its UCIe link has retrained. -/
def retrainLinks (s : State) (isl : Nat) : State :=
  (List.range 24).foldl (fun s p =>
    let e : LinkEnd := ⟨isl, p⟩
    match farEnd (codeNow s) e with
    | some f => if !joined s e || (linkAt s e).st == .forced then s else retrainLink s e f
    | none => s) s

/-- R11, R55: UCIE_LINK_CHANGE; the UCIe link of a fenced island that comes up has retrained, and the island's fabric links
follow. -/
def execUcieLinkChange (s : State) : Out :=
  match s.occ with
  | .islandIn isl up =>
    if !present s isl then idle "UCIE_LINK_CHANGE"
    else
      let down := if up = 0 then (if (s.fab.ucieDown.get? isl).isSome then s.fab.ucieDown else s.fab.ucieDown.set isl s.hub.ns)
        else s.fab.ucieDown.erase isl
      let s1 := { s with fab := { s.fab with ucieDown := down } }
      .next (commit s (sendHeld (if up ≠ 0 ∧ (s.fab.fenced.get? isl).isSome then retrainLinks s1 isl else s1)))
  | _ => idle "UCIE_LINK_CHANGE"

/-! ### Warm reset -/

/-- R55: a team ends with ISLAND_RESET, also one that was about to end otherwise; one that has sent its completion decrements
keeps its status. -/
def resetTeam (s : State) (isl team : Nat) : State :=
  if s.task.ends.any fun e => e.isl == isl && e.team == team then s
  else (endTeam s isl team 0x22 0).modTeam isl team fun t => { t with ending := some (0x22, 0) }

/-- R55: every team on an island ends with ISLAND_RESET. -/
def endAllTeams (s : State) (isl : Nat) : State :=
  ((s.task.teams.filter fun e => e.1.1 == isl && !e.2.gone).map (·.1)).foldl (fun s k => resetTeam s k.1 k.2) s

/-- R55: packets inside an island are lost, and the SENDs that its fault unit has not sent. -/
def losePackets (s : State) (isl : Nat) : State :=
  { s with
    hub := { s.hub with sends := s.hub.sends.filter (·.1 ≠ isl) }
    fab := { s.fab with
    pkts := s.fab.pkts.filter fun p => match p.place with
      | .queue n _ | .rope n => n != isl
      | .held _ => p.dest != isl
      | .source => p.src != isl } }

/-- R55, R147: the requests of an island's own agents, all of which have ended, wait for no reply. -/
def loseTxns (s : State) (isl : Nat) : State :=
  (s.fab.txns.filter (·.src = isl)).foldl (fun s t => packetDone s t (some FStatus.timeout.code)) s

/-- R115, R141: a saved team as the clock of its island starts again from a reading. -/
def SavedTeam.restart (v : SavedTeam) (now : Nat) : SavedTeam :=
  { v with
    old := { v.old with before := v.old.elapsed now, first := v.old.first.map fun _ => 0 }
    passed := none }

/-- R16, R55: the clock of an island starts again, and what was reckoned in it. -/
def restartClock (s : State) (isl : Nat) : State :=
  { s with
    hub := { s.hub with clk := s.hub.clk.set isl 0 }
    eng := { s.eng with chains := s.eng.chains.map fun (k, c) => if k.isl = isl then (k, { c with lastAppend := 0 }) else (k, c) }
    par := { s.par with faults := s.par.faults.map fun (e : FaultEnt) => if e.key.isl = isl then { e with held := none } else e }
    task := { s.task with
      queue := s.task.queue.map fun (q : QEntry) => if q.isl = isl then { q with passed := none } else q
      saved := s.task.saved.map fun (v : SavedTeam) => if v.isl = isl then v.restart (s.clk isl) else v } }

/-- R500: copies in progress on an island are abandoned. -/
def abandonAll (s : State) (isl : Nat) : State :=
  (s.par.parts.map (·.1)).foldl (fun s p => abandonCopies s isl p) s

/-- R54, R55: the fence of an island: steps 1 to 4, up to the events of the lehr and the retraining of the links. -/
def fence (s : State) (isl : Nat) : State :=
  let landed := flushPackets s fun p => p.op == .getData && p.dest == isl
  let s0 := writeBack (abandonAll (loseTxns (losePackets (endAllTeams landed isl) isl) isl) isl) isl fun _ => true
  let s1 := restartClock s0 isl
  let s2 := addJob s1 ⟨isl, 0xFFF, 0xFFFFFF, 5, 0, 0⟩
  let s3 := { s2 with fab := { s2.fab with
    ucieDown := s2.fab.ucieDown.set isl s2.hub.ns
    quiesce := if s2.fab.quiesce.contains isl then s2.fab.quiesce else s2.fab.quiesce ++ [isl]
    toposet := s2.fab.toposet.map fun (t : Toposet) => { t with fences := t.fences ++ [isl] } } }
  let s4 := { s3 with fab := { s3.fab with fenced := s3.fab.fenced.set isl false } }
  if s4.fab.toposet.isSome then s4 else publish s4

/-- R55: an island that may be fenced. -/
def fenceable (s : State) (isl : Nat) : Bool := anchorUp s && present s isl && (s.fab.fenced.get? isl).isNone

/-- R54, R55: WARM_RESET_REQUEST: a request arrives through Redfish, and begins or waits; or the one that has waited longest
begins. -/
def execWarmResetRequest (s : State) : Out :=
  match s.occ with
  | .island isl =>
    if !serviceUp s || !present s isl then idle "WARM_RESET_REQUEST"
    else redfish s none (if topoFree s then fence s isl else waitTopo s (.inr isl))
  | .node isl =>
    if serviceUp s && topoTurn s (.inr isl) then .next (commit s (fence (leaveTopoq s (.inr isl)) isl))
    else idle "WARM_RESET_REQUEST"
  | _ => idle "WARM_RESET_REQUEST"

/-- R55: UCIE_DOWN_TIMEOUT. -/
def execUcieDownTimeout (s : State) : Out :=
  match s.occ with
  | .island isl =>
    match s.fab.ucieDown.get? isl with
    | some t => if fenceable s isl && t + 100000000 ≤ s.hub.ns then .next (commit s (fence s isl)) else idle "UCIE_DOWN_TIMEOUT"
    | none => idle "UCIE_DOWN_TIMEOUT"
  | _ => idle "UCIE_DOWN_TIMEOUT"

/-- R55: FABRIC_INTERFACE_ERROR. -/
def execFabricInterfaceError (s : State) : Out :=
  match s.occ with
  | .island isl => if fenceable s isl then .next (commit s (fence s isl)) else idle "FABRIC_INTERFACE_ERROR"
  | _ => idle "FABRIC_INTERFACE_ERROR"

/-- R54, R55: an island may be re-admitted: no topology switch is under way, its tokens are written, its UCIe link and its
fabric links have retrained. -/
def readmitReady (s : State) (isl : Nat) : Bool :=
  (s.fab.fenced.get? isl).isSome && s.fab.toposet.isNone && (s.fab.ucieDown.get? isl).isNone &&
    !(s.par.jobs.any fun j => j.isl == isl && j.reason == 5) &&
    !(List.range 24).any fun p => joined s ⟨isl, p⟩ && (linkAt s ⟨isl, p⟩).st == .train

/-- R141: every STAMP of an island's ready queues is rewritten. -/
def restamp (s : State) (isl : Nat) : State :=
  let now := s.clk isl
  { s with task := { s.task with
    queue := s.task.queue.map fun (q : QEntry) => if q.isl = isl then { q with task := { q.task with stamp := now } } else q
    saved := s.task.saved.map fun (x : SavedTeam) => if x.isl = isl then { x with savedAt := now } else x } }

/-- R55: WARM_RESET_READMIT. -/
def execWarmResetReadmit (s : State) : Out :=
  match s.occ with
  | .island isl =>
    if readmitReady s isl then
      .next (commit s (publish (restamp { s with fab := { s.fab with
        fenced := s.fab.fenced.erase isl, quiesce := s.fab.quiesce.filter (· ≠ isl) } } isl)))
    else idle "WARM_RESET_READMIT"
  | _ => idle "WARM_RESET_READMIT"

end Sys2Proof.Machine
end

