-- ==== Sys2Proof/Machine/Power.lean ====
section
/-! DEFINITION. The power arbiter, temperature, input and coolant (R14 to R22). -/

namespace Sys2Proof.Machine

open Sys2Proof

/-! ### Clock steps -/

/-- R14: the clock steps, in units of 25 MHz, highest first. -/
def clockSteps : List Nat := (List.range 57).map (88 - ·)

/-- R18: the highest step whose predicted power fits a share; the lowest where none fits (log entry 11). -/
def bestStep (isl share demand : Nat) : Nat :=
  (clockSteps.find? fun k => Config.predictedPower isl k demand ≤ share).getD 32

/-- R18, R20 to R22: the step of an island: the lowest while it is too hot, the input is low or the coolant stands. -/
def stepFor (s : State) (isl : Nat) (p : Power) : Nat :=
  if p.throttled || s.hub.undervoltage || s.hub.noFlow then 32 else bestStep isl p.share p.demand

/-- Replace the power state of an island. -/
def setPower (s : State) (isl : Nat) (p : Power) : State := { s with hub := { s.hub with power := s.hub.power.set isl p } }

/-- R18: an island moves to the step that its state allows. -/
def moveStep (s : State) (isl : Nat) : State :=
  match s.hub.power.get? isl with
  | some p => setPower s isl { p with step := stepFor s isl p }
  | none => s

/-- R18, R20 to R22: every island moves to the step that its state allows. -/
def moveSteps (s : State) : State := (s.hub.power.map (·.1)).foldl moveStep s

/-! ### Budget rounds -/

/-- R17: the reading of an island, zero where it gives none. -/
def readingOf (rs : List Reading) (isl : Nat) : Reading := (rs.find? (·.isl = isl)).getD ⟨isl, 0, false, 0⟩

/-- R17, R18: the islands that receive a share: present and not fenced. -/
def sharers (s : State) : List (Nat × Power) := s.hub.power.filter fun e => nodeUp s e.1

/-- R17: the floor shares: scaled down together where the floors alone exceed what remains. -/
def floorShare (remain sum floor : Nat) : Nat := if remain < sum then floor * remain / max sum 1 else floor

/-- R17: an island's share. What the limit of 1,100 W leaves over is not passed on to other islands: the spec does not say
whether it is (log entry 41). -/
def shareOf (remain sum excess : Nat) (r : Reading) (floor : Nat) : Nat :=
  let base := floorShare remain sum floor
  let rest := remain - min sum remain
  min 1100 (base + if r.flag then rest * (r.watts - floor) / max excess 1 else 0)

/-- R17, R20: a round on one island: its share, its step, and its count of rounds at the throttle limit. -/
def roundOn (rs : List Reading) (remain sum excess : Nat) (s : State) (e : Nat × Power) : State :=
  let r := readingOf rs e.1
  let p := { e.2 with
    demand := r.watts, temp := r.temp, share := shareOf remain sum excess r e.2.floor
    hotRounds := if e.2.throttled || s.hub.noFlow then e.2.hotRounds + 1 else 0 }
  setPower s e.1 { p with step := stepFor s e.1 p }

/-- R20: the telemetry that a round publishes, of an island and its reading. -/
def Power.telemetry (p : Power) (r : Reading) : Telemetry := ⟨p.share, p.step, r.watts, r.temp, p.throttles⟩

/-- R20: the telemetry of every island, once per round; an island that receives no share shows none. -/
def publishTelemetry (rs : List Reading) (s : State) : State :=
  { s with hub := { s.hub with telemetry := s.hub.power.map fun e =>
      (e.1, (if nodeUp s e.1 then e.2 else { e.2 with share := 0 }).telemetry (readingOf rs e.1)) } }

/-- R17, R20: a budget round. -/
def budgetRound (s : State) (rs : List Reading) (hub : Nat) : State :=
  let es := sharers s
  let remain := s.hub.cap - min hub s.hub.cap
  let sum := (es.map fun e => e.2.floor).sum
  let excess := (es.map fun e => let r := readingOf rs e.1
    if r.flag then r.watts - e.2.floor else 0).sum
  let s1 := publishTelemetry rs (es.foldl (roundOn rs remain sum excess) s)
  { s1 with hub := { s1.hub with nextRound := s1.hub.nextRound + 1000000 } }

/-- R17: BUDGET_ROUND. -/
def execBudgetRound (s : State) : Out :=
  match s.occ with
  | .budget rs hub =>
    if anchorUp s && s.hub.nextRound ≤ s.hub.ns then .next (commit s (budgetRound s rs hub)) else idle "BUDGET_ROUND"
  | _ => idle "BUDGET_ROUND"

/-! ### Temperature -/

/-- R20, R22: an island's temperature reaches or leaves its limit; reaching it is a throttle event, which is counted. While the
coolant stands, the island stays in the case of R20 whatever its temperature, and its rounds count on. -/
def setThrottle (s : State) (isl : Nat) (hot : Bool) : State :=
  match s.hub.power.get? isl with
  | some p => moveStep (setPower s isl { p with
      throttled := hot, hotRounds := if hot || s.hub.noFlow then p.hotRounds else 0
      throttles := p.throttles + if hot && !p.throttled then 1 else 0 }) isl
  | none => s

/-- R20: THROTTLE_LIMIT. -/
def execThrottleLimit (s : State) : Out :=
  match s.occ with
  | .island isl =>
    if (s.hub.power.get? isl).isSome then .next (commit s (setThrottle s isl true)) else idle "THROTTLE_LIMIT"
  | _ => idle "THROTTLE_LIMIT"

/-- R20: THROTTLE_RECOVER. -/
def execThrottleRecover (s : State) : Out :=
  match s.occ with
  | .island isl =>
    if ((s.hub.power.get? isl).map (·.throttled)).getD false then .next (commit s (setThrottle s isl false))
    else idle "THROTTLE_RECOVER"
  | _ => idle "THROTTLE_RECOVER"

/-- R20: THROTTLE_FENCE. -/
def execThrottleFence (s : State) : Out :=
  match s.occ with
  | .island isl =>
    match s.hub.power.get? isl with
    | some p =>
      if fenceable s isl && 100 ≤ p.hotRounds then
        .next (commit s (report (fence (setPower s isl { p with hotRounds := 0 }) isl) 0 14 [isl]))
      else idle "THROTTLE_FENCE"
    | none => idle "THROTTLE_FENCE"
  | _ => idle "THROTTLE_FENCE"

/-! ### Input and coolant -/

/-- R21: INPUT_UNDERVOLTAGE. -/
def execInputUndervoltage (s : State) : Out :=
  if s.hub.boot = .off ∨ s.hub.undervoltage then idle "INPUT_UNDERVOLTAGE"
  else .next (commit s (report (moveSteps { s with hub := { s.hub with undervoltage := true } }) 0 15 []))

/-- R21: INPUT_VOLTAGE_RECOVERY. -/
def execInputVoltageRecovery (s : State) : Out :=
  if s.hub.undervoltage then .next (commit s (moveSteps { s with hub := { s.hub with undervoltage := false } }))
  else idle "INPUT_VOLTAGE_RECOVERY"

/-- R22: COOLANT_FLOW_STOP: a throttle event of every island. -/
def execCoolantFlowStop (s : State) : Out :=
  if s.hub.noFlow then idle "COOLANT_FLOW_STOP"
  else
    let s1 := { s with hub := { s.hub with
      noFlow := true, power := s.hub.power.map fun (i, p) => (i, { p with throttles := p.throttles + 1 }) } }
    .next (commit s (moveSteps s1))

end Sys2Proof.Machine
end

