-- ==== Sys2Proof/Machine/Boot.lean ====
section
/-! DEFINITION. Resets, firmware and management: cold reset and boot (R21, R24, R79), updates (R80), the service firmware
(R78), keys (R33), attestation (R82), tokens (R120) and settings (R63). -/

namespace Sys2Proof.Machine

open Sys2Proof

/-! ### Boot -/

/-- R79: an image verifies: its signature holds and its version is not below the anti-rollback counter. -/
def verifies (s : State) (i : Image) : Bool := i.signed && s.hub.rollback ≤ i.version

/-- R24, R79, R120: what a cold reset or a loss of power leaves: one-time storage, the flash image, and what the outside
world still has to do; everything else is as at reset. -/
def coldState (s : State) (b : Boot) : State :=
  { State.reset with
    unit := s.unit, sched := s.sched, occ := s.occ, cred := s.cred, free := s.free, serial := s.serial
    par := { State.resetPart with scrub := s.par.scrub }
    fab := { State.resetFab with nextEpoch := s.fab.nextEpoch }
    hub := { State.resetHub with
      console := s.hub.console
      boot := b, flash := s.hub.flash, rollback := s.hub.rollback, undervoltage := s.hub.undervoltage, noFlow := s.hub.noFlow } }

/-- R84: partition 0 as the anchor creates it; the spec gives no value for its MAC addresses and its VLAN, for which the
model takes 0 (log entry 43). -/
def systemPart (s : State) : Part :=
  { islands := s.unit.popmask.toNat, slices := 0xFFF
    ce := ((List.range 24).filter (present s)).map fun i => (i, 0xFFFFFF)
    dispw := 16, fabw := 255, mac := (0, 0), vlan := 0, qcap := 65536, agei := 21, roots := [], rotation := none }

/-- R16, R17: the power state of an island at its first start. The spec gives no share and no demand for the time before the
first budget round: the model takes the default floor and 0 (log entry 41). -/
def firstPower : Power := ⟨800, 0, 800, 80, false, 0, 0, 0, 0⟩

/-- R44, R45: a link that has trained at full width and speed. -/
def fullLink (now : Nat) : Link :=
  let c : LinkCfg := ⟨8, 0xFF, 200⟩
  ⟨.up, now, false, some c, some c, some c, some c, some c⟩

/-- R45, R79: the anchor trains the fabric; the links named do not come up. -/
def trainAll (s : State) (bad : List LinkEnd) : State :=
  ((allNodes.flatMap fun n => (List.range 24).map fun p => (⟨n, p⟩ : LinkEnd)).filter fun e =>
    joined s e && canonEnd (codeNow s) e == e).foldl
    (fun s e => modLink s e fun _ =>
      if bad.any fun b => canonEnd (codeNow s) b == e then downLink s.hub.ns false else fullLink s.hub.ns) s

/-- R119, R121: the lehr scrubs an island at a cold boot. -/
def coldTokens (s : State) (isl : Nat) : State :=
  (maskSlices 0xFFF).foldl (writeToken ⟨isl, 0xFFF, 0xFFFFFF, 0, 0, 0⟩) s

/-- R23: a line of the log on the console. -/
def logLine (s : State) (l : LogLine) : State := { s with hub := { s.hub with console := s.hub.console ++ [l] } }

/-- R81: the anchor makes a fresh attestation key and certifies it with the identity key. -/
def freshAttestation (s : State) : State :=
  let k := Config.newKey s.serial
  { s with
    serial := s.serial + 1
    hub := { s.hub with
      attKey := k, attCert := Config.sign s.unit.identityKey (Config.sha512 (leBytes 132 (Config.publicKey k))) } }

/-- R79: ANCHOR_BOOT: the manufacturing record is read, all state is scrubbed, the fabric trains, partition 0 is created,
and the service firmware starts. -/
def anchorBoot (s0 : State) (bad : List LinkEnd) : State :=
  let is_ := (List.range 24).filter (present s0)
  let s := freshAttestation s0
  let s1 := { s with hub := { s.hub with
    boot := .running, image := s.hub.flash, service := true, clk := is_.map fun i => (i, 0)
    power := is_.map fun i => (i, firstPower), nextRound := s.hub.ns + 1000000 } }
  let s2 := trainAll (is_.foldl coldTokens (moveSteps s1)) bad
  publish (freshKey { s2 with
    par := { s2.par with parts := [(0, systemPart s)] }
    fab := { s2.fab with ucieDown := s2.fab.ucieDown.drop fun i => present s i } } 0)

/-- R22, R79: the flash image starts the anchor; without coolant flow it powers no island, and waits. -/
def startAnchor (s : State) (bad : List LinkEnd) : State :=
  let s1 := logLine s (.anchorStarted s.hub.flash.version)
  if s.hub.noFlow then logLine { s1 with hub := { s1.hub with boot := .dry } } .noCoolant else anchorBoot s1 bad

/-- R79: BOOT_ROM_VERIFY: the flash image starts the anchor, or the unit falls back to HTTPS boot. -/
def bootRom (s : State) (bad : List LinkEnd) : State :=
  let s1 := logLine s .romStarted
  if verifies s s.hub.flash then startAnchor (logLine s1 (.imageVerified s.hub.flash.version)) bad
  else logLine { s1 with hub := { s1.hub with boot := .https, nextRound := s.hub.ns } } .imageRejected

/-- R45: the links that an event says do not come up at a boot. -/
def badLinks (s : State) : List LinkEnd :=
  match s.occ with
  | .boot bad => bad
  | _ => []

/-- R22: COOLANT_FLOW_RESUME; an anchor that waits for coolant powers the islands. -/
def execCoolantFlowResume (s : State) : Out :=
  if !s.hub.noFlow then idle "COOLANT_FLOW_RESUME"
  else
    let s1 := moveSteps { s with hub := { s.hub with
      noFlow := false
      power := s.hub.power.map fun (i, p) => (i, if p.throttled then p else { p with hotRounds := 0 }) } }
    .next (commit s (if s.hub.boot = .dry then anchorBoot s1 (badLinks s) else s1))

/-- R24: RESET_IN. -/
def execResetIn (s : State) : Out :=
  if s.hub.boot = .off then idle "RESET_IN" else .next (commit s (bootRom (coldState s .rom) (badLinks s)))

/-- R21: INPUT_POWER_LOSS. -/
def execInputPowerLoss (s : State) : Out :=
  if s.hub.boot = .off then idle "INPUT_POWER_LOSS"
  else
    let s1 := coldState s .off
    .next (commit s { s1 with hub := { s1.hub with undervoltage := false } })

/-- R21, R79: COLD_BOOT: power returns, or the boot ROM goes on from reset. -/
def execColdBoot (s : State) : Out :=
  if s.hub.boot = .off ∨ s.hub.boot = .rom then .next (commit s (bootRom (coldState s .rom) (badLinks s)))
  else idle "COLD_BOOT"

/-- R79: HTTPS_BOOT_RETRY: an image that verifies is written to flash and started; else the next try is 30 s later. -/
def execHttpsBootRetry (s : State) : Out :=
  match s.occ with
  | .image i =>
    if s.hub.boot ≠ .https ∨ s.hub.ns < s.hub.nextRound then idle "HTTPS_BOOT_RETRY"
    else
      .next (commit s (match i.filter (verifies s) with
        | some x => startAnchor (logLine { s with hub := { s.hub with flash := x } } (.imageVerified x.version)) []
        | none => logLine { s with hub := { s.hub with nextRound := s.hub.ns + 30000000000 } } .imageRejected))
  | _ => idle "HTTPS_BOOT_RETRY"

/-! ### The board management connector -/

/-- R23: what the board management connector shows the board. -/
structure BoardSignals where
  /-- PWR_GOOD: the hub has powered and started its boot ROM. -/
  pwrGood : Bool
  /-- The SMBus: presence, the identity record, the input voltage below 42 V, the coolant standing. -/
  presence : Bool
  identity : Nat
  inputLow : Bool
  coolantStopped : Bool
  /-- The console's transmit line: the log, oldest line first. -/
  console : List LogLine
deriving DecidableEq, Repr

/-- R23: the signals of the board management connector. The spec does not say what its sensors show once input power is lost:
the model clears the low-input flag there, so that they show presence and an input that is not low (log entry 43). -/
def boardSignals (s : State) : BoardSignals :=
  ⟨s.hub.boot != .off, true, s.unit.identity, s.hub.undervoltage, s.hub.noFlow, s.hub.console⟩

/-! ### Firmware -/

/-- R80: FIRMWARE_UPDATE: an image that verifies replaces the flash image; an update that is interrupted leaves one that
does not verify. -/
def execFirmwareUpdate (s : State) : Out :=
  match s.occ with
  | .image i =>
    if !serviceUp s then idle "FIRMWARE_UPDATE"
    else
      redfish s none (match i with
        | none => { s with hub := { s.hub with flash := ⟨0, false, 0⟩ } }
        | some x => if verifies s x then { s with hub := { s.hub with flash := x } } else refuse s 8)
  | _ => idle "FIRMWARE_UPDATE"

/-- R78: SERVICE_FIRMWARE_STOP. -/
def execServiceFirmwareStop (s : State) : Out :=
  if serviceUp s then .next (commit s { s with hub := { s.hub with service := false } }) else idle "SERVICE_FIRMWARE_STOP"

/-- R78: SERVICE_FIRMWARE_RESTARTED. -/
def execServiceFirmwareRestarted (s : State) : Out :=
  if anchorUp s && !s.hub.service then .next (commit s { s with hub := { s.hub with service := true } })
  else idle "SERVICE_FIRMWARE_RESTARTED"

/-! ### Keys -/

/-- R33: KEY_PHASE_CHANGE: a slot takes a new key of the other phase, and both are accepted. -/
def execKeyPhaseChange (s : State) : Out :=
  match s.occ with
  | .slot n =>
    if !anchorUp s || ((s.fab.keys.get? n).map (·.old.isSome)).getD false || 64 ≤ n then idle "KEY_PHASE_CHANGE"
    else .next (commit s (rekey s n))
  | _ => idle "KEY_PHASE_CHANGE"

/-- R33: KEY_PHASE_RETIRE. -/
def execKeyPhaseRetire (s : State) : Out :=
  match s.occ with
  | .slot n =>
    match s.fab.keys.get? n with
    | some k =>
      if anchorUp s && k.old.isSome then
        .next (commit s { s with fab := { s.fab with keys := s.fab.keys.set n { k with old := none } } })
      else idle "KEY_PHASE_RETIRE"
    | none => idle "KEY_PHASE_RETIRE"
  | _ => idle "KEY_PHASE_RETIRE"

/-! ### Attestation and tokens -/

/-- R82: TOKMIN of a partition. -/
def tokMin (s : State) (part : Nat) : Nat := (((slicesOf s part).map fun k => s.par.scrub.getD k 0).min?).getD 0

/-- R64, R82: the partition's configuration, as it is hashed: shape, copy engines, weights, registrations of command, service
and fault chains (log entry 10). -/
def configOf (s : State) (part : Nat) : List Nat :=
  match s.part? part with
  | none => []
  | some p =>
    [p.islands, p.slices] ++ (islandsOf s part).map (fun i => p.ce.getD i 0) ++ [p.dispw, p.fabw] ++
      ((s.hub.chains.filter fun e => e.1.1 == part).flatMap fun e => [e.1.2, e.2.home, e.2.desc, e.2.head]) ++
      (s.par.fchains.filter fun e => e.1.1 == part).flatMap fun e => [17, e.1.2, e.2.desc, e.2.base, e.2.size]

/-- R82: bits [3039:0] of an attestation report. -/
def reportBody (s : State) (part nonce : Nat) : Nat :=
  inBits 2559 2048 (Config.sha512 ((configOf s part).flatMap (leBytes 8))).toNat +
    inBits 2047 1536 (Config.sha512 (leBytes 32 (topoHeader s))).toNat + inBits 1535 1024 s.hub.image.hash +
    inBits 1023 512 nonce + inBits 511 448 (tokMin s part) + inBits 447 384 s.hub.ns +
    inBits 383 352 s.hub.image.version + inBits 351 344 part

/-- R82: the 512 bytes of an attestation report, signed with the attestation key over its bits [3039:0]. -/
def attestation (s : State) (part nonce : Nat) : List Byte :=
  let body := leBytes 380 (reportBody s part nonce)
  let sig := Config.sign s.hub.attKey (Config.sha512 body)
  body ++ bigEndian 66 sig.1 ++ bigEndian 66 sig.2

/-- R82: ATTESTATION_REQUEST. -/
def execAttestationRequest (s : State) : Out :=
  match s.occ with
  | .attest part nonce =>
    if !serviceUp s then idle "ATTESTATION_REQUEST"
    else
      redfish s (some part) (if (s.part? part).isSome then
          sendHost s (.redfish part 16 ((attestation s part nonce).map (·.toNat)))
        else refuse s 9)
  | _ => idle "ATTESTATION_REQUEST"

/-- R81: the certificate of the attestation key: its public half, and its signature by the identity key. -/
def attCertificate (s : State) : List Nat := [Config.publicKey s.hub.attKey, s.hub.attCert.1, s.hub.attCert.2]

/-- R81, R120: TOKEN_FETCH: the latest token of a slice, or of an island's engines, with the attestation key's certificate, to
system software or to its PARTIN. -/
def execTokenFetch (s : State) : Out :=
  match s.occ with
  | .token part isl slice =>
    if !serviceUp s then idle "TOKEN_FETCH"
    else
      redfish s (some part) (match s.par.tokens.get? (isl, slice) with
        | some t =>
          if part = 0 ∨ part = t.partIn then
            sendHost s (.redfish part 17 ((tokenBytes isl t).map (·.toNat) ++ attCertificate s))
          else refuse s 9
        | none => refuse s 9)
  | _ => idle "TOKEN_FETCH"

/-! ### Settings -/

/-- R17, R35, R47, R63, R84, R138, R140: a setting within its range, by the model's own numbers (log entry 23); none where it
is refused. -/
def setting (s : State) (which part v : Nat) : Option State :=
  let hub (ok : Bool) (h : HubSt) : Option State := if ok then some { s with hub := h } else none
  let mine (ok : Bool) (f : Part → Part) : Option State :=
    if ok && part != 0 && (s.part? part).isSome then some (s.modPart part f) else none
  match which with
  | 0 => hub (700 ≤ v && v ≤ 960 && (s.hub.power.get? part).isSome)
      { s.hub with power := s.hub.power.modify part fun p => { p with floor := v } }
  | 1 => hub (v ≤ 23500) { s.hub with cap := v }
  | 2 => hub (2000000 ≤ v && v ≤ 100000000) { s.hub with respNs := v }
  | 3 => hub ([4000, 8000, 16000, 32000, 64000, 128000, 256000].contains v) { s.hub with blockNs := v }
  | 4 => mine (1 ≤ v && v ≤ 255) fun p => { p with dispw := v }
  | 5 => mine (1 ≤ v && v ≤ 255) fun p => { p with fabw := v }
  | 6 => mine ((List.range 9).any fun k => v == 2 ^ (k + 12)) fun p => { p with qcap := v }
  | 7 => if 14 ≤ v && v ≤ 27 && (s.part? part).isSome then some (s.modPart part fun p => { p with agei := v }) else none
  | _ => none

/-! ### Reading -/

/-- R63: the scope of a read: a partition's own telemetry, or the system's. -/
def readScope (which arg : Nat) : Option Nat := if which = 6 then some arg else none

/-- R20, R66: the telemetry of a partition: that of the islands it holds, and the low TAILs counted on its command chains. -/
def partTelemetry (s : State) (part : Nat) : List Nat :=
  ((s.hub.telemetry.filter fun e => holdsIsland s part e.1).flatMap fun e =>
    [e.1, e.2.share, e.2.step, e.2.watts, e.2.temp, e.2.throttles]) ++
    (s.hub.chains.filter fun e => e.1.1 == part).flatMap fun e => [e.1.2, e.2.low]

/-- R20, R32, R37, R50, R63, R81, R213: what Redfish shows, by the model's own numbers (log entry 23): the telemetry of an
island, a view of the topology table (24 is the hub's), the counts of corrected errors, the unit's certificates, the packets that
each router has discarded, each router's counts of timer expiries and rope moves, the telemetry of a partition. -/
def redfishRead (s : State) (which arg : Nat) : Option (List Nat) :=
  match which with
  | 0 => (s.hub.telemetry.get? arg).map fun t => [t.share, t.step, t.watts, t.temp, t.throttles]
  | 1 => some ((topoView s (if arg = 24 then 31 else arg)).map (·.toNat))
  | 2 => some (s.hub.corrected.flatMap fun e => [e.1, e.2])
  | 3 => some (s.unit.certificate :: attCertificate s)
  | 4 => some (s.fab.discards.flatMap fun e => [e.1, e.2])
  | 5 => some (s.fab.ropeStats.flatMap fun e => [e.1, e.2.1, e.2.2])
  | 6 => if (s.part? arg).isSome then some (partTelemetry s arg) else none
  | _ => none

/-- R63: REDFISH_SETTING; the step also takes a request that only reads, for which the opcode table has no step of its own
(log entry 23). -/
def execRedfishSetting (s : State) : Out :=
  match s.occ with
  | .setting which part v =>
    if serviceUp s then redfish s none ((setting s which part v).getD (refuse s 10)) else idle "REDFISH_SETTING"
  | .redfishRead which arg =>
    if serviceUp s then redfish s (readScope which arg) (match redfishRead s which arg with
      | some vs => sendHost s (.redfish 0 19 vs)
      | none => refuse s 10)
    else idle "REDFISH_SETTING"
  | _ => idle "REDFISH_SETTING"

end Sys2Proof.Machine
end

