-- ==== Sys2Proof/Machine/Cairn.lean ====
section
/-! DEFINITION. The cairn probe and the bivouac entry (R148 to R150). -/

namespace Sys2Proof.Machine

open Sys2Proof

/-- R148: a decoupled queue: a decision queue, an engine chain, or a matrix engine's input queue. -/
inductive Queue where
  | dq (g : Member)
  | chain (r : ChainRef)
  | mat (isl core : Nat)
deriving DecidableEq, Repr

/-- R148: the queue into which an operation is blocked pushing. -/
def Op.blockedOn (s : State) (o : Op) : Option Queue :=
  if !o.holds s then none
  else
    match o.act with
    | .pushdq _ => some (.dq o.m)
    | .append desc .. => some (.chain ⟨o.m.isl, o.part, desc⟩)
    | .matrix _ => some (.mat o.m.isl o.core)
    | _ => none

/-- R148, R231: the chain into which a copy engine is blocked appending. -/
def EngRec.blockedOn (s : State) (r : EngRec) : Option Queue :=
  if waitsFollow s r then (followChain s r).map fun c => .chain c.1 else none

/-- R149: a consumer of a queue. -/
inductive Consumer where
  | split (t : Thread)
  | engine (isl : Nat) (e : Engine)
deriving DecidableEq, Repr

/-- R149: the consumers of a queue. -/
def consumers (s : State) : Queue → List Consumer
  | .dq g => (s.core.threads.filter fun e => e.1.m.isl == g.isl && e.1.m.team == g.team && !e.1.m.gaffer).map
      fun e => .split e.1
  | .chain r =>
    match s.eng.chains.get? r with
    | some c => [.engine r.isl c.eng]
    | none => []
  | .mat isl core => [.engine isl (.matrix core)]

/-- R149: the queues on which a consumer waits. -/
def waitsOn (s : State) : Consumer → List Queue
  | .split t => s.core.ops.filterMap fun o => if o.heldBy t then o.blockedOn s else none
  | .engine isl e => s.eng.recs.filterMap fun r => if r.ref.chain.isl = isl ∧ r.eng = e then r.blockedOn s else none

/-- R149: every copy of the probe of `q0` that leaves queue `q` reaches `q0` again. -/
def probeReturns (s : State) (q0 : Queue) : Nat → List Queue → Queue → Bool
  | 0, _, _ => false
  | n + 1, passed, q =>
    let cs := consumers s q
    !cs.isEmpty && cs.all fun c =>
      let ws := waitsOn s c
      !ws.isEmpty && ws.all fun w => w == q0 || (!passed.contains w && probeReturns s q0 n (w :: passed) w)

/-- R150: CAIRN and BIV of a queue. -/
def queueCairn (s : State) : Queue → Nat × Bool
  | .dq g => s.core.dqCairn.getD g (0, false)
  | .chain r => ((s.eng.chains.get? r).map fun c => (c.cairn, c.biv)).getD (0, false)
  | .mat isl core => s.eng.matCairn.getD (isl, core) (0, false)

/-- R150: a probe of a queue has returned. -/
def countCairn (s : State) (q : Queue) : State :=
  let n := min ((queueCairn s q).1 + 1) 0xFFFF
  match q with
  | .dq g => { s with core := { s.core with dqCairn := s.core.dqCairn.set g (n, true) } }
  | .chain r => changeChain s r fun c => { c with cairn := n, biv := true }
  | .mat isl core =>
    syncMatrix s { s with eng := { s.eng with matCairn := s.eng.matCairn.set (isl, core) (n, true) } } isl core

/-- R149: the blocked operation's item takes the bivouac entry. -/
def forceOp (s : State) (o : Op) : State :=
  match o.act with
  | .pushdq v => finishOp { s with core := { s.core with dq := s.core.dq.set o.m (dqOf s o.m ++ [v]) } } o
  | .append .. => completeAppend s o true
  | .matrix job =>
    let k := (o.m.isl, o.core)
    { s with eng := { s.eng with matq := s.eng.matq.set k (s.eng.matq.getD k [] ++ [.instr o.id o.m job]) } }
  | _ => s

/-- R149: an operation's blocked-cycle count starts again. -/
def restartOp (s : State) (o : Op) : State :=
  { s with core := { s.core with ops := s.core.ops.map fun x => if x.id = o.id then { x with since := s.clk o.m.isl } else x } }

/-- R149: a blocked operation's queue sends its probe. -/
def probeOp (s : State) (o : Op) (q : Queue) : State :=
  let s1 := restartOp s o
  if probeReturns s q 16 [q] q then forceOp (countCairn s1 q) o else s1

/-- R149: the chain that blocks a copy engine sends its probe. -/
def probeRec (s : State) (r : EngRec) (q : Queue) : State :=
  let r1 := { r with since := s.clk r.ref.chain.isl }
  let s1 := setRec s r1
  if probeReturns s q 16 [q] q then (follow (countCairn s1 q) r1 true).getD s1 else s1

/-- R149: a producer has been blocked for 2048 core clocks on a queue whose bivouac entry is free. -/
def probeDue (s : State) (isl since : Nat) (q : Queue) : Bool := 2048 ≤ s.clk isl - since && !(queueCairn s q).2

/-- R149, R224: items keep their order in the queue: a producer that stands behind another has no item to give it yet. -/
def inOrder (s : State) (o : Op) : Bool :=
  match o.act with
  | .append .. => ((o.append?).map (appendTurn s o)).getD true
  | .pushdq _ => pushTurn s o
  | _ => true

/-- R149: CAIRN_PROBE. -/
def execCairnProbe (s : State) : Out :=
  match s.occ with
  | .op id =>
    match (s.op? id).bind fun o => (o.blockedOn s).map fun q => (o, q) with
    | some (o, q) =>
      if inOrder s o && probeDue s o.m.isl o.since q then .next (commit s (probeOp s o q)) else idle "CAIRN_PROBE"
    | none => idle "CAIRN_PROBE"
  | .engine ref =>
    match (s.rec? ref).bind fun r => (r.blockedOn s).map fun q => (r, q) with
    | some (r, q) =>
      if probeDue s ref.chain.isl r.since q then .next (commit s (probeRec s r q)) else idle "CAIRN_PROBE"
    | none => idle "CAIRN_PROBE"
  | _ => idle "CAIRN_PROBE"

end Sys2Proof.Machine
end

