-- ==== Sys2Proof/Machine/Float.lean ====
section
/-! DEFINITION. Chapter 14: floating point, conversions, special functions, packed pairs and RN24 in registers (R356 to
R376). -/

namespace Sys2Proof.Machine

open Sys2Proof

/-! ### Shapes -/

/-- A value with flags as a 64-bit result. -/
def res64 (r : Nat × Nat) : W64 × Nat := (w64 r.1, r.2)

/-- A lane-wise floating-point instruction of one source. -/
def vecF1 (s : State) (c : Issue) (h : Head) (t : Ty) (a : Src) (f : Nat → Nat × Nat) : Body :=
  vecBody s c h 1 fun l => res64 (f (rdF s c (uV 1) t a l))

/-- A scalar floating-point form of one source (R308). -/
def scaF1 (s : State) (c : Issue) (h : Head) (t : Ty) (a : Src) (f : Nat → Nat × Nat) : Body :=
  scaBody s c h 1 fun _ => res64 (f (rdF s c (uS 1) t a c.low))

/-- A lane-wise floating-point instruction of two sources. -/
def vecF2 (s : State) (c : Issue) (h : Head) (t : Ty) (a b : Src) (f : Nat → Nat → Nat × Nat) : Body :=
  vecBody s c h 1 fun l => res64 (f (rdF s c (uV 1) t a l) (rdF s c (uV 2) t b l))

/-- A scalar floating-point form of two sources. -/
def scaF2 (s : State) (c : Issue) (h : Head) (t : Ty) (a b : Src) (f : Nat → Nat → Nat × Nat) : Body :=
  scaBody s c h 1 fun _ => res64 (f (rdF s c (uS 1) t a c.low) (rdF s c (uS 2) t b c.low))

/-- R300: a lane-wise special function of one source. -/
def vecV1 (s : State) (c : Issue) (h : Head) (t : Ty) (a : Src) (f : Nat → Nat × Nat) : Body :=
  vecVar s c h 1 fun l => res64 (f (rdF s c (uV 1) t a l))

/-- R300: a scalar special function of one source. -/
def scaV1 (s : State) (c : Issue) (h : Head) (t : Ty) (a : Src) (f : Nat → Nat × Nat) : Body :=
  scaVar s c h fun _ => res64 (f (rdF s c (uS 1) t a c.low))

/-- R375: both elements of a packed pair. -/
def both (f : Nat → Nat × Nat) : Nat × Nat :=
  let lo := f 0
  let hi := f 16
  (lo.1 + hi.1 * 65536, lo.2 ||| hi.2)

/-- R375: an element of a packed pair, from its bit position. -/
def half (x pos : Nat) : Nat := x / 2 ^ pos % 65536

/-- R375: a packed operation of two sources. -/
def packed2 (f : Nat → Nat → Nat × Nat) (x y : Nat) : Nat × Nat := both fun p => f (half x p) (half y p)

/-- R375: a packed operation of three sources. -/
def packed3 (f : Nat → Nat → Nat → Nat × Nat) (x y z : Nat) : Nat × Nat :=
  both fun p => f (half x p) (half y p) (half z p)

/-- A lane-wise packed instruction of two sources. -/
def vecH2 (s : State) (c : Issue) (h : Head) (t : Ty) (a b : Src) (f : Nat → Nat → Nat × Nat) : Body :=
  vecBody s c h 1 fun l => res64 (packed2 f (rdPair s c (uV 1) t a l) (rdPair s c (uV 2) t b l))

/-- A scalar packed form of two sources. -/
def scaH2 (s : State) (c : Issue) (h : Head) (t : Ty) (a b : Src) (f : Nat → Nat → Nat × Nat) : Body :=
  scaBody s c h 1 fun _ => res64 (packed2 f (rdPair s c (uS 1) t a c.low) (rdPair s c (uS 2) t b c.low))

/-! ### Operations on encodings -/

/-- R362: FADD, or FSUB with the sign of B inverted. -/
def faddOp (t : Ty) (rnd : Rnd) (sub : Bool) (x y : Nat) : Nat × Nat :=
  t.fmt.add rnd (t.fmt.val x) ((t.fmt.val y).negate sub)
/-- R362: FMUL. -/
def fmulOp (t : Ty) (rnd : Rnd) (x y : Nat) : Nat × Nat := t.fmt.mulR rnd (t.fmt.val x) (t.fmt.val y)
/-- R362: FFMA. -/
def ffmaOp (t : Ty) (x y z : Nat) : Nat × Nat := t.fmt.fma (t.fmt.val x) (t.fmt.val y) (t.fmt.val z)
/-- R364: FABS. -/
def fabsOp (t : Ty) (x : Nat) : Nat × Nat := (x % 2 ^ t.fmt.sb, 0)
/-- R364: FNEG. -/
def fnegOp (t : Ty) (x : Nat) : Nat × Nat := (x ^^^ 2 ^ t.fmt.sb, 0)
/-- R372: FRCP. -/
def frcpOp (t : Ty) (rnd : Rnd) (x : Nat) : Nat × Nat := t.fmt.div rnd (.num false 1 0) (t.fmt.val x)
/-- R372: FDIV. -/
def fdivOp (t : Ty) (rnd : Rnd) (x y : Nat) : Nat × Nat := t.fmt.div rnd (t.fmt.val x) (t.fmt.val y)
/-- R372: FSQRT. -/
def fsqrtOp (t : Ty) (rnd : Rnd) (x : Nat) : Nat × Nat := t.fmt.sqrt rnd (t.fmt.val x)

/-- R376: RNENC. -/
def rnencOp (sat : Bool) (x : Nat) : Nat :=
  let v := Ty.i32.read x
  rnEncode (if sat then max (-8193405) (min 8193404 v) else v)

/-! ### The instructions -/

/-- R362: FADD, lane by lane. -/
def execFaddVector (h : Head) (ty : Ty) (rnd : Rnd) (a : Src) (b : Src) (s : State) : Out :=
  issue s h .vec [a, b] fun c => vecF2 s c h ty a b (faddOp ty rnd false)

/-- R362: FADD, once. -/
def execFaddScalar (h : Head) (ty : Ty) (rnd : Rnd) (a : Src) (b : Src) (s : State) : Out :=
  issue s h .sca [a, b] fun c => scaF2 s c h ty a b (faddOp ty rnd false)

/-- R362: FSUB, lane by lane. -/
def execFsubVector (h : Head) (ty : Ty) (rnd : Rnd) (a : Src) (b : Src) (s : State) : Out :=
  issue s h .vec [a, b] fun c => vecF2 s c h ty a b (faddOp ty rnd true)

/-- R362: FSUB, once. -/
def execFsubScalar (h : Head) (ty : Ty) (rnd : Rnd) (a : Src) (b : Src) (s : State) : Out :=
  issue s h .sca [a, b] fun c => scaF2 s c h ty a b (faddOp ty rnd true)

/-- R362: FMUL, lane by lane. -/
def execFmulVector (h : Head) (ty : Ty) (rnd : Rnd) (a : Src) (b : Src) (s : State) : Out :=
  issue s h .vec [a, b] fun c => vecF2 s c h ty a b (fmulOp ty rnd)

/-- R362: FMUL, once. -/
def execFmulScalar (h : Head) (ty : Ty) (rnd : Rnd) (a : Src) (b : Src) (s : State) : Out :=
  issue s h .sca [a, b] fun c => scaF2 s c h ty a b (fmulOp ty rnd)

/-- R362: FFMA, lane by lane. -/
def execFfmaVector (h : Head) (a : Src) (b : Src) (c0 : Src) (s : State) : Out :=
  issue s h .vec [a, b, c0] fun c => 
    vecBody s c h 1 fun l =>
      res64 (ffmaOp .f32 (rdF s c (uV 1) .f32 a l) (rdF s c (uV 2) .f32 b l) (rdF s c (uV 3) .f32 c0 l))

/-- R362: FFMA, once. -/
def execFfmaScalar (h : Head) (a : Src) (b : Src) (c0 : Src) (s : State) : Out :=
  issue s h .sca [a, b, c0] fun c => 
    scaBody s c h 1 fun _ =>
      res64 (ffmaOp .f32 (rdF s c (uS 1) .f32 a c.low) (rdF s c (uS 2) .f32 b c.low) (rdF s c (uS 3) .f32 c0 c.low))

/-- R363: FMIN, lane by lane. -/
def execFminVector (h : Head) (ty : Ty) (a : Src) (b : Src) (s : State) : Out :=
  issue s h .vec [a, b] fun c => vecF2 s c h ty a b (ty.fmt.minmax false)

/-- R363: FMIN, once. -/
def execFminScalar (h : Head) (ty : Ty) (a : Src) (b : Src) (s : State) : Out :=
  issue s h .sca [a, b] fun c => scaF2 s c h ty a b (ty.fmt.minmax false)

/-- R363: FMAX, lane by lane. -/
def execFmaxVector (h : Head) (ty : Ty) (a : Src) (b : Src) (s : State) : Out :=
  issue s h .vec [a, b] fun c => vecF2 s c h ty a b (ty.fmt.minmax true)

/-- R363: FMAX, once. -/
def execFmaxScalar (h : Head) (ty : Ty) (a : Src) (b : Src) (s : State) : Out :=
  issue s h .sca [a, b] fun c => scaF2 s c h ty a b (ty.fmt.minmax true)

/-- R364: FABS, lane by lane. -/
def execFabsVector (h : Head) (ty : Ty) (a : Src) (s : State) : Out :=
  issue s h .vec [a] fun c => vecF1 s c h ty a (fabsOp ty)

/-- R364: FABS, once. -/
def execFabsScalar (h : Head) (ty : Ty) (a : Src) (s : State) : Out :=
  issue s h .sca [a] fun c => scaF1 s c h ty a (fabsOp ty)

/-- R364: FNEG, lane by lane. -/
def execFnegVector (h : Head) (ty : Ty) (a : Src) (s : State) : Out :=
  issue s h .vec [a] fun c => vecF1 s c h ty a (fnegOp ty)

/-- R364: FNEG, once. -/
def execFnegScalar (h : Head) (ty : Ty) (a : Src) (s : State) : Out :=
  issue s h .sca [a] fun c => scaF1 s c h ty a (fnegOp ty)

/-- R365: FCMP, lane by lane. -/
def execFcmpVector (h : Head) (ty : Ty) (cond : Cond) (a : Src) (b : Src) (s : State) : Out :=
  issue s h .vec [a, b] fun c => 
    vecPBody s c h fun l => ty.fmt.compare cond (rdF s c (uV 1) ty a l) (rdF s c (uV 2) ty b l)

/-- R365: FCMP, once. -/
def execFcmpScalar (h : Head) (ty : Ty) (cond : Cond) (a : Src) (b : Src) (s : State) : Out :=
  issue s h .sca [a, b] fun c => 
    scaPBody s c h fun _ => ty.fmt.compare cond (rdF s c (uS 1) ty a c.low) (rdF s c (uS 2) ty b c.low)

/-- R366: FCLASS into a register, or a test into a predicate, lane by lane. -/
def execFclassVector (h : Head) (ty : Ty) (test : Option ClassTest) (a : Src) (s : State) : Out :=
  issue s h .vec [a] fun c => 
    match test with
    | none => vecF1 s c h ty a fun x => (2 ^ ty.fmt.cls x, 0)
    | some t => vecPBody s c h fun l => (ty.fmt.test t (rdF s c (uV 1) ty a l), 0)

/-- R366: FCLASS into a register, or a test into a predicate, once. -/
def execFclassScalar (h : Head) (ty : Ty) (test : Option ClassTest) (a : Src) (s : State) : Out :=
  issue s h .sca [a] fun c => 
    match test with
    | none => scaF1 s c h ty a fun x => (2 ^ ty.fmt.cls x, 0)
    | some t => scaPBody s c h fun _ => (ty.fmt.test t (rdF s c (uS 1) ty a c.low), 0)

/-- R367: FRND, lane by lane. -/
def execFrndVector (h : Head) (ty : Ty) (rnd : Rnd) (a : Src) (s : State) : Out :=
  issue s h .vec [a] fun c => vecF1 s c h ty a (ty.fmt.rnd rnd)

/-- R367: FRND, once. -/
def execFrndScalar (h : Head) (ty : Ty) (rnd : Rnd) (a : Src) (s : State) : Out :=
  issue s h .sca [a] fun c => scaF1 s c h ty a (ty.fmt.rnd rnd)

/-- R369: FCVT, lane by lane. -/
def execFcvtVector (h : Head) (ty : Ty) (rnd : Rnd) (sat : Bool) (src : Ty) (a : Src) (s : State) : Out :=
  issue s h .vec [a] fun c => vecF1 s c h src a (convert ty src rnd sat)

/-- R369: FCVT, once. -/
def execFcvtScalar (h : Head) (ty : Ty) (rnd : Rnd) (sat : Bool) (src : Ty) (a : Src) (s : State) : Out :=
  issue s h .sca [a] fun c => scaF1 s c h src a (convert ty src rnd sat)

/-- R370: F2I, lane by lane. -/
def execF2iVector (h : Head) (ty : Ty) (rnd : Rnd) (src : Ty) (a : Src) (s : State) : Out :=
  issue s h .vec [a] fun c => 
    vecBody s c h ty.words fun l =>
      let r := src.fmt.toInt ty rnd (rdF s c (uV 1) src a l)
      (wrapTo (if ty.words = 2 then .n64 else .n32) r.1, r.2)

/-- R370: F2I, once. -/
def execF2iScalar (h : Head) (ty : Ty) (rnd : Rnd) (src : Ty) (a : Src) (s : State) : Out :=
  issue s h .sca [a] fun c => 
    scaBody s c h ty.words fun _ =>
      let r := src.fmt.toInt ty rnd (rdF s c (uS 1) src a c.low)
      (BitVec.ofInt 64 r.1, r.2)

/-- R371: I2F, lane by lane. -/
def execI2fVector (h : Head) (ty : Ty) (rnd : Rnd) (src : Ty) (a : Src) (s : State) : Out :=
  issue s h .vec (srcsI src a) fun c => 
    vecBody s c h 1 fun l => res64 (ty.fmt.ofInt rnd (src.read (rdI s c (uV 1) src a l)))

/-- R371: I2F, once. -/
def execI2fScalar (h : Head) (ty : Ty) (rnd : Rnd) (src : Ty) (a : Src) (s : State) : Out :=
  issue s h .sca (srcsI src a) fun c => 
    scaBody s c h 1 fun _ => res64 (ty.fmt.ofInt rnd (src.read (rdI s c (uS 1) src a c.low)))

/-- R368: FSCALE, lane by lane. -/
def execFscaleVector (h : Head) (ty : Ty) (rnd : Rnd) (a : Src) (b : Src) (s : State) : Out :=
  issue s h .vec [a, b] fun c => 
    vecBody s c h 1 fun l =>
      res64 (ty.fmt.scale rnd (rdF s c (uV 1) ty a l) (Ty.i32.read (rd32 s c (uV 2) b l).toNat))

/-- R368: FSCALE, once. -/
def execFscaleScalar (h : Head) (ty : Ty) (rnd : Rnd) (a : Src) (b : Src) (s : State) : Out :=
  issue s h .sca [a, b] fun c => 
    scaBody s c h 1 fun _ =>
      res64 (ty.fmt.scale rnd (rdF s c (uS 1) ty a c.low) (Ty.i32.read (rd32 s c (uS 2) b c.low).toNat))

/-- R368: FGETEXP, lane by lane. -/
def execFgetexpVector (h : Head) (ty : Ty) (a : Src) (s : State) : Out :=
  issue s h .vec [a] fun c => vecF1 s c h ty a ty.fmt.getexp

/-- R368: FGETEXP, once. -/
def execFgetexpScalar (h : Head) (ty : Ty) (a : Src) (s : State) : Out :=
  issue s h .sca [a] fun c => scaF1 s c h ty a ty.fmt.getexp

/-- R372, R300: FRCP, lane by lane. -/
def execFrcpVector (h : Head) (ty : Ty) (rnd : Rnd) (a : Src) (s : State) : Out :=
  issue s h .vec [a] fun c => vecV1 s c h ty a (frcpOp ty rnd)

/-- R372, R300: FRCP, once. -/
def execFrcpScalar (h : Head) (ty : Ty) (rnd : Rnd) (a : Src) (s : State) : Out :=
  issue s h .sca [a] fun c => scaV1 s c h ty a (frcpOp ty rnd)

/-- R373, R300: FRSQ, lane by lane. -/
def execFrsqVector (h : Head) (ty : Ty) (a : Src) (s : State) : Out :=
  issue s h .vec [a] fun c => vecV1 s c h ty a (Fun.rsq.apply ty)

/-- R373, R300: FRSQ, once. -/
def execFrsqScalar (h : Head) (ty : Ty) (a : Src) (s : State) : Out :=
  issue s h .sca [a] fun c => scaV1 s c h ty a (Fun.rsq.apply ty)

/-- R372, R300: FSQRT, lane by lane. -/
def execFsqrtVector (h : Head) (ty : Ty) (rnd : Rnd) (a : Src) (s : State) : Out :=
  issue s h .vec [a] fun c => vecV1 s c h ty a (fsqrtOp ty rnd)

/-- R372, R300: FSQRT, once. -/
def execFsqrtScalar (h : Head) (ty : Ty) (rnd : Rnd) (a : Src) (s : State) : Out :=
  issue s h .sca [a] fun c => scaV1 s c h ty a (fsqrtOp ty rnd)

/-- R372, R300: FDIV, lane by lane. -/
def execFdivVector (h : Head) (ty : Ty) (rnd : Rnd) (a : Src) (b : Src) (s : State) : Out :=
  issue s h .vec [a, b] fun c => 
    vecVar s c h 1 fun l => res64 (fdivOp ty rnd (rdF s c (uV 1) ty a l) (rdF s c (uV 2) ty b l))

/-- R372, R300: FDIV, once. -/
def execFdivScalar (h : Head) (ty : Ty) (rnd : Rnd) (a : Src) (b : Src) (s : State) : Out :=
  issue s h .sca [a, b] fun c => 
    scaVar s c h fun _ => res64 (fdivOp ty rnd (rdF s c (uS 1) ty a c.low) (rdF s c (uS 2) ty b c.low))

/-- R373, R300: FEXP2, lane by lane. -/
def execFexp2Vector (h : Head) (ty : Ty) (a : Src) (s : State) : Out :=
  issue s h .vec [a] fun c => vecV1 s c h ty a (Fun.exp2.apply ty)

/-- R373, R300: FEXP2, once. -/
def execFexp2Scalar (h : Head) (ty : Ty) (a : Src) (s : State) : Out :=
  issue s h .sca [a] fun c => scaV1 s c h ty a (Fun.exp2.apply ty)

/-- R373, R300: FLOG2, lane by lane. -/
def execFlog2Vector (h : Head) (ty : Ty) (a : Src) (s : State) : Out :=
  issue s h .vec [a] fun c => vecV1 s c h ty a (Fun.log2.apply ty)

/-- R373, R300: FLOG2, once. -/
def execFlog2Scalar (h : Head) (ty : Ty) (a : Src) (s : State) : Out :=
  issue s h .sca [a] fun c => scaV1 s c h ty a (Fun.log2.apply ty)

/-- R373, R300: FSIN, lane by lane. -/
def execFsinVector (h : Head) (ty : Ty) (a : Src) (s : State) : Out :=
  issue s h .vec [a] fun c => vecV1 s c h ty a (Fun.sin.apply ty)

/-- R373, R300: FSIN, once. -/
def execFsinScalar (h : Head) (ty : Ty) (a : Src) (s : State) : Out :=
  issue s h .sca [a] fun c => scaV1 s c h ty a (Fun.sin.apply ty)

/-- R373, R300: FCOS, lane by lane. -/
def execFcosVector (h : Head) (ty : Ty) (a : Src) (s : State) : Out :=
  issue s h .vec [a] fun c => vecV1 s c h ty a (Fun.cos.apply ty)

/-- R373, R300: FCOS, once. -/
def execFcosScalar (h : Head) (ty : Ty) (a : Src) (s : State) : Out :=
  issue s h .sca [a] fun c => scaV1 s c h ty a (Fun.cos.apply ty)

/-- R373, R300: FTANH, lane by lane. -/
def execFtanhVector (h : Head) (ty : Ty) (a : Src) (s : State) : Out :=
  issue s h .vec [a] fun c => vecV1 s c h ty a (Fun.tanh.apply ty)

/-- R373, R300: FTANH, once. -/
def execFtanhScalar (h : Head) (ty : Ty) (a : Src) (s : State) : Out :=
  issue s h .sca [a] fun c => scaV1 s c h ty a (Fun.tanh.apply ty)

/-- R375: HADD2, lane by lane. -/
def execHadd2Vector (h : Head) (ty : Ty) (rnd : Rnd) (negb : Bool) (a : Src) (b : Src) (s : State) : Out :=
  issue s h .vec [a, b] fun c => vecH2 s c h ty a b (faddOp ty rnd negb)

/-- R375: HADD2, once. -/
def execHadd2Scalar (h : Head) (ty : Ty) (rnd : Rnd) (negb : Bool) (a : Src) (b : Src) (s : State) : Out :=
  issue s h .sca [a, b] fun c => scaH2 s c h ty a b (faddOp ty rnd negb)

/-- R375: HMUL2, lane by lane. -/
def execHmul2Vector (h : Head) (ty : Ty) (rnd : Rnd) (a : Src) (b : Src) (s : State) : Out :=
  issue s h .vec [a, b] fun c => vecH2 s c h ty a b (fmulOp ty rnd)

/-- R375: HMUL2, once. -/
def execHmul2Scalar (h : Head) (ty : Ty) (rnd : Rnd) (a : Src) (b : Src) (s : State) : Out :=
  issue s h .sca [a, b] fun c => scaH2 s c h ty a b (fmulOp ty rnd)

/-- R375: HFMA2.F16, lane by lane. -/
def execHfma2F16Vector (h : Head) (a : Src) (b : Src) (c0 : Src) (s : State) : Out :=
  issue s h .vec [a, b, c0] fun c => 
    vecBody s c h 1 fun l =>
      res64 (packed3 (ffmaOp .f16) (rdPair s c (uV 1) .f16 a l) (rdPair s c (uV 2) .f16 b l) (rdPair s c (uV 3) .f16 c0 l))

/-- R375: HFMA2.F16, once. -/
def execHfma2F16Scalar (h : Head) (a : Src) (b : Src) (c0 : Src) (s : State) : Out :=
  issue s h .sca [a, b, c0] fun c => 
    scaBody s c h 1 fun _ =>
      res64 (packed3 (ffmaOp .f16) (rdPair s c (uS 1) .f16 a c.low) (rdPair s c (uS 2) .f16 b c.low)
        (rdPair s c (uS 3) .f16 c0 c.low))

/-- R375: HFMA2.BF16, lane by lane. -/
def execHfma2Bf16Vector (h : Head) (a : Src) (b : Src) (c0 : Src) (s : State) : Out :=
  issue s h .vec [a, b, c0] fun c => 
    vecBody s c h 1 fun l =>
      res64 (packed3 (ffmaOp .bf16) (rdPair s c (uV 1) .bf16 a l) (rdPair s c (uV 2) .bf16 b l) (rdPair s c (uV 3) .bf16 c0 l))

/-- R375: HFMA2.BF16, once. -/
def execHfma2Bf16Scalar (h : Head) (a : Src) (b : Src) (c0 : Src) (s : State) : Out :=
  issue s h .sca [a, b, c0] fun c => 
    scaBody s c h 1 fun _ =>
      res64 (packed3 (ffmaOp .bf16) (rdPair s c (uS 1) .bf16 a c.low) (rdPair s c (uS 2) .bf16 b c.low)
        (rdPair s c (uS 3) .bf16 c0 c.low))

/-- R375: HMIN2, lane by lane. -/
def execHmin2Vector (h : Head) (ty : Ty) (a : Src) (b : Src) (s : State) : Out :=
  issue s h .vec [a, b] fun c => vecH2 s c h ty a b (ty.fmt.minmax false)

/-- R375: HMIN2, once. -/
def execHmin2Scalar (h : Head) (ty : Ty) (a : Src) (b : Src) (s : State) : Out :=
  issue s h .sca [a, b] fun c => scaH2 s c h ty a b (ty.fmt.minmax false)

/-- R375: HMAX2, lane by lane. -/
def execHmax2Vector (h : Head) (ty : Ty) (a : Src) (b : Src) (s : State) : Out :=
  issue s h .vec [a, b] fun c => vecH2 s c h ty a b (ty.fmt.minmax true)

/-- R375: HMAX2, once. -/
def execHmax2Scalar (h : Head) (ty : Ty) (a : Src) (b : Src) (s : State) : Out :=
  issue s h .sca [a, b] fun c => scaH2 s c h ty a b (ty.fmt.minmax true)

/-- R376: RNENC, lane by lane. -/
def execRnencVector (h : Head) (sat : Bool) (a : Src) (s : State) : Out :=
  issue s h .vec [a] fun c => vec1 s c h .n32 a fun x => rnencOp sat x

/-- R376: RNENC, once. -/
def execRnencScalar (h : Head) (sat : Bool) (a : Src) (s : State) : Out :=
  issue s h .sca [a] fun c => sca1 s c h .n32 a fun x => rnencOp sat x

/-- R376: RNDEC, lane by lane. -/
def execRndecVector (h : Head) (a : Src) (s : State) : Out :=
  issue s h .vec [a] fun c => vec1 s c h .i32 a crt24

/-- R376: RNDEC, once. -/
def execRndecScalar (h : Head) (a : Src) (s : State) : Out :=
  issue s h .sca [a] fun c => sca1 s c h .i32 a crt24

end Sys2Proof.Machine
end

