-- ==== Sys2Proof/Machine/CrossLane.lean ====
section
/-! DEFINITION. Chapter 14: the cross-lane instructions (R377 to R382). Their participants are the active lanes in which
both guards hold, which are the lanes that execute. -/

namespace Sys2Proof.Machine

open Sys2Proof

/-- R379: the value VOTE's predicate modes write. -/
def voteOp (mode : VoteMode) (part q : W32) : Bool :=
  match mode with
  | .any => q != 0
  | .all => q == part
  | _ => q == 0 || q == part

/-- R379: VOTE. -/
def execVote (h : Head) (mode : VoteMode) (neg : Bool) (pa : Nat) (s : State) : Out :=
  issue s h .vec [] fun c =>
    c.preds s [pa] fun _ =>
    let q := c.exec &&& (if neg then ~~~predMask s c.th.m pa else predMask s c.th.m pa)
    match mode with
    | .ballot => vecI s c h .n32 fun _ => q.toNat
    | m => vecPBody s c h fun _ => (voteOp m c.exec q, 0)

/-- R380: the lane SHFL reads for lane `l`, with segments of `w` lanes. -/
def shflLane (mode : ShflMode) (w l b : Nat) : Nat :=
  let base := l - l % w
  match mode with
  | .idx => base + b % w
  | .up => if l - base < b then l else l - b
  | .down => if base + w - l ≤ b then l else l + b
  | .xor => base + (l ^^^ b) % w

/-- R380: SHFL. -/
def execShfl (h : Head) (ty : Ty) (mode : ShflMode) (lg : Nat) (a b : Src) (s : State) : Out :=
  issue s h .vec (srcsI ty a ++ [b]) fun c =>
    vecI s c h ty fun l =>
      let j := shflLane mode (2 ^ lg) l (rd32 s c (uV 2) b l).toNat
      rdI s c (uV 1) ty a (if c.exec.getLsbD j then j else l)

/-- R381: the integer combination of a list of operands. -/
def combineI (t : Ty) (op : AOp) (xs : List Nat) : Int :=
  match op with
  | .min => xs.foldl (fun r x => min r (t.read x)) t.maxOf
  | .max => xs.foldl (fun r x => max r (t.read x)) t.minOf
  | .and => (xs.foldl (fun r x => r &&& x) (2 ^ t.bits - 1) : Nat)
  | .or => (xs.foldl (fun r x => r ||| x) 0 : Nat)
  | .xor => (xs.foldl (fun r x => r ^^^ x) 0 : Nat)
  | _ => (xs.foldl (fun r x => r + x) 0 : Nat)

/-- R381: the exact sum of F32 operands, rounded once. -/
def sumF (rnd : Rnd) (xs : List Nat) : Nat × Nat :=
  let f := Ty.f32.fmt
  let vs := xs.map f.val
  let sig := vs.foldl (fun r v => r ||| v.sigFlag) 0
  let pos := vs.contains (.inf false)
  let neg := vs.contains (.inf true)
  if pos && neg then (f.cnan, flagNV)
  else if vs.any (·.isNan) then (f.cnan, sig)
  else
    if pos || neg then (f.infOf neg, 0)
    else
      let t := vs.foldl (fun (r : Int) v =>
        match v with
        | .num n m e => r + signedAt n m e (-149)
        | _ => r) 0
      if t = 0 then
        (f.zero (if vs.all (· == .num true 0 (-149)) then true
          else if vs.all (· == .num false 0 (-149)) then false else rnd == .rdn), 0)
      else f.round rnd false (t < 0) t.natAbs (-149)

/-- R381: the least or greatest of F32 operands, as FMIN and FMAX. -/
def extremeF (isMax : Bool) (xs : List Nat) : Nat × Nat :=
  let f := Ty.f32.fmt
  let sig := xs.foldl (fun r x => r ||| (f.val x).sigFlag) 0
  match xs.filter fun x => !(f.val x).isNan with
  | [] => (f.cnan, sig)
  | y :: ys => (ys.foldl (fun r x => (f.minmax isMax r x).1) y, sig)

/-- R381: the combination of operands, with flags; of none, the identity. -/
def combine (t : Ty) (rnd : Rnd) (op : AOp) (xs : List Nat) : W64 × Nat :=
  if t = .f32 then
    match xs, op with
    | [], .min => (0x7F800000, 0)
    | [], .max => (0xFF800000, 0)
    | [], _ => (0x80000000, 0)
    | xs, .min => res64 (extremeF false xs)
    | xs, .max => res64 (extremeF true xs)
    | xs, _ => res64 (sumF rnd xs)
  else (wrapTo t (combineI t op xs), 0)

/-- The value of a lane of a cross-lane operand, with its type. -/
def rdX (s : State) (c : Issue) (t : Ty) (a : Src) (l : Nat) : Nat :=
  if t = .f32 then rdF s c (uV 1) t a l else rdI s c (uV 1) t a l

/-- R381: REDUX. -/
def execRedux (h : Head) (ty : Ty) (rnd : Rnd) (op : AOp) (a : Src) (s : State) : Out :=
  issue s h .vec (srcsI ty a) fun c =>
    let r := combine ty rnd op ((lanesIn c.exec).map (rdX s c ty a))
    vecBody s c h ty.words fun _ => r

/-- R381: SCAN. -/
def execScan (h : Head) (ty : Ty) (rnd : Rnd) (op : AOp) (excl : Bool) (a : Src) (s : State) : Out :=
  issue s h .vec (srcsI ty a) fun c =>
    let xs := (lanesIn c.exec).map fun j => (j, rdX s c ty a j)
    vecBody s c h ty.words fun l =>
      combine ty rnd op ((xs.filter fun x => if excl then x.1 < l else x.1 ≤ l).map (·.2))

/-- R382: MATCH. -/
def execMatch (h : Head) (ty : Ty) (a : Src) (s : State) : Out :=
  issue s h .vec (srcsI ty a) fun c =>
    let xs := lanesOf fun j => if c.exec.getLsbD j then rdI s c (uV 1) ty a j else 0
    vecI s c h .n32 fun l =>
      (maskOf fun j => c.exec.getLsbD j && (j == l || xs.getD j 0 == xs.getD l 0)).toNat

end Sys2Proof.Machine
end

