-- ==== Sys2Proof/Machine/Control.lean ====
section
/-! DEFINITION. Chapter 13: control transfer (R347 to R354), the division of a split (R163 to R169) and the return from a
trap handler (R182, R442). -/

namespace Sys2Proof.Machine

open Sys2Proof

/-! ### Addresses -/

/-- R348: the target of an offset form. -/
def offsetTarget (c : Issue) (w : BitVec 24) : Nat := (w64 c.addr + 8 * w.signExtend 64).toNat

/-- R348: the target of an indirect form in a lane. -/
def indirectTarget (s : State) (c : Issue) (a : Src) (l : Nat) : Nat :=
  c.tm.hdr.code + (rd32 s c ⟨c.gaffer, 1⟩ a l).toNat

/-- R349: the active lanes by the address they go to, in the order of their lowest lanes. -/
def groupLanes (act : W32) (addr : Nat → Nat) : List (Nat × W32) :=
  (lanesIn act).foldl (fun gs l =>
    if gs.any (·.1 = addr l) then gs.map fun g => if g.1 = addr l then (g.1, g.2 ||| (1#32 <<< l)) else g
    else gs ++ [(addr l, 1#32 <<< l)]) []

/-- R297, R350: the lowest address that fails its check, with the failure. -/
def firstBad (s : State) (c : Issue) (as : List Nat) : Option (Nat × ClauseRes) :=
  as.foldl (fun b a =>
    match b with
    | some (x, _) =>
      if x ≤ a then b
      else
        match clauseCheck s c.isl c.part c.core c.tm.hdr a c.cls with
        | .good => b
        | r => some (a, r)
    | none =>
      match clauseCheck s c.isl c.part c.core c.tm.hdr a c.cls with
      | .good => none
      | r => some (a, r)) none

/-! ### Division -/

/-- R163, R272: an operation of path `old` passes to a new path of its strand too. -/
def Op.inherited (o : Op) (old new : Nat) : Op :=
  { o with
    holders := match o.holders.find? (·.1 = old) with
      | some x => o.holders ++ [(new, x.2)]
      | none => o.holders
    path := if o.path.contains (old, 0) then o.path ++ [(new, 0)] else o.path }

/-- R163: operations outstanding in a split pass to a new path of its strand. -/
def inherit (s : State) (m : Member) (old new : Nat) : State :=
  { s with core := { s.core with ops := s.core.ops.map fun o => if o.m = m then o.inherited old new else o } }

/-- R163, R443: a path made by division: it inherits the scoreboards and the trap registers. -/
def newPath (r : ThreadRec) (pc : Nat) (mask : W32) (join : Option Nat) : ThreadRec :=
  { r with pc := pc, mask := mask, clause := none, slot := 0, latches := zeroLatches, exited := 0, ends := [],
           wait := { Wait.free with join := join }, shadow := none, handler := false, epcSet := false, watch := none,
           fail := none, lastStart := 0 }

/-- R163 to R165: one further group becomes a split or is pushed; on a full stack its mask is answered. -/
def divideOne (th : Thread) (r : ThreadRec) (isl core bay : Nat) (hold : Option Nat) (s : State) (g : Nat × W32) :
    Except W32 State :=
  match s.member? th.m with
  | none => .ok s
  | some mr =>
    let n := mr.nextSplit
    let path := newPath r g.1 g.2 (if hold = some g.1 then hold else none)
    if liveSplits s th.m < 4 ∧ 0 < freePool s isl core bay then
      .ok (inherit ((s.setMember th.m { mr with nextSplit := n + 1 }).setThread ⟨th.m, n⟩ path) th.m th.split n)
    else if mr.stack.length = 32 then .error g.2
    else
      .ok (inherit (s.setMember th.m { mr with nextSplit := n + 1, stack := (n, path) :: mr.stack }) th.m th.split n)

/-- R163, R349: the split divides; the first group stays in it. Merges that are due come first, and the new groups take the
entries that they free before any pushed path (R187). -/
def divide (s : State) (c : Issue) (gs : List (Nat × W32)) (hold : Option Nat) : Except W32 State :=
  match gs with
  | [] => .ok s
  | g :: rest =>
    match rest.foldlM (divideOne c.th c.r c.isl c.core c.mr.bay hold)
      (if rest.isEmpty then s else mergeBay s c.isl c.core c.mr.bay) with
    | .error e => .error e
    | .ok s =>
      let join := if hold = some g.1 then hold else none
      .ok (s.setThread c.th { c.r with mask := g.2, exited := 0, wait := { c.r.wait with join := join } })

/-! ### Transfers -/

/-- Where a control transfer may lead. -/
structure Transfer where
  /-- R351: the lowest active lane decides for all. -/
  uniform : Bool
  /-- R352: lanes that reach the target are held there. -/
  join : Bool
  /-- R348: the destination of the link. -/
  link : Option Head
deriving DecidableEq, Repr

/-- R348, R349: the link, in the lanes that go to the target. -/
def putLink (s : State) (c : Issue) (h : Option Head) (taken : W32) : State :=
  match h with
  | none => s
  | some h =>
    let v := w64 (c.fall - c.tm.hdr.code)
    if c.gaffer then (if taken = 0 then s else putS s c h v)
    else putV s { c with exec := taken } h 1 (List.replicate 32 v)

/-- R349 to R352: a control transfer, after its decode faults. -/
def transfer (s : State) (c : Issue) (t : Transfer) (target : Nat → Nat) : Body :=
  let uniform := t.uniform || c.gaffer || c.r.handler
  let taken := if uniform then (if c.exec.getLsbD c.low then c.active else 0) else c.exec
  let goal := fun l => target (if uniform then c.low else l)
  let gs := groupLanes c.active fun l => if taken.getLsbD l then goal l else c.fall
  match firstBad s c (gs.map (·.1)) with
  | some (a, r) => r.trap a .stall
  | none =>
    let hold := if t.join && !uniform then some (goal c.low) else none
    match divide s c gs hold with
    | .error mask => .trap .splitOverflow (mask.setWidth 64)
    | .ok s' => .goto (putLink s' c t.link taken) [] ((gs.map (·.1)).headD c.fall)

/-- R349: BR. -/
def execBr (h : Head) (w : BitVec 24) (s : State) : Out :=
  issue s h .vecX [] fun c => transfer s c ⟨false, false, none⟩ fun _ => offsetTarget c w

/-- R169, R351: BRU, with UNIFORMITY under UCHK. -/
def execBru (h : Head) (w : BitVec 24) (s : State) : Out :=
  issue s h .vecX [] fun c =>
    let diff := c.guardDiff s h
    if !c.gaffer ∧ c.tm.hdr.uchk ∧ diff ≠ 0 then
      .trap .uniformity (c.active.setWidth 64 ||| (diff.setWidth 64 <<< 32))
    else transfer s c ⟨true, false, none⟩ fun _ => offsetTarget c w

/-- R349: BRX. -/
def execBrx (h : Head) (a : Src) (s : State) : Out :=
  issue s h .vecX [a] fun c => transfer s c ⟨false, false, none⟩ (indirectTarget s c a)

/-- R348, R349: CALL. -/
def execCall (h : Head) (w : BitVec 24) (s : State) : Out :=
  issue s h .vecX [] fun c => transfer s c ⟨false, false, some h⟩ fun _ => offsetTarget c w

/-- R348, R349, R355: CALLX; its target is read before the link is written. -/
def execCallx (h : Head) (a : Src) (s : State) : Out :=
  issue s h .vecX [a] fun c => transfer s c ⟨false, false, some h⟩ (indirectTarget s c a)

/-- R349: RET has the effect of BRX. -/
def execRet (h : Head) (a : Src) (s : State) : Out :=
  issue s h .vecX [a] fun c => transfer s c ⟨false, false, none⟩ (indirectTarget s c a)

/-- R167, R352: JOIN. -/
def execJoin (h : Head) (w : BitVec 24) (s : State) : Out :=
  issue s h .vecX [] fun c => transfer s c ⟨false, true, none⟩ fun _ => offsetTarget c w

/-! ### EXIT, NOP and YIELD -/

/-- R125: an EXIT in a save routine waits for the member's operations and delivers its failure record. -/
def savedExit (s : State) (c : Issue) (k : Unit → Body) : Body :=
  match c.mr.course with
  | .saving _ =>
    if s.core.ops.any fun o => o.m == c.th.m && (o.remote || o.mem) then .stall else deliverFailure s c k
  | _ => k ()

/-- R353: EXIT. -/
def execExit (h : Head) (s : State) : Out :=
  issue s h .vecX [] fun c =>
    let stay := if c.gaffer then c.exec == 0 && c.fallsThrough
      else c.fallsThrough && c.active &&& ~~~c.exec != 0
    (if stay then c.checkFall s else .good).trap c.fall (
      if c.exec = 0 then .done s []
      else savedExit s c fun _ =>
        if c.gaffer then .done (s.setThread c.th { c.r with ends := c.r.ends ++ [.exitGaffer] }) []
        else .done (discardLanes (s.setThread c.th { c.r with exited := c.r.exited ||| c.exec }) c.th c.exec) [])

/-- R354: NOP. -/
def execNop (h : Head) (s : State) : Out := issue s h .vec [] fun _ => .done s []

/-- R354: YIELD acts where both guards hold in the lowest active lane. -/
def execYield (h : Head) (n : Nat) (s : State) : Out :=
  issue s h .vec [] fun c =>
    if !c.exec.getLsbD c.low ∨ n = 0 then .done s []
    else .done (s.setThread c.th { c.r with ends := c.r.ends ++ [.yield n] }) []

/-! ### Traps and the return from one -/

/-- R441: TRAP. -/
def execTrap (h : Head) (a : Src) (s : State) : Out :=
  issue s h .scaX [a] fun c =>
    if c.exec = 0 then (if c.fallsThrough then c.checkFall s else .good).trap c.fall (.done s [])
    else .soft .software (rd64 s c (uS 1) a c.low)

/-- R441: BRKPT. -/
def execBrkpt (h : Head) (code : Nat) (s : State) : Out :=
  issue s h .scaX [] fun c =>
    if c.exec = 0 then (if c.fallsThrough then c.checkFall s else .good).trap c.fall (.done s [])
    else .soft .breakpoint (w64 code)

/-- R183: what a handler's last clause leaves to its end; a SAFEPT has no effect there. -/
def Issue.handlerEnds (c : Issue) : List EndAct :=
  c.r.ends.filter fun a => match a with
    | .safept _ => false
    | _ => true

/-- R153, R354, R444: a thread that has become ineligible where it goes on within a clause has no port meanwhile. -/
def leavePort (s : State) (th : Thread) : State :=
  match s.thread? th with
  | some r =>
    if r.wait.asleep.isSome || r.wait.yielded.isSome then s.setThread th { r with wait := { r.wait with portless := true } } else s
  | none => s

/-- R182: the thread leaves its handler and stands before the clause at an address; the shadowed clause is at its end. -/
def leaveTo (s : State) (c : Issue) (sh : Shadow) (pc : Nat) : State :=
  endClause (s.setThread c.th { c.r with
    mask := sh.mask &&& ~~~sh.exited, exited := 0, handler := false, shadow := none, ends := c.handlerEnds ++ sh.ends }) c.th pc

/-- R182, R444: the handler's clause ends, and the thread goes on in its shadowed clause at a slot. -/
def resumeAt (s : State) (c : Issue) (sh : Shadow) (cl : Clause) (slot : Nat) : State :=
  leavePort (c.handlerEnds.foldl (endAct c.th) (s.setThread c.th { c.r with
    pc := cl.addr, mask := sh.mask, exited := sh.exited, latches := sh.latches, clause := some cl, slot := slot,
    ends := sh.ends, handler := false, shadow := none })) c.th

/-- The slot of a clause that an address names, if any. -/
def Clause.slotAt (cl : Clause) (a : Nat) : Option Nat :=
  if cl.addr + 8 ≤ a ∧ (a - cl.addr) % 8 = 0 ∧ (a - cl.addr) / 8 ≤ nbits cl.hdr.toNat 59 56 + 1 then
    some ((a - cl.addr) / 8 - 1) else none

/-- R182, R302, R442: RTE where it executes; what its clause leaves to its end takes place first (R353, R354, R444). -/
def execRte (h : Head) (s : State) : Out :=
  issue s h .scaX [] fun c =>
    if c.exec = 0 then (if c.fallsThrough then c.checkFall s else .good).trap c.fall (.done s [])
    else
      match c.r.handler, c.r.shadow with
      | true, some sh =>
        if !c.handlerEnds.all (endReady s c.th) then .stall
        else
          let epc := c.r.epc.toNat
          match if c.r.epcSet then none else sh.clause.bind fun cl => (cl.slotAt epc).map fun i => (cl, i) with
          | some (cl, i) => .jump (resumeAt s c sh cl i)
          | none =>
            (clauseCheck s c.isl c.part c.core c.tm.hdr epc c.cls).trap epc (.jump (leaveTo s c sh epc))
      | _, _ => .trap .illegalOpcode (w64 ((c.cl.words.getD c.r.slot 0).toNat))

end Sys2Proof.Machine
end

