-- ==== Sys2Proof/Machine/Errors.lean ====
section
/-! DEFINITION. Eviction from the island cache (R196 to R198) and memory errors (R213, R214). -/

namespace Sys2Proof.Machine

open Sys2Proof

/-! ### Eviction -/

/-- R197, R276: LINE_EVICTION; a watch on the line is lost. -/
def execLineEviction (s : State) : Out :=
  match s.occ with
  | .line isl line =>
    .next (commit s (evictLine s isl line))
  | _ => idle "LINE_EVICTION"

/-! ### Errors -/

/-- R213: the structure and address of an error, as numbers. -/
def Loc.report : Loc → List Nat
  | .global isl sec => [0, isl, sec * 64]
  | .spad isl core sec => [1, isl, core, sec * 64]
  | .vreg m i => [2, m.isl, m.team, m.idx, i]
  | .sreg m i => [3, m.isl, m.team, m.idx, i]
  | .acc isl core bank word => [4, isl, core, bank, word]
  | .hbm isl sec => [9, isl, sec * 64]
  | .pred m i => [10, m.isl, m.team, m.idx, i]
  | .dq m i => [11, m.isl, m.team, m.idx, i]
  | .matq isl core e => [15, isl, core] ++ (match e with
    | .inl op => [op]
    | .inr r => [r.chain.desc, r.seq])
  | .ready isl order => [16, isl, order]
  | .packet id => [17, id]

/-- An outstanding matrix instruction reads the banks or scratchpad of a core. -/
def matrixOn (s : State) (isl core : Nat) : Bool :=
  s.core.ops.any fun o => o.m.isl == isl && match o.act with
    | .matrix job => o.core == core || job.acore == core || job.bcore == core
    | _ => false

/-- R215: an operation that was checked for poison has yet to reach a place: its trap would no longer be precise. An error
comes before the check or after the access (log entry 45); one in a queue comes to an entry that stands there. -/
def checkedUse (s : State) (l : Loc) : Bool :=
  let hits (p : Access → Bool) (isl : Nat) : Bool := s.core.ops.any fun o => o.m.isl == isl && o.accs.any fun a => !a.done && p a
  match l with
  | .global isl sec | .hbm isl sec =>
    hits (fun a => (a.space == .global || a.space == .const) && a.addr / 64 ≤ sec && sec ≤ (a.addr + a.size - 1) / 64) isl ||
      s.core.ops.any fun o => o.m.isl == isl && match o.act with
        | .joindec _ pa _ => pa / 64 == sec
        | .spawn _ pa .. => pa / 64 == sec
        | .matrix job => job.wrows.any fun r => r.any fun x => x.1 / 64 ≤ sec && sec ≤ (x.1 + x.2 - 1) / 64
        | _ => false
  | .spad isl core sec =>
    hits (fun a => a.space == .spad core && a.addr / 64 ≤ sec && sec ≤ (a.addr + a.size - 1) / 64) isl || matrixOn s isl core
  | .acc isl core _ _ => matrixOn s isl core
  | .matq isl core e => !(s.eng.matq.getD (isl, core) []).any (·.key == e)
  | .ready isl order => !s.task.queue.any fun q => q.isl == isl && q.order == order
  | .packet id => !s.fab.pkts.any fun p => p.id == id && p.part.isNone
  | .vreg .. | .sreg .. | .pred .. | .dq .. => false

/-- R214: data is poisoned, and what has been written to the sector before no longer counts towards a cure (R217). -/
def poisonLoc (s : State) (l : Loc) : State :=
  if s.mem.poison.contains l then { s with mem := { s.mem with fresh := s.mem.fresh.erase l } }
  else { s with mem := { s.mem with poison := l :: s.mem.poison, fresh := s.mem.fresh.erase l } }

/-- R214: the L1 of a core holds an owned word of a sector. -/
def l1Owned (s : State) (isl core sec : Nat) : Bool :=
  (List.range 16).any fun i => ((s.mem.l1.get? (isl, core, sec * 16 + i)).map (·.owned)).getD false

/-- R194, R214: a clean L1 sector is discarded. -/
def dropL1 (s : State) (isl core sec : Nat) : State :=
  { s with mem := { s.mem with l1 := s.mem.l1.drop fun k => k.1 == isl && k.2.1 == core && k.2.2 / 16 == sec } }

/-- R199, R214: an instruction-cache sector is discarded. -/
def dropI (s : State) (isl core sec : Nat) : State :=
  { s with mem := { s.mem with icache := s.mem.icache.erase (isl, core, sec) } }

/-- R204, R214: a constant-cache sector is discarded. -/
def dropC (s : State) (isl core sec : Nat) : State :=
  { s with mem := { s.mem with ccache := s.mem.ccache.erase (isl, core, sec) } }

/-- R214: an uncorrectable error in a cached copy: 0 L1, 1 constant cache, 2 instruction cache, and an entry of the translation
cache of a core (3), a copy engine (4), a matrix engine (5), the fabric interface. An L1 sector with an owned word is no clean
copy: the sector is poisoned, and the core's words of it go. -/
def cachedError (s : State) (isl core sec kind : Nat) : State :=
  match kind with
  | 0 => dropL1 (if l1Owned s isl core sec then poisonLoc s (.global isl sec) else s) isl core sec
  | 1 => dropC s isl core sec
  | 2 => dropI s isl core sec
  | 3 => dropTlb s isl (.core core) sec
  | 4 => dropTlb s isl (.copy core) sec
  | 5 => dropTlb s isl (.matrix core) sec
  | _ => dropTlb s isl .remote sec

/-- R213: the code of the structure of a cached copy in a report (log entry 23). -/
def cachedCode (kind : Nat) : Nat := if kind < 4 then 5 + kind else 8 + kind

/-- R213, R214: UNCORRECTABLE_ECC_ERROR; it is reported through Redfish with its structure and address. -/
def execUncorrectableEccError (s : State) : Out :=
  match s.occ with
  | .loc l =>
    if checkedUse s l then idle "UNCORRECTABLE_ECC_ERROR" else .next (commit s (report (poisonLoc s l) 0 6 l.report))
  | .cached isl core sec kind =>
    if kind = 0 ∧ l1Owned s isl core sec ∧ checkedUse s (.global isl sec) then idle "UNCORRECTABLE_ECC_ERROR"
    else .next (commit s (report (cachedError s isl core sec kind) 0 6 [cachedCode kind, isl, core, sec * 64]))
  | _ => idle "UNCORRECTABLE_ECC_ERROR"

/-- R213: CORRECTED_ECC_ERROR is counted for its structure. -/
def execCorrectedEccError (s : State) : Out :=
  match s.occ with
  | .count k =>
    .next (commit s { s with hub := { s.hub with corrected := s.hub.corrected.set k (s.hub.corrected.getD k 0 + 1) } })
  | _ => idle "CORRECTED_ECC_ERROR"

end Sys2Proof.Machine
end

