-- ==== Sys2Proof/Machine/Dispatch.lean ====
section
/-! DEFINITION. The meaning of each constructor of Instr, one arm each. -/

namespace Sys2Proof.Machine

open Sys2Proof

def exec (i : Instr) (s : State) : Host.Outcome State Fault Refusal :=
  match i with
  | .iaddVector h ty sat a b => Sys2Proof.Machine.execIaddVector h ty sat a b s
  | .iaddScalar h ty sat a b => Sys2Proof.Machine.execIaddScalar h ty sat a b s
  | .isubVector h ty sat a b => Sys2Proof.Machine.execIsubVector h ty sat a b s
  | .isubScalar h ty sat a b => Sys2Proof.Machine.execIsubScalar h ty sat a b s
  | .iaddcVector h ty co cie ci a b => Sys2Proof.Machine.execIaddcVector h ty co cie ci a b s
  | .iaddcScalar h ty co cie ci a b => Sys2Proof.Machine.execIaddcScalar h ty co cie ci a b s
  | .inegVector h ty sat a => Sys2Proof.Machine.execInegVector h ty sat a s
  | .inegScalar h ty sat a => Sys2Proof.Machine.execInegScalar h ty sat a s
  | .imulVector h ty a b => Sys2Proof.Machine.execImulVector h ty a b s
  | .imulScalar h ty a b => Sys2Proof.Machine.execImulScalar h ty a b s
  | .imulhVector h ty a b => Sys2Proof.Machine.execImulhVector h ty a b s
  | .imulhScalar h ty a b => Sys2Proof.Machine.execImulhScalar h ty a b s
  | .imadVector h a b c => Sys2Proof.Machine.execImadVector h a b c s
  | .imadScalar h a b c => Sys2Proof.Machine.execImadScalar h a b c s
  | .imadwI32Vector h a b c => Sys2Proof.Machine.execImadwI32Vector h a b c s
  | .imadwI32Scalar h a b c => Sys2Proof.Machine.execImadwI32Scalar h a b c s
  | .imadwN32Vector h a b c => Sys2Proof.Machine.execImadwN32Vector h a b c s
  | .imadwN32Scalar h a b c => Sys2Proof.Machine.execImadwN32Scalar h a b c s
  | .idivVector h ty a b => Sys2Proof.Machine.execIdivVector h ty a b s
  | .idivScalar h ty a b => Sys2Proof.Machine.execIdivScalar h ty a b s
  | .iremVector h ty a b => Sys2Proof.Machine.execIremVector h ty a b s
  | .iremScalar h ty a b => Sys2Proof.Machine.execIremScalar h ty a b s
  | .iminVector h ty a b => Sys2Proof.Machine.execIminVector h ty a b s
  | .iminScalar h ty a b => Sys2Proof.Machine.execIminScalar h ty a b s
  | .imaxVector h ty a b => Sys2Proof.Machine.execImaxVector h ty a b s
  | .imaxScalar h ty a b => Sys2Proof.Machine.execImaxScalar h ty a b s
  | .iabsVector h ty sat a => Sys2Proof.Machine.execIabsVector h ty sat a s
  | .iabsScalar h ty sat a => Sys2Proof.Machine.execIabsScalar h ty sat a s
  | .icmpVector h ty cond a b => Sys2Proof.Machine.execIcmpVector h ty cond a b s
  | .icmpScalar h ty cond a b => Sys2Proof.Machine.execIcmpScalar h ty cond a b s
  | .selVector h ty pr neg a b => Sys2Proof.Machine.execSelVector h ty pr neg a b s
  | .selScalar h ty pr neg a b => Sys2Proof.Machine.execSelScalar h ty pr neg a b s
  | .movVector h ty a => Sys2Proof.Machine.execMovVector h ty a s
  | .movScalar h ty a => Sys2Proof.Machine.execMovScalar h ty a s
  | .moviVector h w => Sys2Proof.Machine.execMoviVector h w s
  | .moviScalar h w => Sys2Proof.Machine.execMoviScalar h w s
  | .movhVector h q w a => Sys2Proof.Machine.execMovhVector h q w a s
  | .movhScalar h q w a => Sys2Proof.Machine.execMovhScalar h q w a s
  | .andVector h ty a b => Sys2Proof.Machine.execAndVector h ty a b s
  | .andScalar h ty a b => Sys2Proof.Machine.execAndScalar h ty a b s
  | .orVector h ty a b => Sys2Proof.Machine.execOrVector h ty a b s
  | .orScalar h ty a b => Sys2Proof.Machine.execOrScalar h ty a b s
  | .xorVector h ty a b => Sys2Proof.Machine.execXorVector h ty a b s
  | .xorScalar h ty a b => Sys2Proof.Machine.execXorScalar h ty a b s
  | .andnVector h ty a b => Sys2Proof.Machine.execAndnVector h ty a b s
  | .andnScalar h ty a b => Sys2Proof.Machine.execAndnScalar h ty a b s
  | .shlVector h ty a b => Sys2Proof.Machine.execShlVector h ty a b s
  | .shlScalar h ty a b => Sys2Proof.Machine.execShlScalar h ty a b s
  | .shrVector h ty a b => Sys2Proof.Machine.execShrVector h ty a b s
  | .shrScalar h ty a b => Sys2Proof.Machine.execShrScalar h ty a b s
  | .sarVector h ty a b => Sys2Proof.Machine.execSarVector h ty a b s
  | .sarScalar h ty a b => Sys2Proof.Machine.execSarScalar h ty a b s
  | .shfVector h a b c => Sys2Proof.Machine.execShfVector h a b c s
  | .shfScalar h a b c => Sys2Proof.Machine.execShfScalar h a b c s
  | .bfxVector h ty a b => Sys2Proof.Machine.execBfxVector h ty a b s
  | .bfxScalar h ty a b => Sys2Proof.Machine.execBfxScalar h ty a b s
  | .bfiVector h a b c => Sys2Proof.Machine.execBfiVector h a b c s
  | .bfiScalar h a b c => Sys2Proof.Machine.execBfiScalar h a b c s
  | .popcVector h ty a => Sys2Proof.Machine.execPopcVector h ty a s
  | .popcScalar h ty a => Sys2Proof.Machine.execPopcScalar h ty a s
  | .clzVector h ty a => Sys2Proof.Machine.execClzVector h ty a s
  | .clzScalar h ty a => Sys2Proof.Machine.execClzScalar h ty a s
  | .brevVector h ty a => Sys2Proof.Machine.execBrevVector h ty a s
  | .brevScalar h ty a => Sys2Proof.Machine.execBrevScalar h ty a s
  | .permVector h a b c => Sys2Proof.Machine.execPermVector h a b c s
  | .permScalar h a b c => Sys2Proof.Machine.execPermScalar h a b c s
  | .leaVector h ty sh a b => Sys2Proof.Machine.execLeaVector h ty sh a b s
  | .leaScalar h ty sh a b => Sys2Proof.Machine.execLeaScalar h ty sh a b s
  | .sxtVector h ty w64 a => Sys2Proof.Machine.execSxtVector h ty w64 a s
  | .sxtScalar h ty w64 a => Sys2Proof.Machine.execSxtScalar h ty w64 a s
  | .plopVector h pa pb pc lut => Sys2Proof.Machine.execPlopVector h pa pb pc lut s
  | .plopScalar h pa pb pc lut => Sys2Proof.Machine.execPlopScalar h pa pb pc lut s
  | .p2vVector h mask => Sys2Proof.Machine.execP2vVector h mask s
  | .p2vScalar h mask => Sys2Proof.Machine.execP2vScalar h mask s
  | .v2pVector h n a => Sys2Proof.Machine.execV2pVector h n a s
  | .v2pScalar h n a => Sys2Proof.Machine.execV2pScalar h n a s
  | .faddVector h ty rnd a b => Sys2Proof.Machine.execFaddVector h ty rnd a b s
  | .faddScalar h ty rnd a b => Sys2Proof.Machine.execFaddScalar h ty rnd a b s
  | .fsubVector h ty rnd a b => Sys2Proof.Machine.execFsubVector h ty rnd a b s
  | .fsubScalar h ty rnd a b => Sys2Proof.Machine.execFsubScalar h ty rnd a b s
  | .fmulVector h ty rnd a b => Sys2Proof.Machine.execFmulVector h ty rnd a b s
  | .fmulScalar h ty rnd a b => Sys2Proof.Machine.execFmulScalar h ty rnd a b s
  | .ffmaVector h a b c => Sys2Proof.Machine.execFfmaVector h a b c s
  | .ffmaScalar h a b c => Sys2Proof.Machine.execFfmaScalar h a b c s
  | .fminVector h ty a b => Sys2Proof.Machine.execFminVector h ty a b s
  | .fminScalar h ty a b => Sys2Proof.Machine.execFminScalar h ty a b s
  | .fmaxVector h ty a b => Sys2Proof.Machine.execFmaxVector h ty a b s
  | .fmaxScalar h ty a b => Sys2Proof.Machine.execFmaxScalar h ty a b s
  | .fabsVector h ty a => Sys2Proof.Machine.execFabsVector h ty a s
  | .fabsScalar h ty a => Sys2Proof.Machine.execFabsScalar h ty a s
  | .fnegVector h ty a => Sys2Proof.Machine.execFnegVector h ty a s
  | .fnegScalar h ty a => Sys2Proof.Machine.execFnegScalar h ty a s
  | .fcmpVector h ty cond a b => Sys2Proof.Machine.execFcmpVector h ty cond a b s
  | .fcmpScalar h ty cond a b => Sys2Proof.Machine.execFcmpScalar h ty cond a b s
  | .fclassVector h ty test a => Sys2Proof.Machine.execFclassVector h ty test a s
  | .fclassScalar h ty test a => Sys2Proof.Machine.execFclassScalar h ty test a s
  | .frndVector h ty rnd a => Sys2Proof.Machine.execFrndVector h ty rnd a s
  | .frndScalar h ty rnd a => Sys2Proof.Machine.execFrndScalar h ty rnd a s
  | .fcvtVector h ty rnd sat src a => Sys2Proof.Machine.execFcvtVector h ty rnd sat src a s
  | .fcvtScalar h ty rnd sat src a => Sys2Proof.Machine.execFcvtScalar h ty rnd sat src a s
  | .f2iVector h ty rnd src a => Sys2Proof.Machine.execF2iVector h ty rnd src a s
  | .f2iScalar h ty rnd src a => Sys2Proof.Machine.execF2iScalar h ty rnd src a s
  | .i2fVector h ty rnd src a => Sys2Proof.Machine.execI2fVector h ty rnd src a s
  | .i2fScalar h ty rnd src a => Sys2Proof.Machine.execI2fScalar h ty rnd src a s
  | .fscaleVector h ty rnd a b => Sys2Proof.Machine.execFscaleVector h ty rnd a b s
  | .fscaleScalar h ty rnd a b => Sys2Proof.Machine.execFscaleScalar h ty rnd a b s
  | .fgetexpVector h ty a => Sys2Proof.Machine.execFgetexpVector h ty a s
  | .fgetexpScalar h ty a => Sys2Proof.Machine.execFgetexpScalar h ty a s
  | .frcpVector h ty rnd a => Sys2Proof.Machine.execFrcpVector h ty rnd a s
  | .frcpScalar h ty rnd a => Sys2Proof.Machine.execFrcpScalar h ty rnd a s
  | .frsqVector h ty a => Sys2Proof.Machine.execFrsqVector h ty a s
  | .frsqScalar h ty a => Sys2Proof.Machine.execFrsqScalar h ty a s
  | .fsqrtVector h ty rnd a => Sys2Proof.Machine.execFsqrtVector h ty rnd a s
  | .fsqrtScalar h ty rnd a => Sys2Proof.Machine.execFsqrtScalar h ty rnd a s
  | .fdivVector h ty rnd a b => Sys2Proof.Machine.execFdivVector h ty rnd a b s
  | .fdivScalar h ty rnd a b => Sys2Proof.Machine.execFdivScalar h ty rnd a b s
  | .fexp2Vector h ty a => Sys2Proof.Machine.execFexp2Vector h ty a s
  | .fexp2Scalar h ty a => Sys2Proof.Machine.execFexp2Scalar h ty a s
  | .flog2Vector h ty a => Sys2Proof.Machine.execFlog2Vector h ty a s
  | .flog2Scalar h ty a => Sys2Proof.Machine.execFlog2Scalar h ty a s
  | .fsinVector h ty a => Sys2Proof.Machine.execFsinVector h ty a s
  | .fsinScalar h ty a => Sys2Proof.Machine.execFsinScalar h ty a s
  | .fcosVector h ty a => Sys2Proof.Machine.execFcosVector h ty a s
  | .fcosScalar h ty a => Sys2Proof.Machine.execFcosScalar h ty a s
  | .ftanhVector h ty a => Sys2Proof.Machine.execFtanhVector h ty a s
  | .ftanhScalar h ty a => Sys2Proof.Machine.execFtanhScalar h ty a s
  | .hadd2Vector h ty rnd negb a b => Sys2Proof.Machine.execHadd2Vector h ty rnd negb a b s
  | .hadd2Scalar h ty rnd negb a b => Sys2Proof.Machine.execHadd2Scalar h ty rnd negb a b s
  | .hmul2Vector h ty rnd a b => Sys2Proof.Machine.execHmul2Vector h ty rnd a b s
  | .hmul2Scalar h ty rnd a b => Sys2Proof.Machine.execHmul2Scalar h ty rnd a b s
  | .hfma2F16Vector h a b c => Sys2Proof.Machine.execHfma2F16Vector h a b c s
  | .hfma2F16Scalar h a b c => Sys2Proof.Machine.execHfma2F16Scalar h a b c s
  | .hfma2Bf16Vector h a b c => Sys2Proof.Machine.execHfma2Bf16Vector h a b c s
  | .hfma2Bf16Scalar h a b c => Sys2Proof.Machine.execHfma2Bf16Scalar h a b c s
  | .hmin2Vector h ty a b => Sys2Proof.Machine.execHmin2Vector h ty a b s
  | .hmin2Scalar h ty a b => Sys2Proof.Machine.execHmin2Scalar h ty a b s
  | .hmax2Vector h ty a b => Sys2Proof.Machine.execHmax2Vector h ty a b s
  | .hmax2Scalar h ty a b => Sys2Proof.Machine.execHmax2Scalar h ty a b s
  | .rnencVector h sat a => Sys2Proof.Machine.execRnencVector h sat a s
  | .rnencScalar h sat a => Sys2Proof.Machine.execRnencScalar h sat a s
  | .rndecVector h a => Sys2Proof.Machine.execRndecVector h a s
  | .rndecScalar h a => Sys2Proof.Machine.execRndecScalar h a s
  | .vote h mode neg pa => Sys2Proof.Machine.execVote h mode neg pa s
  | .shfl h ty mode lg a b => Sys2Proof.Machine.execShfl h ty mode lg a b s
  | .redux h ty rnd op a => Sys2Proof.Machine.execRedux h ty rnd op a s
  | .scan h ty rnd op excl a => Sys2Proof.Machine.execScan h ty rnd op excl a s
  | .match h ty a => Sys2Proof.Machine.execMatch h ty a s
  | .ldVector h ty ord x2 ofs a b => Sys2Proof.Machine.execLdVector h ty ord x2 ofs a b s
  | .ldScalar h ty ord x2 ofs a b => Sys2Proof.Machine.execLdScalar h ty ord x2 ofs a b s
  | .stVector h ty ord x2 ofs a b => Sys2Proof.Machine.execStVector h ty ord x2 ofs a b s
  | .stScalar h ty ord x2 ofs a b => Sys2Proof.Machine.execStScalar h ty ord x2 ofs a b s
  | .ldsVector h ty ord x2 ofs a b => Sys2Proof.Machine.execLdsVector h ty ord x2 ofs a b s
  | .ldsScalar h ty ord x2 ofs a b => Sys2Proof.Machine.execLdsScalar h ty ord x2 ofs a b s
  | .stsVector h ty ord x2 ofs a b => Sys2Proof.Machine.execStsVector h ty ord x2 ofs a b s
  | .stsScalar h ty ord x2 ofs a b => Sys2Proof.Machine.execStsScalar h ty ord x2 ofs a b s
  | .ldxVector h ty ord x2 q ofs a b => Sys2Proof.Machine.execLdxVector h ty ord x2 q ofs a b s
  | .ldxScalar h ty ord x2 q ofs a b => Sys2Proof.Machine.execLdxScalar h ty ord x2 q ofs a b s
  | .stxVector h ty ord x2 q ofs a b => Sys2Proof.Machine.execStxVector h ty ord x2 q ofs a b s
  | .stxScalar h ty ord x2 q ofs a b => Sys2Proof.Machine.execStxScalar h ty ord x2 q ofs a b s
  | .ldcVector h ty ord x2 ofs a b => Sys2Proof.Machine.execLdcVector h ty ord x2 ofs a b s
  | .ldcScalar h ty ord x2 ofs a b => Sys2Proof.Machine.execLdcScalar h ty ord x2 ofs a b s
  | .stsbElementVector h ty ord ofs a b => Sys2Proof.Machine.execStsbElementVector h ty ord ofs a b s
  | .stsbElementScalar h ty ord ofs a b => Sys2Proof.Machine.execStsbElementScalar h ty ord ofs a b s
  | .stsbMaskVector h ord ofs a b => Sys2Proof.Machine.execStsbMaskVector h ord ofs a b s
  | .stsbMaskScalar h ord ofs a b => Sys2Proof.Machine.execStsbMaskScalar h ord ofs a b s
  | .prfVector h ty ord x2 ofs a b => Sys2Proof.Machine.execPrfVector h ty ord x2 ofs a b s
  | .prfScalar h ty ord x2 ofs a b => Sys2Proof.Machine.execPrfScalar h ty ord x2 ofs a b s
  | .atomVector h ty ord op ofs a b => Sys2Proof.Machine.execAtomVector h ty ord op ofs a b s
  | .atomScalar h ty ord op ofs a b => Sys2Proof.Machine.execAtomScalar h ty ord op ofs a b s
  | .atomsVector h ty ord op ofs a b => Sys2Proof.Machine.execAtomsVector h ty ord op ofs a b s
  | .atomsScalar h ty ord op ofs a b => Sys2Proof.Machine.execAtomsScalar h ty ord op ofs a b s
  | .redVector h ty ord op ofs a b => Sys2Proof.Machine.execRedVector h ty ord op ofs a b s
  | .redScalar h ty ord op ofs a b => Sys2Proof.Machine.execRedScalar h ty ord op ofs a b s
  | .nop h => Sys2Proof.Machine.execNop h s
  | .br h w => Sys2Proof.Machine.execBr h w s
  | .bru h w => Sys2Proof.Machine.execBru h w s
  | .brx h a => Sys2Proof.Machine.execBrx h a s
  | .call h w => Sys2Proof.Machine.execCall h w s
  | .callx h a => Sys2Proof.Machine.execCallx h a s
  | .ret h a => Sys2Proof.Machine.execRet h a s
  | .join h w => Sys2Proof.Machine.execJoin h w s
  | .exit h => Sys2Proof.Machine.execExit h s
  | .yield h n => Sys2Proof.Machine.execYield h n s
  | .trap h a => Sys2Proof.Machine.execTrap h a s
  | .rte h => Sys2Proof.Machine.execRte h s
  | .sysrd h reg => Sys2Proof.Machine.execSysrd h reg s
  | .syswr h reg a => Sys2Proof.Machine.execSyswr h reg a s
  | .syswrEpc h a => Sys2Proof.Machine.execSyswrEpc h a s
  | .syswrFstat h a => Sys2Proof.Machine.execSyswrFstat h a s
  | .syswrAmstat h a => Sys2Proof.Machine.execSyswrAmstat h a s
  | .sleep h a => Sys2Proof.Machine.execSleep h a s
  | .safept h id => Sys2Proof.Machine.execSafept h id s
  | .brkpt h code => Sys2Proof.Machine.execBrkpt h code s
  | .cctlIinv h => Sys2Proof.Machine.execCctlIinv h s
  | .cctlIinvp h => Sys2Proof.Machine.execCctlIinvp h s
  | .cctlL1inv h a => Sys2Proof.Machine.execCctlL1inv h a s
  | .cctlL1all h => Sys2Proof.Machine.execCctlL1all h s
  | .seal h a b => Sys2Proof.Machine.execSeal h a b s
  | .unseal h a b => Sys2Proof.Machine.execUnseal h a b s
  | .fenceAcq h => Sys2Proof.Machine.execFenceAcq h s
  | .fenceRel h => Sys2Proof.Machine.execFenceRel h s
  | .fenceAcqrel h => Sys2Proof.Machine.execFenceAcqrel h s
  | .monitor h a b => Sys2Proof.Machine.execMonitor h a b s
  | .mwait h a => Sys2Proof.Machine.execMwait h a s
  | .bararr h a => Sys2Proof.Machine.execBararr h a s
  | .barwait h a b => Sys2Proof.Machine.execBarwait h a b s
  | .barsync h a => Sys2Proof.Machine.execBarsync h a s
  | .barinit h a b => Sys2Proof.Machine.execBarinit h a b s
  | .attach h a => Sys2Proof.Machine.execAttach h a s
  | .detach h => Sys2Proof.Machine.execDetach h s
  | .grpq h sel a => Sys2Proof.Machine.execGrpq h sel a s
  | .put h ty och a b => Sys2Proof.Machine.execPut h ty och a b s
  | .putBlk h scr och a b => Sys2Proof.Machine.execPutBlk h scr och a b s
  | .get h scr och a b => Sys2Proof.Machine.execGet h scr och a b s
  | .ratom h ty op och a b => Sys2Proof.Machine.execRatom h ty op och a b s
  | .rred h ty op och a b => Sys2Proof.Machine.execRred h ty op och a b s
  | .notify h och a b => Sys2Proof.Machine.execNotify h och a b s
  | .notifyRel h och a b => Sys2Proof.Machine.execNotifyRel h och a b s
  | .ochopen h a b => Sys2Proof.Machine.execOchopen h a b s
  | .ochclose h b => Sys2Proof.Machine.execOchclose h b s
  | .rfence h => Sys2Proof.Machine.execRfence h s
  | .mma h a b c => Sys2Proof.Machine.execMma h a b c s
  | .mmasp h a b c => Sys2Proof.Machine.execMmasp h a b c s
  | .mvm h a b c => Sys2Proof.Machine.execMvm h a b c s
  | .amalloc h a => Sys2Proof.Machine.execAmalloc h a s
  | .amfree h => Sys2Proof.Machine.execAmfree h s
  | .amgrant h mask a b => Sys2Proof.Machine.execAmgrant h mask a b s
  | .amld h band a => Sys2Proof.Machine.execAmld h band a s
  | .amst h band a => Sys2Proof.Machine.execAmst h band a s
  | .amdrain h ty rnd band z a b => Sys2Proof.Machine.execAmdrain h ty rnd band z a b s
  | .amzero h mask => Sys2Proof.Machine.execAmzero h mask s
  | .chput h a b => Sys2Proof.Machine.execChput h a b s
  | .chadv h a b c => Sys2Proof.Machine.execChadv h a b c s
  | .chseq h acq sel a => Sys2Proof.Machine.execChseq h acq sel a s
  | .spawn h a b c => Sys2Proof.Machine.execSpawn h a b c s
  | .joindec h a b => Sys2Proof.Machine.execJoindec h a b s
  | .pushdq h a => Sys2Proof.Machine.execPushdq h a s
  | .popdq h pr => Sys2Proof.Machine.execPopdq h pr s
  | .dqstat h => Sys2Proof.Machine.execDqstat h s
  | .budgetRound => Sys2Proof.Machine.execBudgetRound s
  | .throttleLimit => Sys2Proof.Machine.execThrottleLimit s
  | .throttleRecover => Sys2Proof.Machine.execThrottleRecover s
  | .throttleFence => Sys2Proof.Machine.execThrottleFence s
  | .inputUndervoltage => Sys2Proof.Machine.execInputUndervoltage s
  | .inputPowerLoss => Sys2Proof.Machine.execInputPowerLoss s
  | .coolantFlowStop => Sys2Proof.Machine.execCoolantFlowStop s
  | .resetIn => Sys2Proof.Machine.execResetIn s
  | .httpsBootRetry => Sys2Proof.Machine.execHttpsBootRetry s
  | .firmwareUpdate => Sys2Proof.Machine.execFirmwareUpdate s
  | .serviceFirmwareStop => Sys2Proof.Machine.execServiceFirmwareStop s
  | .keyPhaseChange => Sys2Proof.Machine.execKeyPhaseChange s
  | .keyPhaseRetire => Sys2Proof.Machine.execKeyPhaseRetire s
  | .packetHop => Sys2Proof.Machine.execPacketHop s
  | .putPacket => Sys2Proof.Machine.execPutPacket s
  | .putAck => Sys2Proof.Machine.execPutAck s
  | .getReq => Sys2Proof.Machine.execGetReq s
  | .getData => Sys2Proof.Machine.execGetData s
  | .ratomPacket => Sys2Proof.Machine.execRatomPacket s
  | .ratomRes => Sys2Proof.Machine.execRatomRes s
  | .rredPacket => Sys2Proof.Machine.execRredPacket s
  | .rredAck => Sys2Proof.Machine.execRredAck s
  | .notifyPacket => Sys2Proof.Machine.execNotifyPacket s
  | .notifyAck => Sys2Proof.Machine.execNotifyAck s
  | .errorPacket => Sys2Proof.Machine.execErrorPacket s
  | .ochReset => Sys2Proof.Machine.execOchReset s
  | .ochResetAck => Sys2Proof.Machine.execOchResetAck s
  | .heldPacketTimeout => Sys2Proof.Machine.execHeldPacketTimeout s
  | .responseTimerExpiry => Sys2Proof.Machine.execResponseTimerExpiry s
  | .blockedPacketTimer => Sys2Proof.Machine.execBlockedPacketTimer s
  | .belay => Sys2Proof.Machine.execBelay s
  | .ropeAck => Sys2Proof.Machine.execRopeAck s
  | .linkTrainingStart => Sys2Proof.Machine.execLinkTrainingStart s
  | .trainingHandshake => Sys2Proof.Machine.execTrainingHandshake s
  | .thirdHandshakeTimer => Sys2Proof.Machine.execThirdHandshakeTimer s
  | .trainReplyTimeout => Sys2Proof.Machine.execTrainReplyTimeout s
  | .linkDownRetryTimer => Sys2Proof.Machine.execLinkDownRetryTimer s
  | .linkLoss => Sys2Proof.Machine.execLinkLoss s
  | .linkForce => Sys2Proof.Machine.execLinkForce s
  | .linkRelease => Sys2Proof.Machine.execLinkRelease s
  | .ucieLinkChange => Sys2Proof.Machine.execUcieLinkChange s
  | .toposet => Sys2Proof.Machine.execToposet s
  | .toposetDrainLimit => Sys2Proof.Machine.execToposetDrainLimit s
  | .toposetSwitch => Sys2Proof.Machine.execToposetSwitch s
  | .toposetPublish => Sys2Proof.Machine.execToposetPublish s
  | .warmResetRequest => Sys2Proof.Machine.execWarmResetRequest s
  | .ucieDownTimeout => Sys2Proof.Machine.execUcieDownTimeout s
  | .fabricInterfaceError => Sys2Proof.Machine.execFabricInterfaceError s
  | .warmResetReadmit => Sys2Proof.Machine.execWarmResetReadmit s
  | .rdmaWrite => Sys2Proof.Machine.execRdmaWrite s
  | .rdmaWriteWithImmediate => Sys2Proof.Machine.execRdmaWriteWithImmediate s
  | .rdmaRead => Sys2Proof.Machine.execRdmaRead s
  | .send => Sys2Proof.Machine.execSend s
  | .rdmaAtomicRequest => Sys2Proof.Machine.execRdmaAtomicRequest s
  | .partitionCreate => Sys2Proof.Machine.execPartitionCreate s
  | .partitionChange => Sys2Proof.Machine.execPartitionChange s
  | .partitionDelete => Sys2Proof.Machine.execPartitionDelete s
  | .frameGrant => Sys2Proof.Machine.execFrameGrant s
  | .frameRevoke => Sys2Proof.Machine.execFrameRevoke s
  | .frameScrubDone => Sys2Proof.Machine.execFrameScrubDone s
  | .chainRegistration => Sys2Proof.Machine.execChainRegistration s
  | .serviceChainRegistration => Sys2Proof.Machine.execServiceChainRegistration s
  | .faultChainRegistration => Sys2Proof.Machine.execFaultChainRegistration s
  | .memoryRegionRegistration => Sys2Proof.Machine.execMemoryRegionRegistration s
  | .attestationRequest => Sys2Proof.Machine.execAttestationRequest s
  | .tokenFetch => Sys2Proof.Machine.execTokenFetch s
  | .rotationSetup => Sys2Proof.Machine.execRotationSetup s
  | .copyEngineMove => Sys2Proof.Machine.execCopyEngineMove s
  | .redfishSetting => Sys2Proof.Machine.execRedfishSetting s
  | .functionLevelReset => Sys2Proof.Machine.execFunctionLevelReset s
  | .pcpTailWake => Sys2Proof.Machine.execPcpTailWake s
  | .launch => Sys2Proof.Machine.execLaunch s
  | .notifyCommand => Sys2Proof.Machine.execNotifyCommand s
  | .map => Sys2Proof.Machine.execMap s
  | .unmap => Sys2Proof.Machine.execUnmap s
  | .resume => Sys2Proof.Machine.execResume s
  | .commandRecordCompletion => Sys2Proof.Machine.execCommandRecordCompletion s
  | .faultRecordPost => Sys2Proof.Machine.execFaultRecordPost s
  | .faultPostRetry => Sys2Proof.Machine.execFaultPostRetry s
  | .switchTick => Sys2Proof.Machine.execSwitchTick s
  | .deadlineExpiry => Sys2Proof.Machine.execDeadlineExpiry s
  | .overrunLimit => Sys2Proof.Machine.execOverrunLimit s
  | .resumeMapWrite => Sys2Proof.Machine.execResumeMapWrite s
  | .lehrEvent => Sys2Proof.Machine.execLehrEvent s
  | .teamPlacement => Sys2Proof.Machine.execTeamPlacement s
  | .restoreComplete => Sys2Proof.Machine.execRestoreComplete s
  | .teamEnd => Sys2Proof.Machine.execTeamEnd s
  | .cairnProbe => Sys2Proof.Machine.execCairnProbe s
  | .clauseStart => Sys2Proof.Machine.execClauseStart s
  | .variableLatencyCompletion => Sys2Proof.Machine.execVariableLatencyCompletion s
  | .watchdogExpiry => Sys2Proof.Machine.execWatchdogExpiry s
  | .yieldExpiry => Sys2Proof.Machine.execYieldExpiry s
  | .sleepExpiry => Sys2Proof.Machine.execSleepExpiry s
  | .mwaitTimeout => Sys2Proof.Machine.execMwaitTimeout s
  | .lineEviction => Sys2Proof.Machine.execLineEviction s
  | .uncorrectableEccError => Sys2Proof.Machine.execUncorrectableEccError s
  | .copy => Sys2Proof.Machine.execCopy s
  | .nopRecord => Sys2Proof.Machine.execNopRecord s
  | .mmaRecord => Sys2Proof.Machine.execMmaRecord s
  | .mvmRecord => Sys2Proof.Machine.execMvmRecord s
  | .engineRecordCompletion => Sys2Proof.Machine.execEngineRecordCompletion s
  | .copyChainIdleUnbind => Sys2Proof.Machine.execCopyChainIdleUnbind s
  | .mwaitReturnNoReason => Sys2Proof.Machine.execMwaitReturnNoReason s
  | .coldBoot => Sys2Proof.Machine.execColdBoot s
  | .inputVoltageRecovery => Sys2Proof.Machine.execInputVoltageRecovery s
  | .coolantFlowResume => Sys2Proof.Machine.execCoolantFlowResume s
  | .correctedEccError => Sys2Proof.Machine.execCorrectedEccError s
  | .serviceFirmwareRestarted => Sys2Proof.Machine.execServiceFirmwareRestarted s

end Sys2Proof.Machine
end

