-- ==== Sys2Proof/Machine/Fetch.lean ====
section
/-! DEFINITION. The instruction in issue: its word, its decoding (R315) and the faults of a decode. -/

namespace Sys2Proof.Machine

open Sys2Proof

/-- R299: the control transfers, which must stand in the last slot. -/
def isTransfer : Instr → Bool
  | .br .. | .bru .. | .brx .. | .call .. | .callx .. | .ret .. | .join .. | .rte .. => true
  | _ => false

/-- R298: the word of the slot in issue. -/
def Issue.word (c : Issue) : W64 := c.cl.words.getD c.r.slot 0

/-- R446: the cause and TVAL of a decode fault. -/
def decodeFault (w : W64) : DecErr → Cause × W64
  | .illegalOpcode => (.illegalOpcode, w)
  | .reservedField b => (.reservedField, w64 b)
  | .operandRange f b => (.operandRange, w64 (f * 4096 + b))

/-- R299, R315: the instruction in issue, or the cause and TVAL of its decode fault. -/
def Issue.decoded (c : Issue) : Except (Cause × W64) Instr :=
  match decode c.cls c.tm.hdr.vr c.word with
  | .error e => .error (decodeFault c.word e)
  | .ok i => if isTransfer i && !c.isLast then .error (.illegalClause, w64 c.addr) else .ok i

/-- R181: a decode fault of the instruction in issue is a precise trap; a watchdog that has expired stops the team first
(R187). -/
def decodeTrap (s : State) (c : Issue) (e : Cause × W64) : Out :=
  .next (commit s (if c.tm.expired then endTeam s c.isl c.team 0x20 0 else takeTrap s c.th e.1 e.2 c.addr))

/-- R153: a thread in the middle of its clause that nothing keeps from issuing its next slot; one that gave up its port needs
a free one. -/
def mayIssue (s : State) (t : Thread) : Bool :=
  match s.thread? t with
  | some r =>
    r.clause.isSome && r.wait.parked.isNone && r.wait.asleep.isNone && r.wait.yielded.isNone && (s.fab.fenced.get? t.m.isl).isNone &&
      (!r.wait.portless || ((s.member? t.m).map (portFree s t)).getD false)
  | none => false

end Sys2Proof.Machine
end

