-- ==== Sys2Proof/Machine/Schedule.lean ====
section
/-! DEFINITION. The choices that are not events: accesses that perform, time that passes, copies that caches drop; and the
order in which agents act where the schedule names none (log entries 1 and 7). -/

namespace Sys2Proof.Machine

open Sys2Proof

/-! ### Time -/

/-- R185: the watchdog of a team counts: a member has issued, and it has not ended. -/
def counts (s : State) (k : Nat × Nat) (t : Team) : Bool :=
  t.first.isSome && t.ending.isNone && !t.gone && (s.membersOf k.1 k.2).any (·.2.issued)

/-- R16, R185: core clocks pass on an island. -/
def passClocks (isl n : Nat) (s : State) : State :=
  { s with
    hub := { s.hub with clk := s.hub.clk.modify isl (· + n) }
    task := { s.task with teams := s.task.teams.map fun (k, t) =>
      if k.1 = isl ∧ counts s k t = true then (k, { t with wdog := t.wdog + n }) else (k, t) } }

/-- The model's own: threads that were held back may try again. -/
def unstall (s : State) : State :=
  { s with core := { s.core with threads := s.core.threads.map fun (t, r) =>
      (t, { r with wait := { r.wait with stalled := false } }) } }

/-- R117: CLK at the DEADLINE of the island's pre-emption requests that falls within the last `n` ns. -/
def markDue (n : Nat) (s : State) (isl : Nat) : State :=
  let frac := ((s.hub.power.get? isl).map (·.frac)).getD 0
  let at_ (due : Nat) : Nat := s.clk isl + ((due - (s.hub.ns - n)) * stepOf s isl + frac) / 40
  { s with task := { s.task with teams := s.task.teams.map fun (k, t) =>
      if k.1 = isl then
        (k, { t with preempt := t.preempt.map fun p =>
          if p.past.isNone && decide (p.due ≤ s.hub.ns) then { p with past := some (at_ p.due) } else p })
      else (k, t) } }

/-- R14 to R16: `n` ns pass on an island: at step k a core clock takes 40/k ns. -/
def passTime (n : Nat) (s : State) (isl : Nat) : State :=
  let total := n * stepOf s isl + ((s.hub.power.get? isl).map (·.frac)).getD 0
  let s1 := passClocks isl (total / 40) (markDue n s isl)
  { s1 with hub := { s1.hub with power := s1.hub.power.modify isl fun p => { p with frac := total % 40 } } }

/-- R14 to R16: `n` ns pass. -/
def tick (s : State) (n : Nat) : State :=
  let s0 := runTimers s
  let s1 := { s0 with hub := { s0.hub with ns := s0.hub.ns + n } }
  unstall ((s1.hub.clk.map (·.1)).foldl (passTime n) s1)

/-! ### Choices that are not events -/

/-- R265: an access of an operation performs, or a matrix instruction enters its queue; none when it may not. -/
def performChoice (s : State) (id k : Nat) : Option State :=
  match s.op? id with
  | none => none
  | some o =>
    match o.act with
    | .matrix job =>
      if !(s.team? o.m.isl o.m.team).any (·.ending.isSome) ∧ !o.queued s ∧ (s.eng.matq.getD (o.m.isl, o.core) []).length < 32 then some (enterQueue s o job) else none
    | _ => if o.canPerform s k then some (perform s o k) else none

/-- R187: what a thread's last clause left to its end takes place, or the watchdog of its team has expired before. -/
def endOrExpire (s : State) (t : Thread) : State :=
  if (s.team? t.m.isl t.m.team).any (·.expired) then endTeam s t.m.isl t.m.team 0x20 0 else runEnds s t

/-- R353, R406: what a thread's last clause left to its end takes place; none while nothing of it can. -/
def finishChoice (s : State) (t : Thread) : Option State :=
  match s.thread? t with
  | some r => if r.clause.isNone && r.ends.any (endReady s t) then some (endOrExpire s t) else none
  | none => none

/-- A request is taken up; none while it waits. -/
def injectChoice (s : State) (id : Nat) : Option State :=
  match s.pkt? id with
  | some p => if injectable s p then some (inject s id) else none
  | none => none

/-- What a choice that is no event and no issue does; none when it cannot take place. -/
def quietChoice (s : State) : Choice → Option State
  | .perform id k => performChoice s id k
  | .inject id => injectChoice s id
  | .settle m => some (settlePaths s m)
  | .finish t => finishChoice s t
  | .tick n => some (tick s n)
  | .dropL1 isl core sec => some (dropL1 s isl core sec)
  | .dropI isl core sec => some (dropI s isl core sec)
  | .dropC isl core sec => some (dropC s isl core sec)
  | .engRead c => engRead s c
  | .matStart isl core => matStart s isl core
  | .matRows isl core n => matRows s isl core n
  | .fillTlb isl ag part va => fillTlb s isl ag part va
  | .dropTlb isl ag n => some (dropTlb s isl ag n)
  | .shootdown r => shootdown s r
  | .shootOp id => (s.op? id).bind (shootOp s)
  | .early id => (s.op? id).bind (early s)
  | .fillBuf isl e core sec => fillBuf s isl e core sec
  | .dropBuf isl e core sec => some (dropBufs s isl fun x c k => x == e && c == core && k == sec)
  | .drainOut n => drainOut s n
  | .event _ _ | .redfish _ _ _ | .issue _ => none

/-! ### The order where the schedule names none -/

/-- The accesses and completions of outstanding operations. -/
def opChoices (s : State) : List Choice :=
  s.core.ops.flatMap fun o =>
    let accs : List Choice :=
      match o.act with
      | .matrix _ => if o.queued s then [] else [.perform o.id 0]
      | _ => ((List.range o.accs.length).filter fun k => ((o.accs[k]?).map (!·.done)).getD false).map (.perform o.id)
    let rest : List Choice :=
      [.shootOp o.id, .event .variableLatencyCompletion (.op o.id), .event .mwaitTimeout (.op o.id)]
    accs ++ rest

/-- Threads in mid-clause, and effects due at clause ends. -/
def threadChoices (s : State) : List Choice :=
  s.core.threads.flatMap fun e =>
    let issue : List Choice := if mayIssue s e.1 && !e.2.wait.stalled then [.issue e.1] else []
    let ends : List Choice := if e.2.ends.isEmpty then [] else [.finish e.1]
    let yields : List Choice := if e.2.wait.yielded.isSome then [.event .yieldExpiry (.thread e.1)] else []
    let sleeps : List Choice := if e.2.wait.asleep.isSome then [.event .sleepExpiry (.thread e.1)] else []
    [issue, ends, yields, sleeps].flatten

/-- The hop of a packet by the first port that the fabric may choose. -/
def hopChoice (s : State) (p : Packet) : List Choice :=
  match p.place.router with
  | some n =>
    if arrived s p || !atHead s p then []
    else
      let port := match p.nextHop with
        | some c => ((exits s n c p).find? fun x => (farRoom s n x p).isSome).getD 0
        | none => 0
      [.event .packetHop (.hop p.id port)]
  | none => []

/-- What a packet's end does with it. -/
def arrivalEvent : PktOp → Instr
  | .put => .putPacket
  | .putAck => .putAck
  | .getReq => .getReq
  | .getData => .getData
  | .ratom => .ratomPacket
  | .ratomRes => .ratomRes
  | .rred => .rredPacket
  | .rredAck => .rredAck
  | .notify => .notifyPacket
  | .notifyAck => .notifyAck
  | .error => .errorPacket
  | .ochReset => .ochReset
  | .ochResetAck => .ochResetAck
  | .belay => .belay
  | .ropeAck => .ropeAck

/-- Packets and their timers. -/
def packetChoices (s : State) : List Choice :=
  let arrivals (p : Packet) : List Choice :=
    if arrived s p then [.event (arrivalEvent p.op) (.packet p.id), .event .heldPacketTimeout (.packet p.id)] else []
  let takes (p : Packet) : List Choice := if injectable s p then [.inject p.id] else []
  let moves : List Choice := s.fab.pkts.flatMap fun p => takes p ++ hopChoice s p ++ arrivals p
  let timers : List Choice := s.fab.txns.map fun t => .event .responseTimerExpiry (.txn t.src t.tag)
  let blocks : List Choice := s.fab.pkts.map fun p => .event .blockedPacketTimer (.packet p.id)
  let ropes : List Choice :=
    match s.fab.belay with
    | some b =>
      if s.fab.pkts.any (·.timedOut) || b.holding.isSome then [.event .ropeAck (.node b.node), .event .belay (.node b.node)]
      else []
    | none => []
  [moves, timers, blocks, ropes].flatten

/-- Engines and their chains. -/
def engineChoices (s : State) : List Choice :=
  let starts : List Choice := (s.eng.matq.filter fun e => !e.2.isEmpty).map fun e => .matStart e.1.1 e.1.2
  let rows : List Choice := s.eng.matRun.map fun e => .matRows e.1.1 e.1.2 256
  let work : List Choice := s.eng.recs.flatMap fun r =>
    [.event .engineRecordCompletion (.engine r.ref), .event .nopRecord (.engine r.ref), .event .copy (.engine r.ref),
      .event .mmaRecord (.engine r.ref), .event .mvmRecord (.engine r.ref)]
  let reads : List Choice := s.eng.chains.map fun e => .engRead e.1
  let writes : List Choice := (List.range s.eng.outs.length).map fun n => .drainOut n
  let ops : List Choice := s.core.ops.map fun o => .event .cairnProbe (.op o.id)
  let recs : List Choice := s.eng.recs.map fun r => .event .cairnProbe (.engine r.ref)
  let idles : List Choice := s.eng.chains.map fun e => .event .copyChainIdleUnbind (.engineChain e.1)
  [starts, rows, work, reads, writes, ops, recs, idles].flatten

/-- Teams: ends, saves, restores, watchdogs, placement. -/
def teamChoices (s : State) : List Choice :=
  let ends : List Choice := s.task.teams.flatMap fun e =>
    [.event .teamEnd (.team e.1.1 e.1.2), .event .resumeMapWrite (.team e.1.1 e.1.2),
      .event .restoreComplete (.team e.1.1 e.1.2), .event .watchdogExpiry (.team e.1.1 e.1.2)]
  let places : List (Nat × Nat) := (s.task.queue.map fun q => (q.isl, q.part)) ++ s.task.saved.map fun v => (v.isl, v.old.part)
  let dispatches : List Choice := places.eraseDups.map fun k => .event .teamPlacement (.place k.1 k.2)
  ends ++ dispatches

/-- The event of a command code. -/
def cmdEvent (code : Nat) : Instr :=
  match code with
  | 1 => .launch
  | 2 => .notifyCommand
  | 3 => .toposet
  | 4 => .map
  | 5 => .unmap
  | _ => .resume

/-- A chain has records to start. -/
def chainWaits (s : State) (k : Nat × Nat) (c : CmdChain) : Bool :=
  match readVa s c.home k.1 c.desc 8 with
  | .ok tail => c.consumed < tail
  | .error _ => false

/-- The command processor and the fault unit. -/
def hubChoices (s : State) : List Choice :=
  let cmds : List Choice := s.hub.cmds.flatMap fun c =>
    [.event (cmdEvent (nbits c.bits 63 56)) (.cmd c.ref), .shootdown c.ref, .event .commandRecordCompletion (.cmd c.ref)]
  let wakes : List Choice := (s.hub.chains.filter fun e => chainWaits s e.1 e.2).map fun e =>
    .event .pcpTailWake (.chain e.1.1 e.1.2)
  let faults : List Choice := s.par.faults.flatMap fun e =>
    [.event .faultRecordPost (.fault e.key.isl e.key.part e.order), .event .faultPostRetry (.fault e.key.isl e.key.part e.order)]
  [cmds, wakes, faults].flatten

/-- R119: the lehr's events of a switch, island by island, for the slices that are free. -/
def switchJobs (s : State) (r : Rotation) : List LehrJob :=
  (r.late.map (·.1)).eraseDups.flatMap fun i =>
    (r.late.filter (·.1 == i)).map fun x => ⟨i, 2 ^ x.2, enginesOf s r.resident i, 1, r.resident, r.incoming⟩

/-- The lehr, frames and rotations. -/
def lehrChoices (s : State) : List Choice :=
  let jobs : List Choice := s.par.jobs.map fun j => .event .lehrEvent (.lehr j 0)
  let frames : List Choice := (s.par.frames.filter (·.2.1 == .scrub)).map fun e =>
    .event .frameScrubDone (.frames e.1.1 e.2.2 e.1.2 1 false)
  let limits (n : Nat) (i : Nat) : List Choice := [.event .deadlineExpiry (.islandIn i n), .event .overrunLimit (.islandIn i n)]
  let rots : List Choice := s.par.rots.flatMap fun e =>
    let switches : List Choice := (switchJobs s e.2).map fun j => .event .lehrEvent (.lehr j 0)
    let due : List Choice := (islandsOf s e.2.resident).flatMap (limits e.1)
    let tick : Choice := .event .switchTick (.slot e.1)
    [switches, due, [tick]].flatten
  [jobs, frames, rots].flatten

/-- A link trains at full width and speed unless the schedule says otherwise. -/
def linkChoices (s : State) (e : LinkEnd) (l : Link) : List Choice :=
  let far := (farEnd (codeNow s) e).getD e
  let full : LinkCfg := ⟨8, 0xFF, 200⟩
  match l.st with
  | .down => if l.cause then [.event .linkTrainingStart (.link e)] else [.event .linkDownRetryTimer (.link e)]
  | .train | .mismatch =>
    if l.prop0.isNone then [.event .trainingHandshake (.handshake e true full)]
    else if l.prop1.isNone then [.event .trainingHandshake (.handshake far true full)]
    else
      if l.echo0.isNone then [.event .trainingHandshake (.handshake e false (l.prop1.getD full))]
      else if l.echo1.isNone then [.event .trainingHandshake (.handshake far false (l.prop0.getD full))]
      else [.event .thirdHandshakeTimer (.link e)]
  | _ => []

/-- Topology events, links, warm resets, the boot. -/
def topoChoices (s : State) : List Choice :=
  let boot : List Choice := if s.hub.boot = .rom then [.event .coldBoot .none] else []
  let sets : List Choice := [.event .toposetSwitch .none, .event .toposetPublish .none, .event .toposetDrainLimit .none]
  let back (i : Nat) : List Choice :=
    if (s.fab.ucieDown.get? i).isSome then [.event .warmResetReadmit (.island i), .event .ucieLinkChange (.islandIn i 1)]
    else [.event .warmResetReadmit (.island i)]
  let fences : List Choice := s.fab.fenced.flatMap fun e => back e.1
  let downs : List Choice := s.fab.ucieDown.map fun e => .event .ucieDownTimeout (.island e.1)
  let waiting : List Choice := s.fab.topoq.head?.toList.filterMap fun x =>
    match x with
    | .inr i => some (.event .warmResetRequest (.node i))
    | .inl _ => none
  let hot : List Choice := s.hub.power.map fun e => .event .throttleFence (.island e.1)
  let links : List Choice := s.fab.links.flatMap fun e => linkChoices s e.1 e.2
  [boot, sets, fences, downs, waiting, hot, links].flatten

/-- R153: threads at a clause boundary, the one whose last clause started first in front, and strands whose paths are to
settle. -/
def startChoices (s : State) : List Choice :=
  let order := (s.core.threads.filter fun e => e.2.clause.isNone).foldl (fun (acc : List (Thread × Nat)) e =>
    (acc.filter fun x => x.2 ≤ e.2.lastStart) ++ [(e.1, e.2.lastStart)] ++ acc.filter fun x => e.2.lastStart < x.2) []
  let starts : List Choice := order.map fun x => .event .clauseStart (.thread x.1)
  let settles : List Choice := (s.core.members.filter fun e => settleDue s e.1 e.2).map fun e => .settle e.1
  starts ++ settles

/-- Every choice that may be open, in the order in which the model tries them; none of them is free to recur without end
while nothing changes. -/
def choices (s : State) : List Choice :=
  opChoices s ++ threadChoices s ++ packetChoices s ++ engineChoices s ++ hubChoices s ++ teamChoices s ++ lehrChoices s ++
    topoChoices s ++ startChoices s

/-- R153: a clause start is followed by the passing of time, so that a program that spins sees it pass. -/
def Choice.slow : Choice → Bool
  | .event .clauseStart _ => true
  | _ => false

end Sys2Proof.Machine
end

