-- ==== Sys2Proof/Machine/Step.lean ====
section
/-! DEFINITION. One step of the part: the next choice of the schedule, or else the next instruction of the thread in issue,
or else the first choice that is open (log entries 1 and 4). -/

namespace Sys2Proof.Machine

open Sys2Proof

/-- The state that an outcome leads to. -/
def nextOf : Out → Option State
  | .next s => some s
  | _ => none

/-- R298: the thread in issue executes the instruction in its slot, or traps on its decoding. -/
def issueStep (s : State) : Out :=
  match issue? s with
  | none => .refused .noIssuer
  | some c =>
    match c.decoded with
    | .error e => decodeTrap s c e
    | .ok i => exec i s

/-- The outcome of one choice. -/
def runChoice (s : State) (c : Choice) : Out :=
  match c with
  | .event i o => if (encodeRaw i).isNone then exec i { s with occ := o, cred := .system } else .refused .notReady
  | .redfish c i o => if (encodeRaw i).isNone then exec i { s with occ := o, cred := c } else .refused .notReady
  | .issue t => if mayIssue s t then issueStep { s with focus := some t } else .refused .notReady
  | c =>
    match quietChoice s c with
    | some t => .next (commit s t)
    | none => .refused .notReady

/-- What a choice leads to where the schedule names none: a clause start is followed by 40 ns. -/
def tryChoice (s : State) (c : Choice) : Option State :=
  (nextOf (runChoice s c)).map fun t => if c.slow then commit t (tick t 40) else t

/-- The first open choice; where none is open, 40 ns pass. -/
def auto (s : State) : Out :=
  match (choices s).findSome? (tryChoice s) with
  | some t => .next t
  | none => .next (commit s (tick s 40))

/-- One step. -/
def step (s : State) : Out :=
  match s.sched with
  | c :: cs => runChoice { s with sched := cs } c
  | [] =>
    match s.focus with
    | some t => if mayIssue s t then issueStep s else auto { s with focus := none }
    | none => auto s

/-! ### A program's first instruction -/

/-- R294: a clause header of a class and COUNT, with no scoreboard and no wait. -/
def bareHeader (gaffer : Bool) (count : Nat) : W64 := w64 (gaffer.toNat * 2 ^ 60 + count * 2 ^ 56 + (2 ^ 48 - 1))

/-- R315: the word of NOP under guards that always hold. -/
def nopWord : W64 := (encode (.nop ⟨⟨false, 7⟩, ⟨false, 7⟩, false, 0⟩)).getD 0

/-- R296: a clause that holds one instruction: alone where it must stand last, else before a NOP. -/
def bareClause (gaffer : Bool) (w : W64) : Clause :=
  let last := match decode (if gaffer then .gaffer else .strand) tableVr w with
    | .ok i => isTransfer i
    | .error _ => false
  if last then ⟨0, bareHeader gaffer 0, [w]⟩ else ⟨0, bareHeader gaffer 1, [w, nopWord]⟩

/-- A kernel header with every vector register, and nothing else. -/
def bareHdr : KHdr :=
  { tmin := 0, dh := 0, wdog := 2 ^ 48 - 1, resmap := 0, spb := 0, spcount := 0, gtbl := none, spt := 0, strap := none, gtrap := none,
    sentry := 0, gentry := none, code := 0, cmap := 0, scr := 0, codelen := 0, tokreq := false, restartable := false,
    uchk := false, sregs := 0, vr := tableVr, smax := 1, sinit := 1 }

/-- A team of one core that a loader has placed. -/
def bareTeam : Team :=
  { part := 0
    task := { addr := 0, pa := 0, frame := 0, khdr := 0, ji0 := 0, ja0 := 0, ji1 := 0, ja1 := 0, crec := 0, cisl := 0, part := 0,
              prio := 0, origin := 0, stamp := 0 }
    hdr := bareHdr, spts := [], c0 := 0, n := 1, cap := 1, spad := [0], ctx := [0], groups := [⟨1, 0, 0, 0⟩], rows := none
    released := true, first := some 0, before := 0, wdog := 0, tokseq := 0, ending := none, preempt := none, pcount := 0
    restoring := false, gone := false, cpc := [] }

/-- The state with a team placed on core 0 of island 0, whose one thread is about to execute a word (log entry 4). -/
def State.withFetchWord (s : State) (nbits w : Nat) : State :=
  let word := BitVec.ofNat 64 (w % 2 ^ nbits)
  let gaffer := match decode .strand tableVr word with
    | .ok _ => false
    | .error _ => true
  let m : Member := ⟨0, 0, gaffer, 0⟩
  let th : Thread := ⟨m, 0⟩
  let r := { freshThread 0 (if gaffer then 1 else 0xFFFFFFFF) with clause := some (bareClause gaffer word) }
  { s with
    sched := [], focus := some th
    task := { s.task with teams := s.task.teams.set (0, 0) bareTeam }
    core := { s.core with
      members := s.core.members.set m ⟨0, 0, .running, true, true, 0, [], [], 1⟩
      threads := s.core.threads.set th r } }

end Sys2Proof.Machine
end

