-- ==== Sys2Proof/Safety.lean ====
section
/-! DEFINITION. The terms in which claims speak of a run: what an outcome gives, when an instruction executes without
waiting or trapping, and what a slot leaves behind. -/

namespace Sys2Proof.Machine

open Sys2Proof

/-- An outcome is a next state with a property. -/
def Gives (o : Out) (P : State → Prop) : Prop := ∃ t, o = .next t ∧ P t

/-- The instruction in issue executes now: its team's watchdog has not expired (R187), its thread waits for nothing, its
guards agree where UCHK asks it (R302), the clause that follows it passes its check where it stands last (R297), and no
register that it reads is poisoned (R215). -/
structure Clear (s : State) (h : Head) (k : Kind) (srcs : List Src) (c : Issue) : Prop where
  issuing : ∃ c0, issue? s = some c0 ∧ c = c0.guard s h k
  running : c.tm.expired = false
  free : c.waits s = false
  uniform : k.once = true → c.gaffer = true ∨ c.tm.hdr.uchk = false ∨ c.guardDiff s h = 0
  falls : k.falls = true → c.fallsThrough = true → c.checkFall s = .good
  sound : c.poisonedSrc s h srcs = none

/-- Nothing that the clause has left to its end takes place after this slot: there is nothing left where the slot is the
last, and no DETACH cuts the clause short (R406). -/
structure Issue.NothingDue (c : Issue) (r : ThreadRec) : Prop where
  none : c.isLast = true → r.ends = []
  attached : r.ends.contains .detach = false

/-- Some lane is active, and nothing that the clause has left to its end takes place after this slot. -/
structure Plain (c : Issue) : Prop where
  ends : c.NothingDue c.r
  live : c.active ≠ 0

/-- R160, R295: the record of a thread after the last slot of its clause: it stands before the clause that follows, every
latch reading zero. -/
def Issue.past (c : Issue) (r : ThreadRec) : ThreadRec :=
  { r with mask := r.mask &&& ~~~r.exited, exited := 0, clause := none, slot := 0, latches := zeroLatches, pc := c.fall,
           ends := [], wait := { r.wait with replay := none, portless := false } }

/-- R160, R295: the record of a thread after a slot: the next slot, its latch written, or the end of the clause. -/
def Issue.after (c : Issue) (r : ThreadRec) (latch : List W64) : ThreadRec :=
  if c.isLast then c.past r
  else { r with latches := r.latches.set (r.slot % 8) latch, slot := r.slot + 1,
                wait := { r.wait with replay := none, portless := false } }

/-- A state in which the thread in issue has moved past its slot with a record. -/
def Issue.advance (c : Issue) (s : State) (r : ThreadRec) (latch : List W64) : State :=
  { s.setThread c.th (c.after r latch) with focus := if c.isLast then none else s.focus }

/-- R161: the thread's record with one more operation on the slot's scoreboard. -/
def Issue.raised (c : Issue) : ThreadRec :=
  if c.sbsel = 7 then c.r else { c.r with sb := c.r.sb.set c.sbsel (c.r.sb.getD c.sbsel 0 + 1) }

/-- A state with one more outstanding operation. -/
def withOp (s : State) (o : Op) : State :=
  { s with core := { s.core with ops := s.core.ops ++ [o], nextOp := s.core.nextOp + 1 } }

/-- The state after an instruction that starts an operation and has moved past its slot. -/
def Issue.starts (c : Issue) (s : State) (s' : State) (o : Op) : State := commit s (c.advance (withOp s' o) c.raised [])

/-- The state after an instruction that has no effect but to move past its slot. -/
def Issue.passes (c : Issue) (s : State) : State := commit s (c.advance s c.r [])

/-- One lane of a vector register. -/
def vlane (s : State) (m : Member) (i l : Nat) : W32 := lane32 (s.core.vreg.getD (m, i) []) l

/-- Every byte of the islands' memory, of the scratchpads and of accumulator memory, and every cached copy, is as it was. -/
structure SameMemory (s t : State) : Prop where
  bytes : ∀ isl pa, t.mem.byte isl pa = s.mem.byte isl pa
  spads : ∀ key, t.mem.spad.get key = s.mem.spad.get key
  accs : ∀ key, t.mem.acc.get? key = s.mem.acc.get? key
  kept : { t.mem with poison := [] } = { s.mem with poison := [] }

/-- Nothing beyond the cores has changed: tasks and teams, engines, partitions, the fabric, the hub, and memory. -/
structure Quiet (s t : State) : Prop where
  memory : SameMemory s t
  unit : t.unit = s.unit
  task : t.task = s.task
  eng : t.eng = s.eng
  par : t.par = s.par
  fab : t.fab = s.fab
  hub : t.hub = s.hub

/-- R358: flags are ORed into the FSTAT of a member, and nothing else of any member has changed. -/
structure FlagsOr (s t : State) (m : Member) (fl : Nat) : Prop where
  own : t.member? m = (s.member? m).map fun r => { r with fstat := r.fstat ||| w64 fl }
  rest : ∀ m', m' ≠ m → t.member? m' = s.member? m'

/-- The thread in issue has moved past its slot with a latch, and no other thread has changed. -/
structure Moved (s : State) (c : Issue) (latch : List W64) (t : State) : Prop where
  own : t.thread? c.th = some (c.after c.r latch)
  rest : ∀ th, th ≠ c.th → t.thread? th = s.thread? th

/-- The values of the lanes that execute, zero elsewhere. -/
def Issue.lanes (c : Issue) (f : Nat → W64 × Nat) : List (W64 × Nat) :=
  lanesOf fun l => if c.exec.getLsbD l then f l else (0, 0)

/-- R302, R307: a lane-wise result of `w` registers: each lane that executes takes its value, each other lane and register
keeps its own; flags are ORed (R358); nothing else changes. -/
structure VecDone (s : State) (c : Issue) (h : Head) (w : Nat) (f : Nat → W64 × Nat) (t : State) : Prop where
  low : h.k = false → ∀ l, l < 32 → vlane t c.th.m h.d l =
    if c.exec.getLsbD l then (f l).1.setWidth 32 else vlane s c.th.m h.d l
  high : h.k = false → w = 2 → ∀ l, l < 32 → vlane t c.th.m (h.d + 1) l =
    if c.exec.getLsbD l then ((f l).1 >>> 32).setWidth 32 else vlane s c.th.m (h.d + 1) l
  vregs : ∀ m i, h.k = true ∨ m ≠ c.th.m ∨ i ≠ h.d ∧ (w = 2 → i ≠ h.d + 1) →
    t.core.vreg.getD (m, i) [] = s.core.vreg.getD (m, i) []
  sregs : t.core.sreg = s.core.sreg
  preds : t.core.pred = s.core.pred
  flags : FlagsOr s t c.th.m (allFlags (c.lanes f))
  moved : Moved s c ((c.lanes f).map (·.1)) t
  quiet : Quiet s t

/-- R160, R308: a scalar result of `w` 32-bit words: the register takes the value where the instruction executes, its latch
holds the words zero-extended, and nothing else changes. -/
structure ScaDone (s : State) (c : Issue) (h : Head) (w : Nat) (r : W64 × Nat) (t : State) : Prop where
  reg : h.k = false → c.exec ≠ 0 → t.core.sreg.getD (c.th.m, h.d) 0 = r.1
  sregs : ∀ m i, h.k = true ∨ c.exec = 0 ∨ m ≠ c.th.m ∨ i ≠ h.d → t.core.sreg.getD (m, i) 0 = s.core.sreg.getD (m, i) 0
  vregs : t.core.vreg = s.core.vreg
  preds : t.core.pred = s.core.pred
  flags : FlagsOr s t c.th.m (if c.exec = 0 then 0 else r.2)
  moved : Moved s c
    (if c.exec = 0 then [] else List.replicate 32 (if w = 1 then (r.1.setWidth 32).setWidth 64 else r.1)) t
  quiet : Quiet s t

/-- R156, R308: a predicate result: the lanes that execute take their values, unless the destination is p7, which ignores
writes; nothing else changes. -/
structure PredDone (s : State) (c : Issue) (h : Head) (f : Nat → Bool) (fl : Nat) (latch : List W64) (t : State) : Prop where
  lanes : h.k = false → h.d ≠ 7 → ∀ l, l < 32 → (t.core.pred.getD (c.th.m, h.d) 0).getLsbD l =
    if c.exec.getLsbD l then f l else (s.core.pred.getD (c.th.m, h.d) 0).getLsbD l
  preds : ∀ m p, h.k = true ∨ h.d = 7 ∨ m ≠ c.th.m ∨ p ≠ h.d → t.core.pred.getD (m, p) 0 = s.core.pred.getD (m, p) 0
  vregs : t.core.vreg = s.core.vreg
  sregs : t.core.sreg = s.core.sreg
  flags : FlagsOr s t c.th.m fl
  moved : Moved s c latch t
  quiet : Quiet s t

/-! ### Answers of an instruction -/

/-- Wherever it is clear to execute and the predicates that it reads as sources are not poisoned (R215), the instruction
answers a next state with a property. -/
def Answers (i : Instr) (h : Head) (k : Kind) (srcs : List Src) (P : State → Issue → State → Prop) (ps : List Nat := []) :
    Prop :=
  ∀ s c, Clear s h k srcs c → Plain c → (c.exec ≠ 0 → c.poisonedPred s ps = none) → Gives (exec i s) (P s c)

/-- Wherever it is clear to execute, the instruction answers one next state. -/
def Leads (i : Instr) (h : Head) (k : Kind) (srcs : List Src) (t : State → Issue → State) : Prop :=
  ∀ s c, Clear s h k srcs c → Plain c → exec i s = .next (t s c)

/-- R327: a lane-wise integer result at the width of a type. -/
def VecInt (i : Instr) (h : Head) (srcs : List Src) (ty : Ty) (f : State → Issue → Nat → Int) (ps : List Nat := []) : Prop :=
  Answers i h .vec srcs (fun s c => VecDone s c h ty.words fun l => (wrapTo ty (f s c l), 0)) ps

/-- R308, R327: a scalar integer result, of the lowest active lane, extended as the type says. -/
def ScaInt (i : Instr) (h : Head) (srcs : List Src) (ty : Ty) (f : State → Issue → Nat → Int) (ps : List Nat := []) : Prop :=
  Answers i h .sca srcs (fun s c => ScaDone s c h ty.words (extendTo ty (wrapTo ty (f s c c.low)), 0)) ps

/-- Both forms of an integer instruction of one source. -/
def Int1 (v k : Instr) (h : Head) (ty : Ty) (a : Src) (f : Nat → Int) : Prop :=
  VecInt v h (srcsI ty a) ty (fun s c l => f (rdI s c (uV 1) ty a l)) ∧
  ScaInt k h [a] ty (fun s c l => f (rdI s c (uS 1) ty a l))

/-- Both forms of an integer instruction of two sources. -/
def Int2 (v k : Instr) (h : Head) (ty : Ty) (a b : Src) (f : Nat → Nat → Int) : Prop :=
  VecInt v h (srcsI ty a ++ srcsI ty b) ty (fun s c l => f (rdI s c (uV 1) ty a l) (rdI s c (uV 2) ty b l)) ∧
  ScaInt k h [a, b] ty (fun s c l => f (rdI s c (uS 1) ty a l) (rdI s c (uS 2) ty b l))

/-- Both forms of an integer instruction of three sources: lane by lane on 32 bits, once at the width of a type. -/
def Int3 (v k : Instr) (h : Head) (ty : Ty) (a b d : Src) (f g : Nat → Nat → Nat → Int) : Prop :=
  VecInt v h [a, b, d] .n32
    (fun s c l => f (rdI s c (uV 1) .n32 a l) (rdI s c (uV 2) .n32 b l) (rdI s c (uV 3) .n32 d l)) ∧
  ScaInt k h [a, b, d] ty (fun s c l => g (rdI s c (uS 1) ty a l) (rdI s c (uS 2) ty b l) (rdI s c (uS 3) ty d l))

/-- Both forms of an instruction with a 32-bit result and flags, from the values its sources have in a lane. -/
def Res32 (v k : Instr) (h : Head) (srcs : List Src) (f : State → Issue → Bool → Nat → Nat × Nat) : Prop :=
  Answers v h .vec srcs (fun s c => VecDone s c h 1 fun l => res64 (f s c false l)) ∧
  Answers k h .sca srcs (fun s c => ScaDone s c h 1 (res64 (f s c true c.low)))

/-- Both forms of a floating-point instruction of one source. -/
def Flt1 (v k : Instr) (h : Head) (ty : Ty) (a : Src) (f : Nat → Nat × Nat) : Prop :=
  Res32 v k h [a] fun s c u l => f (rdF s c ⟨u, 1⟩ ty a l)

/-- Both forms of a floating-point instruction of two sources. -/
def Flt2 (v k : Instr) (h : Head) (ty : Ty) (a b : Src) (f : Nat → Nat → Nat × Nat) : Prop :=
  Res32 v k h [a, b] fun s c u l => f (rdF s c ⟨u, 1⟩ ty a l) (rdF s c ⟨u, 2⟩ ty b l)

/-- Both forms of a floating-point instruction of three sources. -/
def Flt3 (v k : Instr) (h : Head) (ty : Ty) (a b d : Src) (f : Nat → Nat → Nat → Nat × Nat) : Prop :=
  Res32 v k h [a, b, d] fun s c u l => f (rdF s c ⟨u, 1⟩ ty a l) (rdF s c ⟨u, 2⟩ ty b l) (rdF s c ⟨u, 3⟩ ty d l)

/-- R375: both forms of a packed instruction of two sources, element by element. -/
def Pack2 (v k : Instr) (h : Head) (ty : Ty) (a b : Src) (f : Nat → Nat → Nat × Nat) : Prop :=
  Res32 v k h [a, b] fun s c u l => packed2 f (rdPair s c ⟨u, 1⟩ ty a l) (rdPair s c ⟨u, 2⟩ ty b l)

/-- R375: both forms of a packed instruction of three sources. -/
def Pack3 (v k : Instr) (h : Head) (ty : Ty) (a b d : Src) (f : Nat → Nat → Nat → Nat × Nat) : Prop :=
  Res32 v k h [a, b, d] fun s c u l =>
    packed3 f (rdPair s c ⟨u, 1⟩ ty a l) (rdPair s c ⟨u, 2⟩ ty b l) (rdPair s c ⟨u, 3⟩ ty d l)

/-- A lane-wise predicate result: each lane that executes takes its value, and the latch holds 0 or 1 (R160). -/
def VecPred (i : Instr) (h : Head) (srcs : List Src) (f : State → Issue → Nat → Bool × Nat) (ps : List Nat := []) : Prop :=
  Answers i h .vec srcs (fun s c =>
    let rs := lanesOf fun l => if c.exec.getLsbD l then f s c l else (false, 0)
    PredDone s c h (fun l => (f s c l).1) (rs.foldl (fun a r => a ||| r.2) 0) (rs.map fun r => w64 r.1.toNat)) ps

/-- R308: a predicate result of a scalar form: every active lane takes the value of the lowest. -/
def ScaPred (i : Instr) (h : Head) (srcs : List Src) (f : State → Issue → Nat → Bool × Nat) (ps : List Nat := []) : Prop :=
  Answers i h .sca srcs (fun s c =>
    let r := f s c c.low
    PredDone s c h (fun _ => r.1) (if c.exec = 0 then 0 else r.2)
      (if c.exec = 0 then [] else List.replicate 32 (w64 r.1.toNat))) ps

/-- Both forms of an instruction with a predicate result. -/
def Pred1 (v k : Instr) (h : Head) (vs ks : List Src) (f : State → Issue → Bool → Nat → Bool × Nat)
    (ps : List Nat := []) : Prop :=
  VecPred v h vs (fun s c l => f s c false l) ps ∧ ScaPred k h ks (fun s c l => f s c true l) ps

/-- R300: an instruction of variable latency: its operation is outstanding and everything else is as it was; where no lane
executes, it has no effect. -/
def Starts (i : Instr) (h : Head) (k : Kind) (srcs : List Src) (o : State → Issue → Op) : Prop :=
  Leads i h k srcs fun s c => if c.exec = 0 then c.passes s else c.starts s s (o s c)

/-- R300: both forms of a computation of variable latency, whose results are those of its sources at issue. -/
def Later (v k : Instr) (h : Head) (vs ks : List Src) (w : Nat) (f : State → Issue → Nat → W64 × Nat)
    (g : State → Issue → W64 × Nat) : Prop :=
  Starts v h .vec vs (fun s c => c.op s h false (.vec h.d w)
    (.value ((c.lanes (f s c)).map (·.1)) (allFlags (c.lanes (f s c))))) ∧
  Starts k h .sca ks (fun s c => c.op s h true (.sca h.d 1) (.value [(g s c).1] (g s c).2))

/-- R300: both forms of a special function of one source. -/
def Later1 (v k : Instr) (h : Head) (ty : Ty) (a : Src) (f : Nat → Nat × Nat) : Prop :=
  Later v k h [a] [a] 1 (fun s c l => res64 (f (rdF s c (uV 1) ty a l))) (fun s c => res64 (f (rdF s c (uS 1) ty a c.low)))

/-! ### Control -/

/-- R348, R349: a transfer has led the whole split to an address, held there or not. -/
def Issue.goes (c : Issue) (s : State) (held : Option Nat) (pc : Nat) : State :=
  { s.setThread c.th { c.past c.r with pc := pc, wait := { c.r.wait with replay := none, portless := false, join := held } } with
    focus := none }

/-- R349, R351: where a transfer sends an active lane: to its target where the guards hold, else on; where one lane decides
for all, it is the lowest active one. -/
def Issue.heads (c : Issue) (uniform : Bool) (target : Nat → Nat) (l : Nat) : Nat :=
  let k := if uniform || c.gaffer || c.r.handler then c.low else l
  if c.exec.getLsbD k then target k else c.fall

/-- R349, R351: the lanes that go to a transfer's target. -/
def Issue.takers (c : Issue) (uniform : Bool) : W32 :=
  if uniform || c.gaffer || c.r.handler then (if c.exec.getLsbD c.low then c.active else 0) else c.exec

/-- R181: the record of a thread that takes a precise trap. -/
def Issue.trapped (c : Issue) (cause : Cause) (tval : W64) (epc : Nat) : ThreadRec :=
  { c.r with
    shadow := some ⟨c.r.latches, c.r.clause, c.r.slot, c.r.mask, c.r.exited, c.r.ends⟩
    pc := (trapEntry c.tm c.th.m).getD 0, mask := c.active, clause := none, slot := 0, latches := zeroLatches, exited := 0, ends := []
    wait := .free, handler := true, epcSet := false, tcause := w64 cause.code, tval := tval, epc := w64 epc }

/-- R181: the state in which a precise trap has been taken. -/
def Issue.traps (c : Issue) (s : State) (cause : Cause) (tval : W64) (epc : Nat) : State :=
  { s.setThread c.th (c.trapped cause tval epc) with focus := none }

/-- R183, R184: a trap can be taken: the thread is in no handler, and its class has a trap entry. -/
def Issue.canTrap (c : Issue) : Prop := c.r.handler = false ∧ (trapEntry c.tm c.th.m).isSome = true

/-- The instruction, wherever it is clear to execute and a condition holds, takes a precise trap at its own address. -/
def Traps (i : Instr) (h : Head) (k : Kind) (srcs : List Src) (p : State → Issue → Prop) (cause : Cause)
    (tval : State → Issue → W64) : Prop :=
  ∀ s c, Clear s h k srcs c → p s c → c.canTrap → exec i s = .next (commit s (c.traps s cause (tval s c) c.addr))

/-- An instruction whose effect is due at the clause's end: in an earlier slot it is left to the end, in the last slot it
takes place. -/
def Issue.leaves (c : Issue) (s : State) (a : EndAct) (last : State → State) : State :=
  commit s (if c.isLast then last (c.advance s c.r []) else c.advance s { c.r with ends := c.r.ends ++ [a] } [])

/-! ### Memory -/

/-- R92, R190, R192: where an access lands: the address that its translation gives, its place in the reservation of the core
it names, or, for a read, in that core's barrier window; nowhere otherwise. -/
def Issue.placed (c : Issue) (s : State) (x : Reach) (acc : Acc) (r : Req) : Option Access :=
  let global (sp : Space) : Option Access :=
    match c.xlate s r.va acc with
    | .ok pa sl _ => some (r.at_ sp pa sl)
    | _ => none
  match x with
  | .global => global .global
  | .const => global .const
  | x =>
    match placeOf c.tm.hdr.scr r.va r.size with
    | .reserved => some (r.at_ (.spad (x.core c)) (c.tm.base (x.core c) + r.va) false)
    | .window => if acc = .read then some (r.at_ (.window (x.core c)) r.va false) else none
    | .outside => none

/-- R215: an access meets no poison. -/
def Issue.sound (c : Issue) (s : State) (a : Access) : Prop :=
  match a.space with
  | .spad k => s.mem.spadPoisonedAt c.isl k a.addr a.size = none
  | .window _ => True
  | _ => s.mem.poisonedAt c.isl a.addr a.size = none

/-- R385: every access of a list lands, and none that reads meets poison. -/
structure Issue.Reaches (c : Issue) (s : State) (x : Reach) (acc : Acc) (reads : Bool) (rs : List Req) (as : List Access) :
    Prop where
  spans : ∀ q, x = .peer q → c.tm.inSpan (x.core c) = true
  placed : rs.map (c.placed s x acc) = as.map some
  sound : reads = true → ∀ a ∈ as, c.sound s a

/-- R267, R268: the thread holds no acquire back, and, for a release, no local access that has yet to perform. -/
def Issue.ordered (c : Issue) (s : State) (rel : Bool) : Prop :=
  c.fenced s = false ∧ (rel = true → c.unreleased s = false)

/-- R384, R385: an instruction that accesses memory: where no lane executes it only moves on; where its order, alignment and
places allow it, its operation is outstanding with its accesses, and everything else is as it was. -/
def Accesses (i : Instr) (h : Head) (k : Kind) (srcs : List Src) (x : Reach) (acc : Acc) (reads rel : Bool) (align : Nat)
    (at_ : State → Issue → List Nat) (rs : State → Issue → List Req) (o : State → Issue → List Access → Op) : Prop :=
  ∀ s c, Clear s h k srcs c → Plain c →
    (c.exec = 0 → exec i s = .next (c.passes s)) ∧
    (∀ as, c.exec ≠ 0 → c.ordered s rel → (∀ a ∈ at_ s c, a % align = 0) → c.Reaches s x acc reads (rs s c) as →
      exec i s = .next (c.starts s s (o s c as)))

/-- R387, R389: a load: each participant reads its address, of which a peer's is an offset of 32 bits; two halves for 16
bytes. -/
def LoadStarts (i : Instr) (h : Head) (sca : Bool) (x : Reach) (ty : Ty) (ord : Ord) (x2 : Bool) (ofs : Nat) (a b : Src) :
    Prop :=
  let at_ (s : State) (c : Issue) (l : Nat) : Nat := x.wrap ((effBase s c sca a b l + ofs * (ty.bits / 8)) % 2 ^ 64)
  Accesses i h (if sca then .sca else .vec) [a, b] x .read true false (if x2 then 16 else ty.bits / 8)
    (fun s c => (c.parts sca).map (at_ s c))
    (fun s c => (c.parts sca).flatMap fun l =>
      if x2 then [⟨l, 0, at_ s c l, 8, .read⟩, ⟨l, 1, at_ s c l + 8, 8, .read⟩] else [⟨l, 0, at_ s c l, ty.bits / 8, .read⟩])
    (fun s c as => { c.op s h sca (resultAt sca h (valueRegs sca ty x2)) (.load ty x2) with
      accs := as, acq := ord == .acq })

/-- R388: a store: each participant writes its address; a higher lane's write to the same address stands (R266). -/
def StoreStarts (i : Instr) (h : Head) (sca : Bool) (x : Reach) (ty : Ty) (ord : Ord) (x2 : Bool) (ofs : Nat) (a b : Src) :
    Prop :=
  let at_ (s : State) (c : Issue) (l : Nat) : Nat := x.wrap ((effBase s c sca a b l + ofs * (ty.bits / 8)) % 2 ^ 64)
  let data (s : State) (c : Issue) (l k : Nat) : AccKind := .write (storeWord s c h sca ty l k)
  Accesses i h (if sca then .sca else .vec) (a :: b :: dataSrcs sca h.d (valueRegs sca ty x2)) x .write false (ord == .rel)
    (if x2 then 16 else ty.bits / 8)
    (fun s c => (c.parts sca).map (at_ s c))
    (fun s c => (c.parts sca).flatMap fun l =>
      if x2 then [⟨l, 0, at_ s c l, 8, data s c l 0⟩, ⟨l, 1, at_ s c l + 8, 8, data s c l 1⟩]
      else [⟨l, 0, at_ s c l, ty.bits / 8, data s c l 0⟩])
    (fun s c as => { c.op s h sca .none .store with accs := lastWriters as })

/-- R395: an atomic, or a reduction, which returns nothing. -/
def AtomStarts (i : Instr) (h : Head) (sca red : Bool) (x : Reach) (srcs : List Src) (ty : Ty) (ord : Ord) (op : AOp)
    (ofs : Nat) (a b : Src) : Prop :=
  let at_ (s : State) (c : Issue) (l : Nat) : Nat :=
    if x = .own then (rd32 s c ⟨sca, 1⟩ a l).toNat + ofs * (ty.bits / 8)
    else ((rd64 s c ⟨sca, 1⟩ a l).toNat + ofs * (ty.bits / 8)) % 2 ^ 64
  Accesses i h (if sca then .sca else .vec) srcs x .atomic true (ord == .rel || ord == .acqrel) (ty.bits / 8)
    (fun s c => (c.parts sca).map (at_ s c))
    (fun s c => (c.parts sca).map fun l =>
      ⟨l, 0, at_ s c l, ty.bits / 8, .atomic op ty (atomB s c sca ty b l) (atomCmp s c h sca ty op l)⟩)
    (fun s c as => { c.op s h sca (if red then .none else resultAt sca h (valueRegs sca ty false))
      (if red then .store else .oldVal ty) with accs := as, acq := ord == .acq || ord == .acqrel })

/-- R311, R387 to R389: the requests of a load or store, one for each participant at its address, or two halves of 16 bytes;
`kind` says what a half of a lane does. -/
def Issue.asks (c : Issue) (sca x2 : Bool) (n : Nat) (at_ : Nat → Nat) (kind : Nat → Nat → AccKind) : List Req :=
  (c.parts sca).flatMap fun l =>
    if x2 then [⟨l, 0, at_ l, 8, kind l 0⟩, ⟨l, 1, at_ l + 8, 8, kind l 1⟩] else [⟨l, 0, at_ l, n, kind l 0⟩]

/-- R91: the state with the report of a walk that met an entry with a reserved bit. -/
def walked (s : State) (c : Issue) (va : Nat) : State :=
  match walkBad s c.isl c.part va with
  | some e => report s 0 18 [c.isl, e]
  | none => s

/-- R91, R102, R103, R184, R189 to R192, R203, R215, R385: where an instruction that accesses memory does not access it, in the
order of its checks: a peer outside the span; an address that is no multiple of the access's size; an offset outside the
reservation and the barrier window; a write to the window; a page without a mapping or permission, which traps where the class
has a trap entry and else parks the thread; a store to a sealed page; and a poisoned byte that no cached copy serves. -/
def AccessTraps (i : Instr) (h : Head) (sca : Bool) (srcs : List Src) (x : Reach) (acc : Acc) (reads rel : Bool) (align : Nat)
    (at_ : State → Issue → List Nat) (rs : State → Issue → List Req) : Prop :=
  let k : Kind := if sca then .sca else .vec
  let spans (s : State) (c : Issue) : Prop := c.exec ≠ 0 ∧ c.ordered s rel ∧ ∀ q, x = .peer q → c.tm.inSpan (x.core c) = true
  let fits (s : State) (c : Issue) : Prop := spans s c ∧ ∀ a ∈ at_ s c, a % align = 0
  let lies (c : Issue) (p : Place) (r : Req) : Bool := placeOf c.tm.hdr.scr r.va r.size == p
  let local_ : Prop := x ≠ .global ∧ x ≠ .const
  let fails (s : State) (c : Issue) : Option (Nat × Bool) := (rs s c).findSome? fun r =>
    match c.xlate s r.va acc with
    | .fault p _ => some (r.va, p)
    | _ => none
  let sealed (s : State) (c : Issue) : Option Nat := (rs s c).findSome? fun r =>
    match c.xlate s r.va acc with
    | .sealedStore => some r.va
    | _ => none
  let calm (s : State) : Prop := s.core.ops = [] ∧ s.mem.l1 = [] ∧ s.mem.ccache = []
  (∀ q, x = .peer q → Traps i h k srcs (fun s c => c.exec ≠ 0 ∧ c.ordered s rel ∧ c.tm.inSpan (x.core c) = false) .clusterSpan
    (fun _ _ => w64 q)) ∧
  (∀ v, Traps i h k srcs (fun s c => spans s c ∧ ((at_ s c).map x.shown).find? (fun a => a % align != 0) = some v) .misaligned
    (fun _ _ => w64 v)) ∧
  (∀ r, local_ → Traps i h k srcs (fun s c => fits s c ∧ (rs s c).find? (lies c .outside) = some r) .permission
    (fun _ _ => w64 (r.va % 2 ^ 32))) ∧
  (∀ r, local_ → acc ≠ .read → Traps i h k srcs
    (fun s c => fits s c ∧ (rs s c).find? (lies c .outside) = none ∧ (rs s c).find? (lies c .window) = some r) .barrierWindow
    (fun _ _ => w64 r.va)) ∧
  (∀ va p, ¬ local_ → ∀ s c, Clear s h k srcs c → fits s c → fails s c = some (va, p) →
    (c.canTrap → exec i s = .next (commit s
      (c.traps (walked s c va) (if p then .permission else .translation) (w64 va) c.addr))) ∧
    (c.r.handler = false → trapEntry c.tm c.th.m = none → s.par.faults.length < 256 → Gives (exec i s) fun t =>
      let key : FaultKey := ⟨c.isl, c.part, va / 65536 % 2 ^ 36, p, true⟩
      (t.thread? c.th).map (fun r => (r.wait.parked, r.clause, r.slot)) = some (some key, c.r.clause, c.r.slot) ∧
      t.focus = none ∧ ∃ e ∈ t.par.faults, e.key = key)) ∧
  (∀ va, ¬ local_ → Traps i h k srcs (fun s c => fits s c ∧ fails s c = none ∧ sealed s c = some va) .sealedStore
    (fun _ _ => w64 va)) ∧
  (∀ va, ¬ local_ → reads = true → Traps i h k srcs (fun s c => fits s c ∧ fails s c = none ∧ sealed s c = none ∧ calm s ∧
    ((rs s c).findSome? fun r =>
      match c.xlate s r.va acc with
      | .ok pa _ _ => (s.mem.poisonedAt c.isl pa r.size).map fun b => r.va + (b - pa)
      | _ => none) = some va) .uncorrectable (fun _ _ => w64 (va % 2 ^ 52))) ∧
  (∀ va, local_ → reads = true → Traps i h k srcs (fun s c => fits s c ∧ calm s ∧ (∀ r ∈ rs s c, lies c .reserved r = true) ∧
    ((rs s c).findSome? fun r =>
      let o := c.tm.base (x.core c) + r.va
      (s.mem.spadPoisonedAt c.isl (x.core c) o r.size).map fun b => r.va + (b - o)) = some va) .uncorrectable
    (fun _ _ => w64 (2 ^ 56 + va % 2 ^ 52)))

/-- Where a load does not read. -/
def LoadTraps (i : Instr) (h : Head) (sca : Bool) (x : Reach) (ty : Ty) (x2 : Bool) (ofs : Nat) (a b : Src) : Prop :=
  let at_ (s : State) (c : Issue) (l : Nat) : Nat := x.wrap ((effBase s c sca a b l + ofs * (ty.bits / 8)) % 2 ^ 64)
  AccessTraps i h sca [a, b] x .read true false (if x2 then 16 else ty.bits / 8) (fun s c => (c.parts sca).map (at_ s c))
    (fun s c => c.asks sca x2 (ty.bits / 8) (at_ s c) fun _ _ => .read)

/-- Where a store does not write. -/
def StoreTraps (i : Instr) (h : Head) (sca : Bool) (x : Reach) (ty : Ty) (ord : Ord) (x2 : Bool) (ofs : Nat) (a b : Src) : Prop :=
  let at_ (s : State) (c : Issue) (l : Nat) : Nat := x.wrap ((effBase s c sca a b l + ofs * (ty.bits / 8)) % 2 ^ 64)
  AccessTraps i h sca (a :: b :: dataSrcs sca h.d (valueRegs sca ty x2)) x .write false (ord == .rel)
    (if x2 then 16 else ty.bits / 8) (fun s c => (c.parts sca).map (at_ s c))
    (fun s c => c.asks sca x2 (ty.bits / 8) (at_ s c) fun l k => .write (storeWord s c h sca ty l k))

/-- Where an atomic or a reduction does not act. -/
def AtomTraps (i : Instr) (h : Head) (sca : Bool) (x : Reach) (srcs : List Src) (ty : Ty) (ord : Ord) (op : AOp) (ofs : Nat)
    (a b : Src) : Prop :=
  let at_ (s : State) (c : Issue) (l : Nat) : Nat :=
    if x = .own then (rd32 s c ⟨sca, 1⟩ a l).toNat + ofs * (ty.bits / 8)
    else ((rd64 s c ⟨sca, 1⟩ a l).toNat + ofs * (ty.bits / 8)) % 2 ^ 64
  AccessTraps i h sca srcs x .atomic true (ord == .rel || ord == .acqrel) (ty.bits / 8)
    (fun s c => (c.parts sca).map (at_ s c))
    (fun s c => c.asks sca false (ty.bits / 8) (at_ s c) fun l _ =>
      .atomic op ty (atomB s c sca ty b l) (atomCmp s c h sca ty op l))

/-! ### Operations that act once -/

/-- An instruction that waits for its order: where it does not execute it only moves on; where its order allows it and a
condition on the state and its operands holds, it answers one next state. -/
def Acts (i : Instr) (h : Head) (k : Kind) (srcs : List Src) (rel : Bool) (p : State → Issue → Prop)
    (t : State → Issue → State) : Prop :=
  ∀ s c, Clear s h k srcs c → Plain c →
    (c.exec = 0 → exec i s = .next (c.passes s)) ∧ (c.exec ≠ 0 → c.ordered s rel → p s c → exec i s = .next (t s c))

/-- The operation of an instruction whose result is one word known at issue. -/
def Issue.returns (c : Issue) (s : State) (h : Head) (v : W64) : Op :=
  { c.op s h true (.sca h.d 1) (.value [v] 0) with mem := true }

/-- The operation of an instruction without a result. -/
def Issue.plain (c : Issue) (s : State) (h : Head) : Op := { c.op s h true .none .plain with mem := true }

/-- R402: a group of the team; of one that takes members, the strand holds an effective membership. -/
def Issue.inGroup (c : Issue) (g : Nat) (member : Bool) : Prop :=
  g < c.tm.groups.length ∧ (member = true → c.mr.groups.contains (g, true) = true)

/-- R40, R408, R410, R411: the fabric interface takes requests to the island of a pointer: no reserved bit is set, the island
is present, and a channel, where one is named, is open to that island and, unless it is broken, has room. -/
def Issue.admits (c : Issue) (s : State) (och : Option Nat) (p : Nat) : Prop :=
  nbits p 63 61 = 0 ∧ nbits p 55 52 = 0 ∧ present s (nbits p 60 56) = true ∧
  ∀ ch, och = some ch → ∃ x, c.chan? s ch = some x ∧ x.closing = false ∧ x.isl = nbits p 60 56 ∧
    (x.broken = true ∨ x.unacked + chanQueued s c ch < 2048)

/-- The state after an instruction that starts a remote operation with its requests (R35, R39); a request that fails at
once shows in the thread's record (R416). -/
def Issue.sends (c : Issue) (s : State) (s' : State) (o : Op) (och : Option Nat) (rs : List RemoteReq) : State :=
  let s1 := startRemote s' c o och rs
  commit s (c.advance s1 ((s1.thread? c.th).getD c.raised) [])

/-- A range of an island's memory has taken bytes; no other byte, scratchpad or accumulator word has changed. -/
structure Wrote (s t : State) (isl pa : Nat) (bs : List Byte) : Prop where
  bytes : ∀ i a, a < 2 ^ 39 → t.mem.byte i a =
    if i = isl ∧ pa ≤ a ∧ a < pa + bs.length then bs.getD (a - pa) 0 else s.mem.byte i a
  spads : t.mem.spad = s.mem.spad
  accs : t.mem.acc = s.mem.acc

/-- R92: an access of a device to a partition's memory reaches an address. -/
def Lands (s : State) (isl part va n : Nat) (acc : Acc) (reads : Bool) (pa : Nat) : Prop :=
  (∃ sl, access s isl part va n acc reads = .ok (pa, sl)) ∧ pa + n ≤ 2 ^ 39

/-! ### Events -/

/-- An event takes place: it leads to a state. -/
def Occurs (i : Instr) (s t : State) : Prop := exec i s = .next (commit s t)

/-- R63: a Redfish request for a scope, one partition or the system, leads to a state where its credentials admit it, and is
refused where they do not; outside the management VLAN it has no effect. -/
def Asked (i : Instr) (s : State) (scope : Option Nat) (t : State) : Prop :=
  (s.cred.mgmt = true → s.cred.may scope = true → Occurs i s t) ∧
  (s.cred.mgmt = true → s.cred.may scope = false → Occurs i s (refuse s 11)) ∧
  (s.cred.mgmt = false → Occurs i s s)

/-- A request stands at its destination, which takes it in, finds its topology not too old (R53), accepts its key, and finds it
next in its channel's order. -/
structure Received (s : State) (op : PktOp) (p : Packet) : Prop where
  named : occPacket s = some p
  kind : p.op = op
  here : arrived s p = true
  taken : takesIn s p = true
  fresh : tooOld s p = false
  key : authentic s p = true
  turn : inTurn s p = true

/-- A reply stands at its source, which takes it in and accepts its key, and its request was sent and is outstanding. -/
structure Replied (s : State) (op : PktOp) (p : Packet) (t : Txn) : Prop where
  named : occPacket s = some p
  kind : p.op = op
  here : arrived s p = true
  taken : takesIn s p = true
  key : authentic s p = true
  first : p.ofReply = false
  request : s.txn? p.dest p.tag = some t
  sent : t.injected = true

/-! ### Steps -/

/-- The machine is about to execute the slot of a thread: it is in issue and the schedule names nothing else first, or the
schedule names it next. -/
def Runs (s u : State) (c : Issue) : Prop :=
  (s.sched = [] ∧ s.focus = some c.th ∧ mayIssue s c.th = true ∧ issue? s = some c ∧ u = s) ∨
  (∃ cs, s.sched = .issue c.th :: cs ∧ mayIssue s c.th = true ∧ u = { s with sched := cs, focus := some c.th } ∧
    issue? u = some c)

/-- The value of a magnitude m * 2^e. -/
def magnitude (m : Nat) (e : Int) : ℚ := m * (2 : ℚ) ^ e

end Sys2Proof.Machine
end

