-- ==== Sys2Proof/Certificates/Slice0/Obligations.lean ====
section
/-! DEFINITION. The statements for the provers. Each is a definition of a proposition and proves nothing here; its
docstring names the rules of spec/ that it rests on. A statement about an instruction is about its whole issue: what the
thread, the registers, memory and the operations in flight are afterwards, given that the thread waits for nothing and its
guards agree (`Clear`, `Plain`). -/

open Sys2Proof Sys2Proof.Machine

/-- R332: IADD, ISUB, INEG, IMUL, IMULH, IMIN, IMAX and IABS, lane by lane and once: exact arithmetic on the operands as
the type reads them, saturated where the form saturates, taken modulo 2^Wd. R333: IMAD on 32 bits lane by lane and on 64
bits once; IMADW multiplies two 32-bit operands, signed or unsigned, and adds a 64-bit one. R334: IADDC adds the carry
predicate where it is used, and writes the carry out of the width into its predicate in the lanes that execute, whatever
K says; p7 ignores the write (R156). R335, R300: IDIV and IREM start operations whose results are the truncated quotient
and the remainder with the dividend's sign; division by zero gives all ones and the dividend, and MIN by -1 gives MIN
and zero. COMPLETION: for every state and operands that meet the conditions written before it, which are on the state
and the operands alone, the conclusion is that Sys2Proof.Machine.exec i s answers a next state, for i = iaddVector,
iaddScalar, isubVector, isubScalar, iaddcVector, iaddcScalar, inegVector, inegScalar, imulVector, imulScalar,
imulhVector, imulhScalar, imadVector, imadScalar, imadwI32Vector, imadwI32Scalar, imadwN32Vector, imadwN32Scalar,
idivVector, idivScalar, iremVector, iremScalar, iminVector, iminScalar, imaxVector, imaxScalar, iabsVector, iabsScalar.
-/
def Obligations.IntegerArithmetic : Prop :=
  (∀ (h : Head) (ty : Ty) (sat : Bool) (a b : Src),
     let top (x : Int) : Int := if sat then max ty.minOf (min ty.maxOf x) else x
     Int2 (.iaddVector h ty sat a b) (.iaddScalar h ty sat a b) h ty a b (fun x y => top (ty.read x + ty.read y)) ∧
     Int2 (.isubVector h ty sat a b) (.isubScalar h ty sat a b) h ty a b (fun x y => top (ty.read x - ty.read y)) ∧
     Int1 (.inegVector h ty sat a) (.inegScalar h ty sat a) h ty a (fun x => top (-ty.read x)) ∧
     Int1 (.iabsVector h ty sat a) (.iabsScalar h ty sat a) h ty a (fun x => top |ty.read x|) ∧
     Int2 (.imulVector h ty a b) (.imulScalar h ty a b) h ty a b (fun x y => ty.read x * ty.read y) ∧
     Int2 (.imulhVector h ty a b) (.imulhScalar h ty a b) h ty a b (fun x y => ty.read x * ty.read y / 2 ^ ty.bits) ∧
     Int2 (.iminVector h ty a b) (.iminScalar h ty a b) h ty a b (fun x y => min (ty.read x) (ty.read y)) ∧
     Int2 (.imaxVector h ty a b) (.imaxScalar h ty a b) h ty a b (fun x y => max (ty.read x) (ty.read y))) ∧
  (∀ (h : Head) (a b d : Src),
     Int3 (.imadVector h a b d) (.imadScalar h a b d) h .n64 a b d (fun x y z => x * y + z) (fun x y z => x * y + z) ∧
     VecInt (.imadwI32Vector h a b d) h ([a, b] ++ pairSrc d) .n64 (fun s c l =>
       (rd32 s c (uV 1) a l).toInt * (rd32 s c (uV 2) b l).toInt + (rd64 s c (uV 3) d l).toNat) ∧
     VecInt (.imadwN32Vector h a b d) h ([a, b] ++ pairSrc d) .n64 (fun s c l =>
       ((rd32 s c (uV 1) a l).toNat * (rd32 s c (uV 2) b l).toNat + (rd64 s c (uV 3) d l).toNat : Nat)) ∧
     ScaInt (.imadwI32Scalar h a b d) h [a, b, d] .n64 (fun s c l =>
       (rd32 s c (uS 1) a l).toInt * (rd32 s c (uS 2) b l).toInt + (rd64 s c (uS 3) d l).toNat) ∧
     ScaInt (.imadwN32Scalar h a b d) h [a, b, d] .n64 (fun s c l =>
       ((rd32 s c (uS 1) a l).toNat * (rd32 s c (uS 2) b l).toNat + (rd64 s c (uS 3) d l).toNat : Nat))) ∧
  (∀ (h : Head) (ty : Ty) (co : Nat) (cie : Bool) (ci : Nat) (a b : Src),
     let sum (s : State) (c : Issue) (u : Bool) (l : Nat) : Nat :=
       rdI s c ⟨u, 1⟩ ty a l + rdI s c ⟨u, 2⟩ ty b l + (cie && (predMask s c.th.m ci).getLsbD l).toNat
     let carries (s : State) (c : Issue) (u : State) (f : Nat → Nat) (t : State) : Prop :=
       t = { u with core := { u.core with pred := t.core.pred }, mem := { u.mem with poison := t.mem.poison } } ∧
       (co ≠ 7 → ∀ l, l < 32 → (t.core.pred.getD (c.th.m, co) 0).getLsbD l =
         if c.exec.getLsbD l then decide (2 ^ ty.bits ≤ f l) else (s.core.pred.getD (c.th.m, co) 0).getLsbD l) ∧
       ∀ m p, co = 7 ∨ m ≠ c.th.m ∨ p ≠ co → t.core.pred.getD (m, p) 0 = s.core.pred.getD (m, p) 0
     Answers (.iaddcVector h ty co cie ci a b) h .vec (srcsI ty a ++ srcsI ty b) (fun s c t =>
       ∃ u, VecDone s c h ty.words (fun l => (wrapTo ty (sum s c false l), 0)) u ∧ carries s c u (sum s c false) t)
       (if cie then [ci] else []) ∧
     Answers (.iaddcScalar h ty co cie ci a b) h .sca [a, b] (fun s c t =>
       ∃ u, ScaDone s c h ty.words (extendTo ty (wrapTo ty (sum s c true c.low)), 0) u ∧
         carries s c u (fun _ => sum s c true c.low) t) (if cie then [ci] else [])) ∧
  (∀ (h : Head) (ty : Ty) (a b : Src),
     let quot (x y : Nat) : Int :=
       if ty.read y = 0 then -1 else if ty.signed ∧ ty.read x = ty.minOf ∧ ty.read y = -1 then ty.minOf
       else (ty.read x).tdiv (ty.read y)
     let rem (x y : Nat) : Int :=
       if ty.read y = 0 then ty.read x else if ty.signed ∧ ty.read x = ty.minOf ∧ ty.read y = -1 then 0
       else (ty.read x).tmod (ty.read y)
     let vec (f : Nat → Nat → Int) (s : State) (c : Issue) (l : Nat) : W64 × Nat :=
       (wrapTo ty (f (rdI s c (uV 1) ty a l) (rdI s c (uV 2) ty b l)), 0)
     let sca (f : Nat → Nat → Int) (s : State) (c : Issue) : W64 × Nat :=
       (extendTo ty (wrapTo ty (f (rdI s c (uS 1) ty a c.low) (rdI s c (uS 2) ty b c.low))), 0)
     Later (.idivVector h ty a b) (.idivScalar h ty a b) h (srcsI ty a ++ srcsI ty b) [a, b] ty.words (vec quot) (sca quot) ∧
     Later (.iremVector h ty a b) (.iremScalar h ty a b) h (srcsI ty a ++ srcsI ty b) [a, b] ty.words (vec rem) (sca rem))

/-- R336: ICMP compares its operands as the type reads them; a condition that is not for integers counts as GE.
COMPLETION: for every state and operands that meet the conditions written before it, which are on the state and the
operands alone, the conclusion is that Sys2Proof.Machine.exec i s answers a next state, for i = icmpVector, icmpScalar.
-/
def Obligations.Comparison : Prop :=
  ∀ (h : Head) (ty : Ty) (cond : Cond) (a b : Src),
    Pred1 (.icmpVector h ty cond a b) (.icmpScalar h ty cond a b) h (srcsI ty a ++ srcsI ty b) [a, b] fun s c u l =>
      let x := ty.read (rdI s c ⟨u, 1⟩ ty a l)
      let y := ty.read (rdI s c ⟨u, 2⟩ ty b l)
      (match cond with
        | .eq => decide (x = y)
        | .ne => decide (x ≠ y)
        | .lt => decide (x < y)
        | .le => decide (x ≤ y)
        | .gt => decide (x > y)
        | _ => decide (x ≥ y), 0)

/-- R337, R338: SEL picks A where its predicate holds and B elsewhere; MOV copies; MOVI delivers its signed immediate;
MOVH replaces 16 bits of A and keeps the others. R344, R345: PERM builds four bytes from the eight of B:A, each chosen
by a selector that can ask for its sign instead; LEA adds a scaled index; SXT sign-extends or zero-extends a part of a
word. R346: PLOP looks three predicates up in its table; P2V gathers predicates as bits; V2P makes a predicate of a bit.
COMPLETION: for every state and operands that meet the conditions written before it, which are on the state and the
operands alone, the conclusion is that Sys2Proof.Machine.exec i s answers a next state, for i = selVector, selScalar,
movVector, movScalar, moviVector, moviScalar, movhVector, movhScalar, permVector, permScalar, leaVector, leaScalar,
sxtVector, sxtScalar, plopVector, plopScalar, p2vVector, p2vScalar, v2pVector, v2pScalar. -/
def Obligations.Moves : Prop :=
  (∀ (h : Head) (ty : Ty) (pr : Nat) (neg : Bool) (a b : Src) (w : BitVec 24) (q : Nat) (w16 : BitVec 16),
     let pick (s : State) (c : Issue) (u : Bool) (l : Nat) : Int :=
       if (predMask s c.th.m pr).getLsbD l != neg then rdI s c ⟨u, 1⟩ ty a l else rdI s c ⟨u, 2⟩ ty b l
     let put (x : Nat) : Int := x / 2 ^ (16 * q + 16) * 2 ^ (16 * q + 16) + w16.toNat * 2 ^ (16 * q) + x % 2 ^ (16 * q)
     VecInt (.selVector h ty pr neg a b) h (srcsI ty a ++ srcsI ty b) ty (fun s c l => pick s c false l) [pr] ∧
     ScaInt (.selScalar h ty pr neg a b) h [a, b] ty (fun s c l => pick s c true l) [pr] ∧
     Int1 (.movVector h ty a) (.movScalar h ty a) h ty a (fun x => x) ∧
     VecInt (.moviVector h w) h [] .n32 (fun _ _ _ => w.toInt) ∧
     ScaInt (.moviScalar h w) h [] .n64 (fun _ _ _ => w.toInt) ∧
     VecInt (.movhVector h q w16 a) h [a] .n32 (fun s c l => put (rdI s c (uV 1) .n32 a l)) ∧
     ScaInt (.movhScalar h q w16 a) h [a] .n64 (fun s c l => put (rdI s c (uS 1) .n64 a l))) ∧
  (∀ (h : Head) (ty : Ty) (sh : Nat) (w64 : Bool) (a b d : Src),
     let perm (x y z : Nat) : Int :=
       (((List.range 4).map fun i =>
         let sel := z / 16 ^ i % 16
         let byte := (x % 2 ^ 32 + y % 2 ^ 32 * 2 ^ 32) / 256 ^ (sel % 8) % 256
         (if 8 ≤ sel then (if 128 ≤ byte then 255 else 0) else byte) * 256 ^ i).sum : Nat)
     Int3 (.permVector h a b d) (.permScalar h a b d) h .n32 a b d perm perm ∧
     VecInt (.leaVector h ty sh a b) h (pairSrc a ++ srcsI ty b) .n64
       (fun s c l => (rd64 s c (uV 1) a l).toNat + ty.read (rdI s c (uV 2) ty b l) * 2 ^ sh) ∧
     ScaInt (.leaScalar h ty sh a b) h [a, b] .n64
       (fun s c l => (rd64 s c (uS 1) a l).toNat + ty.read (rdI s c (uS 2) ty b l) * 2 ^ sh) ∧
     VecInt (.sxtVector h ty w64 a) h [a] (if w64 then .n64 else .n32) (fun s c l => ty.read (rd32 s c (uV 1) a l).toNat) ∧
     ScaInt (.sxtScalar h ty w64 a) h [a] .n64 (fun s c l => ty.read (rd32 s c (uS 1) a l).toNat)) ∧
  (∀ (h : Head) (pa pb pc n : Nat) (lut mask : BitVec 8) (a : Src),
     let at_ (s : State) (c : Issue) (p l : Nat) : Nat := ((predMask s c.th.m p).getLsbD l).toNat
     let gather (s : State) (c : Issue) (l : Nat) : Int :=
       (((List.range 8).map fun i => if mask.getLsbD i then at_ s c i l * 2 ^ i else 0).sum : Nat)
     let read : List Nat := (List.range 8).filter fun i => mask.getLsbD i
     Pred1 (.plopVector h pa pb pc lut) (.plopScalar h pa pb pc lut) h [] []
       (fun s c _ l => (lut.getLsbD (4 * at_ s c pa l + 2 * at_ s c pb l + at_ s c pc l), 0)) [pa, pb, pc] ∧
     VecInt (.p2vVector h mask) h [] .n32 gather read ∧
     ScaInt (.p2vScalar h mask) h [] .n64 gather read ∧
     VecPred (.v2pVector h n a) h [a] (fun s c l => ((rd32 s c (uV 1) a l).getLsbD n, 0)) ∧
     ScaPred (.v2pScalar h n a) h [a] (fun s c l => ((rd64 s c (uS 1) a l).getLsbD n, 0)))

/-- R339: AND, OR, XOR and ANDN bit by bit. R342, R343: BFX extracts and BFI inserts the field that a position and a
length name, both clamped to the width; POPC counts ones, CLZ leading zeros, and BREV reverses the bits. COMPLETION: for
every state and operands that meet the conditions written before it, which are on the state and the operands alone, the
conclusion is that Sys2Proof.Machine.exec i s answers a next state, for i = andVector, andScalar, orVector, orScalar,
xorVector, xorScalar, andnVector, andnScalar, bfxVector, bfxScalar, bfiVector, bfiScalar, popcVector, popcScalar,
clzVector, clzScalar, brevVector, brevScalar. -/
def Obligations.LogicAndBitFields : Prop :=
  (∀ (h : Head) (ty : Ty) (a b : Src),
     Int2 (.andVector h ty a b) (.andScalar h ty a b) h ty a b (fun x y => (x &&& y : Nat)) ∧
     Int2 (.orVector h ty a b) (.orScalar h ty a b) h ty a b (fun x y => (x ||| y : Nat)) ∧
     Int2 (.xorVector h ty a b) (.xorScalar h ty a b) h ty a b (fun x y => (x ^^^ y : Nat)) ∧
     Int2 (.andnVector h ty a b) (.andnScalar h ty a b) h ty a b 
       (fun x y => (BitVec.ofNat 64 x &&& ~~~BitVec.ofNat 64 y).toNat)) ∧
  (∀ (h : Head) (ty : Ty) (a b d : Src),
     let pos (y wd : Nat) : Nat := min (y % 256) wd
     let len (y wd : Nat) : Nat := min (y / 256 % 256) (wd - pos y wd)
     let extract (x y : Nat) : Int :=
       let f := x / 2 ^ pos y ty.bits % 2 ^ len y ty.bits
       if ty.signed ∧ 0 < len y ty.bits ∧ 2 ^ (len y ty.bits - 1) ≤ f then (f : Int) - 2 ^ len y ty.bits else f
     let insert (wd x y z : Nat) : Int :=
       (x / 2 ^ (pos z wd + len z wd) * 2 ^ (pos z wd + len z wd) + y % 2 ^ len z wd * 2 ^ pos z wd + x % 2 ^ pos z wd : Nat)
     Int2 (.bfxVector h ty a b) (.bfxScalar h ty a b) h ty a b extract ∧
     Int3 (.bfiVector h a b d) (.bfiScalar h a b d) h .n64 a b d (insert 32) (insert 64) ∧
     Int1 (.popcVector h ty a) (.popcScalar h ty a) h ty a (fun x => ((List.range ty.bits).filter x.testBit).length) ∧
     Int1 (.clzVector h ty a) (.clzScalar h ty a) h ty a
       (fun x => if x = 0 then ty.bits else (ty.bits - 1 - Nat.log2 x : Nat)) ∧
     Int1 (.brevVector h ty a) (.brevScalar h ty a) h ty a (fun x =>
       ((List.range ty.bits).map fun i => if x.testBit (ty.bits - 1 - i) then 2 ^ i else 0).sum))

/-- R340, R341: a shift by the width or more gives zero, or the sign for SAR; SHF takes 32 bits of the 64-bit A:B.
COMPLETION: for every state and operands that meet the conditions written before it, which are on the state and the
operands alone, the conclusion is that Sys2Proof.Machine.exec i s answers a next state, for i = shlVector, shlScalar,
shrVector, shrScalar, sarVector, sarScalar, shfVector, shfScalar. -/
def Obligations.Shifts : Prop :=
  ∀ (h : Head) (ty : Ty) (a b d : Src), ty.bits = 32 ∨ ty.bits = 64 →
    let n (y : Nat) : Nat := y % 2 ^ 32
    let sgn (x : Nat) : Int := if 2 ^ (ty.bits - 1) ≤ x then (x : Int) - 2 ^ ty.bits else x
    let funnel (x y z : Nat) : Int := (x % 2 ^ 32 * 2 ^ 32 + y % 2 ^ 32) / 2 ^ (z % 64) % 2 ^ 32
    Int2 (.shlVector h ty a b) (.shlScalar h ty a b) h ty a b
      (fun x y => if n y < ty.bits then x * 2 ^ n y else 0) ∧
    Int2 (.shrVector h ty a b) (.shrScalar h ty a b) h ty a b
      (fun x y => if n y < ty.bits then x / 2 ^ n y else 0) ∧
    Int2 (.sarVector h ty a b) (.sarScalar h ty a b) h ty a b
      (fun x y => if n y < ty.bits then sgn x / 2 ^ n y else if 2 ^ (ty.bits - 1) ≤ x then -1 else 0) ∧
    Int3 (.shfVector h a b d) (.shfScalar h a b d) h .n32 a b d funnel funnel

/-- R362 to R364: FADD, FSUB, FMUL and FFMA round their exact result once; FMIN and FMAX pick an operand; FABS clears
and FNEG inverts the sign bit without a flag. COMPLETION: for every state and operands that meet the conditions written
before it, which are on the state and the operands alone, the conclusion is that Sys2Proof.Machine.exec i s answers a
next state, for i = faddVector, faddScalar, fsubVector, fsubScalar, fmulVector, fmulScalar, ffmaVector, ffmaScalar,
fminVector, fminScalar, fmaxVector, fmaxScalar, fabsVector, fabsScalar, fnegVector, fnegScalar. -/
def Obligations.FloatArithmetic : Prop :=
  ∀ (h : Head) (ty : Ty) (rnd : Rnd) (a b d : Src),
    Flt2 (.faddVector h ty rnd a b) (.faddScalar h ty rnd a b) h ty a b
      (fun x y => ty.fmt.add rnd (ty.fmt.val x) (ty.fmt.val y)) ∧
    Flt2 (.fsubVector h ty rnd a b) (.fsubScalar h ty rnd a b) h ty a b
      (fun x y => ty.fmt.add rnd (ty.fmt.val x) ((ty.fmt.val y).negate true)) ∧
    Flt2 (.fmulVector h ty rnd a b) (.fmulScalar h ty rnd a b) h ty a b
      (fun x y => ty.fmt.mulR rnd (ty.fmt.val x) (ty.fmt.val y)) ∧
    Flt3 (.ffmaVector h a b d) (.ffmaScalar h a b d) h .f32 a b d
      (fun x y z => Ty.f32.fmt.fma (Ty.f32.fmt.val x) (Ty.f32.fmt.val y) (Ty.f32.fmt.val z)) ∧
    Flt2 (.fminVector h ty a b) (.fminScalar h ty a b) h ty a b (ty.fmt.minmax false) ∧
    Flt2 (.fmaxVector h ty a b) (.fmaxScalar h ty a b) h ty a b (ty.fmt.minmax true) ∧
    Flt1 (.fabsVector h ty a) (.fabsScalar h ty a) h ty a (fun x => (x % 2 ^ ty.fmt.sb, 0)) ∧
    Flt1 (.fnegVector h ty a) (.fnegScalar h ty a) h ty a (fun x => (x ^^^ 2 ^ ty.fmt.sb, 0))

/-- R365, R366: FCMP compares, a NaN leaving only NE and the unordered conditions; FCLASS writes one bit of its class,
or a test of the class into a predicate. COMPLETION: for every state and operands that meet the conditions written
before it, which are on the state and the operands alone, the conclusion is that Sys2Proof.Machine.exec i s answers a
next state, for i = fcmpVector, fcmpScalar, fclassVector, fclassScalar. -/
def Obligations.FloatPredicates : Prop :=
  ∀ (h : Head) (ty : Ty) (cond : Cond) (test : ClassTest) (a b : Src),
    Pred1 (.fcmpVector h ty cond a b) (.fcmpScalar h ty cond a b) h [a, b] [a, b]
      (fun s c u l => ty.fmt.compare cond (rdF s c ⟨u, 1⟩ ty a l) (rdF s c ⟨u, 2⟩ ty b l)) ∧
    Flt1 (.fclassVector h ty none a) (.fclassScalar h ty none a) h ty a (fun x => (2 ^ ty.fmt.cls x, 0)) ∧
    Pred1 (.fclassVector h ty (some test) a) (.fclassScalar h ty (some test) a) h [a] [a]
      (fun s c u l => (ty.fmt.test test (rdF s c ⟨u, 1⟩ ty a l), 0))

/-- R367 to R371: FRND, FSCALE, FGETEXP, FCVT, F2I and I2F. COMPLETION: for every state and operands that meet the
conditions written before it, which are on the state and the operands alone, the conclusion is that
Sys2Proof.Machine.exec i s answers a next state, for i = frndVector, frndScalar, fcvtVector, fcvtScalar, f2iVector,
f2iScalar, i2fVector, i2fScalar, fscaleVector, fscaleScalar, fgetexpVector, fgetexpScalar. -/
def Obligations.Conversions : Prop :=
  ∀ (h : Head) (ty src : Ty) (rnd : Rnd) (sat : Bool) (a b : Src),
    Flt1 (.frndVector h ty rnd a) (.frndScalar h ty rnd a) h ty a (ty.fmt.rnd rnd) ∧
    Res32 (.fscaleVector h ty rnd a b) (.fscaleScalar h ty rnd a b) h [a, b]
      (fun s c u l => ty.fmt.scale rnd (rdF s c ⟨u, 1⟩ ty a l) (rd32 s c ⟨u, 2⟩ b l).toInt) ∧
    Flt1 (.fgetexpVector h ty a) (.fgetexpScalar h ty a) h ty a ty.fmt.getexp ∧
    Flt1 (.fcvtVector h ty rnd sat src a) (.fcvtScalar h ty rnd sat src a) h src a (convert ty src rnd sat) ∧
    Answers (.f2iVector h ty rnd src a) h .vec [a] (fun s c => VecDone s c h ty.words fun l =>
      let r := src.fmt.toInt ty rnd (rdF s c (uV 1) src a l)
      (wrapTo (if ty.words = 2 then .n64 else .n32) r.1, r.2)) ∧
    Answers (.f2iScalar h ty rnd src a) h .sca [a] (fun s c =>
      let r := src.fmt.toInt ty rnd (rdF s c (uS 1) src a c.low)
      ScaDone s c h ty.words (BitVec.ofInt 64 r.1, r.2)) ∧
    Answers (.i2fVector h ty rnd src a) h .vec (srcsI src a) (fun s c => VecDone s c h 1 fun l =>
      res64 (ty.fmt.ofInt rnd (src.read (rdI s c (uV 1) src a l)))) ∧
    Answers (.i2fScalar h ty rnd src a) h .sca (srcsI src a) (fun s c =>
      ScaDone s c h 1 (res64 (ty.fmt.ofInt rnd (src.read (rdI s c (uS 1) src a c.low)))))

/-- R372 to R374, R300: FRCP, FSQRT and FDIV, correctly rounded, and FRSQ, FEXP2, FLOG2, FSIN, FCOS and FTANH,
faithfully rounded with the choice that the manual leaves open, start operations whose results are those of their
operands at issue. COMPLETION: for every state and operands that meet the conditions written before it, which are on the
state and the operands alone, the conclusion is that Sys2Proof.Machine.exec i s answers a next state, for i =
frcpVector, frcpScalar, frsqVector, frsqScalar, fsqrtVector, fsqrtScalar, fdivVector, fdivScalar, fexp2Vector,
fexp2Scalar, flog2Vector, flog2Scalar, fsinVector, fsinScalar, fcosVector, fcosScalar, ftanhVector, ftanhScalar. -/
def Obligations.SpecialFunctions : Prop :=
  ∀ (h : Head) (ty : Ty) (rnd : Rnd) (a b : Src),
    Later1 (.frcpVector h ty rnd a) (.frcpScalar h ty rnd a) h ty a
      (fun x => ty.fmt.div rnd (.num false 1 0) (ty.fmt.val x)) ∧
    Later1 (.fsqrtVector h ty rnd a) (.fsqrtScalar h ty rnd a) h ty a (fun x => ty.fmt.sqrt rnd (ty.fmt.val x)) ∧
    Later (.fdivVector h ty rnd a b) (.fdivScalar h ty rnd a b) h [a, b] [a, b] 1
      (fun s c l => res64 (ty.fmt.div rnd (ty.fmt.val (rdF s c (uV 1) ty a l)) (ty.fmt.val (rdF s c (uV 2) ty b l))))
      (fun s c => res64 (ty.fmt.div rnd (ty.fmt.val (rdF s c (uS 1) ty a c.low)) (ty.fmt.val (rdF s c (uS 2) ty b c.low)))) ∧
    Later1 (.frsqVector h ty a) (.frsqScalar h ty a) h ty a (Fun.rsq.apply ty) ∧
    Later1 (.fexp2Vector h ty a) (.fexp2Scalar h ty a) h ty a (Fun.exp2.apply ty) ∧
    Later1 (.flog2Vector h ty a) (.flog2Scalar h ty a) h ty a (Fun.log2.apply ty) ∧
    Later1 (.fsinVector h ty a) (.fsinScalar h ty a) h ty a (Fun.sin.apply ty) ∧
    Later1 (.fcosVector h ty a) (.fcosScalar h ty a) h ty a (Fun.cos.apply ty) ∧
    Later1 (.ftanhVector h ty a) (.ftanhScalar h ty a) h ty a (Fun.tanh.apply ty)

/-- R375, R376: the packed instructions compute each element as the instruction of its format would; RNENC reduces
modulo 255, 254 and 253 after an optional clamp, and RNDEC recovers the integer. COMPLETION: for every state and
operands that meet the conditions written before it, which are on the state and the operands alone, the conclusion is
that Sys2Proof.Machine.exec i s answers a next state, for i = hadd2Vector, hadd2Scalar, hmul2Vector, hmul2Scalar,
hfma2F16Vector, hfma2F16Scalar, hfma2Bf16Vector, hfma2Bf16Scalar, hmin2Vector, hmin2Scalar, hmax2Vector, hmax2Scalar,
rnencVector, rnencScalar, rndecVector, rndecScalar. -/
def Obligations.PackedAndResidues : Prop :=
  ∀ (h : Head) (ty : Ty) (rnd : Rnd) (negb sat : Bool) (a b d : Src),
    let fma (t : Ty) (x y z : Nat) : Nat × Nat := t.fmt.fma (t.fmt.val x) (t.fmt.val y) (t.fmt.val z)
    let clamp (x : Int) : Int := if sat then max (-8193405) (min 8193404 x) else x
    Pack2 (.hadd2Vector h ty rnd negb a b) (.hadd2Scalar h ty rnd negb a b) h ty a b
      (fun x y => ty.fmt.add rnd (ty.fmt.val x) ((ty.fmt.val y).negate negb)) ∧
    Pack2 (.hmul2Vector h ty rnd a b) (.hmul2Scalar h ty rnd a b) h ty a b
      (fun x y => ty.fmt.mulR rnd (ty.fmt.val x) (ty.fmt.val y)) ∧
    Pack3 (.hfma2F16Vector h a b d) (.hfma2F16Scalar h a b d) h .f16 a b d (fma .f16) ∧
    Pack3 (.hfma2Bf16Vector h a b d) (.hfma2Bf16Scalar h a b d) h .bf16 a b d (fma .bf16) ∧
    Pack2 (.hmin2Vector h ty a b) (.hmin2Scalar h ty a b) h ty a b (ty.fmt.minmax false) ∧
    Pack2 (.hmax2Vector h ty a b) (.hmax2Scalar h ty a b) h ty a b (ty.fmt.minmax true) ∧
    Int1 (.rnencVector h sat a) (.rnencScalar h sat a) h .n32 a (fun x =>
      let v := clamp (Ty.i32.read x)
      v % 255 * 65536 + v % 254 * 256 + v % 253) ∧
    Int1 (.rndecVector h a) (.rndecScalar h a) h .i32 a crt24

/-- R377 to R382: VOTE, SHFL, REDUX, SCAN and MATCH over their participants, which are the lanes that execute.
COMPLETION: for every state and operands that meet the conditions written before it, which are on the state and the
operands alone, the conclusion is that Sys2Proof.Machine.exec i s answers a next state, for i = vote, shfl, redux, scan,
match. -/
def Obligations.CrossLane : Prop :=
  ∀ (h : Head) (ty : Ty) (rnd : Rnd) (op : AOp) (mode : ShflMode) (neg excl : Bool) (pa lg : Nat) (a b : Src),
    let q (s : State) (c : Issue) (l : Nat) : Bool := c.exec.getLsbD l && ((predMask s c.th.m pa).getLsbD l != neg)
    let vote (m : VoteMode) (f : State → Issue → Bool) : Prop :=
      VecPred (.vote h m neg pa) h [] (fun s c _ => (f s c, 0)) [pa]
    let lanes (c : Issue) : List Nat := (List.range 32).filter fun l => c.exec.getLsbD l
    vote .any (fun s c => (lanes c).any (q s c)) ∧
    vote .all (fun s c => (lanes c).all (q s c)) ∧
    vote .uni (fun s c => (lanes c).all (q s c) || (lanes c).all fun l => !q s c l) ∧
    VecInt (.vote h .ballot neg pa) h [] .n32 (fun s c _ => (maskOf (q s c)).toNat) [pa] ∧
    VecInt (.shfl h ty mode lg a b) h (srcsI ty a ++ [b]) ty (fun s c l =>
      let w := 2 ^ lg
      let base := l - l % w
      let x := (rd32 s c (uV 2) b l).toNat
      let j := match mode with
        | .idx => base + x % w
        | .up => if l - base < x then l else l - x
        | .down => if base + w - l ≤ x then l else l + x
        | .xor => base + (l ^^^ x) % w
      rdI s c (uV 1) ty a (if c.exec.getLsbD j then j else l)) ∧
    Answers (.redux h ty rnd op a) h .vec (srcsI ty a) (fun s c => VecDone s c h ty.words fun _ =>
      combine ty rnd op ((lanes c).map (rdX s c ty a))) ∧
    Answers (.scan h ty rnd op excl a) h .vec (srcsI ty a) (fun s c => VecDone s c h ty.words fun l =>
      combine ty rnd op (((lanes c).filter fun j => if excl then j < l else j ≤ l).map (rdX s c ty a))) ∧
    VecInt (.match h ty a) h (srcsI ty a) .n32 (fun s c l => (maskOf fun j => c.exec.getLsbD j &&
      (j == l || rdI s c (uV 1) ty a j == rdI s c (uV 1) ty a l)).toNat)

/-- R348 to R352: a transfer whose active lanes all go to one address, which is a clause, moves the split there whole;
JOIN leaves it held where that address is its target; CALL and CALLX write the link in the lanes that go to the target.
COMPLETION: for every state and operands that meet the conditions written before it, which are on the state and the
operands alone, the conclusion is that Sys2Proof.Machine.exec i s answers a next state, for i = br, bru, brx, call,
callx, ret, join. -/
def Obligations.TransferWhole : Prop :=
  ∀ (h : Head) (w : BitVec 24) (a : Src),
    let whole (i : Instr) (srcs : List Src) (uniform join : Bool) (link : Option Head) (target : State → Issue → Nat → Nat) :
        Prop :=
      ∀ s c x, Clear s h .vecX srcs c → Plain c → c.isLast = true →
        (uniform = true → c.gaffer = true ∨ c.tm.hdr.uchk = false ∨ c.guardDiff s h = 0) →
        (∀ l, l < 32 → c.active.getLsbD l = true → c.heads uniform (target s c) l = x) →
        clauseCheck s c.isl c.part c.core c.tm.hdr x c.cls = .good →
        exec i s = .next (commit s (c.goes (putLink s c link (c.takers uniform))
          (if join && !c.gaffer && !c.r.handler && target s c c.low == x then some x else none) x))
    let offset (_ : State) (c : Issue) (_ : Nat) : Nat := ((BitVec.ofNat 64 c.addr + 8 * w.signExtend 64 : W64)).toNat
    let indirect (s : State) (c : Issue) (l : Nat) : Nat := c.tm.hdr.code + (rd32 s c ⟨c.gaffer, 1⟩ a l).toNat
    whole (.br h w) [] false false none offset ∧
    whole (.bru h w) [] true false none offset ∧
    whole (.brx h a) [a] false false none indirect ∧
    whole (.call h w) [] false false (some h) offset ∧
    whole (.callx h a) [a] false false (some h) indirect ∧
    whole (.ret h a) [a] false false none indirect ∧
    whole (.join h w) [] false true none offset

/-- R163, R165, R348 to R350, R352: where the active lanes of BR, BRX, CALL, CALLX, RET or JOIN go to several addresses
and some is no clause, the target or the fall-through, the lowest failing one raises ILLEGAL_CLAUSE, before any effect.
Where they go to two, the merges that are due coming first (R187), the second group becomes a split where the strand has
fewer than four and the bay's pool has an entry, is pushed where there is no such room, and raises SPLIT_OVERFLOW on a
full stack; JOIN holds the group at its target, and CALL and CALLX write the link in the lanes that go to the target.
COMPLETION: for every state and operands that meet the conditions written before it, which are on the state and the
operands alone, the conclusion is that Sys2Proof.Machine.exec i s answers a next state, for i = br, brx, call, callx,
ret, join. -/
def Obligations.BranchDivides : Prop :=
  ∀ (h : Head) (w : BitVec 24) (a : Src),
    let divides (i : Instr) (srcs : List Src) (join : Bool) (link : Option Head) (target : State → Issue → Nat → Nat) : Prop :=
      ∀ s c, Clear s h .vecX srcs c → Plain c → c.isLast = true → c.gaffer = false → c.r.handler = false →
        let goal (l : Nat) : Nat := c.heads false (target s c) l
        let bad (x : Nat) : Prop := clauseCheck s c.isl c.part c.core c.tm.hdr x c.cls = .bad
        let good (x : Nat) : Prop := clauseCheck s c.isl c.part c.core c.tm.hdr x c.cls = .good
        (∀ v, c.canTrap → (∀ l ∈ lanesIn c.active, good (goal l) ∨ bad (goal l)) → v ∈ (lanesIn c.active).map goal → bad v →
          (∀ l ∈ lanesIn c.active, bad (goal l) → v ≤ goal l) →
          exec i s = .next (commit s (c.traps s .illegalClause (w64 v) c.addr))) ∧
        ∀ (x y : Nat) (m : W32) (mr0 : MemberRec), x ≠ y → m.getLsbD c.low = true → m &&& ~~~c.active = 0 →
          c.active &&& ~~~m ≠ 0 → (∀ l ∈ lanesIn c.active, goal l = if m.getLsbD l then x else y) → good x → good y →
          let s0 := mergeBay s c.isl c.core c.mr.bay
          let room : Prop := liveSplits s0 c.th.m < 4 ∧ 0 < freePool s0 c.isl c.core c.mr.bay
          let rest : W32 := c.active &&& ~~~m
          let path (r : ThreadRec) := (r.pc, r.mask, r.clause, r.wait.join)
          let stands (x : Nat) (m : W32) := (x, m, (none : Option Clause), if join ∧ x = target s c c.low then some x else none)
          s0.member? c.th.m = some mr0 →
          (¬ room → mr0.stack.length = 32 → c.canTrap →
            exec i s = .next (commit s (c.traps s .splitOverflow (rest.setWidth 64) c.addr))) ∧
          (room ∨ mr0.stack.length ≠ 32 → Gives (exec i s) fun t =>
            (t.thread? c.th).map path = some (stands x m) ∧
            (room → mr0.nextSplit ≠ c.th.split → (t.thread? ⟨c.th.m, mr0.nextSplit⟩).map path = some (stands y rest)) ∧
            (¬ room → ((t.member? c.th.m).bind (·.stack.head?)).map (fun e => path e.2) = some (stands y rest)) ∧
            (∀ g, link = some g → g.k = false → ∀ l, l < 32 → vlane t c.th.m g.d l =
              if c.exec.getLsbD l then w32 (c.fall - c.tm.hdr.code) else vlane s c.th.m g.d l) ∧
            (∀ k j, (∀ g, link = some g → g.k = true ∨ k ≠ c.th.m ∨ j ≠ g.d) →
              t.core.vreg.getD (k, j) [] = s.core.vreg.getD (k, j) []) ∧
            t.core.sreg = s.core.sreg ∧ t.core.pred = s.core.pred ∧ Quiet s t)
    let offset (_ : State) (c : Issue) (_ : Nat) : Nat := ((BitVec.ofNat 64 c.addr + 8 * w.signExtend 64 : W64)).toNat
    let indirect (s : State) (c : Issue) (l : Nat) : Nat := c.tm.hdr.code + (rd32 s c (uV 1) a l).toNat
    divides (.br h w) [] false none offset ∧
    divides (.brx h a) [a] false none indirect ∧
    divides (.call h w) [] false (some h) offset ∧
    divides (.callx h a) [a] false (some h) indirect ∧
    divides (.ret h a) [a] false none indirect ∧
    divides (.join h w) [] true none offset

/-- R353, R168: EXIT in some lanes: they take no part in later slots, and results still outstanding for them are
discarded; in every lane left, the split ends, and with its last split the strand. A gaffer context ends at its clause's
end. COMPLETION: for every state and operands that meet the conditions written before it, which are on the state and the
operands alone, the conclusion is that Sys2Proof.Machine.exec i s answers a next state, for i = exit. -/
def Obligations.Exit : Prop :=
  ∀ (h : Head) (s : State) (c : Issue), Clear s h .vecX [] c → Plain c → (∀ id, c.mr.course ≠ .saving id) → c.exec ≠ 0 →
    (c.gaffer = false → c.active &&& ~~~c.exec ≠ 0 → (c.fallsThrough = true → c.checkFall s = .good) → exec (.exit h) s =
      .next (commit s (c.advance (discardLanes s c.th c.exec) { c.r with exited := c.r.exited ||| c.exec } []))) ∧
    (c.gaffer = false → c.exec = c.active → Gives (exec (.exit h) s) fun t =>
      t.thread? c.th = none ∧ t.focus = none ∧ SameMemory s t ∧
      (liveSplits s c.th.m = 1 → c.mr.stack = [] → (t.member? c.th.m).map (·.course) = some .ended)) ∧
    (c.gaffer = true → c.isLast = false → exec (.exit h) s =
      .next (commit s (c.advance s { c.r with ends := c.r.ends ++ [.exitGaffer] } []))) ∧
    (c.gaffer = true → c.isLast = true → (∀ o ∈ s.core.ops, o.heldBy c.th = true → ∀ v, o.act ≠ .pushdq v) →
      Gives (exec (.exit h) s) fun t =>
        t.thread? c.th = none ∧ SameMemory s t ∧ (t.member? c.th.m).map (·.course) = some .ended)

/-- R354: NOP only moves on; YIELD keeps its thread from issuing for 16 times N clocks from the end of its clause, and
YIELD with N zero, or whose guards fail in the lowest active lane, only moves on. COMPLETION: for every state and
operands that meet the conditions written before it, which are on the state and the operands alone, the conclusion is
that Sys2Proof.Machine.exec i s answers a next state, for i = nop, yield. -/
def Obligations.NopYield : Prop :=
  ∀ (h : Head) (n : Nat),
    Leads (.nop h) h .vec [] (fun s c => c.passes s) ∧
    Leads (.yield h n) h .vec [] (fun s c => if c.exec.getLsbD c.low = false ∨ n = 0 then c.passes s
      else c.leaves s (.yield n) fun t => t.setThread c.th { c.past c.r with
        wait := { (c.past c.r).wait with yielded := some (s.clk c.isl + 16 * n) } })

/-- R441, R181: TRAP and BRKPT take their trap when they issue, and EPC names the slot that follows, or the next clause;
the shadow keeps the latches, the clause and slot, and the mask. R183, R184: a trap in a handler, or without a trap
entry for its class, ends the team with the cause as its status. COMPLETION: for every state and operands that meet the
conditions written before it, which are on the state and the operands alone, the conclusion is that
Sys2Proof.Machine.exec i s answers a next state, for i = trap, brkpt. -/
def Obligations.SoftwareTraps : Prop :=
  (∀ (h : Head) (a : Src) (code : Nat) (s : State) (c : Issue),
     let next : Nat := if c.isLast then c.fall else c.addr + 8
     c.canTrap → c.exec ≠ 0 →
     (Clear s h .scaX [a] c →
       exec (.trap h a) s = .next (commit s (c.traps s .software (rd64 s c (uS 1) a c.low) next))) ∧
     (Clear s h .scaX [] c →
       exec (.brkpt h code) s = .next (commit s (c.traps s .breakpoint (w64 code) next)))) ∧
  (∀ (h : Head) (code : Nat) (s : State) (c : Issue), Clear s h .scaX [] c → c.exec ≠ 0 →
     (c.r.handler = true ∨ trapEntry c.tm c.th.m = none) → c.tm.ending = none →
     Gives (exec (.brkpt h code) s) fun t =>
       (t.team? c.isl c.team).map (·.ending) = some (some (0x13, 0)) ∧
       ∀ th, th.m.isl = c.isl → th.m.team = c.team → t.thread? th = none)

/-- R182, R302, R442: RTE goes on in the shadowed clause at the slot that EPC names, with the shadow's latches and mask,
once the effects that the handler's clause left to its end have taken place; after a write of EPC, or where EPC names no
slot of that clause, it goes to the clause at EPC with the lanes of the shadow's mask that had not exited, and a clause
that is none there ends the team. Where its guards fail in the lowest active lane it only moves on; outside a handler it
raises ILLEGAL_OPCODE. That the shadow keeps the exited lanes and what its clause has left to its end are the model's
choices (log entry 17). The model's choice: that lanes which exited in the handler leave the shadowed mask, and that
what the handler's clause and the interrupted clause left to their ends takes place as it does (log entry 17).
COMPLETION: for every state and operands that meet the conditions written before it, which are on the state and the
operands alone, the conclusion is that Sys2Proof.Machine.exec i s answers a next state, for i = yield, rte, sleep. -/
def Obligations.ReturnFromTrap : Prop :=
  ∀ (h : Head) (s : State) (c : Issue), Clear s h .scaX [] c →
    (c.exec = 0 → Plain c → (c.fallsThrough = true → c.checkFall s = .good) → exec (.rte h) s = .next (c.passes s)) ∧
    (∀ sh, c.exec ≠ 0 → c.r.handler = true → c.r.shadow = some sh →
      let away : Prop := c.r.epcSet = true ∨ ∀ cl, sh.clause = some cl → cl.slotAt c.r.epc.toNat = none
      (∀ cl i, c.r.epcSet = false → sh.clause = some cl → i ≤ nbits cl.hdr.toNat 59 56 →
        c.r.epc.toNat = cl.addr + 8 + 8 * i →
        let back (w : Wait) : State := commit s (s.setThread c.th { c.r with
          pc := cl.addr, mask := sh.mask, exited := sh.exited, latches := sh.latches, clause := some cl, slot := i,
          ends := sh.ends, handler := false, shadow := none, wait := w })
        let woken : Prop := c.r.wait.yielded = none ∧ c.r.wait.asleep = none
        (woken → c.handlerEnds = [] → exec (.rte h) s = .next (back c.r.wait)) ∧
        (∀ n, woken → c.handlerEnds = [.yield n] → exec (.rte h) s =
          .next (back { c.r.wait with yielded := some (s.clk c.isl + 16 * n), portless := true })) ∧
        (∀ n, woken → c.handlerEnds = [.sleep n] → 0 < n → c.tm.preempt = none → exec (.rte h) s =
          .next (back { c.r.wait with asleep := some (s.clk c.isl + n), portless := true }))) ∧
      (away → clauseCheck s c.isl c.part c.core c.tm.hdr c.r.epc.toNat c.cls = .good →
        sh.mask &&& ~~~sh.exited ≠ 0 → c.handlerEnds ++ sh.ends = [] → exec (.rte h) s = .next (commit s
          { s.setThread c.th { c.r with
              mask := sh.mask &&& ~~~sh.exited, exited := 0, handler := false, shadow := none, ends := [], clause := none,
              slot := 0, latches := zeroLatches, pc := c.r.epc.toNat } with focus := none })) ∧
      (away → clauseCheck s c.isl c.part c.core c.tm.hdr c.r.epc.toNat c.cls = .bad → c.handlerEnds = [] →
        c.tm.ending = none → Gives (exec (.rte h) s) fun t => (t.team? c.isl c.team).map (·.ending) = some (some (3, 0))) ∧
      ((∃ e ∈ c.handlerEnds, endReady s c.th e = false) → exec (.rte h) s = .next (commit s
        { s.setThread c.th { c.r with wait := { c.r.wait with stalled := true } } with focus := none }))) ∧
    (c.exec ≠ 0 → c.r.handler = false → (trapEntry c.tm c.th.m).isSome = true → exec (.rte h) s = .next (commit s
      (c.traps s .illegalOpcode (w64 (c.cl.words.getD c.r.slot 0).toNat) c.addr)))

/-- R443: SYSRD starts an operation that delivers the register, read at issue or, where it changes on its own, at its
completion; SYSWR clears the FSTAT bits written as 1, clears AMSTAT bit 0, writes EPC inside a handler, and else raises
PERMISSION with the register's number. COMPLETION: for every state and operands that meet the conditions written before
it, which are on the state and the operands alone, the conclusion is that Sys2Proof.Machine.exec i s answers a next
state, for i = sysrd, syswr, syswrEpc, syswrFstat, syswrAmstat. -/
def Obligations.SpecialRegisters : Prop :=
  ∀ (h : Head) (reg : Nat) (a : Src),
    Starts (.sysrd h reg) h .sca [] (fun s c => c.op s h true (.sca h.d 1)
      (if (sysLive s c.th.m c.core reg).isSome then .sysrd reg else .value [sysFixed c reg] 0)) ∧
    Traps (.syswr h reg a) h .sca [a] (fun _ c => c.exec ≠ 0) .permission (fun _ _ => w64 reg) ∧
    Leads (.syswr h reg a) h .sca [a] (fun s c => if c.exec = 0 then c.passes s
      else commit s (takeTrap s c.th .permission (w64 reg) c.addr)) ∧
    Traps (.syswrEpc h a) h .sca [a] (fun _ c => c.exec ≠ 0) .permission (fun _ _ => 0x11) ∧
    (∀ s c, Clear s h .sca [a] c → Plain c → c.exec ≠ 0 → c.r.handler = true → exec (.syswrEpc h a) s =
      .next (commit s (c.advance s { c.r with epc := rd64 s c (uS 1) a 0, epcSet := true } []))) ∧
    Leads (.syswrFstat h a) h .sca [a] (fun s c => if c.exec = 0 then c.passes s
      else commit s (c.advance (s.setMember c.th.m { c.mr with fstat := c.mr.fstat &&& ~~~(rd64 s c (uS 1) a 0) }) c.r [])) ∧
    Leads (.syswrAmstat h a) h .sca [a] (fun s c => if c.exec = 0 ∨ (rd64 s c (uS 1) a 0).getLsbD 0 = false then c.passes s
      else commit s (c.advance { s with mem := { s.mem with ur := s.mem.ur.filter (· ≠ (c.isl, c.core, c.team)) } } c.r []))

/-- R444, R445, R124: SLEEP keeps its thread from issuing for A clocks from the end of its clause, unless a pre-emption
request is open; SAFEPT, at the end of its clause and with a saving request open, writes the safe-point registers and
leads the member's only split to the save routine, and else has no effect. COMPLETION: for every state and operands that
meet the conditions written before it, which are on the state and the operands alone, the conclusion is that
Sys2Proof.Machine.exec i s answers a next state, for i = sleep, safept. -/
def Obligations.SleepAndSafePoint : Prop :=
  ∀ (h : Head) (a : Src) (id : Nat),
    Leads (.sleep h a) h .sca [a] (fun s c => if c.exec = 0 then c.passes s
      else c.leaves s (.sleep (rd64 s c (uS 1) a 0).toNat) fun t =>
        if c.tm.preempt.isSome ∨ rd64 s c (uS 1) a 0 = 0 then t
        else t.setThread c.th { c.past c.r with wait := { (c.past c.r).wait with
          asleep := some (s.clk c.isl + (rd64 s c (uS 1) a 0).toNat) } }) ∧
    (∀ s c, Clear s h .sca [] c → Plain c → c.exec ≠ 0 →
      (c.isLast = false → exec (.safept h id) s =
        .next (commit s (c.advance s { c.r with ends := c.r.ends ++ [.safept id] } []))) ∧
      (c.isLast = true → saves c.tm = false → exec (.safept h id) s = .next (c.passes s)) ∧
      (∀ sp, c.isLast = true → saves c.tm = true →
        c.tm.spts.find? (fun e => e.id = id ∧ e.gaffer = c.gaffer) = some sp → c.r.handler = false →
        liveSplits s c.th.m = 1 → c.mr.stack = [] →
        let b := if c.gaffer then 61 else 189
        Gives (exec (.safept h id) s) fun t =>
          t.thread? c.th = some { c.past c.r with pc := sp.save } ∧
          t.member? c.th.m = some { c.mr with course := .saving id } ∧
          t.core.sreg.getD (c.th.m, b) 0 = w64 id ∧ t.core.sreg.getD (c.th.m, b + 1) 0 = w64 c.th.m.idx ∧
          t.core.sreg.getD (c.th.m, b + 2) 0 = c.tm.task.frame ∧
          (∀ m i, m ≠ c.th.m ∨ i < b ∨ b + 2 < i → t.core.sreg.getD (m, i) 0 = s.core.sreg.getD (m, i) 0) ∧
          t.core.vreg = s.core.vreg ∧ t.core.pred = s.core.pred ∧ Quiet s t))

/-- R384 to R387, R389, R390: LD, LDS, LDX and LDC, lane by lane and once. The model's choice: that an address wraps at
2^64 and which checks of an access come first where it cannot be made (log entry 38). COMPLETION: for every state and
operands that meet the conditions written before it, which are on the state and the operands alone, the conclusion is
that Sys2Proof.Machine.exec i s answers a next state, for i = ldVector, ldScalar, ldsVector, ldsScalar, ldxVector,
ldxScalar, ldcVector, ldcScalar. -/
def Obligations.LoadsStart : Prop :=
  ∀ (h : Head) (ty : Ty) (ord : Ord) (x2 : Bool) (q ofs : Nat) (a b : Src),
    LoadStarts (.ldVector h ty ord x2 ofs a b) h false .global ty ord x2 ofs a b ∧
    LoadStarts (.ldScalar h ty ord x2 ofs a b) h true .global ty ord x2 ofs a b ∧
    LoadStarts (.ldsVector h ty ord x2 ofs a b) h false .own ty ord x2 ofs a b ∧
    LoadStarts (.ldsScalar h ty ord x2 ofs a b) h true .own ty ord x2 ofs a b ∧
    LoadStarts (.ldxVector h ty ord x2 q ofs a b) h false (.peer q) ty ord x2 ofs a b ∧
    LoadStarts (.ldxScalar h ty ord x2 q ofs a b) h true (.peer q) ty ord x2 ofs a b ∧
    LoadStarts (.ldcVector h ty ord x2 ofs a b) h false .const ty ord x2 ofs a b ∧
    LoadStarts (.ldcScalar h ty ord x2 ofs a b) h true .const ty ord x2 ofs a b

/-- R384, R385, R388, R389: ST, STS and STX, lane by lane and once. COMPLETION: for every state and operands that meet
the conditions written before it, which are on the state and the operands alone, the conclusion is that
Sys2Proof.Machine.exec i s answers a next state, for i = stVector, stScalar, stsVector, stsScalar, stxVector, stxScalar.
-/
def Obligations.StoresStart : Prop :=
  ∀ (h : Head) (ty : Ty) (ord : Ord) (x2 : Bool) (q ofs : Nat) (a b : Src),
    StoreStarts (.stVector h ty ord x2 ofs a b) h false .global ty ord x2 ofs a b ∧
    StoreStarts (.stScalar h ty ord x2 ofs a b) h true .global ty ord x2 ofs a b ∧
    StoreStarts (.stsVector h ty ord x2 ofs a b) h false .own ty ord x2 ofs a b ∧
    StoreStarts (.stsScalar h ty ord x2 ofs a b) h true .own ty ord x2 ofs a b ∧
    StoreStarts (.stxVector h ty ord x2 q ofs a b) h false (.peer q) ty ord x2 ofs a b ∧
    StoreStarts (.stxScalar h ty ord x2 q ofs a b) h true (.peer q) ty ord x2 ofs a b

/-- R392, R393: STSB writes single bits of 8-byte words: an element of 4 or 6 bits at an index, which may reach into the
next word, or the bits of a mask; where two lanes write one bit, the higher lane's write stands (R266). The model's
choice: that the element index of a sub-byte store wraps at 2^64 (log entry 38). COMPLETION: for every state and
operands that meet the conditions written before it, which are on the state and the operands alone, the conclusion is
that Sys2Proof.Machine.exec i s answers a next state, for i = stsbElementVector, stsbElementScalar, stsbMaskVector,
stsbMaskScalar. -/
def Obligations.SubByteStoresStart : Prop :=
  ∀ (h : Head) (ty : Ty) (ord : Ord) (ofs : Nat) (a b : Src),
    let w : Nat := if ty = .e2m1 then 4 else 6
    let base (s : State) (c : Issue) (u : Bool) (l : Nat) : Nat := effBase s c u a (.konst .zero) l
    let element (i : Instr) (u : Bool) : Prop :=
      Accesses i h (if u then .sca else .vec) (a :: b :: dataSrcs u h.d 1) .global .write true (ord == .rel) 8
        (fun s c => (c.parts u).map (base s c u))
        (fun s c => (c.parts u).flatMap fun l =>
          let bit := w * ((effBase s c u (.konst .zero) b l + ofs) % 2 ^ 64)
          let word := (base s c u l + 8 * (bit / 64)) % 2 ^ 64
          let sh := bit % 64
          let x := (rd32 s c ⟨u, 0⟩ (dataSrc u h.d) l).toNat % 2 ^ w
          if sh + w ≤ 64 then [⟨l, 0, word, 8, .sub (w64 (x * 2 ^ sh)) (w64 ((2 ^ w - 1) * 2 ^ sh))⟩]
          else [⟨l, 0, word, 8, .sub (w64 (x * 2 ^ sh)) (w64 ((2 ^ (64 - sh) - 1) * 2 ^ sh))⟩,
            ⟨l, 1, (word + 8) % 2 ^ 64, 8, .sub (w64 (x / 2 ^ (64 - sh))) (w64 (2 ^ (w - (64 - sh)) - 1))⟩])
        (fun s c as => { c.op s h u .none .store with accs := disjointSubs as })
    let mask (i : Instr) (u : Bool) (srcs : List Src) : Prop :=
      let at_ (s : State) (c : Issue) (l : Nat) : Nat := (base s c u l + 8 * ofs) % 2 ^ 64
      Accesses i h (if u then .sca else .vec) srcs .global .write true (ord == .rel) 8
        (fun s c => (c.parts u).map (at_ s c))
        (fun s c => (c.parts u).map fun l =>
          ⟨l, 0, at_ s c l, 8, .sub (storeData s c h u l 0) (rd64 s c ⟨u, 2⟩ b l)⟩)
        (fun s c as => { c.op s h u .none .store with accs := disjointSubs as })
    element (.stsbElementVector h ty ord ofs a b) false ∧ element (.stsbElementScalar h ty ord ofs a b) true ∧
    mask (.stsbMaskVector h ord ofs a b) false (a :: (pairSrc b ++ dataSrcs false h.d 2)) ∧
    mask (.stsbMaskScalar h ord ofs a b) true (a :: b :: dataSrcs true h.d 1)

/-- R391, R394, R395: ATOM and RED on global memory, ATOMS on the core's own scratchpad; PRF may bring words of the home
bank into the core's L1, changes nothing else, and traps for nothing of its own: neither for poison that it reads nor
under UCHK. COMPLETION: for every state and operands that meet the conditions written before it, which are on the state
and the operands alone, the conclusion is that Sys2Proof.Machine.exec i s answers a next state, for i = prfVector,
prfScalar, atomVector, atomScalar, atomsVector, atomsScalar, redVector, redScalar. -/
def Obligations.AtomicsStart : Prop :=
  ∀ (h : Head) (ty : Ty) (ord : Ord) (x2 : Bool) (op : AOp) (ofs : Nat) (a b : Src),
    let old (u : Bool) : List Src := if op = .cas then dataSrcs u h.d (valueRegs u ty false) else []
    let prf (i : Instr) (u : Bool) : Prop := ∀ s c,
      (∃ c0, issue? s = some c0 ∧ c = c0.guard s h (if u then .scaQ else .vecQ)) → c.tm.expired = false → c.waits s = false →
      (c.fallsThrough = true → c.checkFall s = .good) → Plain c →
      (c.exec = 0 → exec i s = .next (c.passes s)) ∧
      (c.exec ≠ 0 → c.fenced s = false → ∃ l1, exec i s =
          .next (c.starts s { s with mem := { s.mem with l1 := l1 } } { c.op s h u .none .plain with mem := true }) ∧
        (∀ k, k.1 ≠ c.isl ∨ k.2.1 ≠ c.core → l1.get? k = s.mem.l1.get? k) ∧
        ∀ k x, l1.get? k = some x → s.mem.l1.get? k = some x ∨
          x.owned = false ∧ x.val = w32 (s.mem.nat c.isl (k.2.2 * 4) 4))
    AtomStarts (.atomVector h ty ord op ofs a b) h false false .global (pairSrc a ++ srcsI ty b ++ old false) ty ord op ofs a b ∧
    AtomStarts (.atomScalar h ty ord op ofs a b) h true false .global (pairSrc a ++ srcsI ty b ++ old true) ty ord op ofs a b ∧
    AtomStarts (.atomsVector h ty ord op ofs a b) h false false .own
      (a :: .konst .zero :: (srcsI ty b ++ old false)) ty ord op ofs a b ∧
    AtomStarts (.atomsScalar h ty ord op ofs a b) h true false .own
      (a :: .konst .zero :: (srcsI ty b ++ old true)) ty ord op ofs a b ∧
    AtomStarts (.redVector h ty ord op ofs a b) h false true .global (pairSrc a ++ srcsI ty b) ty ord op ofs a b ∧
    AtomStarts (.redScalar h ty ord op ofs a b) h true true .global (pairSrc a ++ srcsI ty b) ty ord op ofs a b ∧
    prf (.prfVector h ty ord x2 ofs a b) false ∧ prf (.prfScalar h ty ord x2 ofs a b) true

/-- R91, R102, R103, R184, R189 to R192, R203, R215, R385: the loads, stores, atomics and reductions that do not reach
memory: a peer outside the span raises CLUSTER_SPAN; the lowest address that is no multiple of the access's size
MISALIGNED; the lowest offset outside the reservation PERMISSION, and a write to the barrier window BARRIER_WINDOW; the
lowest page without a mapping or permission TRANSLATION or PERMISSION, or, where the class has no trap entry, a parked
thread with an entry for the fault, and a walk that met a reserved bit is reported besides; a write to a sealed page
SEALED_STORE; the first poisoned byte that is read UNCORRECTABLE. -/
def Obligations.MemoryTraps : Prop :=
  ∀ (h : Head) (ty : Ty) (ord : Ord) (x2 : Bool) (op : AOp) (q ofs : Nat) (a b : Src),
    let old (u : Bool) : List Src := if op = .cas then dataSrcs u h.d (valueRegs u ty false) else []
    (LoadTraps (.ldVector h ty ord x2 ofs a b) h false .global ty x2 ofs a b ∧
      LoadTraps (.ldScalar h ty ord x2 ofs a b) h true .global ty x2 ofs a b ∧
      LoadTraps (.ldsVector h ty ord x2 ofs a b) h false .own ty x2 ofs a b ∧
      LoadTraps (.ldsScalar h ty ord x2 ofs a b) h true .own ty x2 ofs a b ∧
      LoadTraps (.ldxVector h ty ord x2 q ofs a b) h false (.peer q) ty x2 ofs a b ∧
      LoadTraps (.ldxScalar h ty ord x2 q ofs a b) h true (.peer q) ty x2 ofs a b ∧
      LoadTraps (.ldcVector h ty ord x2 ofs a b) h false .const ty x2 ofs a b ∧
      LoadTraps (.ldcScalar h ty ord x2 ofs a b) h true .const ty x2 ofs a b) ∧
    (StoreTraps (.stVector h ty ord x2 ofs a b) h false .global ty ord x2 ofs a b ∧
      StoreTraps (.stScalar h ty ord x2 ofs a b) h true .global ty ord x2 ofs a b ∧
      StoreTraps (.stsVector h ty ord x2 ofs a b) h false .own ty ord x2 ofs a b ∧
      StoreTraps (.stsScalar h ty ord x2 ofs a b) h true .own ty ord x2 ofs a b ∧
      StoreTraps (.stxVector h ty ord x2 q ofs a b) h false (.peer q) ty ord x2 ofs a b ∧
      StoreTraps (.stxScalar h ty ord x2 q ofs a b) h true (.peer q) ty ord x2 ofs a b) ∧
    AtomTraps (.atomVector h ty ord op ofs a b) h false .global (pairSrc a ++ srcsI ty b ++ old false) ty ord op ofs a b ∧
    AtomTraps (.atomScalar h ty ord op ofs a b) h true .global (pairSrc a ++ srcsI ty b ++ old true) ty ord op ofs a b ∧
    AtomTraps (.atomsVector h ty ord op ofs a b) h false .own (a :: .konst .zero :: (srcsI ty b ++ old false)) ty ord op ofs a b ∧
    AtomTraps (.atomsScalar h ty ord op ofs a b) h true .own (a :: .konst .zero :: (srcsI ty b ++ old true)) ty ord op ofs a b ∧
    AtomTraps (.redVector h ty ord op ofs a b) h false .global (pairSrc a ++ srcsI ty b) ty ord op ofs a b ∧
    AtomTraps (.redScalar h ty ord op ofs a b) h true .global (pairSrc a ++ srcsI ty b) ty ord op ofs a b

/-- R92: the walk of three levels: a valid entry that is no leaf, then a leaf of 512 MiB or a table, then a leaf of 64
KiB; permissions and sealing are those of the leaf, and an address above 52 bits, an invalid entry, or a partition
without memory on the island is a translation fault at its level. An agent whose translation cache holds nothing for the
page walks (R100). -/
def Obligations.Translation : Prop :=
  ∀ (s : State) (isl part va : Nat) (acc : Acc),
    (∀ ag, (∀ e ∈ s.mem.tlb.getD (isl, ag) [], e.part = part → e.page ≠ va / (if e.large then 2 ^ 29 else 2 ^ 16)) →
      xlate s isl ag part va acc = translate s isl part va acc) ∧
    (2 ^ 52 ≤ va → translate s isl part va acc = .fault false 1) ∧
    ((∀ p, s.part? part = some p → p.roots.get? isl = none) → translate s isl part va acc = .fault false 1) ∧
    ∀ (root : Nat) (p : Part), s.part? part = some p → p.roots.get? isl = some root → va < 2 ^ 52 →
    let pte (a : Nat) : Pte := Pte.ofNat (s.mem.nat isl a 8)
    let e1 := pte (root + 8 * (va / 2 ^ 42))
    let e2 := pte (e1.pfn * 2 ^ 16 + 8 * (va / 2 ^ 29 % 2 ^ 13))
    let e3 := pte (e2.pfn * 2 ^ 16 + 8 * (va / 2 ^ 16 % 2 ^ 13))
    let allows (e : Pte) : Bool := match acc with
      | .read => e.r
      | .write => e.w
      | .fetch => e.x
      | .atomic => e.r && e.w
    let stores : Bool := acc == .write || acc == .atomic
    let leaf (e : Pte) (lvl pa : Nat) : Prop :=
      (stores = true → e.sl = true → translate s isl part va acc = .sealedStore) ∧
      ((stores = true → e.sl = false) → allows e = true → translate s isl part va acc = .ok pa e.sl (lvl == 2)) ∧
      ((stores = true → e.sl = false) → allows e = false → translate s isl part va acc = .fault true lvl)
    (e1.v = false ∨ e1.l = true → translate s isl part va acc = .fault false 1) ∧
    (e1.v = true → e1.l = false → e2.v = false → translate s isl part va acc = .fault false 2) ∧
    (e1.v = true → e1.l = false → e2.v = true → e2.l = true → leaf e2 2 (e2.pfn * 2 ^ 16 + va % 2 ^ 29)) ∧
    (e1.v = true → e1.l = false → e2.v = true → e2.l = false → (e3.v = false ∨ e3.l = false) →
      translate s isl part va acc = .fault false 3) ∧
    (e1.v = true → e1.l = false → e2.v = true → e2.l = false → e3.v = true → e3.l = true →
      leaf e3 3 (e3.pfn * 2 ^ 16 + va % 2 ^ 16))

/-- R194, R195, R265: a write performs: the bytes it covers at its home bank take its value, little-endian, and every
other byte of every island, and of the scratchpads, is as it was. R265, R395: an atomic performs: it returns the old
value of its word, and writes the value that its operation gives of the old value and its operand; no other byte
changes. R194, R265: a plain load performs: through the words its core's L1 holds, or, where it holds none of them, with
the bytes of the home bank; no byte of memory changes. R200: a sub-byte write performs as one step: of its 8-byte word
the bits of the mask take its data and every other bit keeps its value, no other byte changes, and a word in a poisoned
sector is not written. R190, R192, R387, R388, R395: an access of a core's scratchpad performs: a load takes the bytes
there, a store writes its own bytes, and an atomic returns the old value and writes what its operation gives; no other
byte of any scratchpad, of memory or of the accumulators changes. -/
def Obligations.AccessesPerform : Prop :=
  (∀ (s : State) (id k : Nat) (o : Machine.Op) (a : Access) (v : W64) (cs : List Choice),
     s.sched = .perform id k :: cs → s.op? id = some o → (∀ j, o.act ≠ .matrix j) → o.accs[k]? = some a →
     o.canPerform s k = true → a.space = .global → (a.kind = .write v ∨ a.kind = .bypass v) →
     a.addr + a.size ≤ 2 ^ 39 → Gives (step s) fun t =>
       (∀ isl pa, pa < 2 ^ 39 → t.mem.byte isl pa =
         if isl = o.m.isl ∧ a.addr ≤ pa ∧ pa < a.addr + a.size then BitVec.ofNat 8 (v.toNat / 256 ^ (pa - a.addr))
         else s.mem.byte isl pa) ∧
       (∀ x, t.mem.spad.get x = s.mem.spad.get x) ∧ t.mem.acc = s.mem.acc ∧
       (t.op? id).map (fun o => (o.accs[k]?).map (·.done)) = some (some true) ∧
       t.core.vreg = s.core.vreg ∧ t.core.sreg = s.core.sreg ∧ t.core.pred = s.core.pred) ∧
  (∀ (s : State) (id k : Nat) (o : Machine.Op) (a : Access) (op : AOp) (ty : Ty) (b cmp : W64) (cs : List Choice),
     s.sched = .perform id k :: cs → s.op? id = some o → (∀ j, o.act ≠ .matrix j) → o.accs[k]? = some a →
     o.canPerform s k = true → a.space = .global → a.kind = .atomic op ty b cmp → a.size = ty.bits / 8 →
     a.addr + a.size ≤ 2 ^ 39 →
     let old : Nat := s.mem.nat o.m.isl a.addr a.size
     let y : Nat := b.toNat % 2 ^ ty.bits
     let new : Nat := (match op with
       | .add => if ty = .f32 then (Ty.f32.fmt.add .rne (Ty.f32.fmt.val old) (Ty.f32.fmt.val y)).1 else old + y
       | .min => if ty.read old ≤ ty.read y then old else y
       | .max => if ty.read y ≤ ty.read old then old else y
       | .and => old &&& y
       | .or => old ||| y
       | .xor => old ^^^ y
       | .exch => y
       | .cas => if old = cmp.toNat % 2 ^ ty.bits then y else old) % 2 ^ ty.bits
     Gives (step s) fun t =>
       (t.op? id).map (fun o => (o.accs[k]?).map fun a => (a.done, a.val)) = some (some (true, w64 old)) ∧
       ∀ isl pa, pa < 2 ^ 39 → t.mem.byte isl pa =
         if isl = o.m.isl ∧ a.addr ≤ pa ∧ pa < a.addr + a.size then BitVec.ofNat 8 (new / 256 ^ (pa - a.addr))
         else s.mem.byte isl pa) ∧
  (∀ (s : State) (id k : Nat) (o : Machine.Op) (a : Access) (cs : List Choice),
     s.sched = .perform id k :: cs → s.op? id = some o → (∀ j, o.act ≠ .matrix j) → o.accs[k]? = some a →
     o.canPerform s k = true → a.space = .global → a.kind = .read → o.acq = false →
     a.size ∈ [1, 2, 4, 8] → a.addr % a.size = 0 → Gives (step s) fun t =>
       (∀ isl pa, t.mem.byte isl pa = s.mem.byte isl pa) ∧ (∀ x, t.mem.spad.get x = s.mem.spad.get x) ∧
       ((∀ w, a.addr / 4 ≤ w → w ≤ (a.addr + a.size - 1) / 4 → s.mem.l1.get? (o.m.isl, o.core, w) = none) →
         (t.op? id).map (fun o => (o.accs[k]?).map fun a => (a.done, a.val)) =
           some (some (true, w64 (s.mem.nat o.m.isl a.addr a.size)))) ∧
       ((∀ w, a.addr / 4 ≤ w → w ≤ (a.addr + a.size - 1) / 4 → (s.mem.l1.get? (o.m.isl, o.core, w)).isSome = true) →
         (t.op? id).map (fun o => (o.accs[k]?).map fun a => (a.done, a.val)) =
           some (some (true, w64 (leNat ((List.range a.size).map fun i =>
             (s.mem.l1byte o.m.isl o.core (a.addr + i)).getD 0)))) ∧ t.mem = s.mem)) ∧
  (∀ (s : State) (id k : Nat) (o : Machine.Op) (a : Access) (d m : W64) (cs : List Choice),
     s.sched = .perform id k :: cs → s.op? id = some o → (∀ j, o.act ≠ .matrix j) → o.accs[k]? = some a →
     o.canPerform s k = true → a.space = .global → a.kind = .sub d m → a.addr + 8 ≤ 2 ^ 39 →
     let old : W64 := w64 (s.mem.nat o.m.isl a.addr 8)
     let new : W64 := if s.mem.poisonedAt o.m.isl a.addr 8 = none then (old &&& ~~~m) ||| (d &&& m) else old
     Gives (step s) fun t =>
       (∀ isl pa, pa < 2 ^ 39 → t.mem.byte isl pa =
         if isl = o.m.isl ∧ a.addr ≤ pa ∧ pa < a.addr + 8 then BitVec.ofNat 8 (new.toNat / 256 ^ (pa - a.addr))
         else s.mem.byte isl pa) ∧
       (∀ x, t.mem.spad.get x = s.mem.spad.get x) ∧ t.mem.acc = s.mem.acc ∧
       (t.op? id).map (fun o => (o.accs[k]?).map (·.done)) = some (some true)) ∧
  (∀ (s : State) (id k core : Nat) (o : Machine.Op) (a : Access) (cs : List Choice),
     s.sched = .perform id k :: cs → s.op? id = some o → (∀ j, o.act ≠ .matrix j) → o.accs[k]? = some a →
     o.canPerform s k = true → a.space = .spad core → core < 96 → a.addr + a.size ≤ 2 ^ 19 →
     let old : Nat := leNat (s.mem.spadBytes o.m.isl core a.addr a.size)
     Gives (step s) fun t =>
       let writes (v : Nat) : Prop := ∀ isl c off, c < 96 → off < 2 ^ 19 → t.mem.spad.get (skey isl c off) =
         if isl = o.m.isl ∧ c = core ∧ a.addr ≤ off ∧ off < a.addr + a.size then BitVec.ofNat 8 (v / 256 ^ (off - a.addr))
         else s.mem.spad.get (skey isl c off)
       (t.op? id).map (fun o => (o.accs[k]?).map fun a => (a.done, a.val)) = some (some (true, w64 old)) ∧
       (∀ isl pa, t.mem.byte isl pa = s.mem.byte isl pa) ∧ t.mem.acc = s.mem.acc ∧ t.mem.l1 = s.mem.l1 ∧
       (a.kind = .read → ∀ x, t.mem.spad.get x = s.mem.spad.get x) ∧
       (∀ v, a.kind = .write v → writes v.toNat) ∧
       ∀ op ty b cmp, a.kind = .atomic op ty b cmp → a.size = ty.bits / 8 → writes (atomicOp op ty (w64 old) b cmp).toNat)

/-- R161, R300, R307: the completion of a computed result: it lands in the lanes its operation still takes, its flags
are ORed (R358), the operation is no longer outstanding, and the scoreboard that counted it falls; no other register
changes. COMPLETION: for every state and operands that meet the conditions written before it (those on the event and the
state), the conclusion is that Sys2Proof.Machine.exec i s answers a next state, for i = variableLatencyCompletion. -/
def Obligations.ResultLands : Prop :=
  ∀ (s : State) (id : Nat) (o : Machine.Op) (d w n sb fl : Nat) (vals : List W64) (r : ThreadRec),
    s.occ = .op id → s.op? id = some o → o.ready s = true → o.act = .value vals fl → o.dst = .vec d w → o.k = false →
    o.covered = [] → o.acq = false → o.holders = [(n, sb)] → s.thread? ⟨o.m, n⟩ = some r →
    Gives (exec .variableLatencyCompletion s) fun t =>
      (∀ i l, i < w → l < 32 → vlane t o.m (d + i) l = if o.lanes.getLsbD l then
        BitVec.setWidth 32 (lane64 vals (32 * (i / 2) + l) >>> (32 * (i % 2))) else vlane s o.m (d + i) l) ∧
      (∀ m i, m ≠ o.m ∨ i < d ∨ d + w ≤ i → t.core.vreg.getD (m, i) [] = s.core.vreg.getD (m, i) []) ∧
      t.core.sreg = s.core.sreg ∧ t.core.pred = s.core.pred ∧ FlagsOr s t o.m fl ∧ Quiet s t ∧
      t.op? id = none ∧
      t.thread? ⟨o.m, n⟩ = some (if sb = 7 then r else { r with sb := r.sb.set sb (r.sb.getD sb 0 - 1) })

/-- R199, R396: CCTL: the copies it names leave the core's L1, or the instruction caches of the core or of the
partition's cores on the island; memory itself does not change, and the operation is outstanding. COMPLETION: for every
state and operands that meet the conditions written before it, which are on the state and the operands alone, the
conclusion is that Sys2Proof.Machine.exec i s answers a next state, for i = cctlIinv, cctlIinvp, cctlL1inv, cctlL1all.
-/
def Obligations.CacheControl : Prop :=
  ∀ (h : Head) (a : Src),
    let cctl (i : Instr) (srcs : List Src) (emptied : State → Issue → Nat → Bool)
        (gone : State → Issue → Nat × Nat × Nat → L1Word → Prop) : Prop :=
      ∀ s c, Clear s h .sca srcs c → Plain c →
        (c.exec = 0 → exec i s = .next (c.passes s)) ∧
        (c.exec ≠ 0 → c.ordered s false → ∃ l1 ic, exec i s =
            .next (c.starts s { s with mem := { s.mem with l1 := l1, icache := ic } } (c.plain s h)) ∧
          (∀ isl core x, ic.get? (isl, core, x) =
            if isl = c.isl ∧ emptied s c core = true then none else s.mem.icache.get? (isl, core, x)) ∧
          (∀ k x, s.mem.l1.get? k = some x → ¬ gone s c k x → l1.get? k = some x) ∧
          (∀ k, s.mem.l1.get? k = none → l1.get? k = none) ∧
          ∀ k x, l1.get? k = some x → ¬ gone s c k x)
    cctl (.cctlIinv h) [] (fun _ c core => core == c.core) (fun _ _ _ _ => False) ∧
    cctl (.cctlIinvp h) []
      (fun s c core => ((s.par.parts.get? c.part).map fun p => nbit p.slices (core / 8)).getD false) (fun _ _ _ _ => False) ∧
    cctl (.cctlL1inv h a) [a] (fun _ _ _ => false) (fun s c k x =>
      k.1 = c.isl ∧ k.2.1 = c.core ∧ x.owned = false ∧
        (c.lineOf s (rd64 s c (uS 1) a 0).toNat).map (· / 256) = some (k.2.2 / 64)) ∧
    cctl (.cctlL1all h) [] (fun _ _ _ => false) (fun _ c k x =>
      k.1 = c.isl ∧ k.2.1 = c.core ∧ x.owned = false ∧ x.sealed = false)

/-- R203, R206, R397: SEAL and UNSEAL check the whole range first: its address traps with MISALIGNED when it is no
multiple of 64 KiB, and a large page of which the range holds only part with PERMISSION and that page's address; else SL
of every leaf of the range is set or cleared, which wakes a watch on it, and the operation holds the pages; it waits
while another SEAL or UNSEAL of some of them is under way (R278). COMPLETION: for every state and operands that meet the
conditions written before it, which are on the state and the operands alone, the conclusion is that
Sys2Proof.Machine.exec i s answers a next state, for i = seal, unseal. -/
def Obligations.Sealing : Prop :=
  ∀ (h : Head) (a b : Src),
    let va (s : State) (c : Issue) : Nat := (rd64 s c (uS 1) a 0).toNat
    let stop (s : State) (c : Issue) : Nat := va s c + (rd32 s c (uS 2) b 0).toNat * 65536
    let pages (s : State) (c : Issue) (ls : List (Nat × Nat × Nat)) : Prop :=
      sealLeaves s c.isl c.part (stop s c) ((stop s c - va s c) / 65536) (va s c) = .ok ls
    let whole (i : Instr) (on : Bool) (act : List (Nat × Nat) → Bool → OpAct) : Prop :=
      (∀ ls, Acts i h .sca [a, b] on
        (fun s c => va s c % 65536 = 0 ∧ splitLarge s c.isl c.part (va s c) (stop s c) = none ∧ pages s c ls ∧
          sealBusy s c.isl (ls.map (·.2)) = false)
        (fun s c =>
          let s' := markSealed (ls.foldl (setSl c.isl on) s) c.isl on (ls.map (·.2))
          let c' : Issue := { c with r := { c.r with watch := (s'.thread? c.th).bind (·.watch) } }
          c'.starts s s' (c.op s h true .none (act (ls.map (·.2)) false)))) ∧
      (∀ ls s c, Clear s h .sca [a, b] c → c.exec ≠ 0 → c.ordered s on → va s c % 65536 = 0 →
        splitLarge s c.isl c.part (va s c) (stop s c) = none → pages s c ls → sealBusy s c.isl (ls.map (·.2)) = true →
        exec i s = .next (commit s
          { s.setThread c.th { c.r with wait := { c.r.wait with stalled := true } } with focus := none })) ∧
      Traps i h .sca [a, b] (fun s c => c.exec ≠ 0 ∧ c.ordered s on ∧ va s c % 65536 ≠ 0) .misaligned
        (fun s c => w64 (va s c)) ∧
      ∀ p, Traps i h .sca [a, b] (fun s c => c.exec ≠ 0 ∧ c.ordered s on ∧ va s c % 65536 = 0 ∧
        splitLarge s c.isl c.part (va s c) (stop s c) = some p) .permission (fun _ _ => w64 p)
    whole (.seal h a b) true .seal ∧ whole (.unseal h a b) false .unseal

/-- R267, R268, R270, R398: a release issues once every earlier local access of its thread has performed, an acquiring
fence once every earlier read has; the acquire is the end of its operation, and every later memory operation of the
thread waits for it. That a fence waits at its issue for what comes before it is the model's choice (log entry 16).
COMPLETION: for every state and operands that meet the conditions written before it, which are on the state and the
operands alone, the conclusion is that Sys2Proof.Machine.exec i s answers a next state, for i = fenceAcq, fenceRel,
fenceAcqrel. -/
def Obligations.Fences : Prop :=
  ∀ (h : Head),
    Acts (.fenceAcq h) h .sca [] false (fun s c => c.unread s = false) (fun s c => c.starts s s { c.plain s h with acq := true }) ∧
    Acts (.fenceRel h) h .sca [] true (fun _ _ => True) (fun s c => c.starts s s (c.plain s h)) ∧
    Acts (.fenceAcqrel h) h .sca [] true (fun s c => c.unread s = false) (fun s c => c.starts s s { c.plain s h with acq := true }) ∧
    ∀ s c, Clear s h .sca [] c → c.exec ≠ 0 →
      let waits : State := commit s { s.setThread c.th { c.r with wait := { c.r.wait with stalled := true } } with focus := none }
      (c.fenced s = true → exec (.fenceAcq h) s = .next waits ∧ exec (.fenceRel h) s = .next waits ∧
        exec (.fenceAcqrel h) s = .next waits) ∧
      (c.unreleased s = true → exec (.fenceRel h) s = .next waits ∧ exec (.fenceAcqrel h) s = .next waits) ∧
      (c.unread s = true → exec (.fenceAcq h) s = .next waits ∧ exec (.fenceAcqrel h) s = .next waits)

/-- R399, R400: MONITOR and MWAIT: the operation holds the watched place, or the time at which the wait ends and whether
the thread had no watch; at its completion MONITOR sets the watch, which replaces the thread's earlier one. COMPLETION:
for every state and operands that meet the conditions written before it, which are on the state and the operands alone,
the conclusion is that Sys2Proof.Machine.exec i s answers a next state, for i = monitor, mwait,
variableLatencyCompletion. -/
def Obligations.MonitorAndWait : Prop :=
  ∀ (h : Head) (a : Src) (b : Option Src),
    (∀ pa sl big, Acts (.monitor h a b) h .sca (a :: b.toList) false
      (fun s c => let va := effBase s c true a (b.getD (.konst .zero)) 0
        c.xlate s va .read = .ok pa sl big ∧ s.mem.poisonedAt c.isl pa 1 = none)
      (fun s c => c.starts s s (c.op s h true .none (.monitor pa)))) ∧
    Acts (.mwait h a) h .sca [a] false (fun _ _ => True) (fun s c => c.starts s s
      { c.op s h true (.sca h.d 1)
          (.mwait (if rd64 s c (uS 1) a 0 = 0 then none else some (s.clk c.isl + (rd64 s c (uS 1) a 0).toNat)) c.r.watch.isNone)
        with acq := true }) ∧
    ∀ (s : State) (id pa n sb : Nat) (o : Machine.Op) (r : ThreadRec), s.occ = .op id → s.op? id = some o →
      o.act = .monitor pa → o.allDone = true → o.holders = [(n, sb)] → o.dst = .none → o.acq = false →
      s.thread? ⟨o.m, n⟩ = some r → Gives (exec .variableLatencyCompletion s) fun t =>
        (t.thread? ⟨o.m, n⟩).map (·.watch) = some (some ⟨o.m.isl, pa / 256, false⟩) ∧ t.op? id = none ∧ Quiet s t

/-- R175: an arrival is counted; where it is the last that the group waits for, the phase advances by one, the count of
arrivals starts again, and pending memberships join the group and become effective; nothing else changes. R402 to R404:
BARARR arrives and returns the phase; BARWAIT waits on a phase; BARSYNC arrives and waits on the phase it arrived in;
BARINIT sets the membership count of a group in which nobody has arrived. A group the team lacks, one the strand does
not belong to, one with arrivals, and a count of 0 or above 2048 trap with GROUP and their reason. COMPLETION: for every
state and operands that meet the conditions written before it, which are on the state and the operands alone, the
conclusion is that Sys2Proof.Machine.exec i s answers a next state, for i = bararr, barwait, barsync, barinit. -/
def Obligations.Barriers : Prop :=
  (∀ (s : State) (isl team g : Nat) (t : Team), s.team? isl team = some t → g < t.groups.length →
     let x := t.group g
     let r := arrive s isl team g
     let last := x.memb ≤ x.arr + 1
     r.2 = x.phase ∧
     (r.1.team? isl team).map (·.group g) =
       some (if last then ⟨x.memb + x.pend, 0, 0, (x.phase + 1) % 2 ^ 32⟩ else { x with arr := x.arr + 1 }) ∧
     (∀ j, j ≠ g → (r.1.team? isl team).map (·.group j) = some (t.group j)) ∧
     (∀ m, r.1.member? m = (s.member? m).map fun mr =>
       if last ∧ m.isl = isl ∧ m.team = team then
         { mr with groups := mr.groups.map fun y => if y.1 = g then (g, true) else y } else mr) ∧
     r.1.core.threads = s.core.threads ∧ r.1.core.ops = s.core.ops ∧ r.1.mem = s.mem ∧ r.1.core.sreg = s.core.sreg) ∧
  (∀ (h : Head) (a b : Src),
     let g (s : State) (c : Issue) : Nat := (rd32 s c (uS 1) a 0).toNat
     let n (s : State) (c : Issue) : Nat := (rd32 s c (uS 2) b 0).toNat
     let wait (s : State) (c : Issue) (phase : Nat) : Machine.Op :=
       { c.op s h true .none (.barwait (g s c) phase) with acq := true }
     let fails (i : Instr) (srcs : List Src) (rel : Bool) (p : State → Issue → Prop) (reason : Nat) : Prop :=
       Traps i h .sca srcs (fun s c => c.exec ≠ 0 ∧ c.ordered s rel ∧ p s c) .group
         (fun s c => w64 (g s c + reason * 2 ^ 32))
     let lacks (s : State) (c : Issue) : Prop := c.tm.groups.length ≤ g s c
     let outside (s : State) (c : Issue) : Prop := g s c < c.tm.groups.length ∧ c.mr.groups.contains (g s c, true) = false
     Acts (.bararr h a) h .sca [a] true (fun s c => c.inGroup (g s c) true)
       (fun s c => c.starts s (arrive s c.isl c.team (g s c)).1 (c.returns s h (w64 (c.tm.group (g s c)).phase))) ∧
     Acts (.barwait h a b) h .sca [a, b] false (fun s c => c.inGroup (g s c) true)
       (fun s c => c.starts s s (wait s c (n s c))) ∧
     Acts (.barsync h a) h .sca [a] true (fun s c => c.inGroup (g s c) true)
       (fun s c => c.starts s (arrive s c.isl c.team (g s c)).1 (wait s c (c.tm.group (g s c)).phase)) ∧
     Acts (.barinit h a b) h .sca [a, b] false
       (fun s c => c.inGroup (g s c) false ∧ (c.tm.group (g s c)).arr = 0 ∧ 1 ≤ n s c ∧ n s c ≤ 2048)
       (fun s c => c.starts s (s.setTeam c.isl c.team (c.tm.setGroup (g s c) { c.tm.group (g s c) with memb := n s c }))
         (c.plain s h)) ∧
     fails (.bararr h a) [a] true lacks 1 ∧ fails (.barwait h a b) [a, b] false lacks 1 ∧ fails (.barsync h a) [a] true lacks 1 ∧
     fails (.barinit h a b) [a, b] false lacks 1 ∧ fails (.bararr h a) [a] true outside 2 ∧
     fails (.barwait h a b) [a, b] false outside 2 ∧ fails (.barsync h a) [a] true outside 2 ∧
     fails (.barinit h a b) [a, b] false (fun s c => g s c < c.tm.groups.length ∧ 1 ≤ (c.tm.group (g s c)).arr) 3 ∧
     fails (.barinit h a b) [a, b] false (fun s c => g s c < c.tm.groups.length ∧ (c.tm.group (g s c)).arr = 0 ∧
       (n s c = 0 ∨ 2048 < n s c)) 4)

/-- R405 to R407: ATTACH attaches strands one by one while some index has room, at most 2048, and none under a
pre-emption request; DETACH ends its strand at the end of its clause, once no memory operation of the split is
outstanding and its other splits stand between clauses; GRPQ reads one value of a group, or the number of groups.
COMPLETION: for every state and operands that meet the conditions written before it, which are on the state and the
operands alone, the conclusion is that Sys2Proof.Machine.exec i s answers a next state, for i = attach, detach, grpq. -/
def Obligations.Membership : Prop :=
  ∀ (h : Head) (a : Src),
    (let n (s : State) (c : Issue) : Nat := min (rd32 s c (uS 1) a 0).toNat 2048
     Acts (.attach h a) h .sca [a] true (fun _ c => c.tm.preempt = none ∧ c.mr.live = true) (fun s c =>
       c.starts s (attachMany c.isl c.team (n s c) s).1 (c.returns s h (w64 (attachMany c.isl c.team (n s c) s).2)))) ∧
    Acts (.attach h a) h .sca [a] true (fun _ c => c.tm.preempt ≠ none) (fun s c => c.starts s s (c.returns s h 0)) ∧
    (∀ s c, Clear s h .scaX [] c → Plain c → c.r.ends = [] →
      (c.exec = 0 → (c.fallsThrough = true → c.checkFall s = .good) → exec (.detach h) s = .next (c.passes s)) ∧
      (c.exec ≠ 0 → endReady s c.th .detach = true → Gives (exec (.detach h) s) fun t =>
        (∀ n, t.thread? ⟨c.th.m, n⟩ = none) ∧ (t.member? c.th.m).map (·.course) = some .ended ∧ t.focus = none ∧
        SameMemory s t ∧ t.core.vreg = s.core.vreg ∧ t.core.sreg = s.core.sreg) ∧
      (c.exec ≠ 0 → (∃ o ∈ s.core.ops, o.heldBy c.th = true ∧ o.mem = true) → Gives (exec (.detach h) s) fun t =>
        (t.thread? c.th).map (fun r => (r.ends, r.clause, r.pc)) = some ([.detach], none, c.fall) ∧ Quiet s t)) ∧
    ∀ (sel : GrpSel), let g (s : State) (c : Issue) : Nat := (rd32 s c (uS 1) a 0).toNat
      Acts (.grpq h sel a) h .sca [a] false (fun s c => sel = .gcount ∨ c.inGroup (g s c) false) (fun s c =>
        let x := c.tm.group (g s c)
        c.starts s s (c.returns s h (w64 (match sel with
          | .memb => x.memb
          | .arr => x.arr
          | .pend => x.pend
          | .phase => x.phase
          | .gcount => c.tm.groups.length))))

/-- R171, R172, R439: PUSHDQ, POPDQ and DQSTAT start their operations; a push enters the queue of its context at its
completion, behind the entries there; a pop takes the oldest entry, sets its predicate in the popping lanes, and
acquires. COMPLETION: for every state and operands that meet the conditions written before it, which are on the state
and the operands alone, the conclusion is that Sys2Proof.Machine.exec i s answers a next state, for i = pushdq, popdq,
dqstat, variableLatencyCompletion. -/
def Obligations.DecisionQueues : Prop :=
  ∀ (h : Head) (a : Src) (pr : Nat),
    Acts (.pushdq h a) h .sca [a] true (fun _ _ => True)
      (fun s c => c.starts s s (c.op s h true .none (.pushdq (rd64 s c (uS 1) a 0)))) ∧
    Acts (.popdq h pr) h .sca [] false (fun _ _ => True)
      (fun s c => c.starts s s { c.op s h true (.sca h.d 1) (.popdq pr) with lanes := c.active, acq := true }) ∧
    Starts (.dqstat h) h .sca [] (fun s c => c.op s h true (.sca h.d 1) .dqstat) ∧
    (∀ s id (o : Machine.Op) v, s.occ = .op id → s.op? id = some o → o.act = .pushdq v → o.allDone = true → o.dst = .none →
      pushTurn s o = true → (dqOf s o.m).length < 64 → Gives (exec .variableLatencyCompletion s) fun t =>
        dqOf t o.m = dqOf s o.m ++ [v] ∧ (∀ m, m ≠ o.m → dqOf t m = dqOf s m) ∧ t.op? id = none) ∧
    ∀ s id (o : Machine.Op) v q d, s.occ = .op id → s.op? id = some o → o.act = .popdq pr → o.allDone = true → o.k = false →
      o.lanes ≠ 0 → o.covered = [] → o.dst = .sca d 1 → pr < 7 → dqOf s (o.queue s) = v :: q →
      (∀ tm, s.team? o.m.isl o.m.team = some tm → tm.ending = none) →
      Gives (exec .variableLatencyCompletion s) fun t =>
        dqOf t (o.queue s) = q ∧ t.core.sreg.getD (o.m, d) 0 = v ∧ t.op? id = none ∧
        (∀ l, l < 32 → (t.core.pred.getD (o.m, pr) 0).getLsbD l =
          (o.lanes.getLsbD l || (s.core.pred.getD (o.m, pr) 0).getLsbD l))

/-- R408 to R416: the remote instructions: where their pointers and channels are admitted and their addresses are
aligned, each starts one operation with the requests of its participants, in lane order, one per lane, or for a block
one per 256-byte line of its remote range, with the bytes and places of its local side, in global memory, scratchpad or,
as a source, the barrier window; NOTIFY sends its count, and nothing where it is 0; RFENCE waits for the thread's remote
operations. The remote address taken modulo 2^52 and the waits at issue are the model's choices (log entries 39 and 16).
R34, R280, R416: an RFENCE that has waited delivers the split's failure record as a REMOTE_ERROR trap, with the first
status, its island and the number of failed operations, and the record is empty again. COMPLETION: for every state and
operands that meet the conditions written before it, which are on the state and the operands alone, the conclusion is
that Sys2Proof.Machine.exec i s answers a next state, for i = put, putBlk, get, ratom, rred, notify, notifyRel, rfence,
getReq. -/
def Obligations.RemoteStarts : Prop :=
  (∀ (h : Head) (ty : Ty) (op : AOp) (och : Option Nat) (scr : Bool) (a b : Src) (bo : Option Src),
     let ptr (s : State) (c : Issue) (l : Nat) : Nat := (rd64 s c (uV 1) a l).toNat
     let size := ty.bits / 8
     let off (s : State) (c : Issue) (l : Nat) : Nat := (ptr s c l % 2 ^ 52 + effBase s c false (.konst .zero) b l) % 2 ^ 52
     let put (s : State) (c : Issue) (l : Nat) : RemoteReq :=
       { dest := nbits (ptr s c l) 60 56, op := .put, addr := off s c l, n := size,
         payload := leBytes size (storeWord s c h false ty l 0).toNat, och := och, dst := (.global, []) }
     let all (_s : State) (c : Issue) (p : Nat → Prop) : Prop := ∀ l ∈ lanesIn c.exec, p l
     let atomic (i : Instr) (srcs : List Src) (o : State → Issue → Machine.Op) (code : PktOp) : Prop :=
       Acts i h .vec srcs false
         (fun s c => all s c fun l => c.admits s och (ptr s c l) ∧ ptr s c l % size = 0)
         (fun s c => c.sends s s (o s c) och
           ((lanesIn c.exec).map fun l =>
             { dest := nbits (ptr s c l) 60 56, op := code, addr := ptr s c l % 2 ^ 52, n := size,
               payload := stepBytes op ty (atomB s c false ty b l) (atomCmp s c h false ty op l), och := och,
               dst := (.global, []), lane := l }))
     let word (s : State) (c : Issue) : Nat := (rd64 s c (uS 1) a 0).toNat
     let far (s : State) (c : Issue) : Nat := match bo with
       | some i => (word s c % 2 ^ 52 + effBase s c true (.konst .zero) i 0) % 2 ^ 52
       | none => word s c % 2 ^ 52
     let near (s : State) (c : Issue) : Nat := (rd64 s c (uS 0) (.sreg h.d) 0).toNat
     let len (s : State) (c : Issue) : Nat := (rd64 s c (uS 0) (.sreg (h.d + 1)) 0).toNat % 65536 + 1
     let side (s : State) (c : Issue) (get : Bool) (sp : Space) (at_ : Nat → Nat) (byte : Nat → Byte) : Prop :=
       (scr = false ∧ sp = .global ∧ ∀ i, i < len s c → byte i = s.mem.byte c.isl (at_ i) ∧
         (get = false → s.mem.poisonedAt c.isl (at_ i) 1 = none) ∧
         ∃ sl big, c.xlate s ((near s c + i) % 2 ^ 64) (if get then .write else .read) = .ok (at_ i) sl big) ∨
       (scr = true ∧ placeOf c.tm.hdr.scr (near s c) (len s c) = .reserved ∧ sp = .spad c.core ∧ ∀ i, i < len s c →
         at_ i = c.tm.base c.core + near s c + i ∧ byte i = s.mem.spad.get (skey c.isl c.core (at_ i)) ∧
         (get = false → s.mem.spadPoisonedAt c.isl c.core (at_ i) 1 = none)) ∨
       (scr = true ∧ get = false ∧ placeOf c.tm.hdr.scr (near s c) (len s c) = .window ∧ sp = .window c.core ∧
         ∀ i, i < len s c → at_ i = near s c + i ∧ byte i = (windowBytes s c.isl c.team c.core (at_ i) 1).headD 0)
     let line (s : State) (c : Issue) (get : Bool) (sp : Space) (at_ : Nat → Nat) (byte : Nat → Byte) (j : Nat) : RemoteReq :=
       let first := max (far s c) ((far s c / 256 + j) * 256)
       let n := min (far s c + len s c) ((far s c / 256 + j + 1) * 256) - first
       let parts := (List.range n).map fun i => first - far s c + i
       { dest := nbits (word s c) 60 56, op := if get then .getReq else .put, addr := first % 2 ^ 52, n := n,
         payload := if get then [] else parts.map byte, och := och, dst := (sp, parts.map at_) }
     let block (i : Instr) (get : Bool) (act : OpAct) : Prop := ∀ sp at_ byte,
       Acts i h .sca (a :: bo.toList ++ dataSrcs true h.d 2) (!get)
         (fun s c => c.admits s och (word s c) ∧ side s c get sp at_ byte)
         (fun s c => c.sends s s (c.op s h true .none act) och
           ((List.range ((far s c + len s c - 1) / 256 - far s c / 256 + 1)).map (line s c get sp at_ byte)))
     let note (s : State) (c : Issue) : Nat := (rd64 s c (uS 2) b 0).toNat % 65536
     let notify (i : Instr) (rel : Bool) (p : State → Issue → Prop) : Prop := Acts i h .sca [a, b] rel
       (fun s c => p s c ∧ c.r.fail = none ∧ c.admits s och (word s c) ∧ word s c % 8 = 0)
       (fun s c => c.sends s s (c.op s h true .none .notify) och (if note s c = 0 then [] else
         [{ dest := nbits (word s c) 60 56, op := .notify, addr := word s c % 2 ^ 52, n := 0, payload := [], och := och,
            dst := (.global, []), count := note s c }]))
     Acts (.put h ty och a b) h .vec (pairSrc a ++ b :: dataSrcs false h.d (valueRegs false ty false)) false
       (fun s c => all s c fun l => c.admits s och (ptr s c l) ∧ off s c l % size = 0)
       (fun s c => c.sends s s (c.op s h false .none .put) och (lastPuts ((lanesIn c.exec).map (put s c)))) ∧
     atomic (.ratom h ty op och a b) (atomSrcs false h ty op a b)
       (fun s c => c.op s h false (.vec h.d (valueRegs false ty false)) (.ratom ty)) .ratom ∧
     atomic (.rred h ty op och a b) (pairSrc a ++ srcsI ty b) (fun s c => c.op s h false .none .rred) .rred ∧
     block (.putBlk h scr och a bo) false .put ∧ block (.get h scr och a bo) true .get ∧
     notify (.notify h och a b) false (fun _ _ => True) ∧
     notify (.notifyRel h och a b) true (fun s c => ∀ o ∈ s.core.ops, o.heldBy c.th = true → o.isRemoteWrite = false) ∧
     Acts (.rfence h) h .sca [] false
       (fun s c => c.r.fail = none ∧ ∀ o ∈ s.core.ops, o.heldBy c.th = true → o.remote = false)
       (fun s c => c.starts s s (c.plain s h))) ∧
  (∀ (h : Head) (s : State) (c : Issue) (f : FailRec), Clear s h .sca [] c → c.canTrap → c.exec ≠ 0 → c.fenced s = false →
     (∀ o ∈ s.core.ops, o.heldBy c.th = true → o.remote = false) → c.r.fail = some f →
     exec (.rfence h) s = .next (commit s { s.setThread c.th
       { c.trapped .remoteError (w64 (f.status + f.isl % 32 * 256 + (if f.sat then 0xFFFF else min f.ops.length 0xFFFF) * 65536))
           c.addr with fail := none } with focus := none }))

/-- R410: OCHOPEN opens a closed channel of the team towards a present island; OCHCLOSE marks an open one as closing.
Both are operations, and their checks trap with CHANNEL and the stated words, or with ISLAND_ABSENT, whose TVAL at
OCHOPEN, the operand, is the model's choice (log entry 39). COMPLETION: for every state and operands that meet the
conditions written before it, which are on the state and the operands alone, the conclusion is that
Sys2Proof.Machine.exec i s answers a next state, for i = ochopen, ochclose. -/
def Obligations.Channels : Prop :=
  ∀ (h : Head) (a b : Src),
    let isl (s : State) (c : Issue) : Nat := (rd64 s c (uS 1) a 0).toNat
    let ch (s : State) (c : Issue) : Nat := (rd64 s c (uS 2) b 0).toNat
    let key (s : State) (c : Issue) : Nat × Nat × Nat := (c.isl, c.team, ch s c)
    let word (ch isl reason : Nat) : W64 := w64 (ch % 16 + isl % 32 * 16 + reason * 512)
    let go (s : State) (c : Issue) : Prop := c.exec ≠ 0 ∧ c.ordered s false
    Acts (.ochopen h a b) h .sca [a, b] false
      (fun s c => present s (isl s c) = true ∧ ch s c ≤ 15 ∧ s.fab.chans.get? (key s c) = none)
      (fun s c => c.sends s { s with fab := { s.fab with chans := s.fab.chans.set (key s c) ⟨isl s c, true, false, false, 1, 0⟩ } }
        (c.op s h true .none (.ochopen (isl s c) (ch s c))) (some (ch s c))
        [{ dest := isl s c, op := .ochReset, addr := 0, n := 0, payload := [], och := some (ch s c), dst := (.global, []) }]) ∧
    Traps (.ochopen h a b) h .sca [a, b] (fun s c => go s c ∧ present s (isl s c) = false) .islandAbsent
      (fun s c => w64 (isl s c)) ∧
    Traps (.ochopen h a b) h .sca [a, b] (fun s c => go s c ∧ present s (isl s c) = true ∧ 15 < ch s c) .channel
      (fun s c => word (ch s c) (isl s c) 5) ∧
    Traps (.ochopen h a b) h .sca [a, b] (fun s c => go s c ∧ present s (isl s c) = true ∧ ch s c ≤ 15 ∧
      s.fab.chans.get? (key s c) ≠ none) .channel (fun s c => word (ch s c) (isl s c) 3) ∧
    (∀ x, Acts (.ochclose h b) h .sca [b] false (fun s c => ch s c ≤ 15 ∧ s.fab.chans.get? (key s c) = some x)
      (fun s c => c.starts s
        { s with fab := { s.fab with chans := s.fab.chans.modify (key s c) fun x => { x with closing := true } } }
        { c.op s h true .none (.ochclose (ch s c)) with waiting := if x.closing then 0 else 1 })) ∧
    Traps (.ochclose h b) h .sca [b] (fun s c => go s c ∧ 15 < ch s c) .channel (fun s c => word (ch s c) 0 5) ∧
    Traps (.ochclose h b) h .sca [b] (fun s c => go s c ∧ ch s c ≤ 15 ∧ s.fab.chans.get? (key s c) = none) .channel
      (fun s c => word (ch s c) 0 4)

/-- R208, R427: AMALLOC takes the lowest run of banks that no allocation of the core holds; the run reads zero, and no
band of it is granted. It fails on a count of 0 or above 128, where the team holds banks or a free of its banks is
pending, and without such a run; that the two causes of the team's own come before the lack of a run is the model's
choice (log entry 32). -/
def Obligations.AccumulatorAllocation : Prop :=
  ∀ (s : State) (isl core team n : Nat),
    let r := amAlloc s isl core team n
    let free (f : Nat) : Prop := f + n ≤ 128 ∧
      ∀ a ∈ s.mem.am, a.isl = isl → a.core = core → f + n ≤ a.first ∨ a.first + a.count ≤ f
    let none_ : Prop := ∀ a ∈ s.mem.am, ¬ (a.isl = isl ∧ a.core = core ∧ a.team = team)
    ((n = 0 ∨ 128 < n) → r = (s, 0x8000000000000000)) ∧
    (1 ≤ n → n ≤ 128 → (∃ a, amOf s isl core team = some a) → r = (s, 0x8000000000020000)) ∧
    (1 ≤ n → n ≤ 128 → amOf s isl core team = none → ¬ none_ → r = (s, 0x8000000000030000)) ∧
    (1 ≤ n → n ≤ 128 → none_ → (∀ f, ¬ free f) → r = (s, 0x8000000000010000)) ∧
    (∀ f, 1 ≤ n → n ≤ 128 → none_ → free f → (∀ f', f' < f → ¬ free f') →
      r.2 = w64 (n * 256 + f) ∧ amOf r.1 isl core team = some ⟨isl, core, team, f, n, false⟩ ∧
      (∀ bank w, accWord r.1 isl core bank w = if f ≤ bank ∧ bank < f + n then 0 else accWord s isl core bank w) ∧
      (∀ bank band, f ≤ bank → bank < f + n → r.1.mem.grants.get? (isl, core, bank, band) = none) ∧
      (∀ i k bank w, (i, k) ≠ (isl, core) → accWord r.1 i k bank w = accWord s i k bank w) ∧
      r.1.core = s.core ∧ ∀ i pa, r.1.mem.byte i pa = s.mem.byte i pa)

/-- R426 to R433: the accumulator instructions on banks that the team holds: AMGRANT, AMLD of a band granted to a group
of the strand, AMST, AMZERO, AMDRAIN and AMFREE; a bank it does not hold traps with AM_UNALLOCATED on a write or a
grant, and reads zero and sets UR on a read. R209, R210, R431: AMDRAIN writes the 8 rows of 16 words of a granted band,
converted or whole, at a stride; with Z the band then reads zero. Of a bank that the team does not hold it writes zeros
and sets UR; a band that is not granted to a group of the strand traps with AM_BAND, and a base or stride that is not
aligned with MISALIGNED. The model's choice: the order of the checks where two hold (log entry 32). COMPLETION: for
every state and operands that meet the conditions written before it, which are on the state and the operands alone, the
conclusion is that Sys2Proof.Machine.exec i s answers a next state, for i = amalloc, amfree, amgrant, amld, amst,
amdrain, amzero. -/
def Obligations.AccumulatorMoves : Prop :=
  (∀ (h : Head) (mask : BitVec 4) (band i : Nat) (a b : Src),
     let bankA (s : State) (c : Issue) : Nat := (rd64 s c (uS 1) a 0).toNat % 256
     let grp (s : State) (c : Issue) : Nat := (rd64 s c (uS 2) b 0).toNat % 512
     let held (s : State) (c : Issue) (bank : Nat) : Bool := amHeld s c.isl c.core c.team bank
     let idle (s : State) (c : Issue) : Prop := s.eng.matRun.get? (c.isl, c.core) = none
     let moves (s s' : State) (c : Issue) : State := commit s (c.advance s' c.r [])
     let lanes (_s : State) (c : Issue) (f : Nat → Nat → W32) : OpAct :=
       .value ((List.range 64).map fun j =>
         let word (k l : Nat) : W32 := if c.exec.getLsbD l then f k l else 0
         word (j / 32 * 2 + 1) (j % 32) ++ word (j / 32 * 2) (j % 32)) 0
     let bad (i : Instr) (k : Kind) (srcs : List Src) (bank : State → Issue → Nat) : Prop :=
       Traps i h k srcs (fun s c => c.exec ≠ 0 ∧ c.ordered s false ∧ held s c (bank s c) = false) .amUnallocated
         (fun s c => w64 (bank s c % 256))
     Acts (.amalloc h a) h .sca [a] false (fun _ _ => True) (fun s c =>
       let r := amAlloc s c.isl c.core c.team (rd32 s c (uS 1) a 0).toNat
       c.starts s r.1 (c.op s h true (.sca h.d 1) (.value [r.2] 0))) ∧
     Acts (.amfree h) h .sca [] false (fun _ _ => True) (fun s c => moves s (amFree s c.isl c.core c.team) c) ∧
     Acts (.amgrant h mask a b) h .sca [a, b] false
       (fun s c => held s c (bankA s c) = true ∧ (grp s c = 256 ∨ grp s c < c.tm.groups.length))
       (fun s c =>
         let give (t : Tbl (Nat × Nat × Nat × Nat) Nat) (x : Nat) : Tbl (Nat × Nat × Nat × Nat) Nat :=
           if mask.getLsbD x then
             (if grp s c = 256 then t.erase (c.isl, c.core, bankA s c, x) else t.set (c.isl, c.core, bankA s c, x) (grp s c))
           else t
         moves s { s with mem := { s.mem with grants := (List.range 4).foldl give s.mem.grants } } c) ∧
     Acts (.amld h band a) h .vec [a] false
       (fun s c => held s c (bankA s c) = true ∧ s.mem.poison = [] ∧ idle s c ∧
         ∃ g, s.mem.grants.get? (c.isl, c.core, bankA s c, band) = some g ∧ c.mr.groups.contains (g, true) = true)
       (fun s c => c.starts s s { c.op s h false (.vec h.d 4) (lanes s c fun k l =>
         accWord s c.isl c.core (bankA s c) (16 * (8 * band + 2 * k + l / 16) + l % 16)) with mem := true }) ∧
     Acts (.amld h band a) h .vec [a] false
       (fun s c => held s c (bankA s c) = false)
       (fun s c => c.starts s
         (if s.mem.ur.contains (c.isl, c.core, c.team) then s
           else { s with mem := { s.mem with ur := (c.isl, c.core, c.team) :: s.mem.ur } })
         { c.op s h false (.vec h.d 4) (lanes s c fun _ _ => 0) with mem := true }) ∧
     Traps (.amld h band a) h .vec [a] (fun s c => c.exec ≠ 0 ∧ c.ordered s false ∧ held s c (bankA s c) = true ∧
       ∀ g, s.mem.grants.get? (c.isl, c.core, bankA s c, band) = some g → c.mr.groups.contains (g, true) = false) .amBand
       (fun s c => w64 (bankA s c * 256 + band)) ∧
     Acts (.amst h band (.vreg i)) h .vec ((List.range 4).map fun k => .vreg (i + k)) false
       (fun s c => held s c h.d = true ∧ idle s c)
       (fun s c => moves s (accPut s c.isl c.core ((List.range 4).flatMap fun k => (lanesIn c.exec).map fun l =>
         ((h.d, 16 * (8 * band + 2 * k + l / 16) + l % 16), readV s c.th.m 1 (i + k) l))) c) ∧
     Acts (.amzero h mask) h .sca [] false (fun s c => held s c h.d = true ∧ idle s c)
       (fun s c => moves s (accPut s c.isl c.core ((maskWords h.d mask).map fun w => (w, 0))) c) ∧
     bad (.amst h band (.vreg i)) .vec ((List.range 4).map fun k => .vreg (i + k)) (fun _ _ => h.d) ∧
     bad (.amzero h mask) .sca [] (fun _ _ => h.d) ∧
     Traps (.amgrant h mask a b) h .sca [a, b] (fun s c => c.exec ≠ 0 ∧ c.ordered s false ∧ held s c (bankA s c) = false ∧
       (grp s c = 256 ∨ grp s c < c.tm.groups.length)) .amUnallocated (fun s c => w64 (bankA s c))) ∧
  (∀ (h : Head) (ty : Ty) (rnd : Rnd) (band d : Nat) (z : Bool) (b : Src) (as : List Access),
     let bank (s : State) (c : Issue) : Nat := (rd64 s c (uS 2) b 0).toNat % 256
     let base (s : State) (c : Issue) : Nat := (readS s c.th.m 1 d).toNat
     let stride (s : State) (c : Issue) : Nat := (readS s c.th.m 1 (d + 1)).toNat % 2 ^ 32
     let size : Nat := if ty.isH2 then 2 else 4
     let held (s : State) (c : Issue) : Bool := amHeld s c.isl c.core c.team (bank s c)
     let given (s : State) (c : Issue) : Prop :=
       ∃ g, s.mem.grants.get? (c.isl, c.core, bank s c, band) = some g ∧ c.mr.groups.contains (g, true) = true
     let word (s : State) (c : Issue) (j : Nat) : Nat × Nat :=
       let w : W32 := if held s c then accWord s c.isl c.core (bank s c) (128 * band + j) else 0
       if ty.isH2 then convert ty .f32 rnd false w.toNat else (w.toNat, 0)
     let rows (s : State) (c : Issue) : List Req := (List.range 8).flatMap fun r =>
       (wordRuns 10 ((base s c + r * stride s c) % 2 ^ 64)
         ((List.range 16).flatMap fun j => leBytes size (word s c (16 * r + j)).1)).map fun x =>
           ⟨0, 0, x.1 % 2 ^ 64, x.2.length, .bypass (w64 (leNat x.2))⟩
     Acts (.amdrain h ty rnd band z (.sreg d) b) h .sca [.sreg d, .sreg (d + 1), b] false
       (fun s c => held s c = true ∧ s.mem.poison = [] ∧
         s.eng.matRun.get? (c.isl, c.core) = none ∧ base s c % size = 0 ∧ stride s c % size = 0 ∧ given s c ∧
         c.Reaches s .global .write false (rows s c) as)
       (fun s c => c.starts s
         (if z then accPut s c.isl c.core ((bandWords (bank s c) band).map fun w => (w, 0)) else s)
         { c.op s h true .none (.drain ((List.range 128).foldl (fun f j => f ||| (word s c j).2) 0)) with accs := as }) ∧
     Acts (.amdrain h ty rnd band z (.sreg d) b) h .sca [.sreg d, .sreg (d + 1), b] false
       (fun s c => held s c = false ∧ base s c % size = 0 ∧ stride s c % size = 0 ∧
         c.Reaches s .global .write false (rows s c) as)
       (fun s c => c.starts s
         (if s.mem.ur.contains (c.isl, c.core, c.team) then s
           else { s with mem := { s.mem with ur := (c.isl, c.core, c.team) :: s.mem.ur } })
         { c.op s h true .none (.drain ((List.range 128).foldl (fun f j => f ||| (word s c j).2) 0)) with accs := as }) ∧
     Traps (.amdrain h ty rnd band z (.sreg d) b) h .sca [.sreg d, .sreg (d + 1), b]
       (fun s c => c.exec ≠ 0 ∧ c.ordered s false ∧ held s c = true ∧ ¬ given s c) .amBand
       (fun s c => w64 (bank s c * 256 + band)) ∧
     ∀ v, Traps (.amdrain h ty rnd band z (.sreg d) b) h .sca [.sreg d, .sreg (d + 1), b]
       (fun s c => c.exec ≠ 0 ∧ c.ordered s false ∧ (held s c = true → given s c) ∧
         [base s c, stride s c].find? (fun x => x % size != 0) = some v) .misaligned (fun _ _ => w64 v))

/-- R420 to R425: MMA, MMASP and MVM that pass their checks capture their operands' places, metadata and scales, enter
the input queue of the core's matrix engine where it holds fewer than 32 entries, and are outstanding; what the engine
had read ahead is dropped (R425). COMPLETION: for every state and operands that meet the conditions written before it,
which are on the state and the operands alone, the conclusion is that Sys2Proof.Machine.exec i s answers a next state,
for i = mma, mmasp, mvm. -/
def Obligations.MatrixStarts : Prop :=
  ∀ (h : Head) (a b : Src) (i : Nat) (job : MatJob) (reg : Nat → Src), (reg = .sreg ∨ reg = .greg) →
    let enters (s : State) (c : Issue) : State :=
      let o := c.op s h true .none (.matrix job)
      let s' := withOp (dropBufs s c.isl fun e _ _ => e == .matrix c.core) o
      let q := s.eng.matq.getD (c.isl, c.core) []
      commit s (c.advance (if q.length < 32 then
        { s' with eng := { s'.eng with matq := s'.eng.matq.set (c.isl, c.core) (q ++ [.instr o.id o.m job]) } } else s')
        c.raised [])
    let fb (s : State) (c : Issue) : Nat := (readS s c.th.m 3 i).toNat
    let pw (s : State) (c : Issue) : Nat := (readS s c.th.m 3 (i + 1)).toNat
    let mma (ins : Instr) (sp : Bool) (use : FbUse) : Prop :=
      ∀ s c, Clear s h .sca [a, b, .sreg i, .sreg (i + 1)] c → Plain c →
        let ca := 4 * (c.core / 4) + nbits (pw s c) 2 0
        let cb := 4 * (c.core / 4) + nbits (pw s c) 6 4
        let aoff := (rd32 s c (uS 1) a 0).toNat
        let boff := (rd32 s c (uS 2) b 0).toNat
        let moff := nbits (pw s c) 63 32
        let bytes (core off n : Nat) : List Byte := s.mem.spadBytes c.isl core (c.tm.base core + off) n
        let k := fbK (fb s c)
        let metas := if sp then bytes ca moff (4 * k) else []
        let scales (off rows : Nat) : List Byte :=
          if fbBlk (fb s c) = 0 then [] else bytes c.core off (rows * (k / fbBlk (fb s c)))
        (c.exec = 0 → exec ins s = .next (c.passes s)) ∧
        (c.exec ≠ 0 → c.fenced s = false → c.unreleased s = false → s.mem.poison = [] →
          fbBad (fb s c) use = none → peerBad (pw s c) sp = none → c.tm.inSpan ca = true → c.tm.inSpan cb = true →
          aoff % 64 = 0 → boff % 64 = 0 → (sp = true → moff % 4 = 0) →
          rangesBad c.tm.hdr.scr (mmaRanges (fb s c) aoff boff moff sp ++ mmaScales (fb s c)) = .inr false →
          amHeld s c.isl c.core c.team h.d = true → (sp = true → metaBad k metas = none) →
          job = { mvm := false, sparse := sp, fmt := fb s c, bank := h.d, acore := ca, aoff := c.tm.base ca + aoff,
                  bcore := cb, boff := c.tm.base cb + boff, metas := metas, asc := scales (fbAs (fb s c)) 32,
                  bsc := scales (fbBs (fb s c)) 16, rows := 0, klen := 0, wrows := [], nv := 0, vstr := 0, zacc := false } →
          exec ins s = .next (enters s c))
    mma (.mma h a b (reg i)) false .mma ∧ mma (.mmasp h a b (reg i)) true .mmasp ∧
    ∀ (j : Nat) s c, Clear s h .sca [a, .sreg j, .sreg (j + 1), .sreg i] c → Plain c →
      let d1 := (readS s c.th.m 2 j).toNat
      let d2 := (readS s c.th.m 2 (j + 1)).toNat
      let rows := nbits d1 15 0
      let klen := nbits d1 31 16
      let nv := nbits d2 50 48
      let voff := nbits d2 31 0
      let waddr := (rd64 s c (uS 1) a 0).toNat
      let bytes (off n : Nat) : List Byte := s.mem.spadBytes c.isl c.core (c.tm.base c.core + off) n
      let scales (off n : Nat) : List Byte := if fbBlk (fb s c) = 0 then [] else bytes off (n * (klen / fbBlk (fb s c)))
      (c.exec = 0 → exec (.mvm h a (reg j) (reg i)) s = .next (c.passes s)) ∧
      (∀ wrows, c.exec ≠ 0 → c.fenced s = false → c.unreleased s = false → s.mem.poison = [] →
        fbBad (fb s c) .mvm = none → mvmBad (fb s c) d1 d2 = none → waddr % 64 = 0 → voff % 64 = 0 →
        rangesBad c.tm.hdr.scr (mvmVectors (fb s c) voff (nbits d2 47 32) klen nv ++ mvmScales (fb s c) rows klen nv) =
          .inr false →
        (∀ x, x < (rows + 31) / 32 → amHeld s c.isl c.core c.team (h.d + x) = true) →
        weightRows s c waddr (nbits d1 63 32) rows (rowBytes (fbA (fb s c)) klen) = .ok wrows →
        job = { mvm := true, sparse := false, fmt := fb s c, bank := h.d, acore := c.core, aoff := 0, bcore := c.core,
                boff := c.tm.base c.core + voff, metas := [], asc := scales (fbAs (fb s c)) rows,
                bsc := scales (fbBs (fb s c)) (nv + 1), rows := rows, klen := klen, wrows := wrows, nv := nv,
                vstr := nbits d2 47 32, zacc := nbit d2 51 } →
        exec (.mvm h a (reg j) (reg i)) s = .next (enters s c))

/-- R434 to R438: CHPUT, CHADV, SPAWN and JOINDEC translate the words they act on at issue and act at their completion;
CHSEQ reads a word of a descriptor at its home bank. Addresses that are not aligned, those of the descriptor, the
records, the header of a kernel and the join word, and a CHADV count of 0 or above 64, trap. COMPLETION: for every state
and operands that meet the conditions written before it, which are on the state and the operands alone, the conclusion
is that Sys2Proof.Machine.exec i s answers a next state, for i = chput, chadv, chseq, spawn, joindec. -/
def Obligations.TasksAndChainsStart : Prop :=
  ∀ (h : Head) (a b c0 : Src) (i : Nat) (acq : Bool) (sel : ChSel) (as : List Access) (reg : Nat → Src),
    (reg = .sreg ∨ reg = .greg) →
    let x (s : State) (c : Issue) : Nat := (rd64 s c (uS 1) a 0).toNat
    let y (s : State) (c : Issue) : Nat := (rd64 s c (uS 2) b 0).toNat
    let n (s : State) (c : Issue) : Nat := (rd32 s c (uS 3) c0 0).toNat
    let puts (ins : Instr) (srcs : List Src) (count : State → Issue → Nat) (adv : Bool) : Prop :=
      (∀ pa big ra sl lg, Acts ins h .sca srcs true
        (fun s c => x s c % 512 = 0 ∧ y s c % 64 = 0 ∧ (adv = true → 1 ≤ count s c ∧ count s c ≤ 64) ∧
          c.xlate s (x s c) .write = .ok pa false big ∧
          c.xlate s (y s c) .read = .ok ra sl lg ∧ s.mem.poisonedAt c.isl pa 512 = none)
        (fun s c => c.starts s s (c.op s h true (.sca h.d 1) (.append (x s c) pa (y s c) (count s c) adv)))) ∧
      Traps ins h .sca srcs (fun s c => c.exec ≠ 0 ∧ c.ordered s true ∧ x s c % 512 ≠ 0) .misaligned (fun s c => w64 (x s c)) ∧
      Traps ins h .sca srcs (fun s c => c.exec ≠ 0 ∧ c.ordered s true ∧ x s c % 512 = 0 ∧ y s c % 64 ≠ 0) .misaligned
        (fun s c => w64 (y s c))
    puts (.chput h a b) [a, b] (fun _ _ => 1) false ∧ puts (.chadv h a b c0) [a, b, c0] n true ∧
    Traps (.chadv h a b c0) h .sca [a, b, c0] (fun s c => c.exec ≠ 0 ∧ c.ordered s true ∧ x s c % 512 = 0 ∧ y s c % 64 = 0 ∧
      (n s c = 0 ∨ 64 < n s c)) .operandRange (fun s c => w64 (3 * 4096 + n s c % 4096)) ∧
    Acts (.chseq h acq sel a) h .sca [a] false
      (fun s c => x s c % 512 = 0 ∧ c.Reaches s .global .read true
        [⟨0, 0, (x s c + chseqOffset sel) % 2 ^ 64, 8, .bank⟩] as)
      (fun s c => c.starts s s { c.op s h true (.sca h.d 1) (.load .n64 false) with accs := as, acq := acq }) ∧
    Traps (.chseq h acq sel a) h .sca [a] (fun s c => c.exec ≠ 0 ∧ c.ordered s false ∧ x s c % 512 ≠ 0) .misaligned
      (fun s c => w64 (x s c)) ∧
    Traps (.spawn h a (reg i) c0) h .sca [a, .sreg i, .sreg (i + 1), c0]
      (fun s c => c.exec ≠ 0 ∧ c.ordered s true ∧ x s c % 64 ≠ 0) .misaligned (fun s c => w64 (x s c)) ∧
    Traps (.spawn h a (reg i) c0) h .sca [a, .sreg i, .sreg (i + 1), c0]
      (fun s c => c.exec ≠ 0 ∧ c.ordered s true ∧ x s c % 64 = 0 ∧ (readS s c.th.m 2 i).toNat % 256 ≠ 0) .misaligned
      (fun s c => readS s c.th.m 2 i) ∧
    Traps (.joindec h a b) h .sca [a, b] (fun s c => c.exec ≠ 0 ∧ c.ordered s true ∧ x s c % 8 ≠ 0) .misaligned
      (fun s c => w64 (x s c)) ∧
    (∀ pa sl big, Acts (.spawn h a (reg i) c0) h .sca [a, .sreg i, .sreg (i + 1), c0] true
      (fun s c => x s c % 64 = 0 ∧ (readS s c.th.m 2 i).toNat % 256 = 0 ∧
        c.xlate s (x s c) .atomic = .ok pa sl big ∧ s.mem.poisonedAt c.isl pa 64 = none)
      (fun s c => let ctl := (rd64 s c (uS 3) c0 0).toNat
        c.starts s s (c.op s h true (.sca h.d 1)
          (.spawn (x s c) pa (readS s c.th.m 2 i) (readS s c.th.m 2 (i + 1)) (ctl % 2 ^ 16) (ctl / 2 ^ 16 % 8))))) ∧
    ∀ pa sl big, Acts (.joindec h a b) h .sca [a, b] true
      (fun s c => x s c % 8 = 0 ∧ c.xlate s (x s c) .atomic = .ok pa sl big ∧
        s.mem.poisonedAt c.isl pa 8 = none)
      (fun s c => c.starts s s (if y s c % 65536 = 0 then c.plain s h
        else c.op s h true .none (.joindec (x s c) pa (y s c % 65536))))

/-- R134: a join decrement: in a join word that is WAITING or a COUNTER with a positive count, the count falls by the
decrement, or to 0 with the rest added to LATE, which saturates; the record becomes READY only from WAITING and only
when the count falls to 0. In every other word the whole decrement is added to LATE. -/
def Obligations.JoinDecrements : Prop :=
  ∀ (w count : Nat), w < 2 ^ 64 →
    let st := w / 2 ^ 56
    let late := w / 2 ^ 40 % 2 ^ 16
    let cnt := w % 2 ^ 32
    let word (st late cnt : Nat) : Nat := st * 2 ^ 56 + late * 2 ^ 40 + cnt
    let live : Prop := (st = 1 ∨ st = 7) ∧ 0 < cnt
    (live → count < cnt → decremented w count = (word st late (cnt - count), false)) ∧
    (live → cnt ≤ count → decremented w count =
      (word (if st = 1 then 2 else 7) (min (late + (count - cnt)) 0xFFFF) 0, st == 1)) ∧
    (¬ live → decremented w count = (word st (min (late + count) 0xFFFF) cnt, false))

/-- R153, R159, R297: a thread that is eligible, has a free port and has waited longest of those that could start,
before a clause that passes its checks and whose words can be fetched, begins the clause where its wait mask allows;
before a word that is no clause it traps with ILLEGAL_CLAUSE and its address. The paths of its bay settle first (R164,
R166). The model's choice: when a thread holds a port and what counts as fetched (log entry 44). COMPLETION: for every
state and operands that meet the conditions written before it (those on the event and the state), the conclusion is that
Sys2Proof.Machine.exec i s answers a next state, for i = clauseStart. -/
def Obligations.ClauseStarts : Prop :=
  ∀ (s0 : State) (th : Thread) (r : ThreadRec) (mr : MemberRec) (tm : Team),
    let s := settleAround s0 th.m
    let cls := if th.m.gaffer then Cls.gaffer else .strand
    s0.occ = .thread th → s.thread? th = some r → s.member? th.m = some mr → s.team? th.m.isl th.m.team = some tm →
    eligible s th r mr tm = true → portFree s th mr = true → longest s th r mr = true →
    (∀ s1 s2 hdr ws, clauseCheck s th.m.isl tm.part mr.core tm.hdr r.pc cls = .good →
      fetchWord s th.m.isl tm.part mr.core r.pc = .ok (s1, hdr) →
      fetchWords th.m.isl tm.part mr.core (hdr / 2 ^ 56 % 16 + 1) (r.pc + 8) s1 = .ok (s2, ws) →
      (waitsFor s2 th r hdr = false → ∃ t, exec .clauseStart s0 = .next t ∧
        (t.thread? th).map (fun x => (x.clause, x.slot, x.latches, x.pc, x.mask, x.sb)) =
          some (some ⟨r.pc, w64 hdr, ws⟩, 0, zeroLatches, r.pc, r.mask, r.sb) ∧
        t.focus = some th ∧ (t.member? th.m).map (·.issued) = some true ∧
        t.core.vreg = s.core.vreg ∧ t.core.sreg = s.core.sreg ∧ t.core.pred = s.core.pred) ∧
      (waitsFor s2 th r hdr = true → exec .clauseStart s0 = .refused (.notEnabled "CLAUSE_START"))) ∧
    (clauseCheck s th.m.isl tm.part mr.core tm.hdr r.pc cls = .bad →
      Occurs .clauseStart s0 (takeTrap s th .illegalClause (w64 r.pc) r.pc))

/-- R161, R185, R276, R149, R231, R354, R400, R444: completions, the ends of YIELD, SLEEP and MWAIT, the watchdog, and a
cairn probe of an operation or of a copy engine take place when they are due, and then only; an MWAIT may return for no
reason at any time. COMPLETION: for every state and operands that meet the conditions written before it (those on the
event and the state), the conclusion is that Sys2Proof.Machine.exec i s answers a next state, for i = cairnProbe,
variableLatencyCompletion, watchdogExpiry, yieldExpiry, sleepExpiry, mwaitTimeout, mwaitReturnNoReason. -/
def Obligations.ExecutionEvents : Prop :=
  ∀ (s : State) (th : Thread) (r : ThreadRec) (o : Machine.Op) (id n isl team : Nat) (nowatch : Bool) (d : Option Nat) (tm : Team)
    (q : Queue) (ref : RecRef) (e : EngRec),
    (s.occ = .op id → s.op? id = some o →
      (o.ready s = true → Occurs .variableLatencyCompletion s (complete s o)) ∧
      (o.ready s = false → exec .variableLatencyCompletion s = .refused (.notEnabled "VARIABLE_LATENCY_COMPLETION")) ∧
      (o.act = .mwait d nowatch →
        Occurs .mwaitReturnNoReason s (returnMwait s o nowatch (d.any fun x => decide (x ≤ s.clk o.m.isl))) ∧
        ((∃ x, d = some x ∧ x ≤ s.clk o.m.isl) → Occurs .mwaitTimeout s (returnMwait s o nowatch true)) ∧
        ((∀ x, d = some x → s.clk o.m.isl < x) → exec .mwaitTimeout s = .refused (.notEnabled "MWAIT_TIMEOUT"))) ∧
      ((∀ x w, o.act ≠ .mwait x w) → exec .mwaitTimeout s = .refused (.notEnabled "MWAIT_TIMEOUT") ∧
        exec .mwaitReturnNoReason s = .refused (.notEnabled "MWAIT_RETURN_NO_REASON")) ∧
      (inOrder s o = true → o.blockedOn s = some q → probeDue s o.m.isl o.since q = true →
        Occurs .cairnProbe s (probeOp s o q)) ∧
      ((inOrder s o = false ∨ o.blockedOn s = none ∨ (o.blockedOn s = some q ∧ probeDue s o.m.isl o.since q = false)) →
        exec .cairnProbe s = .refused (.notEnabled "CAIRN_PROBE"))) ∧
    (s.occ = .engine ref → s.rec? ref = some e →
      (e.blockedOn s = some q → probeDue s ref.chain.isl e.since q = true → Occurs .cairnProbe s (probeRec s e q)) ∧
      ((e.blockedOn s = none ∨ (e.blockedOn s = some q ∧ probeDue s ref.chain.isl e.since q = false)) →
        exec .cairnProbe s = .refused (.notEnabled "CAIRN_PROBE"))) ∧
    (s.occ = .thread th → s.thread? th = some r →
      (r.wait.yielded = some n → n ≤ s.clk th.m.isl →
        Occurs .yieldExpiry s (s.setThread th { r with wait := { r.wait with yielded := none } })) ∧
      ((∀ x, r.wait.yielded = some x → s.clk th.m.isl < x) →
        exec .yieldExpiry s = .refused (.notEnabled "YIELD_EXPIRY")) ∧
      (r.wait.asleep = some n → n ≤ s.clk th.m.isl →
        Occurs .sleepExpiry s (s.setThread th { r with wait := { r.wait with asleep := none } })) ∧
      ((∀ x, r.wait.asleep = some x → s.clk th.m.isl < x) →
        exec .sleepExpiry s = .refused (.notEnabled "SLEEP_EXPIRY"))) ∧
    (s.occ = .team isl team → s.team? isl team = some tm → tm.ending = none → tm.first ≠ none →
      (tm.hdr.wdog ≤ tm.wdog → Gives (exec .watchdogExpiry s) fun t =>
        (t.team? isl team).map (·.ending) = some (some (0x20, 0)) ∧
        ∀ th, th.m.isl = isl → th.m.team = team → t.thread? th = none) ∧
      (tm.wdog < tm.hdr.wdog → exec .watchdogExpiry s = .refused (.notEnabled "WATCHDOG_EXPIRY")))

/-- R223, R226, R227: a NOP record ends with OK, or with MALFORMED and the bit at fault; nothing else changes. A copy
chain whose records have completed and that nothing has been appended to for 65,536 core clocks becomes UNBOUND; before
that time the event does not take place. R228 to R230: a COPY ends with the status and DETAIL of the first check that
fails, in their order: MALFORMED, then, once its layouts have been read, SEAL, SHAPE, FORMAT, SPAN and RANGE, and
nothing is written. An element of its source, converted, joins the writes of its engine at its destination's address;
after the last element a copy without a follow-on ends with OK. An element that cannot be read or written ends it with
POISON, SEALED or WINDOW and the bytes copied before, or parks it. A write of the engine performs whole. R233, R234,
R236, R260: an MMA record ends with SPAN without its team, or with the status of the first check of its steps that
fails; a step gives each of its 512 words the dot product of a row of A and a row of B over the word as the steps before
left it, which is the bank's word, or zero with Z, before step 0. An MVM record ends with SPAN, or with the status of
its ranges or of poison in them; a row gives its words the dot products of the row's weights and the vectors. The words
stand in the banks when the record is done. R226: at the completion of a record its STATUS and DETAIL are written, or
its status becomes RECORD where they cannot be; its engine has done with it; COMP rises by one where the records before
it have completed, and stays where one has not; a record that failed halts its chain, which keeps the status and the
place of the record while another of its records is under way, and is bound no more once none is. A record that
completed with OK makes its join decrement; one that is not done does not complete. The model's choice: how much of a
record one step carries out, how long an idle chain has to be idle at a warm reset, and what a chain keeps while its
engine is another's (log entries 24 and 25). COMPLETION: for every state and operands that meet the conditions written
before it, which are on the state and the operands alone, the conclusion is that Sys2Proof.Machine.exec i s answers a
next state, for i = notify, copy, nopRecord, mmaRecord, mvmRecord, engineRecordCompletion, copyChainIdleUnbind. -/
def Obligations.EngineEvents : Prop :=
  (∀ (s : State) (ref : RecRef) (r : EngRec) (cr : ChainRef) (c : Chain) (ce : Nat),
     (s.occ = .engine ref → occRec s = some r → recOp r.bits = 0 → (∀ core, r.eng = .matrix core → atEngine s r core = true) →
       Gives (exec .nopRecord s) fun t =>
         (t.rec? ref).map (·.res) = some (some (match nopMal r.bits with
           | none => (0, 0)
           | some b => (0x03, b))) ∧
         t.mem = s.mem ∧ t.core = s.core ∧ t.eng.chains = s.eng.chains ∧ t.fab = s.fab) ∧
     (s.occ = .engineChain cr → s.eng.chains.get? cr = some c → c.eng = .copy ce → c.halted = false → c.comp = c.tail →
       (65536 ≤ s.clk cr.isl - c.lastAppend → Gives (exec .copyChainIdleUnbind s) fun t =>
         t.eng.chains.get? cr = none ∧
         ∀ pa, Lands s cr.isl cr.part (cr.desc + 280) 8 .write true pa → Wrote s t cr.isl pa (leBytes 8 0)) ∧
       (s.clk cr.isl - c.lastAppend < 65536 →
         exec .copyChainIdleUnbind s = .refused (.notEnabled "COPY_CHAIN_IDLE_UNBIND")))) ∧
  (∀ (s : State) (ref : RecRef) (r : EngRec) (ce n sl dl : Nat) (ss ds : Side),
     let isl := ref.chain.isl
     let x := r.bits
     let ends (e : Nat × Nat) : Prop := Gives (exec .copy s) fun t =>
       (t.rec? ref).map (·.res) = some (some e) ∧ t.mem = s.mem ∧ t.eng.outs = s.eng.outs ∧ t.eng.chains = s.eng.chains
     (occRec s = some r → r.ref = ref → r.eng = .copy ce → recOp x = 1 →
       (r.lays = none →
         (∀ b, copyMal x = some b → ends (0x03, b)) ∧
         (copyMal x = none → readLayout (beginRec s r) r (nbits x 407 356) = .ok sl →
           readLayout (beginRec s r) r (nbits x 355 304) = .ok dl →
           (layoutSealed sl = false → ends (0x01, 0)) ∧
           (layoutSealed sl = true → layoutSealed dl = false → ends (0x01, 1)) ∧
           (layoutSealed sl = true → layoutSealed dl = true →
             (∀ d, copyShapeBad x sl dl = some d → ends (0x02, d)) ∧
             (copyShapeBad x sl dl = none →
               (copyFormatBad (nbits x 228 226) (layEsz sl) (layEsz dl) = true → ends (0x04, 226)) ∧
               (copyFormatBad (nbits x 228 226) (layEsz sl) (layEsz dl) = false →
                 (copySide s r (nbits x 251 250) = none ∨ copySide s r (nbits x 249 248) = none → ends (0x08, 0)) ∧
                 (copySide s r (nbits x 251 250) = some ss → copySide s r (nbits x 249 248) = some ds →
                   ∀ a, (sideOutside ss (nbits x 511 460) sl).or (sideOutside ds (nbits x 459 408) dl) = some a →
                     ends (0x0A, a))))))) ∧
       (s.occ = .engineSome ref 1 → r.lays = some (sl, dl) → r.step < layCount sl → copySide s r (nbits x 251 250) = some ss →
         copySide s r (nbits x 249 248) = some ds →
         let v := engineView s isl r.eng
         (∀ y w, copyRead s v r ss (nbits x 511 460) sl r.step = .ok y →
           copyWrite s r ds (nbits x 459 408) dl r.step (convElement x y) = .ok w → Gives (exec .copy s) fun t =>
             (∃ o ∈ t.eng.outs, o.ref = ref ∧ o.core = w.core ∧ o.addr ≤ w.addr ∧
               o.addr + o.val.length = w.addr + w.val.length ∧ o.val.drop (w.addr - o.addr) = w.val) ∧ t.mem = s.mem ∧
             (r.step + 1 < layCount sl → (t.rec? ref).map (fun e => (e.step, e.res)) = some (r.step + 1, none)) ∧
             (r.step + 1 = layCount sl → nbits x 303 252 = 0 → (t.rec? ref).map (·.res) = some (some (0, 0)))) ∧
         (∀ e, (copyRead s v r ss (nbits x 511 460) sl r.step = .error e ∨
             ∃ y, copyRead s v r ss (nbits x 511 460) sl r.step = .ok y ∧
               copyWrite s r ds (nbits x 459 408) dl r.step (convElement x y) = .error e) → Gives (exec .copy s) fun t =>
           t.mem = s.mem ∧ match e with
           | .status st => (t.rec? ref).map (·.res) = some (some (st, r.step * layEsz dl))
           | .fault .. => (t.rec? ref).map (fun e => (e.parked.isSome, e.res)) = some (true, none)))) ∧
     (∀ base lay k y, r.ref = ref →
       (∀ pa, r.access s (base + layOffset lay k) (layEsz lay) .write = .ok pa →
         copyWrite s r .global base lay k y = .ok ⟨ref, r.eng, none, pa, leBytes (layEsz lay) y⟩) ∧
       (∀ pa, r.access s (base + layOffset lay k) (layEsz lay) .read = .ok pa →
         (s.mem.poisonedAt isl pa (layEsz lay) = none →
           copyRead s s r .global base lay k = .ok (s.mem.nat isl pa (layEsz lay))) ∧
         (s.mem.poisonedAt isl pa (layEsz lay) ≠ none → copyRead s s r .global base lay k = .error (.status 0x07)))) ∧
     (∀ w, s.eng.outs[n]? = some w → outWhole s n w = true → outBehind s n w = false → ∃ t, drainOut s n = some t ∧
       t.eng.outs = s.eng.outs.take n ++ s.eng.outs.drop (n + 1) ∧
       (w.core = none → w.addr + w.val.length ≤ 2 ^ 39 → Wrote s t w.ref.chain.isl w.addr w.val) ∧
       (∀ c, w.core = some c → (∀ i a, t.mem.byte i a = s.mem.byte i a) ∧
         ∀ k, t.mem.spad.get k = if skey w.ref.chain.isl c w.addr ≤ k ∧ k < skey w.ref.chain.isl c w.addr + w.val.length then
           w.val.getD (k - skey w.ref.chain.isl c w.addr) 0 else s.mem.spad.get k))) ∧
  (∀ (s : State) (ref : RecRef) (r : EngRec) (core : Nat) (tm : Team),
     let isl := ref.chain.isl
     let x := r.bits
     let fb := nbits x 511 448
     let s1 := beginRec s r
     let v := engineView s1 isl r.eng
     let bank := nbits x 361 354
     let ended (i : Instr) (e : Nat × Nat) : Prop := Gives (exec i s) fun t => (t.rec? ref).map (·.res) = some (some e)
     (occRec s = some r → r.ref = ref → r.eng = .matrix core → atEngine s r core = true →
       (recOp x = 0x10 →
         (s.team? isl r.team = none → ended .mmaRecord (0x08, 0)) ∧
         (s.team? isl r.team = some tm →
           (∀ e, mmaPre tm core x = some e → ended .mmaRecord e) ∧
           (mmaPre tm core x = none → s.occ = .engineSome ref 1 → r.step < nbits x 353 346 →
             (∀ e, stepJob v isl core tm x r.step = .error e → e ≠ (0, 0) → ended .mmaRecord e) ∧
             (∀ j, stepJob v isl core tm x r.step = .ok j → Gives (exec .mmaRecord s) fun t =>
               (t.rec? ref).map (fun e => (e.step, e.res)) =
                 some (if r.step + 1 < nbits x 353 346 then (r.step + 1, none) else (r.step, some (0, 0))) ∧
               t.mem.acc = s.mem.acc ∧
               ∀ i k, i < 32 → k < 16 →
                 let nb := if fbBlk j.fmt = 0 then 0 else fbK j.fmt / fbBlk j.fmt
                 let old := if r.step ≠ 0 then wordAfter v isl core (unwritten s isl core) j.bank (16 * i + k)
                   else if nbit x 313 then wordAfter v isl core ((List.range 512).map fun w => ((bank, w), (0 : W32))) j.bank (16 * i + k)
                   else accWord v isl core j.bank (16 * i + k)
                 let b := spadRow v isl j.bcore (j.boff + k * rowBytes (fbB j.fmt) (fbK j.fmt)) (fbB j.fmt) (fbK j.fmt)
                 ((j.bank, 16 * i + k), w32 (dotProduct j.fmt old.toNat (jobRowA v isl j i) b (scaleRow j.asc i nb)
                   (scaleRow j.bsc k nb))) ∈ unwritten t isl core)))) ∧
       (recOp x = 0x11 →
         (s.team? isl r.team = none → ended .mvmRecord (0x08, 0)) ∧
         (s.team? isl r.team = some tm →
           let rows := nbits x 395 380
           let klen := nbits x 379 364
           let nv := nbits x 283 281
           let vs := mvmVectors fb (nbits x 331 300) (nbits x 299 284) klen nv
           let sc := mvmScales fb rows klen nv
           let bytes (q : Option (Nat × Nat)) : List Byte := (q.map fun q => resBytes v isl tm core q.1 q.2).getD []
           (∀ e, rangeStatus tm.hdr.scr (vs ++ sc) = some e → ended .mvmRecord e) ∧
           (rangeStatus tm.hdr.scr (vs ++ sc) = none →
             (spadRangesPoison v isl tm ((vs ++ sc).map fun q => (core, q)) ≠ none → ended .mvmRecord (0x07, r.step)) ∧
             (spadRangesPoison v isl tm ((vs ++ sc).map fun q => (core, q)) = none → s.occ = .engineSome ref 1 → r.step < rows →
               ∀ runs, recRow s1 v r r.step = .ok runs →
                 (nbit x 272 = true ∨ banksPoison s1 isl core ((List.range (nv + 1)).map fun k =>
                   (nbits x 280 273 + r.step / 32, 16 * (r.step % 32) + k)) = none) → Gives (exec .mvmRecord s) fun t =>
                   (t.rec? ref).map (fun e => (e.step, e.res)) =
                     some (r.step + 1, if r.step + 1 = rows then some (0, 0) else none) ∧
                   t.mem.acc = s.mem.acc ∧
                   ∀ k, k ≤ nv →
                     let nb := if fbBlk fb = 0 then 0 else klen / fbBlk fb
                     let at_ := (nbits x 280 273 + r.step / 32, 16 * (r.step % 32) + k)
                     let a := unpack (fbA fb) klen (leNat (runs.flatMap fun q => v.mem.bytes isl q.1 q.2))
                     let b := spadRow v isl core (tm.base core + nbits x 331 300 + k * nbits x 299 284) (fbB fb) klen
                     (at_, w32 (dotProduct fb (if nbit x 272 then 0 else (accWord s isl core at_.1 at_.2).toNat) a b
                       (scaleRow (bytes sc[0]?) r.step nb) (scaleRow (bytes sc[1]?) k nb))) ∈ unwritten t isl core))))) ∧
     (∀ run, s.eng.matRun.get? (isl, core) = some run → run.bad = false → run.passed = [] → (run.writes.map (·.1)).Nodup →
       let t := matrixDone s isl core
       t.eng.matRun.get? (isl, core) = none ∧ (∀ w ∈ run.writes, accWord t isl core w.1.1 w.1.2 = w.2) ∧
       ∀ i c b k, (i, c) ≠ (isl, core) ∨ (b, k) ∉ run.writes.map (·.1) → accWord t i c b k = accWord s i c b k)) ∧
  (∀ (s : State) (ref : RecRef) (r : EngRec) (st d : Nat),
     let isl := ref.chain.isl
     let part := ref.chain.part
     let ji := nbits r.bits 191 187
     let ja := nbits r.bits 186 135
     let w := writeStatus s r st d
     (s.rec? ref = some r →
       (∀ pa sl, accessBy s isl r.eng.agent part (r.addr + 8) 8 .write true = .ok (pa, sl) → w.2 = st ∧
         (pa + 8 ≤ 2 ^ 39 → Wrote s w.1 isl pa (leBytes 8 (d % 2 ^ 56 + st * 2 ^ 56)))) ∧
       (∀ e, accessBy s isl r.eng.agent part (r.addr + 8) 8 .write true = .error e → w.2 = 0x0B ∧ w.1.mem = s.mem) ∧
       (ja ≠ 0 → ji = isl → ∀ pa sl, accessBy s isl r.eng.agent part ja 8 .atomic false = .ok (pa, sl) →
         (joinDecrement s isl part ja pa 1).2 = true → recordJoin s r = .ok (joinDecrement s isl part ja pa 1).1) ∧
       (ja ≠ 0 → ji ≠ isl → present s ji = true → recordJoin s r = .ok (request isl part 0xFFF .engine s [{
         dest := ji, op := .notify, addr := ja, n := 0, payload := [], och := none, dst := (.global, []), count := 1 }])) ∧
       (s.occ = .engine ref → recordActive s isl part r.eng = true →
         (∀ core, r.eng = .matrix core → atEngine s r core = true) →
         (r.res = some (st, d) → r.parked = none → (w.2 ≠ 0 ∨ ja = 0) → Gives (exec .engineRecordCompletion s) fun t =>
           t.rec? ref = none ∧ (∀ core, r.eng = .matrix core → t.eng.matRun.get? (isl, core) = none) ∧
           ∀ c, s.eng.chains.get? ref.chain = some c → c.halted = false → c.doneAbove = [] →
             let comp := if ref.seq = c.comp + 1 then c.comp + 1 else c.comp
             (w.2 = 0 → (t.eng.chains.get? ref.chain).map (fun k => (k.comp, k.halted)) = some (comp, false)) ∧
             (w.2 ≠ 0 → (∃ q ∈ s.eng.recs, q.ref.chain = ref.chain ∧ q.known = true ∧ q.ref ≠ ref) →
               (t.eng.chains.get? ref.chain).map (fun k => (k.comp, k.halted, k.hstat, k.erraddr, k.errseq)) =
                 some (comp, true, w.2, r.addr, ref.seq)) ∧
             (w.2 ≠ 0 → (∀ q ∈ s.eng.recs, q.ref.chain = ref.chain → q.known = true → q.ref = ref) →
               t.eng.chains.get? ref.chain = none)) ∧
         (r.res = some (st, d) → r.parked = none → w.2 = 0 → ja ≠ 0 →
           let s1 := if nbit r.bits 54 then releaseRec w.1 r else w.1
           (∀ s2, recordJoin s1 r = .ok s2 → Occurs .engineRecordCompletion s (closeRec s2 r 0)) ∧
           (∀ va p l, recordJoin s1 r = .error (.fault va p l) → Gives (exec .engineRecordCompletion s) fun t =>
             (t.rec? ref).map (fun e => (e.parked.isSome, e.res)) = some (true, some (st, d)))) ∧
         ((r.res = none ∨ r.parked ≠ none) →
           exec .engineRecordCompletion s = .refused (.notEnabled "ENGINE_RECORD_COMPLETION")))))

/-- R135, R141 to R144: placement serves the partition whose turn it is with the first of its candidates: a record whose
kernel can be read and whose span and number are free becomes a team there, with its record out of its ready queue and
its gaffer contexts before their first clause; one whose header cannot be read ends with the status of the check. Where
the turn or the candidates allow nothing, the event does not take place. R114, R116, R118, R147: the end of a team
begins with its record of status and LCAUSE and, where it ended normally, once its memory operations have completed; it
waits for its completion decrements, then TEAM, ENDST and STATE = DONE are written and what it held is released, at once
or, for a LAUNCH, once that command's record has completed with the end's status. A discarded team's record goes back to
its ready queue. A field of a record is written by itself. R118, R126 to R128: a team all of whose members have saved
leaves its control state, its PSW and then MAPVALID in its resume map, its STATE becomes SAVED, what it held is
released, and it waits for its restore placement; one whose map cannot be written ends with PREEMPT_LOST and LCAUSE 4;
one that is not ready is not saved. Once every restore routine has begun, MAPVALID is cleared and RESTORED set. R113 to
R117, R129, R186: a switch tick of a rotation begins the switch of its resident member, who keeps its place until the
lehr is done: teams that have not begun give their records back, and each of the others is asked, with the decision of
R115 and its DEADLINE. When DEADLINE passes, the copies of the partition go back to their first byte, and a team that
still runs is marked as overrun, or, in a gang rotation, ends with PREEMPT_LOST and LCAUSE 3; at 16 times DEADLINE it
ends with PREEMPT_LOST and LCAUSE 1. Each takes place when it is due and then only. R85, R113, R119 to R121: an event of
the lehr, queued or of a switch, once its slices or engines are idle. The marked bytes of the slices' lines go to HBM;
members, accumulators and scratchpads of their cores are cleared; a slice whose check holds gets the next sequence
number and its token and takes teams again; one whose check fails stays fenced, without a token. The last slice of a
switch brings in the next member and begins its quantum. An engine move gives the engines to their new owner, or, where
its check fails, leaves them. An event that is not due does not take place. The model's choice: the order of the
weighted round robin, and that a failed check of an engine move leaves the engines where they are (log entries 46 and
36). COMPLETION: for every state and operands that meet the conditions written before it (those on the event and the
state), the conclusion is that Sys2Proof.Machine.exec i s answers a next state, for i = switchTick, deadlineExpiry,
overrunLimit, resumeMapWrite, lehrEvent, teamPlacement, restoreComplete, teamEnd, copy. -/
def Obligations.TeamEvents : Prop :=
  (∀ (s s' : State) (isl part team c0 : Nat) (turn : Nat × Nat) (c : Cand) (cs : List Cand) (q : QEntry) (k : Kernel)
     (o : List (Nat × Nat)) (e : HeadErr),
     s.occ = .place isl part →
     (dispatchTurn s isl part = some turn → dispatch s isl part = some s' →
       Occurs .teamPlacement s { s' with task := { s'.task with turn := s'.task.turn.set isl turn } }) ∧
     ((dispatchTurn s isl part = none ∨ dispatch s isl part = none) →
       exec .teamPlacement s = .refused (.notEnabled "TEAM_PLACEMENT")) ∧
     (s.fab.fenced.get? isl = none → dispatches s isl part = true → placeable s isl part = c :: cs → tryCand s c = some s' →
       dispatch s isl part = some s') ∧
     (dispatchTurn s isl part = some turn → s.fab.fenced.get? isl = none → dispatches s isl part = true →
       placeable s isl part = .ready q :: cs → q.isl = isl → q.part = part → q.mark ∉ s.mem.poison →
       (readKernel s isl part q.task = .ok k → findSpan s isl part k.hdr (initialOn k.hdr) (fun _ => true) = some (c0, o) →
         freeTeamId s isl = some team → Gives (exec .teamPlacement s) fun t =>
           (t.team? isl team).map (fun x => (x.part, x.task, x.hdr, x.c0, x.spad, x.ctx)) =
             some (part, q.task, k.hdr, c0, o.map (·.1), o.map (·.2)) ∧
           (t.team? isl team).map (fun x => (x.n, x.first, x.ending, x.wdog)) = some (k.hdr.cores, none, none, 0) ∧
           t.task.queue = s.task.queue.filter (·.order ≠ q.order) ∧ t.task.turn.get? isl = some turn ∧
           ∀ i pc, i < k.hdr.cores → k.hdr.gentry = some pc →
             (t.thread? ⟨⟨isl, team, true, i⟩, 0⟩).map (fun r => (r.pc, r.mask, r.clause)) = some (pc, 1, none)) ∧
       (readKernel s isl part q.task = .error e → q.task.origin ≠ 1 → Gives (exec .teamPlacement s) fun t =>
         t.task.teams = s.task.teams ∧ t.task.queue = s.task.queue.filter (·.order ≠ q.order) ∧
         let s1 := writeField (noteHead (unqueue s q) isl part e) isl part q.task.addr 224 213 0xFFF
         let s2 := writeField s1 isl part q.task.addr 212 205 e.1
         ∀ i a, t.mem.byte i a = (writeField s2 isl part q.task.addr 63 56 4).mem.byte i a))) ∧
  (∀ (s : State) (isl team : Nat) (t : Team) (e : EndRec) (st lc : Nat) (c : CmdRec),
     let now := s.task.ends.find? fun x => x.isl = isl ∧ x.team = team
     let released (u : State) : Prop := u.team? isl team = none ∧
       ∀ m, m.isl = isl → m.team = team → u.member? m = none ∧ ∀ k, u.thread? ⟨m, k⟩ = none
     let calm : Prop := s.eng.outs = [] ∧ ∀ x ∈ s.eng.chains, x.1.isl = isl → x.2.team ≠ team
     (s.team? isl team = some t → released (retireTeam s isl team t) ∧
       (calm → ∀ i a, (retireTeam s isl team t).mem.byte i a = s.mem.byte i a)) ∧
     (∀ part va hi lo v pa, Lands s isl part (va + lo / 8) (hi / 8 + 1 - lo / 8) .write true pa →
       Wrote s (writeField s isl part va hi lo v) isl pa (leBytes (hi / 8 + 1 - lo / 8)
         (putField (hi - 8 * (lo / 8)) (lo - 8 * (lo / 8)) v (s.mem.nat isl pa (hi / 8 + 1 - lo / 8))))) ∧
     (∀ p pa, t.preempt = some p → t.hasMap = true → Lands s isl t.part t.hdr.resmap 8 .write true pa →
       Wrote s (closePsw s isl lc t) isl pa (leBytes 8 (pswOf s isl lc t p))) ∧
     (s.occ = .team isl team → s.team? isl team = some t → t.gone = false →
       (t.ending = some (st, lc) → now = none →
         ((st ≠ 0 ∨ (memoryOpen (dropEndless s isl team true) isl team = false ∧ t.task.ja0 = 0 ∧ t.task.ja1 = 0)) →
           Gives (exec .teamEnd s) fun u =>
             u.task.ends = s.task.ends ++ [⟨isl, team, t.part, t.task, st, lc, [], [], none⟩] ∧ u.team? isl team = some t ∧
             u.mem = s.mem ∧ u.fab = s.fab) ∧
         (st = 0 → memoryOpen (dropEndless s isl team true) isl team = true →
           exec .teamEnd s = .refused (.notEnabled "TEAM_END"))) ∧
       (t.ending ≠ none → now = some e →
         (e.cmd = none → e.waiting ≠ [] → exec .teamEnd s = .refused (.notEnabled "TEAM_END")) ∧
         (e.cmd = none → e.waiting = [] →
           let s1 := writeField (closePsw s isl e.lcause t) isl t.part t.task.addr 224 213 team
           let s2 := writeField s1 isl t.part t.task.addr 212 205 e.status
           (t.task.origin ≠ 1 → Gives (exec .teamEnd s) fun u => released u ∧ (∀ x ∈ u.task.ends, ¬(x.isl = isl ∧ x.team = team)) ∧
             (calm → ∀ i a, u.mem.byte i a = (writeField s2 isl t.part t.task.addr 63 56 4).mem.byte i a)) ∧
           (t.task.origin = 1 → s.hub.cmds.find? (namesLaunch s t.part t.task) = some c → Gives (exec .teamEnd s) fun u =>
             u.team? isl team = some t ∧ (∃ x ∈ u.task.ends, x.isl = isl ∧ x.team = team ∧ x.cmd = some c.ref) ∧
             (∃ x ∈ u.hub.cmds, x.ref = c.ref ∧ (e.status = 0 → ∃ i, x.res = some (0x00, e.fail, i)) ∧
               (e.status ≠ 0 → ∃ d, x.res = some (0x03, d, e.status))) ∧
             ∀ i a, u.mem.byte i a = (writeField s2 isl t.part t.task.addr 63 56 4).mem.byte i a)) ∧
         (∀ x, e.cmd = some x →
           ((∃ k ∈ s.hub.cmds, k.ref = x) → exec .teamEnd s = .refused (.notEnabled "TEAM_END")) ∧
           ((∀ k ∈ s.hub.cmds, k.ref ≠ x) → Gives (exec .teamEnd s) fun u => released u ∧
             (∀ x ∈ u.task.ends, ¬(x.isl = isl ∧ x.team = team)) ∧ (calm → ∀ i a, u.mem.byte i a = s.mem.byte i a)))) ∧
       (t.ending = none → discardDone s isl team t = true → Gives (exec .teamEnd s) fun u => u.team? isl team = none ∧
         (∃ q ∈ u.task.queue, q.isl = isl ∧ q.part = t.part ∧ q.task = t.task) ∧
         let s1 := writeField (retireTeam (closePsw s isl 0 t) isl team t) isl t.part t.task.addr 224 213 0xFFF
         let s2 := writeField s1 isl t.part t.task.addr 31 0 0
         ∀ i a, u.mem.byte i a = (writeField s2 isl t.part t.task.addr 63 56 2).mem.byte i a) ∧
       (t.ending = none → discardDone s isl team t = false → exec .teamEnd s = .refused (.notEnabled "TEAM_END")))) ∧
  (∀ (s : State) (isl team : Nat) (t : Team) (p : Preempt),
     s.occ = .team isl team → s.team? isl team = some t →
     (t.preempt = some p → saveReady s isl team t = true →
       let wrote := ((mapPieces s isl team t).foldlM (fun s x => writeLong s isl t.part (t.hdr.resmap + x.1) x.2) s).bind
         fun s1 => (writeLong s1 isl t.part t.hdr.resmap (leBytes 8 (pswOf s isl 0 t p))).bind
           fun s2 => writeLong s2 isl t.part (t.hdr.resmap + 8) (leBytes 8 1)
       (∀ s3, wrote = .ok s3 → Gives (exec .resumeMapWrite s) fun u =>
         u.team? isl team = none ∧ u.task.saved = s.task.saved ++ [⟨isl, team, t, s.clk isl, none⟩] ∧
         (s.eng.outs = [] → (∀ x ∈ s.eng.chains, x.1.isl = isl → x.2.team ≠ team) →
           ∀ i a, u.mem.byte i a = (writeField s3 isl t.part t.task.addr 63 56 5).mem.byte i a)) ∧
       (∀ e, wrote = .error e → Gives (exec .resumeMapWrite s) fun u =>
         (u.team? isl team).map (·.ending) = some (some (0x21, 4)) ∧ u.task.saved = s.task.saved ∧
         ∀ th, th.m.isl = isl → th.m.team = team → u.thread? th = none)) ∧
     ((t.preempt = none ∨ saveReady s isl team t = false) →
       exec .resumeMapWrite s = .refused (.notEnabled "RESUME_MAP_WRITE")) ∧
     (∀ va bs pa, 0 < bs.length → va / 65536 = (va + bs.length - 1) / 65536 → Lands s isl t.part va bs.length .write true pa →
       ∃ u, writeLong s isl t.part va bs = .ok u ∧ Wrote s u isl pa bs) ∧
     (restoreDone s isl team t = true → Gives (exec .restoreComplete s) fun u =>
       (u.team? isl team) = some { t with restoring := false } ∧
       ∀ pa pb x, Lands s isl t.part (t.hdr.resmap + 8) 8 .write true pa →
         let s1 := bypassBank s isl none pa (leBytes 8 0)
         readVa s1 isl t.part t.hdr.resmap 8 = .ok x → t.hasMap = true → Lands s1 isl t.part t.hdr.resmap 8 .write true pb →
           Wrote s1 u isl pb (leBytes 8 (putField 6 6 1 x))) ∧
     (restoreDone s isl team t = false → exec .restoreComplete s = .refused (.notEnabled "RESTORE_COMPLETE"))) ∧
  (∀ (s : State) (isl n dc : Nat) (r : Rotation) (k : Nat × Nat) (t : Team),
     let stops (u : State) (st : Nat × Nat) : Prop :=
       (u.team? k.1 k.2).map (·.ending) = some (some (if t.expired then (0x20, 0) else st)) ∧
       ∀ th, th.m.isl = k.1 → th.m.team = k.2 → u.thread? th = none
     (let point : Prop := t.hdr.spb ≠ 0 ∧ parkedTeam s isl k.2 = false
       let fits : Prop := t.hdr.spb * cpcOf s isl t + saveCost t ≤ dc
       let drains : Prop := t.hdr.dh ≠ 0 ∧ t.hdr.dh ≤ dc + t.elapsed (s.clk isl)
       (drains → decide_ s isl k.2 t dc = .drain) ∧ (¬ drains → point → fits → decide_ s isl k.2 t dc = .save) ∧
       (¬ drains → ¬ (point ∧ fits) → t.hdr.restartable = true → decide_ s isl k.2 t dc = .discard) ∧
       (¬ drains → point → ¬ fits → t.hdr.restartable = false → decide_ s isl k.2 t dc = .saveLate) ∧
       (¬ drains → ¬ point → t.hdr.restartable = false → decide_ s isl k.2 t dc = .lost)) ∧
     (s.par.rots.get? n = some r →
       (s.occ = .slot n → tickReady s r = true → Gives (exec .switchTick s) fun u =>
         (u.par.rots.get? n).map (fun x => (x.tick, x.late, x.resident, x.start)) =
           some (some s.hub.ns, slicesOf s r.resident, r.resident, r.start) ∧
         (k.1 ∈ islandsOf s r.resident → k ∈ teamsOn s r.resident k.1 → k.2 < 4096 → s.team? k.1 k.2 = some t → t.gone = false →
           t.ending = none →
           (t.first = none → u.team? k.1 k.2 = none) ∧
           (t.first ≠ none → ∃ d, (u.team? k.1 k.2).map (·.preempt) = some (some ⟨d, s.hub.ns + r.deadline, none, false⟩)))) ∧
       (s.occ = .slot n → tickReady s r = false → exec .switchTick s = .refused (.notEnabled "SWITCH_TICK")) ∧
       (s.occ = .islandIn isl n → deadlineDue s isl r = true → Gives (exec .deadlineExpiry s) fun u =>
         (∀ e ∈ u.eng.recs, ∀ ce, e.eng = .copy ce → e.ref.chain.isl = isl → e.ref.chain.part = r.resident →
           e.step = 0 ∧ e.lays = none ∧ e.parked = none) ∧
         (k ∈ teamsOn s r.resident isl → s.team? k.1 k.2 = some t → t.running = true →
           (r.gang = false → (u.team? k.1 k.2).map (·.preempt.map (·.ovr)) = some (some true)) ∧
           (r.gang = true → stops u (0x21, 3)))) ∧
       (s.occ = .islandIn isl n → deadlineDue s isl r = false →
         exec .deadlineExpiry s = .refused (.notEnabled "DEADLINE_EXPIRY")) ∧
       (s.occ = .islandIn isl n → deadlinePast s r 16 = true → k ∈ teamsOn s r.resident isl → s.team? k.1 k.2 = some t →
         t.running = true → Gives (exec .overrunLimit s) fun u => stops u (0x21, 1)) ∧
       (s.occ = .islandIn isl n → (deadlinePast s r 16 = false ∨ ∀ x ∈ teamsOn s r.resident isl, ∀ y,
           s.team? x.1 x.2 = some y → y.running = false) →
         exec .overrunLimit s = .refused (.notEnabled "OVERRUN_LIMIT")))) ∧
  (∀ (s : State) (j : LehrJob) (bad n : Nat) (r : Rotation) (a b : Part),
     s.occ = .lehr j bad →
     (∀ p i x, (writeBack s j.isl p).mem.byte i x = s.mem.byte i x) ∧
     ((queuedJobOk s j || switchJobOk s j) = false → exec .lehrEvent s = .refused (.notEnabled "LEHR_EVENT")) ∧
     ((queuedJobOk s j || switchJobOk s j) = true →
       (j.reason ≠ 6 → Gives (exec .lehrEvent s) fun u =>
         u.par.jobs = s.par.jobs.erase j ∧
         (∀ k, k ∈ maskSlices j.slices →
           (j.isl, k) ∉ u.par.fencedSlices ∧
           (nbit bad k = false → u.par.scrub.get? (j.isl, k) = some (s.par.scrub.getD (j.isl, k) 0 + 1) ∧
             (u.par.tokens.get? (j.isl, k)).map (fun x => (x.seq, x.reason, x.slice, x.slicemask, x.cemask, x.classes)) =
               some (s.par.scrub.getD (j.isl, k) 0 + 1, j.reason, k, j.slices, j.cemask, classesOf j.reason) ∧
             (j.reason ≠ 5 → (u.par.tokens.get? (j.isl, k)).map (fun x => (x.partIn, x.partOut)) = some (j.partIn, j.partOut))) ∧
           (nbit bad k = true → (j.isl, k) ∈ u.par.deadSlices ∧ u.par.scrub.get? (j.isl, k) = s.par.scrub.get? (j.isl, k) ∧
             u.par.tokens.get? (j.isl, k) = s.par.tokens.get? (j.isl, k))) ∧
         (∀ m x, s.member? m = some x → m.isl = j.isl → inSlices j.slices x.core = true → u.member? m = none) ∧
         (∀ c x w, inSlices j.slices c = true → u.mem.acc.get? (j.isl, c, x, w) = none) ∧
         (s.eng.outs = [] → ∀ c o, c < 96 → o < 2 ^ 19 → inSlices j.slices c = true → u.mem.spad.get (skey j.isl c o) = 0) ∧
         (rotationFor s j = some (n, r) →
           let late := r.late.filter fun x => !(x.1 == j.isl && nbit j.slices x.2)
           (late ≠ [] → u.par.rots.get? n = some { r with late := late }) ∧
           (late = [] → u.par.rots.get? n = some { r with late := [], tick := none, pos := r.nextPos, start := s.hub.ns }))) ∧
       (j.reason = 6 → bad = 0 → Gives (exec .lehrEvent s) fun u =>
         u.par.jobs = s.par.jobs.erase j ∧ u.par.scrub.get? (j.isl, 15) = some (s.par.scrub.getD (j.isl, 15) 0 + 1) ∧
         (s.part? j.partOut = some a → s.part? j.partIn = some b → j.partOut ≠ j.partIn →
           (u.part? j.partOut).map (·.ce.getD j.isl 0) = some (a.ce.getD j.isl 0 - (a.ce.getD j.isl 0 &&& j.cemask)) ∧
           (u.part? j.partIn).map (·.ce.getD j.isl 0) = some (b.ce.getD j.isl 0 ||| j.cemask))) ∧
       (j.reason = 6 → bad ≠ 0 → Gives (exec .lehrEvent s) fun u =>
         u.par.jobs = s.par.jobs.erase j ∧ u.par.parts = s.par.parts ∧ u.par.tokens = s.par.tokens)))

/-- R33, R40, R41, R53, R134, R283, R284, R412, R415: a request that its destination takes in, in its channel's order,
is applied there in the partition of its key slot and answered: a PUT writes, a GET reads, an atomic or a reduction
changes its word, a NOTIFY decrements a join word; a failed access is answered with its status. One of an older topology
is answered DRAINED, one whose key is not held AUTH, and one before its turn is held, for 10 ms. A reset sets the
channel's order. An answer is a new packet at its node, unless its source cannot be reached. The model's choice: what
answers a reply that fails, and what a packet that an error has spoilt does (log entries 42 and 29). COMPLETION: for
every state and operands that meet the conditions written before it (those on the event and the state), the conclusion
is that Sys2Proof.Machine.exec i s answers a next state, for i = putPacket, getReq, ratomPacket, rredPacket,
notifyPacket, ochReset, heldPacketTimeout. -/
def Obligations.RequestsServed : Prop :=
  ∀ (s : State) (p : Packet) (m : String),
    let s1 : State := dropPacket (usePlace s p) p.id
    let bad (e : XErr) : State := answer (e.note s1 p.dest p.kslot) p.dest p .error [] e.fstatus.code
    let n := p.bcnt + 1
    let whole : Prop := (∃ id, s.occ = .packet id) ∧ p.part = none
    let comes (op : PktOp) : Prop := occPacket s = some p ∧ p.op = op ∧ arrived s p = true ∧ takesIn s p = true
    (∀ u isl core pa bs, pa + bs.length ≤ 2 ^ 39 → Wrote u (bypassBank u isl core pa bs) isl pa bs) ∧
    (∀ u node op bs st, let t := answer u node p op bs st
      (node ≠ p.src ∧ reaches u node p.src = false → t = u) ∧
      ((node = p.src ∨ reaches u node p.src = true) → t.mem = u.mem ∧
        (∀ x ∈ u.fab.pkts, x.id ≠ u.fab.nextPkt → x ∈ t.fab.pkts) ∧
        ∃ x ∈ t.fab.pkts, (x.id, x.op, x.dest, x.src, x.tag, x.kslot) = (u.fab.nextPkt, op, p.src, node, p.tag, p.kslot) ∧
          (x.payload, x.status, x.ofReply, x.hidx, x.och, x.part) = (bs, st, !p.op.request, 0, none, none) ∧
          x.place = .queue node (if node = p.src then ownPort else 24))) ∧
    (∀ u node st, let t := reject u node p st
      t = answer (dropPacket u p.id) node p .error [] st.code ∧ (dropPacket u p.id).pkt? p.id = none) ∧
    (Received s .put p → whole →
      (∀ pa, p.access s1 n .write false = .ok pa →
        Occurs .putPacket s (answer (bypassBank s1 p.dest none pa p.payload) p.dest p .putAck [] 0)) ∧
      (∀ e, p.access s1 n .write false = .error e → Occurs .putPacket s (bad e))) ∧
    (Received s .getReq p → whole → p.payload = [] →
      (∀ pa, p.access s1 n .read true = .ok pa → s1.mem.poisonedAt p.dest pa n = none →
        Occurs .getReq s (answer s1 p.dest p .getData (s1.mem.bytes p.dest pa n) 0)) ∧
      (∀ e, p.access s1 n .read true = .error e → Occurs .getReq s (bad e))) ∧
    (∀ op i, (op, i) ∈ [(PktOp.ratom, Instr.ratomPacket), (.rred, .rredPacket)] → Received s op p →
      (∀ pa, p.access s1 n .atomic true = .ok pa →
        let old := w64 (s1.mem.nat p.dest pa n)
        let s2 := bypassBank s1 p.dest none pa (leBytes n (remoteStep p.payload old).toNat)
        Occurs i s (if op = .ratom then answer s2 p.dest p .ratomRes (leBytes 8 old.toNat) 0
          else answer s2 p.dest p .rredAck [] 0)) ∧
      (∀ e, p.access s1 n .atomic true = .error e → Occurs i s (bad e))) ∧
    (Received s .notify p →
      (∀ pa, p.access s1 8 .atomic false = .ok pa →
        let r := joinDecrement s1 p.dest p.kslot p.addr pa p.count
        Occurs .notifyPacket s (if r.2 then answer r.1 p.dest p .notifyAck [] 0
          else answer s1 p.dest p .error [] FStatus.poison.code)) ∧
      (∀ e, p.access s1 8 .atomic false = .error e → Occurs .notifyPacket s (bad e))) ∧
    (comes .ochReset → tooOld s p = false → authentic s p = true →
      Occurs .ochReset s (serveReset (dropPacket s p.id) p) ∧
      ∀ ch, p.och = some ch → Gives (exec .ochReset s) fun t =>
        t.fab.expect.get? (orderKey p ch) = some 1 ∧
        ∀ q ∈ t.fab.pkts, q.och = some ch → orderKey q ch = orderKey p ch → ∀ h, q.place ≠ .held h) ∧
    (∀ t, occPacket s = some p → p.place = .held t → p.src ≠ p.dest →
      (t + 10000000 ≤ s.hub.ns → Occurs .heldPacketTimeout s (reject s p.dest p .drained)) ∧
      (s.hub.ns < t + 10000000 → exec .heldPacketTimeout s = .refused (.notEnabled "HELD_PACKET_TIMEOUT"))) ∧
    ∀ op i, (op, i, m) ∈ [(PktOp.put, Instr.putPacket, "PUT_PACKET"), (.getReq, .getReq, "GET_REQ"), (.ratom, .ratomPacket, "RATOM_PACKET"),
        (.rred, .rredPacket, "RRED_PACKET"), (.notify, .notifyPacket, "NOTIFY_PACKET"), (.ochReset, .ochReset, "OCH_RESET")] →
      (occPacket s = some p → (p.op ≠ op ∨ arrived s p = false ∨ takesIn s p = false) → exec i s = .refused (.notEnabled m)) ∧
      (comes op →
        (tooOld s p = true → Occurs i s (reject s p.dest p .drained)) ∧
        (tooOld s p = false → authentic s p = false → Occurs i s (reject s p.dest p .auth)) ∧
        (op ≠ .ochReset → tooOld s p = false → authentic s p = true → inTurn s p = false →
          ((∀ t, p.place ≠ .held t) →
            Occurs i s (setPacket s { p with place := .held s.hub.ns, blocked := none, timedOut := false })) ∧
          ∀ t, p.place = .held t → exec i s = .refused (.notEnabled m)))

/-- R34 to R36, R47 to R49, R53, R280, R413, R414, R416: a packet hops over a port that carries traffic into a buffer
with room, or is answered where its topology is older, where it is at its route's end at the wrong node and where no
link can take it, and discarded where its header or its hop is reserved; a reply completes its request's share of its
operation, after its bytes or old values have been delivered, or with the status of an error; an unanswered request
completes with TIMEOUT; a blocked packet times out, and the belay token takes the oldest one and passes on. The model's
choice: the start of a blocked packet's timer, the rope lane at a publication, that a reserved hop code is discarded,
and which packet is the oldest (log entries 37, 42 and 47). COMPLETION: for every state and operands that meet the
conditions written before it (those on the event and the state), the conclusion is that Sys2Proof.Machine.exec i s
answers a next state, for i = packetHop, putAck, getData, ratomRes, rredAck, notifyAck, errorPacket, ochResetAck,
responseTimerExpiry, blockedPacketTimer, belay, ropeAck, teamEnd. -/
def Obligations.RepliesAndTimers : Prop :=
  ∀ (s : State) (p : Packet) (t : Txn) (b : Belay) (o : Machine.Op) (id node port src tag code n : Nat) (far : LinkEnd) (st : Option Nat),
    let s1 : State := dropPacket s p.id
    let ends : Prop := s.occ = .packet id ∧ p.part = none
    (s.occ = .hop id port → s.pkt? id = some p → p.place.router = some node → atHead s p = true →
      (tooOld s p = true → Occurs .packetHop s (reject s node p .drained)) ∧
      (tooOld s p = false → p.nextHop = none →
        (node ≠ p.dest → Occurs .packetHop s (reject s node p .misroute)) ∧
        (node = p.dest → exec .packetHop s = .refused (.notEnabled "PACKET_HOP"))) ∧
      (tooOld s p = false → p.nextHop = some code →
        ((headerReserved p.header = true ∨ hopPorts node code = []) → Gives (exec .packetHop s) fun t =>
          (∀ q ∈ t.fab.pkts, q.id ≠ p.id) ∧ t.fab.discards.get? node = some (s.fab.discards.getD node 0 + 1)) ∧
        (headerReserved p.header = false → hopPorts node code ≠ [] →
          (exits s node code p = [] → Occurs .packetHop s (reject s node p (noWay s node code))) ∧
          (exits s node code p ≠ [] → port ∉ exits s node code p → exec .packetHop s = .refused (.notEnabled "PACKET_HOP")) ∧
          (port ∈ exits s node code p → farEnd (codeNow s) ⟨node, port⟩ = some far →
            (p.place.onRope = false → bufferRoom s far = false → exec .packetHop s = .refused (.notEnabled "PACKET_HOP")) ∧
            (p.place.onRope = false → bufferRoom s far = true → Gives (exec .packetHop s) fun t =>
              t.pkt? id = some { p with
                hidx := p.hidx + 1, place := .queue far.node far.port, blocked := none, timedOut := false }) ∧
            (p.place.onRope = true → Gives (exec .packetHop s) fun t =>
              t.pkt? id = some { p with hidx := p.hidx + 1, place := .rope far.node } ∧
              t.fab.belay.map (·.rope) = s.fab.belay.map fun _ => far.node))))) ∧
    (let u := packetDone s t st
     (∀ x ∈ u.fab.txns, x ∈ s.fab.txns ∧ (x.src ≠ t.src ∨ x.tag ≠ t.tag)) ∧
     (t.use = .op o.id → s.op? o.id = some o → 1 < o.waiting → u.op? o.id = some { o with
       waiting := o.waiting - 1
       failed := if o.failed.isSome then o.failed else st.map fun x => (x, t.dest) }) ∧
     (t.use = .op o.id → s.op? o.id = some o → o.waiting = 1 → u.op? o.id = none) ∧
     (∀ x, t.use = .engine → st = some x → u.hub.out = s.hub.out ++ [.redfish t.kslot 5 [t.dest, t.addr]]) ∧
     (∀ isl team k, t.use = .teamEnd isl team k → ∀ e ∈ u.task.ends, e.isl = isl → e.team = team → k ∉ e.waiting)) ∧
    (∀ bs, t.dst.1 = .global → t.dst.2.Nodup → (∀ a ∈ t.dst.2, a < 2 ^ 39) → bs.length = t.dst.2.length →
      let u := deliver s t bs
      (∀ x ∈ t.dst.2.zip bs, u.mem.byte t.src x.1 = x.2) ∧
      ∀ i a, a < 2 ^ 39 → (i ≠ t.src ∨ a ∉ t.dst.2) → u.mem.byte i a = s.mem.byte i a) ∧
    (∀ bs c, t.dst.1 = .spad c → t.dst.2.Nodup → bs.length = t.dst.2.length →
      let u := deliver s t bs
      (∀ x ∈ t.dst.2.zip bs, u.mem.spad.get (skey t.src c x.1) = x.2) ∧ ∀ i a, u.mem.byte i a = s.mem.byte i a) ∧
    (Replied s .putAck p t → Occurs .putAck s (packetDone s1 t none)) ∧
    (Replied s .getData p t →
      (heldData s t = false → ends → Occurs .getData s (packetDone (deliver s1 t p.payload) t none)) ∧
      (heldData s t = true → exec .getData s = .refused (.notEnabled "GET_DATA"))) ∧
    (Replied s .ratomRes p t → Occurs .ratomRes s (packetDone (addRet s1 t (w64 (leNat p.payload))) t none)) ∧
    (Replied s .rredAck p t → Occurs .rredAck s (packetDone s1 t none)) ∧
    (Replied s .notifyAck p t → Occurs .notifyAck s (packetDone s1 t none)) ∧
    (Replied s .ochResetAck p t → Occurs .ochResetAck s (packetDone s1 t none)) ∧
    (Replied s .error p t → Occurs .errorPacket s (packetDone s1 t (some p.status))) ∧
    (s.occ = .txn src tag → s.txn? src tag = some t → t.injected = true → t.dest ≠ t.src →
      (t.sentAt + s.hub.respNs ≤ s.hub.ns → landing s t = none →
        Occurs .responseTimerExpiry s (packetDone s t (some 4))) ∧
      ((s.hub.ns < t.sentAt + s.hub.respNs ∨ landing s t ≠ none) →
        exec .responseTimerExpiry s = .refused (.notEnabled "RESPONSE_TIMER_EXPIRY"))) ∧
    (occPacket s = some p → p.place = .queue node port → atHead s p = true → p.blocked = some n → p.timedOut = false →
      (canAdvance s node p = false → n + s.hub.blockNs ≤ s.hub.ns →
        Occurs .blockedPacketTimer s (countRope (setPacket s { p with timedOut := true }) node 1 0)) ∧
      ((canAdvance s node p = true ∨ s.hub.ns < n + s.hub.blockNs) →
        exec .blockedPacketTimer s = .refused (.notEnabled "BLOCKED_PACKET_TIMER"))) ∧
    (s.fab.belay = some b → s.occ = .node b.node →
      (b.holding = none → (oldestStuck s b.node = none ∨ ∃ q ∈ s.fab.pkts, q.place.onRope = true) →
        Occurs .belay s (passBelay s b)) ∧
      (b.holding = none → (∀ q ∈ s.fab.pkts, q.place.onRope = false) → oldestStuck s b.node = some p →
        let s2 := countRope (setPacket s { p with place := .rope b.node, timedOut := false }) b.node 0 1
        Occurs .belay s { s2 with fab := { s2.fab with belay := some { b with holding := some p.id, rope := b.node } } }) ∧
      (b.holding ≠ none → exec .belay s = .refused (.notEnabled "BELAY")) ∧
      (b.holding = some id → onRope s id = false → Gives (exec .ropeAck s) fun t =>
        t.fab.belay = some { b with node := nextOnRing s b.node, holding := none } ∧ t.fab.pkts = s.fab.pkts) ∧
      ((b.holding = none ∨ b.holding = some id ∧ onRope s id = true) → exec .ropeAck s = .refused (.notEnabled "ROPE_ACK")))

/-- R44 to R46, R63: the state machine of a link end: training starts on a cause or after 100 ms, ends by agreed
handshakes, of proposals and of echoes of their intersection, fails after 10 ms without a reply, starts again 1 ms after
a mismatch; a link that is lost trains again, and one that system software forces stays out of use until it is released.
The model's choice: what an empty intersection leads to, that echoes which agree are the intersection, and that a
publication is not put off (log entries 20 and 42). COMPLETION: for every state and operands that meet the conditions
written before it (those on the event and the state), the conclusion is that Sys2Proof.Machine.exec i s answers a next
state, for i = linkTrainingStart, trainingHandshake, thirdHandshakeTimer, trainReplyTimeout, linkDownRetryTimer,
linkLoss, linkForce, linkRelease. -/
def Obligations.LinkEvents : Prop :=
  ∀ (s : State) (e : LinkEnd) (first : Bool) (c : LinkCfg),
    let l := linkAt s e
    let no (i : Instr) (m : String) : Prop := exec i s = .refused (.notEnabled m)
    (∀ f, linkAt (modLink s e f) e = f l) ∧
    (∀ a b : LinkCfg, (a.meet b).lanes = a.lanes &&& b.lanes ∧ (a.meet b).speed = min a.speed b.speed ∧
      (a.meet b).width ≤ min a.width b.width ∧ (a.meet b).width ≤ lanesIn8 (a.lanes &&& b.lanes) ∧
      (a.meet b).width ∈ [0, 2, 4, 6, 8] ∧
      ∀ w ∈ [2, 4, 6, 8], w ≤ min a.width b.width → w ≤ lanesIn8 (a.lanes &&& b.lanes) → w ≤ (a.meet b).width) ∧
    (∀ (k : Link) (near : Bool), (k.heard true near c).prop near = some c ∧ (k.heard true near c).prop (!near) = k.prop (!near) ∧
      (k.heard false near c).echo near = (k.prop near).map (·.meet c) ∧
      (k.heard false near c).echo (!near) = k.echo (!near)) ∧
    (∀ (k : Link) (now : Nat) (a b : LinkCfg), k.echo0 = some a → k.echo1 = some b →
      (a ≠ b → k.decided now = { k with st := .mismatch, since := now }) ∧
      (a = b → a.width = 0 → k.decided now = downLink now false) ∧
      (a = b → a.width ≠ 0 → k.decided now = { k with st := .up, since := now, cfg := some a })) ∧
    (∀ (k : Link) (now : Nat), (k.echo0 = none ∨ k.echo1 = none) → k.decided now = k) ∧
    (s.occ = .link e →
      (anchorUp s = true → joined s e = true → l.st = .down → l.cause = true →
        Occurs .linkTrainingStart s (modLink s e (·.train s.hub.ns))) ∧
      ((l.st ≠ .down ∨ l.cause = false) → no .linkTrainingStart "LINK_TRAINING_START") ∧
      (l.st = .mismatch → l.since + 1000000 ≤ s.hub.ns → Occurs .thirdHandshakeTimer s (modLink s e (·.restart s.hub.ns))) ∧
      ((l.st ≠ .mismatch ∨ s.hub.ns < l.since + 1000000) → no .thirdHandshakeTimer "THIRD_HANDSHAKE_TIMER") ∧
      (l.st = .train → l.since + 10000000 ≤ s.hub.ns →
        Occurs .trainReplyTimeout s (modLink s e fun _ => downLink s.hub.ns false)) ∧
      ((l.st ≠ .train ∨ s.hub.ns < l.since + 10000000) → no .trainReplyTimeout "TRAIN_REPLY_TIMEOUT") ∧
      (anchorUp s = true → l.st = .down → l.cause = false → eligible45 s e = true → l.since + 100000000 ≤ s.hub.ns →
        Occurs .linkDownRetryTimer s (modLink s e (·.train s.hub.ns))) ∧
      ((l.st ≠ .down ∨ eligible45 s e = false ∨ s.hub.ns < l.since + 100000000) →
        no .linkDownRetryTimer "LINK_DOWN_RETRY_TIMER") ∧
      (linkUp s e = true → Occurs .linkLoss s (linkChanged (strandBoth (modLink s e (·.train s.hub.ns)) e))) ∧
      (linkUp s e = false → no .linkLoss "LINK_LOSS") ∧
      (serviceUp s = true → joined s e = true → Asked .linkForce s none (forceLink s e) ∧
        (linkUp s e = false → linkAt (forceLink s e) e = { downLink s.hub.ns false with st := .forced }) ∧
        (linkUp s e = true → forceLink s e = linkChanged (strandBoth (modLink s e fun _ =>
          { downLink s.hub.ns false with st := .forced }) e))) ∧
      (serviceUp s = true → l.st = .forced → Asked .linkRelease s none (modLink s e fun _ => downLink s.hub.ns true)) ∧
      (l.st ≠ .forced → no .linkRelease "LINK_RELEASE")) ∧
    (s.occ = .handshake e first c → joined s e = true →
      let near := canonEnd (codeNow s) e == e
      (handshakeOk l first near c = true →
        let s1 := modLink s e fun l => (l.heard first near c).decided s.hub.ns
        Occurs .trainingHandshake s (if linkUp s1 e then linkChanged s1 else s1)) ∧
      (handshakeOk l first near c = false → no .trainingHandshake "TRAINING_HANDSHAKE"))

/-- R11, R20, R51 to R56: a topology switch takes its turn, drains for a limit, switches and publishes; a UCIe link
comes and goes; an island is fenced on request, on an error, after 100 ms without its link, or after 100 hot rounds, and
readmitted. A fence ends the island's teams with ISLAND_RESET, starts its clock again, and leaves the island to the
lehr. The model's choice: what a fence drops and when it publishes (log entries 36 and 42). COMPLETION: for every state
and operands that meet the conditions written before it (those on the event and the state), the conclusion is that
Sys2Proof.Machine.exec i s answers a next state, for i = throttleFence, ucieLinkChange, toposet, toposetDrainLimit,
toposetSwitch, toposetPublish, warmResetRequest, ucieDownTimeout, fabricInterfaceError, warmResetReadmit. -/
def Obligations.TopologyEvents : Prop :=
  ∀ (s : State) (c : CmdRec) (t : Toposet) (isl n team b : Nat) (pw : Power) (tm : Team),
    let no (i : Instr) (m : String) : Prop := exec i s = .refused (.notEnabled m)
    let ends (st : Nat) (detail : Option Nat) : Prop := Gives (exec .toposet s) fun t =>
      ∃ r ∈ t.hub.cmds, r.ref = c.ref ∧ r.begun = true ∧ ∃ d i, r.res = some (st, d, i) ∧ ∀ y, detail = some y → d = y
    let d := nbits c.bits 439 426
    let late := (expressEnds s).any (training s)
    let mask := partialMask s
    let publishes : Prop := Gives (exec .toposetPublish s) fun u =>
      u.fab.xcode = t.code ∧ u.fab.toposet = none ∧ u.fab.topogen = (s.fab.topogen + 1) % 2 ^ 32 ∧
      u.fab.switchGen = u.fab.topogen % 65536 ∧ (s.fab.fenced = [] → u.fab.quiesce = []) ∧
      ∃ r ∈ u.hub.cmds, r.ref = t.cmd ∧ ∃ d i, r.res = some ((if mask = 0 then 0x00 else 0x02), d, i) ∧ (mask ≠ 0 → d = mask)
    (occCmd s 3 = some c →
      (serviceUp s = false → no .toposet "TOPOSET") ∧
      (serviceUp s = true → topoFree s = false → topoTurn s (.inl c.ref) = false →
        (s.fab.topoq.contains (.inl c.ref) = true → no .toposet "TOPOSET") ∧
        (s.fab.topoq.contains (.inl c.ref) = false →
          Occurs .toposet s { s with fab := { s.fab with topoq := s.fab.topoq ++ [.inl c.ref] } })) ∧
      (serviceUp s = true → (topoFree s = true ∨ topoTurn s (.inl c.ref) = true) →
        (toposetMal c.bits = some b → ends 0x11 (some b)) ∧
        (toposetMal c.bits = none → nbits c.bits 447 440 = s.fab.xcode → ends 0x01 none) ∧
        (toposetMal c.bits = none → nbits c.bits 447 440 ≠ s.fab.xcode → Gives (exec .toposet s) fun u =>
          u.fab.toposet = some ⟨c.ref, nbits c.bits 447 440, (if d = 0 then 500 else d) * 1000, s.hub.ns, .drain, []⟩ ∧
          u.fab.quiesce = (List.range 24).filter (present s) ∧ u.fab.topoq = s.fab.topoq.erase (.inl c.ref) ∧
          u.fab.xcode = s.fab.xcode ∧ u.fab.pkts = s.fab.pkts))) ∧
    (s.fab.toposet = some t →
      (serviceUp s = false → no .toposetDrainLimit "TOPOSET_DRAIN_LIMIT" ∧ no .toposetSwitch "TOPOSET_SWITCH" ∧
        no .toposetPublish "TOPOSET_PUBLISH") ∧
      (serviceUp s = true → t.phase = .drain →
        (t.since + t.drainNs ≤ s.hub.ns → drained s = false →
          Occurs .toposetDrainLimit s (drainAll s) ∧ drained (drainAll s) = true) ∧
        ((s.hub.ns < t.since + t.drainNs ∨ drained s = true) → no .toposetDrainLimit "TOPOSET_DRAIN_LIMIT") ∧
        (drained s = true → Occurs .toposetSwitch s (switchLinks s t) ∧ codeNow (switchLinks s t) = t.code ∧
          ∀ e ∈ expressLinks, joined (switchLinks s t) e = true → linkAt (switchLinks s t) e = downLink s.hub.ns true) ∧
        (drained s = false → no .toposetSwitch "TOPOSET_SWITCH") ∧ no .toposetPublish "TOPOSET_PUBLISH") ∧
      (serviceUp s = true → t.phase = .retrain → no .toposetDrainLimit "TOPOSET_DRAIN_LIMIT" ∧ no .toposetSwitch "TOPOSET_SWITCH" ∧
        (late = true → no .toposetPublish "TOPOSET_PUBLISH") ∧
        (late = false → s.hub.cmds.find? (·.ref = t.cmd) = some c → publishes))) ∧
    (s.occ = .islandIn isl n → present s isl = true →
      let s1 := { s with fab := { s.fab with ucieDown := s.fab.ucieDown.erase isl } }
      (n ≠ 0 → (s.fab.fenced.get? isl = none → Occurs .ucieLinkChange s (sendHeld s1)) ∧
        ((s.fab.fenced.get? isl).isSome = true → Occurs .ucieLinkChange s (sendHeld (retrainLinks s1 isl)))) ∧
      (n = 0 → s.fab.ucieDown.get? isl = none →
        Occurs .ucieLinkChange s (sendHeld { s with fab := { s.fab with ucieDown := s.fab.ucieDown.set isl s.hub.ns } }))) ∧
    (let u := fence s isl
     u.fab.fenced.get? isl = some false ∧ u.clk isl = 0 ∧ isl ∈ u.fab.quiesce ∧ u.fab.ucieDown.get? isl = some s.hub.ns ∧
     (⟨isl, 0xFFF, 0xFFFFFF, 5, 0, 0⟩ : LehrJob) ∈ u.par.jobs ∧
     (s.fab.toposet = none → u.fab.topogen = (s.fab.topogen + 1) % 2 ^ 32) ∧
     (s.team? isl team = some tm → tm.gone = false → (∀ e ∈ s.task.ends, e.isl ≠ isl ∨ e.team ≠ team) →
       (u.team? isl team).map (·.ending) = some (some (0x22, 0)))) ∧
    (serviceUp s = true → present s isl = true →
      (s.occ = .island isl →
        (topoFree s = true → Asked .warmResetRequest s none (fence s isl)) ∧
        (topoFree s = false → Asked .warmResetRequest s none { s with fab := { s.fab with topoq := s.fab.topoq ++ [.inr isl] } })) ∧
      (s.occ = .node isl → (topoTurn s (.inr isl) = true →
          Occurs .warmResetRequest s (fence { s with fab := { s.fab with topoq := s.fab.topoq.erase (.inr isl) } } isl)) ∧
        (topoTurn s (.inr isl) = false → no .warmResetRequest "WARM_RESET_REQUEST"))) ∧
    (s.occ = .island isl →
      (fenceable s isl = true → Occurs .fabricInterfaceError s (fence s isl)) ∧
      (fenceable s isl = false → no .fabricInterfaceError "FABRIC_INTERFACE_ERROR" ∧ no .ucieDownTimeout "UCIE_DOWN_TIMEOUT" ∧
        no .throttleFence "THROTTLE_FENCE") ∧
      (fenceable s isl = true → s.fab.ucieDown.get? isl = some n →
        (n + 100000000 ≤ s.hub.ns → Occurs .ucieDownTimeout s (fence s isl)) ∧
        (s.hub.ns < n + 100000000 → no .ucieDownTimeout "UCIE_DOWN_TIMEOUT")) ∧
      (s.fab.ucieDown.get? isl = none → no .ucieDownTimeout "UCIE_DOWN_TIMEOUT") ∧
      (fenceable s isl = true → s.hub.power.get? isl = some pw →
        (100 ≤ pw.hotRounds → Occurs .throttleFence s (report (fence (setPower s isl { pw with hotRounds := 0 }) isl) 0 14 [isl])) ∧
        (pw.hotRounds < 100 → no .throttleFence "THROTTLE_FENCE")) ∧
      (readmitReady s isl = false → no .warmResetReadmit "WARM_RESET_READMIT") ∧
      (readmitReady s isl = true → Gives (exec .warmResetReadmit s) fun u =>
        u.fab.fenced.get? isl = none ∧ isl ∉ u.fab.quiesce ∧ u.fab.topogen = (s.fab.topogen + 1) % 2 ^ 32 ∧
        (∀ q ∈ u.task.queue, q.isl = isl → q.task.stamp = s.clk isl) ∧ u.mem = s.mem))

/-- R58 to R62: while the anchor runs and the region's island can be reached, an RDMA WRITE that a virtual function
accepts puts its bytes into the region, page by page up to one that fails, and is acknowledged, or, with an immediate,
takes a posted receive buffer; an RDMA READ answers with the region's bytes; a range outside its region, and one that
cannot be accessed, is answered with a NAK and writes no more. A SEND takes the oldest posted buffer that holds it, an
atomic is answered with a NAK, and the host's buffers are posted in order. A frame that no function accepts has no
effect; the first frame binds its queue pair to its port. R61, R63 to R65, R94, R104: while the service firmware runs, a
registration with the credentials of its partition takes effect: a chain's descriptor gets its HEAD and STATE and zero
elsewhere, and the PCP serves it from there; a fault chain's gets BASE and SIZE; a region becomes known. One whose
island, alignment or size does not fit is refused. R66, R68, R69, R71, R76, R86: the PCP starts the next record of a
chain whose TAIL lies beyond it, in the round robin of the partitions, counts a TAIL below it, halts the chain at a
record that it cannot read, and else does nothing. A command whose status is decided completes: STATUS, DETAIL and INFO
are written, the record leaves the PCP, and COMP rises with the prefix; a record of an earlier registration only leaves.
R70, R72, R73, R75, R107, R137, R138: LAUNCH, in the order of its chain's LAUNCH records and in the round robin, NOTIFY
and RESUME end with the status of the first check that fails, or act: a task record is built at the record's address and
waits for its join count or becomes READY; a join word is decremented; the agents of a posted fault are released, and
INFO counts them. R94 to R99: MAP and UNMAP, while the service firmware runs, end with the status and INFO of the first
check that fails, and then no entry changes; MAP of a page whose tables stand writes the leaf into the level-3 entry,
and a table that is missing takes a free TABLE frame; UNMAP clears the leaf, and INFO counts the pages that it cleared.
R103 to R106: the record of the oldest unposted fault of a partition on an island, 1,024 core clocks after it arose, or
65,536 after a failure, is written into the ring, then WIDX, and a SEND goes to the event queue pair; a full ring holds
it back, a write that fails is reported and tried again later, and before its time it is not posted. The model's choice:
the ports and receive buffers of queue pairs, messages and chains on unreachable islands, the order of a MAP's checks,
records of an earlier registration, and the order of the round robin (log entries 19, 31, 43, 46 and 47). COMPLETION:
for every state and operands that meet the conditions written before it (those on the event and the state), the
conclusion is that Sys2Proof.Machine.exec i s answers a next state, for i = rdmaWrite, rdmaWriteWithImmediate, rdmaRead,
send, rdmaAtomicRequest, chainRegistration, serviceChainRegistration, faultChainRegistration, memoryRegionRegistration,
pcpTailWake, launch, notifyCommand, map, unmap, resume, commandRecordCompletion, faultRecordPost, faultPostRetry. -/
def Obligations.HostEvents : Prop :=
  (∀ (s : State) (f : Frame) (n off len size pa : Nat) (sl : Bool) (bs : List Byte) (imm : Option (BitVec 32)) (rg : Region) (q : Qp),
     let part := f.part
     let key := (f.part, f.qp)
     let s1 := bindQp s f
     let accepts : Prop := frameTo s f = some part
     let one (k : Nat) : Prop := 0 < k ∧ (rg.va + off) / 65536 = (rg.va + off + k - 1) / 65536
     let writeI : Instr := if imm.isSome then .rdmaWriteWithImmediate else .rdmaWrite
     let received (m : List Byte) (t : State) : Prop :=
       s1.hub.qps.get? key = some q →
         (∀ k ks, q.posted = k :: ks → m.length ≤ k →
           t.hub.qps.get? key = some { q with posted := ks, got := q.got ++ [m] } ∧ t.hub.out = s.hub.out ++ [.ack part f.qp]) ∧
         ((q.posted = [] ∨ ∃ k ks, q.posted = k :: ks ∧ k < m.length) →
           t.hub.qps.get? key = some q ∧ t.hub.out = s.hub.out ++ [.nakNotReady part f.qp])
     (frameTo s f = none ∨ accepts) ∧
     (s1.hub.qps.get? key).isSome = true ∧ (s.hub.qps.get? key = none → s1.hub.qps.get? key = some ⟨f.port, [], []⟩) ∧
     (∀ isl va k rs u, (accessBy u isl .remote part va (bs.take k).length .write false = .ok (pa, sl) →
         rdmaWrite isl part ((va, k) :: rs) bs u = rdmaWrite isl part rs (bs.drop k) (bypassBank u isl none pa (bs.take k))) ∧
       (∀ e, accessBy u isl .remote part va (bs.take k).length .write false = .error e →
         rdmaWrite isl part ((va, k) :: rs) bs u = (u, false))) ∧
     (s.occ = .rdmaWrite f n off bs imm → anchorUp s = true → regionReached s part n = true →
       (frameTo s f = none → Occurs writeI s s) ∧
       (accepts → (∀ x, s.hub.regions.get? (part, n) = some x → x.len < off + bs.length) →
         Occurs writeI s (sendHost s1 (.nakAccess part f.qp))) ∧
       (accepts → s.hub.regions.get? (part, n) = some rg → off + bs.length ≤ rg.len →
         let w := rdmaWrite rg.isl part (pageRuns (bs.length / 65536 + 2) (rg.va + off) bs.length) bs s1
         (w.2 = true → imm = none → Occurs writeI s (sendHost w.1 (.ack part f.qp))) ∧
         (one bs.length → accessBy s rg.isl .remote part (rg.va + off) bs.length .write false = .ok (pa, sl) →
           pa + bs.length ≤ 2 ^ 39 → Gives (exec writeI s) fun t =>
             Wrote s t rg.isl pa bs ∧ (imm = none → t.hub.out = s.hub.out ++ [.ack part f.qp]) ∧
             ∀ i, imm = some i → received (leBytes 4 i.toNat) t) ∧
         (one bs.length → (∀ x, accessBy s rg.isl .remote part (rg.va + off) bs.length .write false ≠ .ok x) →
           Gives (exec writeI s) fun t => t.mem = s.mem ∧ t.hub.out.getLast? = some (.nakAccess part f.qp)))) ∧
     (s.occ = .rdmaRead f n off len → anchorUp s = true → regionReached s part n = true →
       (frameTo s f = none → Occurs .rdmaRead s s) ∧
       (accepts → (∀ x, s.hub.regions.get? (part, n) = some x → x.len < off + len) →
         Occurs .rdmaRead s (sendHost s1 (.nakAccess part f.qp))) ∧
       (accepts → s.hub.regions.get? (part, n) = some rg → off + len ≤ rg.len → one len →
         (accessBy s rg.isl .remote part (rg.va + off) len .read true = .ok (pa, sl) → Gives (exec .rdmaRead s) fun t =>
           t.mem = s.mem ∧ ∃ cs : List (List Byte), t.hub.out = s.hub.out ++ cs.map (.data part f.qp) ∧
             cs.flatten = s.mem.bytes rg.isl pa len ∧ ∀ c ∈ cs, c.length ≤ 4096) ∧
         (∀ a, accessBy s rg.isl .remote part (rg.va + off) len .read true = .error (.poison a) →
           Gives (exec .rdmaRead s) fun t => t.mem = s.mem ∧ t.hub.out = s.hub.out ++ [.nakOper part f.qp]) ∧
         (∀ a p l, accessBy s rg.isl .remote part (rg.va + off) len .read true = .error (.fault a p l) →
           Gives (exec .rdmaRead s) fun t => t.mem = s.mem ∧ t.hub.out.getLast? = some (.nakAccess part f.qp)))) ∧
     (s.occ = .send f bs → anchorUp s = true → (frameTo s f = none → Occurs .send s s) ∧
       (accepts → Gives (exec .send s) fun t => t.mem = s.mem ∧ received bs t)) ∧
     (s.occ = .postRecv f size → anchorUp s = true → accepts → s1.hub.qps.get? key = some q → Gives (exec .send s) fun t =>
       t.hub.qps.get? key = some { q with posted := q.posted ++ [size] } ∧ t.hub.out = s.hub.out) ∧
     (s.occ = .rdmaAtomic f → anchorUp s = true → (frameTo s f = none → Occurs .rdmaAtomicRequest s s) ∧
       (accepts → Gives (exec .rdmaAtomicRequest s) fun t =>
         t.mem = s.mem ∧ t.hub.out = s.hub.out ++ [.nakInvalid part f.qp] ∧ t.hub.qps = s1.hub.qps))) ∧
  (∀ (s : State) (part chain isl desc head base size n pa : Nat) (rg : Region),
     let place : Prop := (s.part? part).isSome = true ∧ holdsIsland s part isl = true ∧ hubReaches s isl = true ∧ desc % 512 = 0
     let ringOk : Prop := size ≤ 10 ∧ base % 4096 = 0 ∧ base < 2 ^ 52
     let regionOk : Prop := (s.part? part).isSome = true ∧ n < 1024 ∧ rg.va % 65536 = 0 ∧ rg.len % 65536 = 0 ∧ rg.len ≠ 0 ∧
       rg.va + rg.len ≤ 2 ^ 52 ∧ holdsIsland s part rg.isl = true
     (∀ k, place → head < 2 ^ 52 → Lands s isl part desc 512 .write false pa →
       let t := registerChain s part k isl desc head
       Wrote s t isl pa (leBytes 256 0 ++ leBytes 16 (head * 2 ^ 20 + 2 ^ 120) ++ leBytes 240 0) ∧
       (t.hub.chains.get? (part, k)).map (fun c => (c.home, c.desc, c.head, c.consumed, c.comp, c.halted, c.done)) =
         some (isl, desc, head, 0, 0, false, [])) ∧
     (∀ k, (¬ place ∨ 2 ^ 52 ≤ head) → registerChain s part k isl desc head = refuse s 1) ∧
     (place → ringOk → Lands s isl part desc 512 .write false pa →
       let t := registerFaults s part isl desc base size
       (t.par.fchains.get? (part, isl)).map (fun f => (f.desc, f.base, f.size)) = some (desc, base, size) ∧
       (nextPost s isl part = none → (t.par.fchains.get? (part, isl)).map (·.widx) = some 0 ∧
         Wrote s t isl pa (leBytes 16 (base * 2 ^ 52 + size * 2 ^ 104) ++ leBytes 496 0))) ∧
     (¬ (place ∧ ringOk) → registerFaults s part isl desc base size = refuse s 2) ∧
     (regionOk → (registerRegion s part n rg).hub.regions.get? (part, n) = some rg ∧ (registerRegion s part n rg).mem = s.mem) ∧
     (¬ regionOk → registerRegion s part n rg = refuse s 3) ∧
     (serviceUp s = true →
       (s.occ = .register part chain isl desc head →
         (chain < 16 → Asked .chainRegistration s (some part) (registerChain s part chain isl desc head)) ∧
         (16 ≤ chain → Asked .chainRegistration s (some part) (refuse s 1)) ∧
         Asked .serviceChainRegistration s (some part) (registerChain s part 16 isl desc head)) ∧
       (s.occ = .fchain part isl desc base size →
         Asked .faultChainRegistration s (some part) (registerFaults s part isl desc base size)) ∧
       (s.occ = .region part n rg → Asked .memoryRegionRegistration s (some part) (registerRegion s part n rg)))) ∧
  (∀ (s s1 : State) (part chain tail a x pa pb : Nat) (cc : CmdChain) (c : CmdRec) (st d i : Nat),
     let k := (part, chain)
     let n := cc.consumed + 1
     (s.occ = .chain part chain →
       (s.hub.chains.get? k = none → exec .pcpTailWake s = .refused (.notEnabled "PCP_TAIL_WAKE")) ∧
       (s.hub.chains.get? k = some cc → chainServed s k cc = false →
         exec .pcpTailWake s = .refused (.notEnabled "PCP_TAIL_WAKE")) ∧
       (s.hub.chains.get? k = some cc → chainServed s k cc = true → readVa s cc.home part cc.desc 8 = .ok tail →
         (tail < cc.consumed → Gives (exec .pcpTailWake s) fun t =>
           t.hub.chains.get? k = some { cc with low := cc.low + 1 } ∧ t.hub.out = s.hub.out ++ [.redfish part 13 [chain, tail]]) ∧
         (tail = cc.consumed → exec .pcpTailWake s = .refused (.notEnabled "PCP_TAIL_WAKE")) ∧
         (cc.consumed < tail →
           (pcpServe s part = none → exec .pcpTailWake s = .refused (.notEnabled "PCP_TAIL_WAKE")) ∧
           (pcpServe s part = some s1 → nextCmd s k cc = .ok a → a % 64 = 0 → readVa s cc.home part a 64 = .ok x →
             ((nbit x 55 = false ∨ n ≤ cc.comp + 1) → Gives (exec .pcpTailWake s) fun t =>
               t.hub.chains.get? k = some { cc with consumed := n, last := a } ∧ t.mem = s.mem ∧
               ∃ r, t.hub.cmds = s.hub.cmds ++ [r] ∧ (r.ref, r.addr, r.bits, r.begun) = (⟨part, chain, cc.reg, n⟩, a, x, false) ∧
                 (cmdEarly s part chain x = none → r.res = none)) ∧
             (nbit x 55 = true → cc.comp + 1 < n → exec .pcpTailWake s = .refused (.notEnabled "PCP_TAIL_WAKE"))) ∧
           (pcpServe s part = some s1 → (nextCmd s k cc = .error a ∨
               nextCmd s k cc = .ok a ∧ (a % 64 ≠ 0 ∨ ∃ e, readVa s cc.home part a 64 = .error e)) →
             Gives (exec .pcpTailWake s) fun t =>
               (t.hub.chains.get? k).map (·.halted) = some true ∧ t.hub.cmds = s.hub.cmds)))) ∧
     (s.occ = .cmd c.ref → s.hub.cmds.find? (·.ref = c.ref) = some c →
       (c.res = none ∨ c.ready s = false →
         exec .commandRecordCompletion s = .refused (.notEnabled "COMMAND_RECORD_COMPLETION")) ∧
       (c.res = some (st, d, i) → c.ready s = true → s.hub.chains.get? (c.ref.part, c.ref.chain) = some cc →
         (cc.reg ≠ c.ref.reg → Gives (exec .commandRecordCompletion s) fun t =>
           t.hub.cmds = s.hub.cmds.filter (·.ref ≠ c.ref) ∧ t.hub.chains = s.hub.chains ∧ t.mem = s.mem) ∧
         (cc.reg = c.ref.reg → cc.done = [] → Lands s cc.home c.ref.part (c.addr + 56) 8 .write false pa →
           let s0 := { s with hub := { s.hub with cmds := s.hub.cmds.filter (·.ref ≠ c.ref) } }
           let u := bypassBank s0 cc.home none pa (leBytes 8 (st % 256 * 2 ^ 56 + d % 2 ^ 24 * 2 ^ 32 + i % 2 ^ 32))
           Gives (exec .commandRecordCompletion s) fun t =>
             t.hub.cmds = s.hub.cmds.filter (·.ref ≠ c.ref) ∧
             (c.ref.seq ≠ cc.comp + 1 → (t.hub.chains.get? (c.ref.part, c.ref.chain)).map (·.comp) = some cc.comp ∧
               ∀ j b, t.mem.byte j b = u.mem.byte j b) ∧
             (c.ref.seq = cc.comp + 1 → (t.hub.chains.get? (c.ref.part, c.ref.chain)).map (·.comp) = some (cc.comp + 1) ∧
               (Lands u cc.home c.ref.part (cc.desc + 280) 8 .write false pb →
                 Wrote u t cc.home pb (leBytes 8 (cc.comp + 1)))))))) ∧
  (∀ (s s1 : State) (c : CmdRec) (b pa : Nat) (sl lgp : Bool) (e : FaultEnt),
     let x := c.bits
     let part := c.ref.part
     let ends (ins : Instr) (st : Nat) (detail info : Option Nat) : Prop := Gives (exec ins s) fun t =>
       ∃ r ∈ t.hub.cmds, r.ref = c.ref ∧ r.begun = true ∧ ∃ d i, r.res = some (st, d, i) ∧
         (∀ y, detail = some y → d = y) ∧ ∀ y, info = some y → i = y
     (∀ u isl va now, va % 64 = 0 → u.mem.poisonedAt isl pa 64 = none → recordBad (u.mem.nat isl pa 64) va part = none →
       (queueOf u isl part).length < qcapOf u part → pa + 16 ≤ 2 ^ 39 → now = u.clk isl →
       let t := makeReady u isl part va pa (.held pa)
       Wrote u t isl (pa + 8) (leBytes 8 now) ∧ t.task.queue = u.task.queue ++
         [⟨isl, part, .ofBits (u.mem.nat isl pa 64) va pa now, u.task.nextOrder, none⟩]) ∧
     (occCmd s 1 = some c →
       let isl := nbits x 186 182
       let va := nbits x 181 130
       ((launchTurn s c = false ∨ pcpServe s part = none) → exec .launch s = .refused (.notEnabled "LAUNCH")) ∧
       (launchTurn s c = true → pcpServe s part = some s1 →
         (launchMal x = some b → ends .launch 0x11 (some b) none) ∧
         (launchMal x = none → targetBad s part isl = some b → ends .launch b none none) ∧
         (launchMal x = none → targetBad s part isl = none →
           ((∀ p q r, translate s isl part va .atomic ≠ .ok p q r) → ends .launch 0x14 none none) ∧
           (translate s isl part va .atomic = .ok pa sl lgp →
             (s.mem.poisonedAt isl pa 8 ≠ none → ends .launch 0x17 none none) ∧
             (s.mem.poisonedAt isl pa 8 = none →
               let st := jwState (s.mem.nat isl pa 8)
               (recordHeld st = true → ends .launch 0x10 (some st) none) ∧
               (recordHeld st = false → pa + 64 ≤ 2 ^ 39 →
                 let bits := launchBits (s.mem.nat isl pa 64) x part c.addr (homeOf s c)
                 let u := bypassBank (setCmd s1 { c with begun := true, trec := some (isl, va) }) isl none (pa + 8)
                   ((leBytes 64 bits).drop 8)
                 (nbits x 205 190 ≠ 0 → Gives (exec .launch s) fun t =>
                   Wrote s t isl pa (leBytes 8 (joinWord 1 0 (nbits x 205 190)) ++ (leBytes 64 bits).drop 8) ∧
                   ∃ r ∈ t.hub.cmds, r = { c with begun := true, trec := some (isl, va) }) ∧
                 (nbits x 205 190 = 0 → Occurs .launch s
                   (makeReady (bypassBank u isl none pa (leBytes 8 (joinWord 2 0 0))) isl part va pa (.held pa))))))))) ∧
     (occCmd s 2 = some c →
       let isl := nbits x 447 443
       let va := nbits x 442 391
       let bad := lowestBit [badIf (va % 8 != 0) 391, badIf (nbits x 390 375 == 0) 375, firstBit x 374 128]
       (bad = some b → ends .notifyCommand 0x11 (some b) none) ∧
       (bad = none → targetBad s part isl = some b → ends .notifyCommand b none none) ∧
       (bad = none → targetBad s part isl = none →
         ((∀ p q r, translate s isl part va .atomic ≠ .ok p q r) → ends .notifyCommand 0x14 none none) ∧
         (translate s isl part va .atomic = .ok pa sl lgp →
           let r := joinDecrement s isl part va pa (nbits x 390 375)
           (r.2 = true → Occurs .notifyCommand s (endCmd r.1 c 0x00 none none) ∧ ends .notifyCommand 0x00 none none) ∧
           (r.2 = false → ends .notifyCommand 0x17 none none)))) ∧
     (occCmd s 6 = some c →
       let isl := nbits x 447 443
       let found := s.par.faults.find? fun e => e.key.isl = isl ∧ e.key.part = part ∧ e.fseq = some (nbits x 442 379)
       (firstBit x 378 128 = some b → ends .resume 0x11 (some b) none) ∧
       (firstBit x 378 128 = none → targetBad s part isl = some b → ends .resume b none none) ∧
       (firstBit x 378 128 = none → targetBad s part isl = none →
         (found = none → ends .resume 0x00 none (some 0)) ∧
         (found = some e → ends .resume 0x00 none (some (agentsOn s e.key)) ∧ Gives (exec .resume s) fun t =>
           (∀ y ∈ t.par.faults, y.order ≠ e.order) ∧
           (∀ th r, s.thread? th = some r → r.wait.parked = some e.key →
             (t.thread? th).map (fun r => (r.wait.parked, r.wait.replay)) = some (none, some (e.key, min (e.retry + 1) 255))) ∧
           ∀ y ∈ t.eng.recs, y.parked ≠ some e.key)))) ∧
  (∀ (s : State) (c : CmdRec) (b root : Nat) (e : Nat × Nat),
     let x := c.bits
     let part := c.ref.part
     let isl := nbits x 447 443
     let va := nbits x 442 391
     let pfn := nbits x 390 368
     let lg := nbit x 351
     let count := nbits x 367 352
     let perm := nbits x 350 348
     let ends (ins : Instr) (st : Nat) (detail info : Option Nat) : Prop := Gives (exec ins s) fun t => t.mem = s.mem ∧
       ∃ r ∈ t.hub.cmds, r.ref = c.ref ∧ r.begun = true ∧ ∃ d i, r.res = some (st, d, i) ∧
         (∀ y, detail = some y → d = y) ∧ ∀ y, info = some y → i = y
     let a1 := root + 8 * nbits va 51 42
     let a2 := (readPte s isl a1).pfn * 65536 + 8 * nbits va 41 29
     let a3 := (readPte s isl a2).pfn * 65536 + 8 * nbits va 28 16
     let tables : Prop := (s.part? part).bind (fun p => p.roots.get? isl) = some root ∧ (readPte s isl a1).v = true ∧
       (readPte s isl a1).l = false ∧ (readPte s isl a2).v = true ∧ (readPte s isl a2).l = false
     let reach : Prop := present s isl = true ∧ holdsIsland s part isl = true ∧ hubReaches s isl = true
     (∀ f at_, (readPte s isl at_).v = false → freeTable s part isl = some f → at_ + 8 ≤ 2 ^ 39 →
       ∃ u, takeNext s part isl at_ = some (u, f * 65536) ∧ u.par.tables.get? (isl, f) = some part ∧
         Wrote s u isl at_ (leBytes 8 (Pte.toNat { v := true, l := false, pfn := f, sl := false, x := false, w := false, r := false }))) ∧
     (serviceUp s = false → (occCmd s 4 = some c → exec .map s = .refused (.notEnabled "MAP")) ∧
       (occCmd s 5 = some c → exec .unmap s = .refused (.notEnabled "UNMAP"))) ∧
     (serviceUp s = true → occCmd s 4 = some c →
       (mapMal x = some b → ends .map 0x11 (some b) none) ∧
       (mapMal x = none →
         ((present s isl = false ∨ holdsIsland s part isl = false) → ends .map 0x10 (some 1) (some 0)) ∧
         (present s isl = true → holdsIsland s part isl = true → hubReaches s isl = false → ends .map 0x13 none none) ∧
         (reach → scrubbing s part = true → ends .map 0x10 (some 6) (some 0)) ∧
         (reach → scrubbing s part = false →
           (mapPages part isl va pfn lg perm count 0 s = .error e → ends .map 0x10 (some e.1) (some e.2)) ∧
           (lg = false → count = 1 → s.par.frames.get? (isl, pfn) ≠ some (.owned, part) → ends .map 0x10 (some 2) (some 0)) ∧
           (lg = false → count = 1 → s.par.frames.get? (isl, pfn) = some (.owned, part) → tables →
             ((readPte s isl a3).v = true → ends .map 0x10 (some 3) (some 0)) ∧
             ((readPte s isl a3).v = false → a3 + 8 ≤ 2 ^ 39 → Gives (exec .map s) fun t =>
               Wrote s t isl a3 (leBytes 8 (Pte.toNat
                 { v := true, l := true, pfn := pfn, sl := false, x := nbit perm 2, w := nbit perm 1, r := nbit perm 0 })) ∧
               ∃ r ∈ t.hub.cmds, r.ref = c.ref ∧ r.begun = true ∧ r.res.map (·.1) = some 0x00))))) ∧
     (serviceUp s = true → occCmd s 5 = some c →
       (unmapMal x = some b → ends .unmap 0x11 (some b) none) ∧
       (unmapMal x = none →
         ((present s isl = false ∨ holdsIsland s part isl = false) → ends .unmap 0x10 (some 1) (some 0)) ∧
         (present s isl = true → holdsIsland s part isl = true → hubReaches s isl = false → ends .unmap 0x13 none none) ∧
         (reach → lg = false → count = 1 → tables →
           ((readPte s isl a3).v = false → ends .unmap 0x00 none (some 0)) ∧
           ((readPte s isl a3).v = true → a3 + 8 ≤ 2 ^ 39 →
             tableEmpty (writePte s isl a3 0) isl ((readPte s isl a2).pfn * 65536) 8192 = false → Gives (exec .unmap s) fun t =>
               Wrote s t isl a3 (leBytes 8 0) ∧ ∃ r ∈ t.hub.cmds, r.ref = c.ref ∧
                 r.pages = some (isl, [((readPte s isl a3).pfn * 65536, 2 ^ 16)]) ∧ (r.res.map fun y => (y.1, y.2.2)) = some (0x00, 1)))))) ∧
  (∀ (s : State) (e : FaultEnt) (f : FaultChain) (ridx w pa pb h : Nat) (err : XErr),
     let isl := e.key.isl
     let part := e.key.part
     let n := f.widx + 1
     let va := f.base + 64 * (f.widx % 2 ^ (f.size + 6))
     let posts (i : Instr) : Prop :=
       (s.par.fchains.get? (part, isl) = none → ∃ m, exec i s = .refused (.notEnabled m)) ∧
       (s.par.fchains.get? (part, isl) = some f → readVa s isl part (f.desc + 256) 8 = .ok ridx →
         readVa s isl part (f.desc + 8) 8 = .ok w →
         (2 ^ (f.size + 6) ≤ f.widx - min ridx f.widx → ∃ m, exec i s = .refused (.notEnabled m)) ∧
         (f.widx - min ridx f.widx < 2 ^ (f.size + 6) →
           (Lands s isl part va 64 .write true pa →
             let u := bypassBank s isl none pa (leBytes 64 (faultBits s e n))
             Lands u isl part (f.desc + 16) 8 .write true pb → Gives (exec i s) fun t =>
               Wrote u t isl pb (leBytes 8 n) ∧ t.par.fchains.get? (part, isl) = some { f with widx := n } ∧
               (∃ y ∈ t.par.faults, y = { e with fseq := some n, held := none }) ∧
               (nbit (nbits w 63 44) 19 = true → hubReaches s isl = true →
                 s.hub.qpError.contains (part, nbits w 63 44 % 256) = false →
                 t.hub.out = s.hub.out ++ [.send part (nbits w 63 44 % 256) (leBytes 8 n)])) ∧
           (access s isl part va 64 .write true = .error err → Gives (exec i s) fun t => t.mem = s.mem ∧
             t.par.fchains = s.par.fchains ∧ ∃ y ∈ t.par.faults, y = { e with held := some (s.clk isl + 65536) })))
     occFault s = some e →
     (e.held = none → e.stamp + 1024 ≤ s.clk isl → posts .faultRecordPost) ∧
     (e.held = none → s.clk isl < e.stamp + 1024 → exec .faultRecordPost s = .refused (.notEnabled "FAULT_RECORD_POST")) ∧
     (e.held = some h → h ≤ s.clk isl → posts .faultPostRetry) ∧
     (e.held = some h → s.clk isl < h → exec .faultPostRetry s = .refused (.notEnabled "FAULT_POST_RETRY")))

/-- R33, R76, R83 to R89, R110 to R113: system software's requests through Redfish for partitions, frames, rotations,
copy engines and function-level resets are carried out while the service firmware runs, where the credentials are those
of system software (R63) or, for a reset, of the partition's tenant, or are refused. A partition that is created takes
its slices and engines through the lehr and a fresh key; frames are granted, revoked, zeroed; a reset or a deletion
leaves nothing of the partition that runs, waits or is registered, and its frames and slices pass to be scrubbed. The
model's choice: what a reset or deletion leaves, and that a tenant may reset its own partition (log entries 35 and 43).
COMPLETION: for every state and operands that meet the conditions written before it (those on the event and the state),
the conclusion is that Sys2Proof.Machine.exec i s answers a next state, for i = partitionCreate, partitionChange,
partitionDelete, frameGrant, frameRevoke, frameScrubDone, rotationSetup, copyEngineMove, functionLevelReset. -/
def Obligations.PartitionEvents : Prop :=
  ∀ (s : State) (p isl first count n ces src dst f : Nat) (old body : Part) (table : Bool) (r : Rotation) (own : Nat),
    let q := body.requested
    let kept := { body with roots := old.roots, rotation := old.rotation }
    let both := maskBits 24 (old.islands &&& body.islands)
    let left := (maskBits 24 old.islands).filter fun i => !nbit body.islands i
    let came := (maskBits 24 body.islands).filter fun i => !nbit old.islands i
    let alone (x : Part) : Prop := ∀ e ∈ s.par.parts, e.1 ≠ 0 → e.1 ≠ p → x.overlaps e.2 = false
    let creates : Prop := idFree s p = true ∧ partOk s p q = true ∧
      ∀ i ∈ maskBits 24 q.islands, enginesIdle s i (q.ce.getD i 0 &&& enginesOf s 0 i) = true
    let changes : Prop := partOk s p kept = true ∧
      (old.rotation = none ∨ old.islands = body.islands ∧ old.slices = body.slices) ∧
      (∀ i ∈ both, old.ce.getD i 0 = body.ce.getD i 0) ∧
      (∀ i ∈ left, enginesIdle s i (old.ce.getD i 0) = true ∧ ∀ e ∈ s.par.frames, e.1.1 ≠ i ∨ e.2.2 ≠ p) ∧
      ∀ i ∈ came, enginesIdle s i (body.ce.getD i 0 &&& enginesOf s 0 i) = true
    let scrubs (u : State) (i slices reason from_ into : Nat) : Prop := slices ≠ 0 →
      ∃ j ∈ u.par.jobs, (j.isl, j.slices, j.reason, j.partOut, j.partIn) = (i, slices, reason, from_, into)
    let quiet (u : State) : Prop := (∀ x ∈ u.task.queue, x.part ≠ p) ∧ (∀ x ∈ u.task.saved, x.old.part ≠ p) ∧
      (∀ x ∈ u.hub.cmds, x.ref.part ≠ p) ∧ (∀ k, u.hub.chains.get? (p, k) = none) ∧ (∀ i, u.par.fchains.get? (p, i) = none) ∧
      (∀ k, u.hub.regions.get? (p, k) = none) ∧ (∀ x ∈ u.eng.recs, x.ref.chain.part ≠ p) ∧
      (∀ x ∈ u.par.faults, x.key.part ≠ p) ∧ (∀ x ∈ u.fab.txns, x.kslot ≠ p) ∧ (∀ x ∈ u.par.tables, x.2 ≠ p) ∧
      (u.fab.keys.get? p).map (·.old) = some none ∧
      ∀ k, s.par.frames.get? k = some (.owned, p) → u.par.frames.get? k = some (.scrub, p)
    (1 ≤ p → (creates →
      let u := createPart s p body
      u.part? p = some q ∧ (body.dispw = 0 → q.dispw = 16) ∧ (body.fabw = 0 → q.fabw = 16) ∧
      (u.fab.keys.get? p).map (fun k => (k.cur, k.old)) = some (s.fab.nextEpoch, none) ∧
      ∀ i ∈ maskBits 24 q.islands, alone q → scrubs u i q.slices 2 0 p) ∧
      (¬ creates → createPart s p body = refuse s 4)) ∧
    (1 ≤ p → s.part? p = some old → (changes →
      let u := changePart s p old body
      u.part? p = some kept ∧ (∀ i ∈ left, scrubs u i old.slices 3 p 0) ∧ (∀ i ∈ came, alone kept → scrubs u i body.slices 2 0 p) ∧
      ∀ i ∈ both, scrubs u i (old.slices - (old.slices &&& body.slices)) 3 p 0 ∧
        scrubs u i (body.slices - (old.slices &&& body.slices)) 2 0 p) ∧
      (¬ changes → changePart s p old body = refuse s 4)) ∧
    (1 ≤ p → s.part? p = some old →
      let u := flr s p
      let v := deletePart s p old
      (quiet u ∧ (u.part? p).map (·.roots) = some [] ∧ (∀ k, k < 256 → (p, k) ∈ u.hub.qpError) ∧
        ∀ i ∈ islandsOf s p, heldMask s p i ≠ 0 → ∃ j ∈ u.par.jobs, (j.isl, j.slices, j.reason, j.partOut) = (i, heldMask s p i, 4, p)) ∧
      quiet v ∧ v.part? p = none ∧ (∀ k, (p, k) ∉ v.hub.qpError) ∧
      (∀ k, s.par.frames.get? k = some (.table, p) → v.par.frames.get? k = some (.scrub, p)) ∧
      ∀ i ∈ islandsOf s p, scrubs v i (heldMask s p i) 3 p (heirOf s p)) ∧
    (let u := grantFrames s isl p first count table
     let ok : Prop := present s isl = true ∧ holdsIsland s p isl = true ∧ (s.part? p).isSome = true ∧ first + count ≤ 0x600000 ∧
       ∀ k ∈ frameRange first count, s.par.frames.get? (isl, k) = none ∧ Config.sysFrame isl k = false
     (ok → ∀ i k, u.par.frames.get? (i, k) = if i = isl ∧ k ∈ frameRange first count then
       some (if table then .table else .owned, p) else s.par.frames.get? (i, k)) ∧ (¬ ok → u = refuse s 5)) ∧
    (let u := revokeFrames s isl p first count
     let ok : Prop := ∀ k ∈ frameRange first count, revocable s isl p (mappedRuns s p isl) k = true
     (ok → ∀ i k, u.par.frames.get? (i, k) = if i = isl ∧ k ∈ frameRange first count then
       some (.scrub, p) else s.par.frames.get? (i, k)) ∧ (¬ ok → u = refuse s 5)) ∧
    (s.occ = .frames isl p f count table → f < 2 ^ 23 → s.par.frames.get? (isl, f) = some (.scrub, own) →
      Gives (exec .frameScrubDone s) fun u =>
        (∀ i a, a < 2 ^ 39 → u.mem.byte i a = if i = isl ∧ a / 65536 = f then 0 else s.mem.byte i a) ∧
        u.par.frames.get? (isl, f) =
          ((s.par.flr.find? fun j => j.frames.contains (isl, f) && !j.delete).map fun j => (.owned, j.part))) ∧
    (let u := setupRotation s n r
     (rotationOk s n r = true → (u.par.rots.get? n).map (fun x => (x.order, x.quantum, x.deadline, x.gang, x.tick)) =
         some (r.order, r.quantum, (if r.deadline = 0 then 200000 else r.deadline), r.gang, none) ∧
       ∀ k ∈ r.order, (u.part? k).map (·.rotation) = some (some n)) ∧
     (rotationOk s n r = false → u = refuse s 6)) ∧
    (serviceUp s = true →
      (s.occ = .partition p body →
        Asked .partitionCreate s none (createPart s p body) ∧
        (1 ≤ p → s.part? p = some old → Asked .partitionChange s none (changePart s p old body)) ∧
        ((p = 0 ∨ s.part? p = none) → Asked .partitionChange s none (refuse s 4))) ∧
      (s.occ = .part p →
        (1 ≤ p → s.part? p = some old →
          Asked .partitionDelete s none (deletePart s p old) ∧ Asked .functionLevelReset s (some p) (flr s p)) ∧
        ((p = 0 ∨ s.part? p = none) →
          Asked .partitionDelete s none (refuse s 4) ∧ Asked .functionLevelReset s (some p) (refuse s 4))) ∧
      (s.occ = .frames isl p first count table →
        Asked .frameGrant s none (grantFrames s isl p first count table) ∧
        Asked .frameRevoke s none (revokeFrames s isl p first count)) ∧
      (s.occ = .rotation n r → Asked .rotationSetup s none (setupRotation s n r)) ∧
      (s.occ = .move isl ces src dst →
        (moveOk s isl ces src dst = true →
          Asked .copyEngineMove s none { s with par := { s.par with jobs := s.par.jobs ++ [⟨isl, 0, ces, 6, src, dst⟩] } }) ∧
        (moveOk s isl ces src dst = false → Asked .copyEngineMove s none (refuse s 7))))

/-- R17 to R22: a budget round gives each island its share of what the hub leaves of the cap, its step, and its
telemetry; an island that is too hot, an input that is low, or a coolant that stands means the lowest step, and each
such event is counted or reported. R17, R20 to R24, R33, R63, R78 to R82, R84, R120, R138, R140: resets, boot, firmware,
keys, attestation and settings. A cold reset leaves what reset leaves, but for one-time storage and the flash image; the
boot ROM starts an image that verifies, which powers the islands where the coolant flows, trains the fabric and creates
partition 0, or falls back to HTTPS boot. The model's choice: the numbers of settings and reads, the shares before the
first round, what the limit of 1,100 W leaves over, the keys' values, and the fields of partition 0 (log entries 10, 11,
23, 41 and 43). COMPLETION: for every state and operands that meet the conditions written before it (those on the event
and the state), the conclusion is that Sys2Proof.Machine.exec i s answers a next state, for i = budgetRound,
throttleLimit, throttleRecover, inputUndervoltage, inputPowerLoss, coolantFlowStop, resetIn, httpsBootRetry,
firmwareUpdate, serviceFirmwareStop, keyPhaseChange, keyPhaseRetire, attestationRequest, tokenFetch, redfishSetting,
coldBoot, inputVoltageRecovery, coolantFlowResume, serviceFirmwareRestarted. -/
def Obligations.PlatformEvents : Prop :=
  (∀ (s : State) (isl share demand hub : Nat) (pw : Power) (rs : List Reading),
     let fits (k : Nat) : Prop := 32 ≤ k ∧ k ≤ 88 ∧ Config.predictedPower isl k demand ≤ share
     let stepOf (i : Nat) (t : State) : Option Nat := (t.hub.power.get? i).map (·.step)
     ((∃ k, fits k) → fits (bestStep isl share demand) ∧ ∀ k, fits k → k ≤ bestStep isl share demand) ∧
     ((¬ ∃ k, fits k) → bestStep isl share demand = 32) ∧
     (s.occ = .budget rs hub → anchorUp s = true → s.hub.nextRound ≤ s.hub.ns → Occurs .budgetRound s (budgetRound s rs hub)) ∧
     (s.occ = .budget rs hub → s.hub.ns < s.hub.nextRound → exec .budgetRound s = .refused (.notEnabled "BUDGET_ROUND")) ∧
     ((s.hub.power.map (·.1)).Nodup → s.hub.power.get? isl = some pw →
       let es := s.hub.power.filter fun e => nodeUp s e.1
       let x := readingOf rs isl
       let remain := s.hub.cap - min hub s.hub.cap
       let floors := (es.map fun e => e.2.floor).sum
       let excess := (es.map fun e => if (readingOf rs e.1).flag then (readingOf rs e.1).watts - e.2.floor else 0).sum
       let base := if remain < floors then pw.floor * remain / max floors 1 else pw.floor
       let got := min 1100 (base + if x.flag then (remain - min floors remain) * (x.watts - pw.floor) / max excess 1 else 0)
       let low := pw.throttled || s.hub.undervoltage || s.hub.noFlow
       let u := budgetRound s rs hub
       u.hub.nextRound = s.hub.nextRound + 1000000 ∧
       (nodeUp s isl = true → u.hub.power.get? isl = some { pw with
           demand := x.watts, temp := x.temp, share := got, step := if low then 32 else bestStep isl got x.watts
           hotRounds := if pw.throttled || s.hub.noFlow then pw.hotRounds + 1 else 0 } ∧
         u.hub.telemetry.get? isl = some ⟨got, (if low then 32 else bestStep isl got x.watts), x.watts, x.temp, pw.throttles⟩) ∧
       (nodeUp s isl = false → u.hub.power.get? isl = some pw ∧ (u.hub.telemetry.get? isl).map (·.share) = some 0)) ∧
     (s.occ = .island isl → s.hub.power.get? isl = some pw →
       (Gives (exec .throttleLimit s) fun t => t.hub.power.get? isl = some { pw with
         throttled := true, step := 32, throttles := pw.throttles + if pw.throttled then 0 else 1 }) ∧
       (pw.throttled = true → Gives (exec .throttleRecover s) fun t => t.hub.power.get? isl = some { pw with
         throttled := false, hotRounds := if s.hub.noFlow then pw.hotRounds else 0
         step := if s.hub.undervoltage || s.hub.noFlow then 32 else bestStep isl pw.share pw.demand }) ∧
       (pw.throttled = false → exec .throttleRecover s = .refused (.notEnabled "THROTTLE_RECOVER"))) ∧
     (s.hub.boot ≠ .off → s.hub.undervoltage = false → Gives (exec .inputUndervoltage s) fun t =>
       t.hub.undervoltage = true ∧ t.hub.out = s.hub.out ++ [.redfish 0 15 []] ∧
       ∀ i x, s.hub.power.get? i = some x → stepOf i t = some 32) ∧
     (s.hub.undervoltage = true → Gives (exec .inputVoltageRecovery s) fun t => t.hub.undervoltage = false ∧
       ∀ i x, s.hub.power.get? i = some x →
         stepOf i t = some (if x.throttled || s.hub.noFlow then 32 else bestStep i x.share x.demand)) ∧
     (s.hub.noFlow = false → Gives (exec .coolantFlowStop s) fun t => t.hub.noFlow = true ∧
       ∀ i x, s.hub.power.get? i = some x → t.hub.power.get? i = some { x with step := 32, throttles := x.throttles + 1 }) ∧
     (s.hub.noFlow = true → s.hub.boot ≠ .dry → Gives (exec .coolantFlowResume s) fun t => t.hub.noFlow = false ∧
       ∀ i x, s.hub.power.get? i = some x → t.hub.power.get? i = some { x with
         hotRounds := if x.throttled then x.hotRounds else 0
         step := if x.throttled || s.hub.undervoltage then 32 else bestStep i x.share x.demand }) ∧
     (s.hub.noFlow = true → s.hub.boot = .dry → Gives (exec .coolantFlowResume s) fun t =>
       t.hub.noFlow = false ∧ t.hub.boot = .running ∧ t.hub.service = true)) ∧
  (∀ (s : State) (n part nonce which isl slice v : Nat) (img : Image) (k : KeySlot) (tk : Token) (b : Boot),
     let svc : Prop := serviceUp s = true
     let hub (h : HubSt) : Option State := some { s with hub := h }
     let mine (ok : Prop) (f : Part → Part) : Prop :=
       (ok ∧ part ≠ 0 ∧ (s.part? part).isSome = true → setting s which part v = some (s.modPart part f)) ∧
       (¬ (ok ∧ part ≠ 0 ∧ (s.part? part).isSome = true) → setting s which part v = none)
     (let t := coldState s b
      t.hub.boot = b ∧ t.mem = State.reset.mem ∧ t.core = State.reset.core ∧ t.task = State.reset.task ∧ t.eng = State.reset.eng ∧
      t.unit = s.unit ∧ t.hub.flash = s.hub.flash ∧ t.hub.rollback = s.hub.rollback ∧ t.par.parts = State.reset.par.parts ∧
      t.par.scrub = s.par.scrub) ∧
     (let t := bootRom s []
      (verifies s s.hub.flash = false → t.hub.boot = .https ∧ t.hub.nextRound = s.hub.ns) ∧
      (verifies s s.hub.flash = true → s.hub.noFlow = true → t.hub.boot = .dry) ∧
      (verifies s s.hub.flash = true → s.hub.noFlow = false → t.hub.boot = .running ∧ t.hub.service = true ∧
        t.hub.image = s.hub.flash ∧ t.hub.nextRound = s.hub.ns + 1000000 ∧
        (t.part? 0).map (fun p => (p.islands, p.slices, p.dispw, p.fabw, p.roots)) =
          some (s.unit.popmask.toNat, 0xFFF, 16, 255, []) ∧
        (∀ i, present s i = true → t.clk i = 0 ∧ ∀ j, j < 12 → (t.par.tokens.get? (i, j)).isSome = true) ∧
        ∀ e, e ∈ (allNodes.flatMap fun n => (List.range 24).map fun p => (⟨n, p⟩ : LinkEnd)) → joined t e = true →
          linkUp t e = true)) ∧
     (s.hub.boot ≠ .off → Occurs .resetIn s (bootRom (coldState s .rom) (badLinks s)) ∧
       Occurs .inputPowerLoss s { coldState s .off with hub := { (coldState s .off).hub with undervoltage := false } }) ∧
     (s.hub.boot = .off → exec .resetIn s = .refused (.notEnabled "RESET_IN") ∧
       exec .inputPowerLoss s = .refused (.notEnabled "INPUT_POWER_LOSS")) ∧
     ((s.hub.boot = .off ∨ s.hub.boot = .rom) → Occurs .coldBoot s (bootRom (coldState s .rom) (badLinks s))) ∧
     (s.hub.boot = .https → s.hub.nextRound ≤ s.hub.ns →
       (s.occ = .image (some img) → verifies s img = true →
         Occurs .httpsBootRetry s
           (startAnchor (logLine { s with hub := { s.hub with flash := img } } (.imageVerified img.version)) [])) ∧
       ((s.occ = .image none ∨ s.occ = .image (some img) ∧ verifies s img = false) → Occurs .httpsBootRetry s
         (logLine { s with hub := { s.hub with nextRound := s.hub.ns + 30000000000 } } .imageRejected))) ∧
     ((s.hub.boot ≠ .https ∨ s.hub.ns < s.hub.nextRound) → s.occ = .image none →
       exec .httpsBootRetry s = .refused (.notEnabled "HTTPS_BOOT_RETRY")) ∧
     (svc →
       (s.occ = .image (some img) →
         Asked .firmwareUpdate s none
           (if verifies s img then { s with hub := { s.hub with flash := img } } else refuse s 8)) ∧
       (s.occ = .image none →
         Asked .firmwareUpdate s none { s with hub := { s.hub with flash := ⟨0, false, 0⟩ } }) ∧
       Occurs .serviceFirmwareStop s { s with hub := { s.hub with service := false } } ∧
       (s.occ = .attest part nonce →
         ((s.part? part).isSome = true → Asked .attestationRequest s (some part)
           (sendHost s (.redfish part 16 ((attestation s part nonce).map (·.toNat))))) ∧
         (s.part? part = none → Asked .attestationRequest s (some part) (refuse s 9))) ∧
       (s.occ = .token part isl slice →
         (s.par.tokens.get? (isl, slice) = some tk → (part = 0 ∨ part = tk.partIn) →
           Asked .tokenFetch s (some part)
             (sendHost s (.redfish part 17 ((tokenBytes isl tk).map (·.toNat) ++ attCertificate s)))) ∧
         (s.par.tokens.get? (isl, slice) = some tk → part ≠ 0 → part ≠ tk.partIn → Asked .tokenFetch s (some part) (refuse s 9)) ∧
         (s.par.tokens.get? (isl, slice) = none → Asked .tokenFetch s (some part) (refuse s 9))) ∧
       (s.occ = .setting which part v → Asked .redfishSetting s none ((setting s which part v).getD (refuse s 10))) ∧
       (s.occ = .redfishRead which v →
         Asked .redfishSetting s (if which = 6 then some v else none)
           (((redfishRead s which v).map fun vs => sendHost s (.redfish 0 19 vs)).getD (refuse s 10)))) ∧
     (which = 0 → 700 ≤ v → v ≤ 960 → (s.hub.power.get? part).isSome = true →
       setting s which part v = hub { s.hub with power := s.hub.power.modify part fun p => { p with floor := v } }) ∧
     (which = 1 → v ≤ 23500 → setting s which part v = hub { s.hub with cap := v }) ∧
     (which = 2 → 2000000 ≤ v → v ≤ 100000000 → setting s which part v = hub { s.hub with respNs := v }) ∧
     (which = 3 → v ∈ [4000, 8000, 16000, 32000, 64000, 128000, 256000] → setting s which part v = hub { s.hub with blockNs := v }) ∧
     ((which = 0 ∧ (v < 700 ∨ 960 < v) ∨ which = 1 ∧ 23500 < v ∨ which = 2 ∧ (v < 2000000 ∨ 100000000 < v) ∨
       which = 3 ∧ v ∉ [4000, 8000, 16000, 32000, 64000, 128000, 256000] ∨ 8 ≤ which) → setting s which part v = none) ∧
     (which = 4 → mine (1 ≤ v ∧ v ≤ 255) fun p => { p with dispw := v }) ∧
     (which = 5 → mine (1 ≤ v ∧ v ≤ 255) fun p => { p with fabw := v }) ∧
     (which = 6 → mine (∃ j, 12 ≤ j ∧ j ≤ 20 ∧ v = 2 ^ j) fun p => { p with qcap := v }) ∧
     (which = 7 → setting s which part v =
       if 14 ≤ v ∧ v ≤ 27 ∧ (s.part? part).isSome = true then some (s.modPart part fun p => { p with agei := v }) else none) ∧
     (serviceUp s = false → exec .serviceFirmwareStop s = .refused (.notEnabled "SERVICE_FIRMWARE_STOP")) ∧
     (anchorUp s = true → s.hub.service = false →
       Occurs .serviceFirmwareRestarted s { s with hub := { s.hub with service := true } }) ∧
     (s.occ = .slot n → anchorUp s = true → s.fab.keys.get? n = some k →
       (n < 64 → k.old = none → Occurs .keyPhaseChange s { s with fab := { s.fab with
         keys := s.fab.keys.set n ⟨!k.phase, s.fab.nextEpoch, some k.cur⟩, nextEpoch := s.fab.nextEpoch + 1
         pctr := s.fab.pctr.drop fun x => x.2 = n } }) ∧
       (k.old ≠ none → exec .keyPhaseChange s = .refused (.notEnabled "KEY_PHASE_CHANGE") ∧ Occurs .keyPhaseRetire s
         { s with fab := { s.fab with keys := s.fab.keys.set n { k with old := none } } }) ∧
       (k.old = none → exec .keyPhaseRetire s = .refused (.notEnabled "KEY_PHASE_RETIRE"))))

/-- R197, R213, R214, R276: a line is written back from the island cache to HBM, no byte of memory changes, and the
watches on it are lost; an uncorrectable error poisons its place, or a cached copy is dropped, and it is reported; a
corrected one is counted for its structure. The model's choice: that an error comes before the check or after the access
of an operation, and the codes of its report (log entries 45 and 23). COMPLETION: for every state and operands that meet
the conditions written before it (those on the event and the state), the conclusion is that Sys2Proof.Machine.exec i s
answers a next state, for i = lineEviction, uncorrectableEccError, correctedEccError. -/
def Obligations.MemoryEvents : Prop :=
  ∀ (s : State) (isl line k : Nat) (l : Loc) (core sec kind : Nat),
    (s.occ = .line isl line → line < 2 ^ 31 → Gives (exec .lineEviction s) fun t =>
      (∀ i pa, pa < 2 ^ 39 → t.mem.byte i pa = s.mem.byte i pa) ∧
      (∀ i, i < 256 → t.mem.l2mark.get (gkey isl (line * 256 + i)) = 0 ∧
        t.mem.hbm.get (gkey isl (line * 256 + i)) = s.mem.byte isl (line * 256 + i)) ∧
      (∀ th r w, s.thread? th = some r → r.watch = some w → w.isl = isl → w.line = line →
        (t.thread? th).map (·.watch) = some (some { w with hit := true })) ∧
      t.core.vreg = s.core.vreg ∧ t.core.sreg = s.core.sreg) ∧
    (let u := poisonLoc s l
     (∀ x, x ∈ u.mem.poison ↔ x = l ∨ x ∈ s.mem.poison) ∧ (∀ i pa, u.mem.byte i pa = s.mem.byte i pa)) ∧
    (s.occ = .loc l → (checkedUse s l = false → Occurs .uncorrectableEccError s (report (poisonLoc s l) 0 6 l.report)) ∧
      (checkedUse s l = true → exec .uncorrectableEccError s = .refused (.notEnabled "UNCORRECTABLE_ECC_ERROR"))) ∧
    (let u := cachedError s isl core sec kind
     (∀ i pa, u.mem.byte i pa = s.mem.byte i pa) ∧
     (kind = 0 → (∀ w, w / 16 = sec → u.mem.l1.get? (isl, core, w) = none) ∧
       (l1Owned s isl core sec = true → Loc.global isl sec ∈ u.mem.poison) ∧
       (l1Owned s isl core sec = false → u.mem.poison = s.mem.poison)) ∧
     (kind = 1 → u.mem.ccache.get? (isl, core, sec) = none) ∧ (kind = 2 → u.mem.icache.get? (isl, core, sec) = none)) ∧
    (s.occ = .cached isl core sec kind →
      ((kind ≠ 0 ∨ l1Owned s isl core sec = false ∨ checkedUse s (.global isl sec) = false) →
        Occurs .uncorrectableEccError s (report (cachedError s isl core sec kind) 0 6 [cachedCode kind, isl, core, sec * 64])) ∧
      (kind = 0 → l1Owned s isl core sec = true → checkedUse s (.global isl sec) = true →
        exec .uncorrectableEccError s = .refused (.notEnabled "UNCORRECTABLE_ECC_ERROR"))) ∧
    (s.occ = .count k → Occurs .correctedEccError s
      { s with hub := { s.hub with corrected := s.hub.corrected.set k (s.hub.corrected.getD k 0 + 1) } })

/-- R24, R79, R88, R157 for what a cold reset leaves: no team, member or thread lives, no partition exists, no frame is
owned, nothing is in flight, the hub's time is zero and the boot ROM stands before its checks. That every byte of memory
reads zero and that the boot ROM has yet to act are the model's choices (log entries 3 and 6). -/
def Obligations.ResetState : Prop :=
  let s := State.reset
  s.hub.boot = .rom ∧ s.hub.ns = 0 ∧ s.hub.service = false ∧ s.focus = none ∧ s.sched = [] ∧
  (∀ isl n, s.team? isl n = none) ∧ (∀ m, s.member? m = none) ∧ (∀ th, s.thread? th = none) ∧
  (∀ isl pa, s.mem.byte isl pa = 0) ∧ (∀ key, s.mem.spad.get key = 0) ∧ s.core.ops = [] ∧
  (∀ p, s.par.parts.get? p = none) ∧ (∀ isl f, s.par.frames.get? (isl, f) = none) ∧
  s.fab.pkts = [] ∧ s.fab.txns = [] ∧ s.hub.cmds = [] ∧ s.eng.recs = [] ∧ s.task.teams = []

/-- R12: no step changes the manufacturing record, whatever the state; the model's own counter of free values only moves
on, so that no free value is drawn twice (log entry 2); and every byte memory is in its one form (log entry 6). -/
def Obligations.StepKeepsManufacture : Prop :=
  ∀ s t : State, step s = .next t → t.unit = s.unit ∧ s.free < t.free ∧
    ∀ m ∈ [t.mem.hbm, t.mem.l2, t.mem.l2mark, t.mem.spad], Memory.wf m.cells = true

/-- R298, R299, R315: a step executes the instruction that the slot's word decodes to; a word that is no instruction, or
a transfer of control before the last slot, is a precise trap with the cause and TVAL of R315, or, where the team's
watchdog has expired, its end (R187); an event that the schedule names takes place with its particulars. -/
def Obligations.StepRunsDecoded : Prop :=
  (∀ s u c, Runs s u c →
    let d := decode c.cls c.tm.hdr.vr c.word
    let traps (cause : Cause) (tval : W64) : Prop :=
      (c.tm.expired = false → c.canTrap → step s = .next (commit u (c.traps u cause tval c.addr))) ∧
      (c.tm.expired = true → step s = .next (commit u (endTeam u c.isl c.team 0x20 0)))
    (∀ i, d = .ok i → (isTransfer i = true → c.isLast = true) → step s = exec i u) ∧
    (∀ i, d = .ok i → isTransfer i = true → c.isLast = false → traps .illegalClause (BitVec.ofNat 64 c.addr)) ∧
    (d = .error .illegalOpcode → traps .illegalOpcode c.word) ∧
    (∀ b, d = .error (.reservedField b) → traps .reservedField (BitVec.ofNat 64 b)) ∧
    (∀ f b, d = .error (.operandRange f b) → traps .operandRange (BitVec.ofNat 64 (f * 2 ^ 12 + b)))) ∧
  ∀ s i o cs, s.sched = .event i o :: cs → encodeRaw i = none → step s = exec i { s with sched := cs, occ := o, cred := .system }

/-- R301 to R315: words that chapters 12 to 16 give with their instructions decode to them: an addition and a load, an
addition with carry, a comparison, a branch, a fused multiply-add, a conversion, a scan, a store of packed elements, an
atomic, a remote store, matrix instructions of a strand and of a gaffer, a move from an accumulator, a safe point and a
software trap; a word of zeros, which is no instruction's (chapter 13), is refused. -/
def Obligations.DecodeWords : Prop :=
  let g (p : Nat) : Guard := ⟨false, p⟩
  let h (d : Nat) : Head := ⟨g 7, g 7, false, d⟩
  let reads (cls : Cls) (w : W64) (i : Instr) : Prop := decode cls 1024 w = .ok i
  reads .strand 0x203B801001C01600 (.iaddVector (h 1) .n32 false (.vreg 1) (.imm 1)) ∧
  reads .strand 0xB03B8014BF000600 (.ldVector (h 1) .n32 .plain false 0 (.sreg 191) (.vreg 0)) ∧
  reads .strand 0x213B8050010036EA (.iaddcVector (h 5) .n32 7 true 2 (.vreg 1) (.vreg 3)) ∧
  reads .strand 0x273B801002808601 (.icmpVector (h 1) .n32 .ne (.vreg 2) (.konst .zero)) ∧
  reads .strand 0x010B800000FFFFFC (.br ⟨g 1, g 7, false, 0⟩ 0xFFFFFC) ∧
  reads .strand 0x61BB805001002003 (.ffmaVector (h 5) (.vreg 1) (.vreg 2) (.vreg 3)) ∧
  reads .strand 0x65BB806005000B18 (.fcvtVector (h 6) .e4m3 .rne true .f32 (.vreg 5)) ∧
  reads .strand 0xA18B802001000600 (.scan ⟨g 1, g 7, false, 2⟩ .n32 .rne .add false (.vreg 1)) ∧
  reads .strand 0xB3BB805404002D00 (.stsbElementVector (h 5) .e3m2 .plain 0 (.sreg 4) (.vreg 2)) ∧
  reads .strand 0xB4BB803406809641 (.atomVector (h 3) .n32 .acq .add 1 (.sreg 6) (.konst .one)) ∧
  reads .strand 0xD03B801408002613 (.put (h 1) .n32 (some 3) (.sreg 8) (.vreg 2)) ∧
  reads .strand 0xE03B804414415408 (.mma (h 4) (.sreg 20) (.sreg 21) (.sreg 8)) ∧
  reads .gaffer 0xE03B804014015008 (.mma (h 4) (.greg 20) (.greg 21) (.greg 8)) ∧
  reads .strand 0xE5BB808C04000002 (.amld (h 8) 2 (.imm 4)) ∧
  reads .strand 0x083B800000000007 (.safept (h 0) 7) ∧
  reads .strand 0x05BB800C2A000000 (.trap (h 0) (.imm 42)) ∧
  decode .strand 1024 0 = .error .illegalOpcode

/-- R301 to R315 and the encoding tables of chapters 13 to 16: every well-formed instruction of a class of code, with
every operand at every value its encoding admits, has a word, and that word decodes to it. -/
def Obligations.DecodeEncode : Prop :=
  ∀ (cls : Cls) (vr : Nat) (i : Instr), vr ≤ 1024 → i.WellFormed cls vr →
    ∃ w, encode i = some w ∧ decode cls vr w = .ok i

/-- Every instruction that has a word answers a next state whenever a thread is in issue: it executes, waits, takes a
trap or ends its team, and never stops the machine. -/
def Obligations.EveryInstructionAnswers : Prop :=
  ∀ (i : Instr) (s : State), (encodeRaw i).isSome = true → (issue? s).isSome = true → ∃ t, exec i s = .next (commit s t)

/-- R247, R248, R250: where a conversion to a floating-point format does not overflow, its result is the representable
number that the mode names: the nearest, ties going to an even significand or away from zero, or the nearest on the side
that the mode rounds to; NX tells whether it differs from the exact value. -/
def Obligations.RoundingIsCorrect : Prop :=
  ∀ (ty : Ty) (rnd : Rnd) (neg : Bool) (m : Nat) (e : Int),
    let r := ty.fmt.round rnd false neg m e
    let v := magnitude m e
    r.2.testBit 2 = false →
      ∃ mr er, ty.fmt.val r.1 = .num neg mr er ∧
        let w := magnitude mr er
        (r.2.testBit 0 = true ↔ w ≠ v) ∧
        ∀ y my ey, ty.fmt.val y = .num neg my ey →
          let u := magnitude my ey
          match rnd with
          | .rne => |w - v| ≤ |u - v| ∧ (|u - v| = |w - v| → u ≠ w → r.1 % 2 = 0)
          | .rmm => |w - v| ≤ |u - v| ∧ (|u - v| = |w - v| → u ≤ w)
          | .rtz => w ≤ v ∧ (u ≤ v → u ≤ w)
          | .rdn => if neg then v ≤ w ∧ (v ≤ u → w ≤ u) else w ≤ v ∧ (u ≤ v → u ≤ w)
          | .rup => if neg then w ≤ v ∧ (u ≤ v → u ≤ w) else v ≤ w ∧ (v ≤ u → w ≤ u)
end

