-- ==== Sys2Proof/Laws/Exec.lean ====
section
/-! SUPPORT. The meaning that each instruction has, by name. -/

namespace Sys2Proof.Machine

open Sys2Proof

theorem exec_iaddVector (h : Head) (ty : Ty) (sat : Bool) (a : Src) (b : Src) (s : State) :
    exec (.iaddVector h ty sat a b) s = execIaddVector h ty sat a b s := rfl
theorem exec_iaddScalar (h : Head) (ty : Ty) (sat : Bool) (a : Src) (b : Src) (s : State) :
    exec (.iaddScalar h ty sat a b) s = execIaddScalar h ty sat a b s := rfl
theorem exec_isubVector (h : Head) (ty : Ty) (sat : Bool) (a : Src) (b : Src) (s : State) :
    exec (.isubVector h ty sat a b) s = execIsubVector h ty sat a b s := rfl
theorem exec_isubScalar (h : Head) (ty : Ty) (sat : Bool) (a : Src) (b : Src) (s : State) :
    exec (.isubScalar h ty sat a b) s = execIsubScalar h ty sat a b s := rfl
theorem exec_iaddcVector (h : Head) (ty : Ty) (co : Nat) (cie : Bool) (ci : Nat) (a : Src) (b : Src) (s : State) :
    exec (.iaddcVector h ty co cie ci a b) s = execIaddcVector h ty co cie ci a b s := rfl
theorem exec_iaddcScalar (h : Head) (ty : Ty) (co : Nat) (cie : Bool) (ci : Nat) (a : Src) (b : Src) (s : State) :
    exec (.iaddcScalar h ty co cie ci a b) s = execIaddcScalar h ty co cie ci a b s := rfl
theorem exec_inegVector (h : Head) (ty : Ty) (sat : Bool) (a : Src) (s : State) :
    exec (.inegVector h ty sat a) s = execInegVector h ty sat a s := rfl
theorem exec_inegScalar (h : Head) (ty : Ty) (sat : Bool) (a : Src) (s : State) :
    exec (.inegScalar h ty sat a) s = execInegScalar h ty sat a s := rfl
theorem exec_imulVector (h : Head) (ty : Ty) (a : Src) (b : Src) (s : State) :
    exec (.imulVector h ty a b) s = execImulVector h ty a b s := rfl
theorem exec_imulScalar (h : Head) (ty : Ty) (a : Src) (b : Src) (s : State) :
    exec (.imulScalar h ty a b) s = execImulScalar h ty a b s := rfl
theorem exec_imulhVector (h : Head) (ty : Ty) (a : Src) (b : Src) (s : State) :
    exec (.imulhVector h ty a b) s = execImulhVector h ty a b s := rfl
theorem exec_imulhScalar (h : Head) (ty : Ty) (a : Src) (b : Src) (s : State) :
    exec (.imulhScalar h ty a b) s = execImulhScalar h ty a b s := rfl
theorem exec_imadVector (h : Head) (a : Src) (b : Src) (c : Src) (s : State) :
    exec (.imadVector h a b c) s = execImadVector h a b c s := rfl
theorem exec_imadScalar (h : Head) (a : Src) (b : Src) (c : Src) (s : State) :
    exec (.imadScalar h a b c) s = execImadScalar h a b c s := rfl
theorem exec_imadwI32Vector (h : Head) (a : Src) (b : Src) (c : Src) (s : State) :
    exec (.imadwI32Vector h a b c) s = execImadwI32Vector h a b c s := rfl
theorem exec_imadwI32Scalar (h : Head) (a : Src) (b : Src) (c : Src) (s : State) :
    exec (.imadwI32Scalar h a b c) s = execImadwI32Scalar h a b c s := rfl
theorem exec_imadwN32Vector (h : Head) (a : Src) (b : Src) (c : Src) (s : State) :
    exec (.imadwN32Vector h a b c) s = execImadwN32Vector h a b c s := rfl
theorem exec_imadwN32Scalar (h : Head) (a : Src) (b : Src) (c : Src) (s : State) :
    exec (.imadwN32Scalar h a b c) s = execImadwN32Scalar h a b c s := rfl
theorem exec_idivVector (h : Head) (ty : Ty) (a : Src) (b : Src) (s : State) :
    exec (.idivVector h ty a b) s = execIdivVector h ty a b s := rfl
theorem exec_idivScalar (h : Head) (ty : Ty) (a : Src) (b : Src) (s : State) :
    exec (.idivScalar h ty a b) s = execIdivScalar h ty a b s := rfl
theorem exec_iremVector (h : Head) (ty : Ty) (a : Src) (b : Src) (s : State) :
    exec (.iremVector h ty a b) s = execIremVector h ty a b s := rfl
theorem exec_iremScalar (h : Head) (ty : Ty) (a : Src) (b : Src) (s : State) :
    exec (.iremScalar h ty a b) s = execIremScalar h ty a b s := rfl
theorem exec_iminVector (h : Head) (ty : Ty) (a : Src) (b : Src) (s : State) :
    exec (.iminVector h ty a b) s = execIminVector h ty a b s := rfl
theorem exec_iminScalar (h : Head) (ty : Ty) (a : Src) (b : Src) (s : State) :
    exec (.iminScalar h ty a b) s = execIminScalar h ty a b s := rfl
theorem exec_imaxVector (h : Head) (ty : Ty) (a : Src) (b : Src) (s : State) :
    exec (.imaxVector h ty a b) s = execImaxVector h ty a b s := rfl
theorem exec_imaxScalar (h : Head) (ty : Ty) (a : Src) (b : Src) (s : State) :
    exec (.imaxScalar h ty a b) s = execImaxScalar h ty a b s := rfl
theorem exec_iabsVector (h : Head) (ty : Ty) (sat : Bool) (a : Src) (s : State) :
    exec (.iabsVector h ty sat a) s = execIabsVector h ty sat a s := rfl
theorem exec_iabsScalar (h : Head) (ty : Ty) (sat : Bool) (a : Src) (s : State) :
    exec (.iabsScalar h ty sat a) s = execIabsScalar h ty sat a s := rfl
theorem exec_icmpVector (h : Head) (ty : Ty) (cond : Cond) (a : Src) (b : Src) (s : State) :
    exec (.icmpVector h ty cond a b) s = execIcmpVector h ty cond a b s := rfl
theorem exec_icmpScalar (h : Head) (ty : Ty) (cond : Cond) (a : Src) (b : Src) (s : State) :
    exec (.icmpScalar h ty cond a b) s = execIcmpScalar h ty cond a b s := rfl
theorem exec_selVector (h : Head) (ty : Ty) (pr : Nat) (neg : Bool) (a : Src) (b : Src) (s : State) :
    exec (.selVector h ty pr neg a b) s = execSelVector h ty pr neg a b s := rfl
theorem exec_selScalar (h : Head) (ty : Ty) (pr : Nat) (neg : Bool) (a : Src) (b : Src) (s : State) :
    exec (.selScalar h ty pr neg a b) s = execSelScalar h ty pr neg a b s := rfl
theorem exec_movVector (h : Head) (ty : Ty) (a : Src) (s : State) :
    exec (.movVector h ty a) s = execMovVector h ty a s := rfl
theorem exec_movScalar (h : Head) (ty : Ty) (a : Src) (s : State) :
    exec (.movScalar h ty a) s = execMovScalar h ty a s := rfl
theorem exec_moviVector (h : Head) (w : BitVec 24) (s : State) :
    exec (.moviVector h w) s = execMoviVector h w s := rfl
theorem exec_moviScalar (h : Head) (w : BitVec 24) (s : State) :
    exec (.moviScalar h w) s = execMoviScalar h w s := rfl
theorem exec_movhVector (h : Head) (q : Nat) (w : BitVec 16) (a : Src) (s : State) :
    exec (.movhVector h q w a) s = execMovhVector h q w a s := rfl
theorem exec_movhScalar (h : Head) (q : Nat) (w : BitVec 16) (a : Src) (s : State) :
    exec (.movhScalar h q w a) s = execMovhScalar h q w a s := rfl
theorem exec_andVector (h : Head) (ty : Ty) (a : Src) (b : Src) (s : State) :
    exec (.andVector h ty a b) s = execAndVector h ty a b s := rfl
theorem exec_andScalar (h : Head) (ty : Ty) (a : Src) (b : Src) (s : State) :
    exec (.andScalar h ty a b) s = execAndScalar h ty a b s := rfl
theorem exec_orVector (h : Head) (ty : Ty) (a : Src) (b : Src) (s : State) :
    exec (.orVector h ty a b) s = execOrVector h ty a b s := rfl
theorem exec_orScalar (h : Head) (ty : Ty) (a : Src) (b : Src) (s : State) :
    exec (.orScalar h ty a b) s = execOrScalar h ty a b s := rfl
theorem exec_xorVector (h : Head) (ty : Ty) (a : Src) (b : Src) (s : State) :
    exec (.xorVector h ty a b) s = execXorVector h ty a b s := rfl
theorem exec_xorScalar (h : Head) (ty : Ty) (a : Src) (b : Src) (s : State) :
    exec (.xorScalar h ty a b) s = execXorScalar h ty a b s := rfl
theorem exec_andnVector (h : Head) (ty : Ty) (a : Src) (b : Src) (s : State) :
    exec (.andnVector h ty a b) s = execAndnVector h ty a b s := rfl
theorem exec_andnScalar (h : Head) (ty : Ty) (a : Src) (b : Src) (s : State) :
    exec (.andnScalar h ty a b) s = execAndnScalar h ty a b s := rfl
theorem exec_shlVector (h : Head) (ty : Ty) (a : Src) (b : Src) (s : State) :
    exec (.shlVector h ty a b) s = execShlVector h ty a b s := rfl
theorem exec_shlScalar (h : Head) (ty : Ty) (a : Src) (b : Src) (s : State) :
    exec (.shlScalar h ty a b) s = execShlScalar h ty a b s := rfl
theorem exec_shrVector (h : Head) (ty : Ty) (a : Src) (b : Src) (s : State) :
    exec (.shrVector h ty a b) s = execShrVector h ty a b s := rfl
theorem exec_shrScalar (h : Head) (ty : Ty) (a : Src) (b : Src) (s : State) :
    exec (.shrScalar h ty a b) s = execShrScalar h ty a b s := rfl
theorem exec_sarVector (h : Head) (ty : Ty) (a : Src) (b : Src) (s : State) :
    exec (.sarVector h ty a b) s = execSarVector h ty a b s := rfl
theorem exec_sarScalar (h : Head) (ty : Ty) (a : Src) (b : Src) (s : State) :
    exec (.sarScalar h ty a b) s = execSarScalar h ty a b s := rfl
theorem exec_shfVector (h : Head) (a : Src) (b : Src) (c : Src) (s : State) :
    exec (.shfVector h a b c) s = execShfVector h a b c s := rfl
theorem exec_shfScalar (h : Head) (a : Src) (b : Src) (c : Src) (s : State) :
    exec (.shfScalar h a b c) s = execShfScalar h a b c s := rfl
theorem exec_bfxVector (h : Head) (ty : Ty) (a : Src) (b : Src) (s : State) :
    exec (.bfxVector h ty a b) s = execBfxVector h ty a b s := rfl
theorem exec_bfxScalar (h : Head) (ty : Ty) (a : Src) (b : Src) (s : State) :
    exec (.bfxScalar h ty a b) s = execBfxScalar h ty a b s := rfl
theorem exec_bfiVector (h : Head) (a : Src) (b : Src) (c : Src) (s : State) :
    exec (.bfiVector h a b c) s = execBfiVector h a b c s := rfl
theorem exec_bfiScalar (h : Head) (a : Src) (b : Src) (c : Src) (s : State) :
    exec (.bfiScalar h a b c) s = execBfiScalar h a b c s := rfl
theorem exec_popcVector (h : Head) (ty : Ty) (a : Src) (s : State) :
    exec (.popcVector h ty a) s = execPopcVector h ty a s := rfl
theorem exec_popcScalar (h : Head) (ty : Ty) (a : Src) (s : State) :
    exec (.popcScalar h ty a) s = execPopcScalar h ty a s := rfl
theorem exec_clzVector (h : Head) (ty : Ty) (a : Src) (s : State) :
    exec (.clzVector h ty a) s = execClzVector h ty a s := rfl
theorem exec_clzScalar (h : Head) (ty : Ty) (a : Src) (s : State) :
    exec (.clzScalar h ty a) s = execClzScalar h ty a s := rfl
theorem exec_brevVector (h : Head) (ty : Ty) (a : Src) (s : State) :
    exec (.brevVector h ty a) s = execBrevVector h ty a s := rfl
theorem exec_brevScalar (h : Head) (ty : Ty) (a : Src) (s : State) :
    exec (.brevScalar h ty a) s = execBrevScalar h ty a s := rfl
theorem exec_permVector (h : Head) (a : Src) (b : Src) (c : Src) (s : State) :
    exec (.permVector h a b c) s = execPermVector h a b c s := rfl
theorem exec_permScalar (h : Head) (a : Src) (b : Src) (c : Src) (s : State) :
    exec (.permScalar h a b c) s = execPermScalar h a b c s := rfl
theorem exec_leaVector (h : Head) (ty : Ty) (sh : Nat) (a : Src) (b : Src) (s : State) :
    exec (.leaVector h ty sh a b) s = execLeaVector h ty sh a b s := rfl
theorem exec_leaScalar (h : Head) (ty : Ty) (sh : Nat) (a : Src) (b : Src) (s : State) :
    exec (.leaScalar h ty sh a b) s = execLeaScalar h ty sh a b s := rfl
theorem exec_sxtVector (h : Head) (ty : Ty) (w64 : Bool) (a : Src) (s : State) :
    exec (.sxtVector h ty w64 a) s = execSxtVector h ty w64 a s := rfl
theorem exec_sxtScalar (h : Head) (ty : Ty) (w64 : Bool) (a : Src) (s : State) :
    exec (.sxtScalar h ty w64 a) s = execSxtScalar h ty w64 a s := rfl
theorem exec_plopVector (h : Head) (pa : Nat) (pb : Nat) (pc : Nat) (lut : BitVec 8) (s : State) :
    exec (.plopVector h pa pb pc lut) s = execPlopVector h pa pb pc lut s := rfl
theorem exec_plopScalar (h : Head) (pa : Nat) (pb : Nat) (pc : Nat) (lut : BitVec 8) (s : State) :
    exec (.plopScalar h pa pb pc lut) s = execPlopScalar h pa pb pc lut s := rfl
theorem exec_p2vVector (h : Head) (mask : BitVec 8) (s : State) :
    exec (.p2vVector h mask) s = execP2vVector h mask s := rfl
theorem exec_p2vScalar (h : Head) (mask : BitVec 8) (s : State) :
    exec (.p2vScalar h mask) s = execP2vScalar h mask s := rfl
theorem exec_v2pVector (h : Head) (n : Nat) (a : Src) (s : State) :
    exec (.v2pVector h n a) s = execV2pVector h n a s := rfl
theorem exec_v2pScalar (h : Head) (n : Nat) (a : Src) (s : State) :
    exec (.v2pScalar h n a) s = execV2pScalar h n a s := rfl
theorem exec_faddVector (h : Head) (ty : Ty) (rnd : Rnd) (a : Src) (b : Src) (s : State) :
    exec (.faddVector h ty rnd a b) s = execFaddVector h ty rnd a b s := rfl
theorem exec_faddScalar (h : Head) (ty : Ty) (rnd : Rnd) (a : Src) (b : Src) (s : State) :
    exec (.faddScalar h ty rnd a b) s = execFaddScalar h ty rnd a b s := rfl
theorem exec_fsubVector (h : Head) (ty : Ty) (rnd : Rnd) (a : Src) (b : Src) (s : State) :
    exec (.fsubVector h ty rnd a b) s = execFsubVector h ty rnd a b s := rfl
theorem exec_fsubScalar (h : Head) (ty : Ty) (rnd : Rnd) (a : Src) (b : Src) (s : State) :
    exec (.fsubScalar h ty rnd a b) s = execFsubScalar h ty rnd a b s := rfl
theorem exec_fmulVector (h : Head) (ty : Ty) (rnd : Rnd) (a : Src) (b : Src) (s : State) :
    exec (.fmulVector h ty rnd a b) s = execFmulVector h ty rnd a b s := rfl
theorem exec_fmulScalar (h : Head) (ty : Ty) (rnd : Rnd) (a : Src) (b : Src) (s : State) :
    exec (.fmulScalar h ty rnd a b) s = execFmulScalar h ty rnd a b s := rfl
theorem exec_ffmaVector (h : Head) (a : Src) (b : Src) (c : Src) (s : State) :
    exec (.ffmaVector h a b c) s = execFfmaVector h a b c s := rfl
theorem exec_ffmaScalar (h : Head) (a : Src) (b : Src) (c : Src) (s : State) :
    exec (.ffmaScalar h a b c) s = execFfmaScalar h a b c s := rfl
theorem exec_fminVector (h : Head) (ty : Ty) (a : Src) (b : Src) (s : State) :
    exec (.fminVector h ty a b) s = execFminVector h ty a b s := rfl
theorem exec_fminScalar (h : Head) (ty : Ty) (a : Src) (b : Src) (s : State) :
    exec (.fminScalar h ty a b) s = execFminScalar h ty a b s := rfl
theorem exec_fmaxVector (h : Head) (ty : Ty) (a : Src) (b : Src) (s : State) :
    exec (.fmaxVector h ty a b) s = execFmaxVector h ty a b s := rfl
theorem exec_fmaxScalar (h : Head) (ty : Ty) (a : Src) (b : Src) (s : State) :
    exec (.fmaxScalar h ty a b) s = execFmaxScalar h ty a b s := rfl
theorem exec_fabsVector (h : Head) (ty : Ty) (a : Src) (s : State) :
    exec (.fabsVector h ty a) s = execFabsVector h ty a s := rfl
theorem exec_fabsScalar (h : Head) (ty : Ty) (a : Src) (s : State) :
    exec (.fabsScalar h ty a) s = execFabsScalar h ty a s := rfl
theorem exec_fnegVector (h : Head) (ty : Ty) (a : Src) (s : State) :
    exec (.fnegVector h ty a) s = execFnegVector h ty a s := rfl
theorem exec_fnegScalar (h : Head) (ty : Ty) (a : Src) (s : State) :
    exec (.fnegScalar h ty a) s = execFnegScalar h ty a s := rfl
theorem exec_fcmpVector (h : Head) (ty : Ty) (cond : Cond) (a : Src) (b : Src) (s : State) :
    exec (.fcmpVector h ty cond a b) s = execFcmpVector h ty cond a b s := rfl
theorem exec_fcmpScalar (h : Head) (ty : Ty) (cond : Cond) (a : Src) (b : Src) (s : State) :
    exec (.fcmpScalar h ty cond a b) s = execFcmpScalar h ty cond a b s := rfl
theorem exec_fclassVector (h : Head) (ty : Ty) (test : Option ClassTest) (a : Src) (s : State) :
    exec (.fclassVector h ty test a) s = execFclassVector h ty test a s := rfl
theorem exec_fclassScalar (h : Head) (ty : Ty) (test : Option ClassTest) (a : Src) (s : State) :
    exec (.fclassScalar h ty test a) s = execFclassScalar h ty test a s := rfl
theorem exec_frndVector (h : Head) (ty : Ty) (rnd : Rnd) (a : Src) (s : State) :
    exec (.frndVector h ty rnd a) s = execFrndVector h ty rnd a s := rfl
theorem exec_frndScalar (h : Head) (ty : Ty) (rnd : Rnd) (a : Src) (s : State) :
    exec (.frndScalar h ty rnd a) s = execFrndScalar h ty rnd a s := rfl
theorem exec_fcvtVector (h : Head) (ty : Ty) (rnd : Rnd) (sat : Bool) (src : Ty) (a : Src) (s : State) :
    exec (.fcvtVector h ty rnd sat src a) s = execFcvtVector h ty rnd sat src a s := rfl
theorem exec_fcvtScalar (h : Head) (ty : Ty) (rnd : Rnd) (sat : Bool) (src : Ty) (a : Src) (s : State) :
    exec (.fcvtScalar h ty rnd sat src a) s = execFcvtScalar h ty rnd sat src a s := rfl
theorem exec_f2iVector (h : Head) (ty : Ty) (rnd : Rnd) (src : Ty) (a : Src) (s : State) :
    exec (.f2iVector h ty rnd src a) s = execF2iVector h ty rnd src a s := rfl
theorem exec_f2iScalar (h : Head) (ty : Ty) (rnd : Rnd) (src : Ty) (a : Src) (s : State) :
    exec (.f2iScalar h ty rnd src a) s = execF2iScalar h ty rnd src a s := rfl
theorem exec_i2fVector (h : Head) (ty : Ty) (rnd : Rnd) (src : Ty) (a : Src) (s : State) :
    exec (.i2fVector h ty rnd src a) s = execI2fVector h ty rnd src a s := rfl
theorem exec_i2fScalar (h : Head) (ty : Ty) (rnd : Rnd) (src : Ty) (a : Src) (s : State) :
    exec (.i2fScalar h ty rnd src a) s = execI2fScalar h ty rnd src a s := rfl
theorem exec_fscaleVector (h : Head) (ty : Ty) (rnd : Rnd) (a : Src) (b : Src) (s : State) :
    exec (.fscaleVector h ty rnd a b) s = execFscaleVector h ty rnd a b s := rfl
theorem exec_fscaleScalar (h : Head) (ty : Ty) (rnd : Rnd) (a : Src) (b : Src) (s : State) :
    exec (.fscaleScalar h ty rnd a b) s = execFscaleScalar h ty rnd a b s := rfl
theorem exec_fgetexpVector (h : Head) (ty : Ty) (a : Src) (s : State) :
    exec (.fgetexpVector h ty a) s = execFgetexpVector h ty a s := rfl
theorem exec_fgetexpScalar (h : Head) (ty : Ty) (a : Src) (s : State) :
    exec (.fgetexpScalar h ty a) s = execFgetexpScalar h ty a s := rfl
theorem exec_frcpVector (h : Head) (ty : Ty) (rnd : Rnd) (a : Src) (s : State) :
    exec (.frcpVector h ty rnd a) s = execFrcpVector h ty rnd a s := rfl
theorem exec_frcpScalar (h : Head) (ty : Ty) (rnd : Rnd) (a : Src) (s : State) :
    exec (.frcpScalar h ty rnd a) s = execFrcpScalar h ty rnd a s := rfl
theorem exec_frsqVector (h : Head) (ty : Ty) (a : Src) (s : State) :
    exec (.frsqVector h ty a) s = execFrsqVector h ty a s := rfl
theorem exec_frsqScalar (h : Head) (ty : Ty) (a : Src) (s : State) :
    exec (.frsqScalar h ty a) s = execFrsqScalar h ty a s := rfl
theorem exec_fsqrtVector (h : Head) (ty : Ty) (rnd : Rnd) (a : Src) (s : State) :
    exec (.fsqrtVector h ty rnd a) s = execFsqrtVector h ty rnd a s := rfl
theorem exec_fsqrtScalar (h : Head) (ty : Ty) (rnd : Rnd) (a : Src) (s : State) :
    exec (.fsqrtScalar h ty rnd a) s = execFsqrtScalar h ty rnd a s := rfl
theorem exec_fdivVector (h : Head) (ty : Ty) (rnd : Rnd) (a : Src) (b : Src) (s : State) :
    exec (.fdivVector h ty rnd a b) s = execFdivVector h ty rnd a b s := rfl
theorem exec_fdivScalar (h : Head) (ty : Ty) (rnd : Rnd) (a : Src) (b : Src) (s : State) :
    exec (.fdivScalar h ty rnd a b) s = execFdivScalar h ty rnd a b s := rfl
theorem exec_fexp2Vector (h : Head) (ty : Ty) (a : Src) (s : State) :
    exec (.fexp2Vector h ty a) s = execFexp2Vector h ty a s := rfl
theorem exec_fexp2Scalar (h : Head) (ty : Ty) (a : Src) (s : State) :
    exec (.fexp2Scalar h ty a) s = execFexp2Scalar h ty a s := rfl
theorem exec_flog2Vector (h : Head) (ty : Ty) (a : Src) (s : State) :
    exec (.flog2Vector h ty a) s = execFlog2Vector h ty a s := rfl
theorem exec_flog2Scalar (h : Head) (ty : Ty) (a : Src) (s : State) :
    exec (.flog2Scalar h ty a) s = execFlog2Scalar h ty a s := rfl
theorem exec_fsinVector (h : Head) (ty : Ty) (a : Src) (s : State) :
    exec (.fsinVector h ty a) s = execFsinVector h ty a s := rfl
theorem exec_fsinScalar (h : Head) (ty : Ty) (a : Src) (s : State) :
    exec (.fsinScalar h ty a) s = execFsinScalar h ty a s := rfl
theorem exec_fcosVector (h : Head) (ty : Ty) (a : Src) (s : State) :
    exec (.fcosVector h ty a) s = execFcosVector h ty a s := rfl
theorem exec_fcosScalar (h : Head) (ty : Ty) (a : Src) (s : State) :
    exec (.fcosScalar h ty a) s = execFcosScalar h ty a s := rfl
theorem exec_ftanhVector (h : Head) (ty : Ty) (a : Src) (s : State) :
    exec (.ftanhVector h ty a) s = execFtanhVector h ty a s := rfl
theorem exec_ftanhScalar (h : Head) (ty : Ty) (a : Src) (s : State) :
    exec (.ftanhScalar h ty a) s = execFtanhScalar h ty a s := rfl
theorem exec_hadd2Vector (h : Head) (ty : Ty) (rnd : Rnd) (negb : Bool) (a : Src) (b : Src) (s : State) :
    exec (.hadd2Vector h ty rnd negb a b) s = execHadd2Vector h ty rnd negb a b s := rfl
theorem exec_hadd2Scalar (h : Head) (ty : Ty) (rnd : Rnd) (negb : Bool) (a : Src) (b : Src) (s : State) :
    exec (.hadd2Scalar h ty rnd negb a b) s = execHadd2Scalar h ty rnd negb a b s := rfl
theorem exec_hmul2Vector (h : Head) (ty : Ty) (rnd : Rnd) (a : Src) (b : Src) (s : State) :
    exec (.hmul2Vector h ty rnd a b) s = execHmul2Vector h ty rnd a b s := rfl
theorem exec_hmul2Scalar (h : Head) (ty : Ty) (rnd : Rnd) (a : Src) (b : Src) (s : State) :
    exec (.hmul2Scalar h ty rnd a b) s = execHmul2Scalar h ty rnd a b s := rfl
theorem exec_hfma2F16Vector (h : Head) (a : Src) (b : Src) (c : Src) (s : State) :
    exec (.hfma2F16Vector h a b c) s = execHfma2F16Vector h a b c s := rfl
theorem exec_hfma2F16Scalar (h : Head) (a : Src) (b : Src) (c : Src) (s : State) :
    exec (.hfma2F16Scalar h a b c) s = execHfma2F16Scalar h a b c s := rfl
theorem exec_hfma2Bf16Vector (h : Head) (a : Src) (b : Src) (c : Src) (s : State) :
    exec (.hfma2Bf16Vector h a b c) s = execHfma2Bf16Vector h a b c s := rfl
theorem exec_hfma2Bf16Scalar (h : Head) (a : Src) (b : Src) (c : Src) (s : State) :
    exec (.hfma2Bf16Scalar h a b c) s = execHfma2Bf16Scalar h a b c s := rfl
theorem exec_hmin2Vector (h : Head) (ty : Ty) (a : Src) (b : Src) (s : State) :
    exec (.hmin2Vector h ty a b) s = execHmin2Vector h ty a b s := rfl
theorem exec_hmin2Scalar (h : Head) (ty : Ty) (a : Src) (b : Src) (s : State) :
    exec (.hmin2Scalar h ty a b) s = execHmin2Scalar h ty a b s := rfl
theorem exec_hmax2Vector (h : Head) (ty : Ty) (a : Src) (b : Src) (s : State) :
    exec (.hmax2Vector h ty a b) s = execHmax2Vector h ty a b s := rfl
theorem exec_hmax2Scalar (h : Head) (ty : Ty) (a : Src) (b : Src) (s : State) :
    exec (.hmax2Scalar h ty a b) s = execHmax2Scalar h ty a b s := rfl
theorem exec_rnencVector (h : Head) (sat : Bool) (a : Src) (s : State) :
    exec (.rnencVector h sat a) s = execRnencVector h sat a s := rfl
theorem exec_rnencScalar (h : Head) (sat : Bool) (a : Src) (s : State) :
    exec (.rnencScalar h sat a) s = execRnencScalar h sat a s := rfl
theorem exec_rndecVector (h : Head) (a : Src) (s : State) :
    exec (.rndecVector h a) s = execRndecVector h a s := rfl
theorem exec_rndecScalar (h : Head) (a : Src) (s : State) :
    exec (.rndecScalar h a) s = execRndecScalar h a s := rfl
theorem exec_vote (h : Head) (mode : VoteMode) (neg : Bool) (pa : Nat) (s : State) :
    exec (.vote h mode neg pa) s = execVote h mode neg pa s := rfl
theorem exec_shfl (h : Head) (ty : Ty) (mode : ShflMode) (lg : Nat) (a : Src) (b : Src) (s : State) :
    exec (.shfl h ty mode lg a b) s = execShfl h ty mode lg a b s := rfl
theorem exec_redux (h : Head) (ty : Ty) (rnd : Rnd) (op : AOp) (a : Src) (s : State) :
    exec (.redux h ty rnd op a) s = execRedux h ty rnd op a s := rfl
theorem exec_scan (h : Head) (ty : Ty) (rnd : Rnd) (op : AOp) (excl : Bool) (a : Src) (s : State) :
    exec (.scan h ty rnd op excl a) s = execScan h ty rnd op excl a s := rfl
theorem exec_match (h : Head) (ty : Ty) (a : Src) (s : State) :
    exec (.match h ty a) s = execMatch h ty a s := rfl
theorem exec_ldVector (h : Head) (ty : Ty) (ord : Ord) (x2 : Bool) (ofs : Nat) (a : Src) (b : Src) (s : State) :
    exec (.ldVector h ty ord x2 ofs a b) s = execLdVector h ty ord x2 ofs a b s := rfl
theorem exec_ldScalar (h : Head) (ty : Ty) (ord : Ord) (x2 : Bool) (ofs : Nat) (a : Src) (b : Src) (s : State) :
    exec (.ldScalar h ty ord x2 ofs a b) s = execLdScalar h ty ord x2 ofs a b s := rfl
theorem exec_stVector (h : Head) (ty : Ty) (ord : Ord) (x2 : Bool) (ofs : Nat) (a : Src) (b : Src) (s : State) :
    exec (.stVector h ty ord x2 ofs a b) s = execStVector h ty ord x2 ofs a b s := rfl
theorem exec_stScalar (h : Head) (ty : Ty) (ord : Ord) (x2 : Bool) (ofs : Nat) (a : Src) (b : Src) (s : State) :
    exec (.stScalar h ty ord x2 ofs a b) s = execStScalar h ty ord x2 ofs a b s := rfl
theorem exec_ldsVector (h : Head) (ty : Ty) (ord : Ord) (x2 : Bool) (ofs : Nat) (a : Src) (b : Src) (s : State) :
    exec (.ldsVector h ty ord x2 ofs a b) s = execLdsVector h ty ord x2 ofs a b s := rfl
theorem exec_ldsScalar (h : Head) (ty : Ty) (ord : Ord) (x2 : Bool) (ofs : Nat) (a : Src) (b : Src) (s : State) :
    exec (.ldsScalar h ty ord x2 ofs a b) s = execLdsScalar h ty ord x2 ofs a b s := rfl
theorem exec_stsVector (h : Head) (ty : Ty) (ord : Ord) (x2 : Bool) (ofs : Nat) (a : Src) (b : Src) (s : State) :
    exec (.stsVector h ty ord x2 ofs a b) s = execStsVector h ty ord x2 ofs a b s := rfl
theorem exec_stsScalar (h : Head) (ty : Ty) (ord : Ord) (x2 : Bool) (ofs : Nat) (a : Src) (b : Src) (s : State) :
    exec (.stsScalar h ty ord x2 ofs a b) s = execStsScalar h ty ord x2 ofs a b s := rfl
theorem exec_ldxVector (h : Head) (ty : Ty) (ord : Ord) (x2 : Bool) (q : Nat) (ofs : Nat) (a : Src) (b : Src) (s : State) :
    exec (.ldxVector h ty ord x2 q ofs a b) s = execLdxVector h ty ord x2 q ofs a b s := rfl
theorem exec_ldxScalar (h : Head) (ty : Ty) (ord : Ord) (x2 : Bool) (q : Nat) (ofs : Nat) (a : Src) (b : Src) (s : State) :
    exec (.ldxScalar h ty ord x2 q ofs a b) s = execLdxScalar h ty ord x2 q ofs a b s := rfl
theorem exec_stxVector (h : Head) (ty : Ty) (ord : Ord) (x2 : Bool) (q : Nat) (ofs : Nat) (a : Src) (b : Src) (s : State) :
    exec (.stxVector h ty ord x2 q ofs a b) s = execStxVector h ty ord x2 q ofs a b s := rfl
theorem exec_stxScalar (h : Head) (ty : Ty) (ord : Ord) (x2 : Bool) (q : Nat) (ofs : Nat) (a : Src) (b : Src) (s : State) :
    exec (.stxScalar h ty ord x2 q ofs a b) s = execStxScalar h ty ord x2 q ofs a b s := rfl
theorem exec_ldcVector (h : Head) (ty : Ty) (ord : Ord) (x2 : Bool) (ofs : Nat) (a : Src) (b : Src) (s : State) :
    exec (.ldcVector h ty ord x2 ofs a b) s = execLdcVector h ty ord x2 ofs a b s := rfl
theorem exec_ldcScalar (h : Head) (ty : Ty) (ord : Ord) (x2 : Bool) (ofs : Nat) (a : Src) (b : Src) (s : State) :
    exec (.ldcScalar h ty ord x2 ofs a b) s = execLdcScalar h ty ord x2 ofs a b s := rfl
theorem exec_stsbElementVector (h : Head) (ty : Ty) (ord : Ord) (ofs : Nat) (a : Src) (b : Src) (s : State) :
    exec (.stsbElementVector h ty ord ofs a b) s = execStsbElementVector h ty ord ofs a b s := rfl
theorem exec_stsbElementScalar (h : Head) (ty : Ty) (ord : Ord) (ofs : Nat) (a : Src) (b : Src) (s : State) :
    exec (.stsbElementScalar h ty ord ofs a b) s = execStsbElementScalar h ty ord ofs a b s := rfl
theorem exec_stsbMaskVector (h : Head) (ord : Ord) (ofs : Nat) (a : Src) (b : Src) (s : State) :
    exec (.stsbMaskVector h ord ofs a b) s = execStsbMaskVector h ord ofs a b s := rfl
theorem exec_stsbMaskScalar (h : Head) (ord : Ord) (ofs : Nat) (a : Src) (b : Src) (s : State) :
    exec (.stsbMaskScalar h ord ofs a b) s = execStsbMaskScalar h ord ofs a b s := rfl
theorem exec_prfVector (h : Head) (ty : Ty) (ord : Ord) (x2 : Bool) (ofs : Nat) (a : Src) (b : Src) (s : State) :
    exec (.prfVector h ty ord x2 ofs a b) s = execPrfVector h ty ord x2 ofs a b s := rfl
theorem exec_prfScalar (h : Head) (ty : Ty) (ord : Ord) (x2 : Bool) (ofs : Nat) (a : Src) (b : Src) (s : State) :
    exec (.prfScalar h ty ord x2 ofs a b) s = execPrfScalar h ty ord x2 ofs a b s := rfl
theorem exec_atomVector (h : Head) (ty : Ty) (ord : Ord) (op : AOp) (ofs : Nat) (a : Src) (b : Src) (s : State) :
    exec (.atomVector h ty ord op ofs a b) s = execAtomVector h ty ord op ofs a b s := rfl
theorem exec_atomScalar (h : Head) (ty : Ty) (ord : Ord) (op : AOp) (ofs : Nat) (a : Src) (b : Src) (s : State) :
    exec (.atomScalar h ty ord op ofs a b) s = execAtomScalar h ty ord op ofs a b s := rfl
theorem exec_atomsVector (h : Head) (ty : Ty) (ord : Ord) (op : AOp) (ofs : Nat) (a : Src) (b : Src) (s : State) :
    exec (.atomsVector h ty ord op ofs a b) s = execAtomsVector h ty ord op ofs a b s := rfl
theorem exec_atomsScalar (h : Head) (ty : Ty) (ord : Ord) (op : AOp) (ofs : Nat) (a : Src) (b : Src) (s : State) :
    exec (.atomsScalar h ty ord op ofs a b) s = execAtomsScalar h ty ord op ofs a b s := rfl
theorem exec_redVector (h : Head) (ty : Ty) (ord : Ord) (op : AOp) (ofs : Nat) (a : Src) (b : Src) (s : State) :
    exec (.redVector h ty ord op ofs a b) s = execRedVector h ty ord op ofs a b s := rfl
theorem exec_redScalar (h : Head) (ty : Ty) (ord : Ord) (op : AOp) (ofs : Nat) (a : Src) (b : Src) (s : State) :
    exec (.redScalar h ty ord op ofs a b) s = execRedScalar h ty ord op ofs a b s := rfl
theorem exec_nop (h : Head) (s : State) :
    exec (.nop h) s = execNop h s := rfl
theorem exec_br (h : Head) (w : BitVec 24) (s : State) :
    exec (.br h w) s = execBr h w s := rfl
theorem exec_bru (h : Head) (w : BitVec 24) (s : State) :
    exec (.bru h w) s = execBru h w s := rfl
theorem exec_brx (h : Head) (a : Src) (s : State) :
    exec (.brx h a) s = execBrx h a s := rfl
theorem exec_call (h : Head) (w : BitVec 24) (s : State) :
    exec (.call h w) s = execCall h w s := rfl
theorem exec_callx (h : Head) (a : Src) (s : State) :
    exec (.callx h a) s = execCallx h a s := rfl
theorem exec_ret (h : Head) (a : Src) (s : State) :
    exec (.ret h a) s = execRet h a s := rfl
theorem exec_join (h : Head) (w : BitVec 24) (s : State) :
    exec (.join h w) s = execJoin h w s := rfl
theorem exec_exit (h : Head) (s : State) :
    exec (.exit h) s = execExit h s := rfl
theorem exec_yield (h : Head) (n : Nat) (s : State) :
    exec (.yield h n) s = execYield h n s := rfl
theorem exec_trap (h : Head) (a : Src) (s : State) :
    exec (.trap h a) s = execTrap h a s := rfl
theorem exec_rte (h : Head) (s : State) :
    exec (.rte h) s = execRte h s := rfl
theorem exec_sysrd (h : Head) (reg : Nat) (s : State) :
    exec (.sysrd h reg) s = execSysrd h reg s := rfl
theorem exec_syswr (h : Head) (reg : Nat) (a : Src) (s : State) :
    exec (.syswr h reg a) s = execSyswr h reg a s := rfl
theorem exec_syswrEpc (h : Head) (a : Src) (s : State) :
    exec (.syswrEpc h a) s = execSyswrEpc h a s := rfl
theorem exec_syswrFstat (h : Head) (a : Src) (s : State) :
    exec (.syswrFstat h a) s = execSyswrFstat h a s := rfl
theorem exec_syswrAmstat (h : Head) (a : Src) (s : State) :
    exec (.syswrAmstat h a) s = execSyswrAmstat h a s := rfl
theorem exec_sleep (h : Head) (a : Src) (s : State) :
    exec (.sleep h a) s = execSleep h a s := rfl
theorem exec_safept (h : Head) (id : Nat) (s : State) :
    exec (.safept h id) s = execSafept h id s := rfl
theorem exec_brkpt (h : Head) (code : Nat) (s : State) :
    exec (.brkpt h code) s = execBrkpt h code s := rfl
theorem exec_cctlIinv (h : Head) (s : State) :
    exec (.cctlIinv h) s = execCctlIinv h s := rfl
theorem exec_cctlIinvp (h : Head) (s : State) :
    exec (.cctlIinvp h) s = execCctlIinvp h s := rfl
theorem exec_cctlL1inv (h : Head) (a : Src) (s : State) :
    exec (.cctlL1inv h a) s = execCctlL1inv h a s := rfl
theorem exec_cctlL1all (h : Head) (s : State) :
    exec (.cctlL1all h) s = execCctlL1all h s := rfl
theorem exec_seal (h : Head) (a : Src) (b : Src) (s : State) :
    exec (.seal h a b) s = execSeal h a b s := rfl
theorem exec_unseal (h : Head) (a : Src) (b : Src) (s : State) :
    exec (.unseal h a b) s = execUnseal h a b s := rfl
theorem exec_fenceAcq (h : Head) (s : State) :
    exec (.fenceAcq h) s = execFenceAcq h s := rfl
theorem exec_fenceRel (h : Head) (s : State) :
    exec (.fenceRel h) s = execFenceRel h s := rfl
theorem exec_fenceAcqrel (h : Head) (s : State) :
    exec (.fenceAcqrel h) s = execFenceAcqrel h s := rfl
theorem exec_monitor (h : Head) (a : Src) (b : Option Src) (s : State) :
    exec (.monitor h a b) s = execMonitor h a b s := rfl
theorem exec_mwait (h : Head) (a : Src) (s : State) :
    exec (.mwait h a) s = execMwait h a s := rfl
theorem exec_bararr (h : Head) (a : Src) (s : State) :
    exec (.bararr h a) s = execBararr h a s := rfl
theorem exec_barwait (h : Head) (a : Src) (b : Src) (s : State) :
    exec (.barwait h a b) s = execBarwait h a b s := rfl
theorem exec_barsync (h : Head) (a : Src) (s : State) :
    exec (.barsync h a) s = execBarsync h a s := rfl
theorem exec_barinit (h : Head) (a : Src) (b : Src) (s : State) :
    exec (.barinit h a b) s = execBarinit h a b s := rfl
theorem exec_attach (h : Head) (a : Src) (s : State) :
    exec (.attach h a) s = execAttach h a s := rfl
theorem exec_detach (h : Head) (s : State) :
    exec (.detach h) s = execDetach h s := rfl
theorem exec_grpq (h : Head) (sel : GrpSel) (a : Src) (s : State) :
    exec (.grpq h sel a) s = execGrpq h sel a s := rfl
theorem exec_put (h : Head) (ty : Ty) (och : Option Nat) (a : Src) (b : Src) (s : State) :
    exec (.put h ty och a b) s = execPut h ty och a b s := rfl
theorem exec_putBlk (h : Head) (scr : Bool) (och : Option Nat) (a : Src) (b : Option Src) (s : State) :
    exec (.putBlk h scr och a b) s = execPutBlk h scr och a b s := rfl
theorem exec_get (h : Head) (scr : Bool) (och : Option Nat) (a : Src) (b : Option Src) (s : State) :
    exec (.get h scr och a b) s = execGet h scr och a b s := rfl
theorem exec_ratom (h : Head) (ty : Ty) (op : AOp) (och : Option Nat) (a : Src) (b : Src) (s : State) :
    exec (.ratom h ty op och a b) s = execRatom h ty op och a b s := rfl
theorem exec_rred (h : Head) (ty : Ty) (op : AOp) (och : Option Nat) (a : Src) (b : Src) (s : State) :
    exec (.rred h ty op och a b) s = execRred h ty op och a b s := rfl
theorem exec_notify (h : Head) (och : Option Nat) (a : Src) (b : Src) (s : State) :
    exec (.notify h och a b) s = execNotify h och a b s := rfl
theorem exec_notifyRel (h : Head) (och : Option Nat) (a : Src) (b : Src) (s : State) :
    exec (.notifyRel h och a b) s = execNotifyRel h och a b s := rfl
theorem exec_ochopen (h : Head) (a : Src) (b : Src) (s : State) :
    exec (.ochopen h a b) s = execOchopen h a b s := rfl
theorem exec_ochclose (h : Head) (b : Src) (s : State) :
    exec (.ochclose h b) s = execOchclose h b s := rfl
theorem exec_rfence (h : Head) (s : State) :
    exec (.rfence h) s = execRfence h s := rfl
theorem exec_mma (h : Head) (a : Src) (b : Src) (c : Src) (s : State) :
    exec (.mma h a b c) s = execMma h a b c s := rfl
theorem exec_mmasp (h : Head) (a : Src) (b : Src) (c : Src) (s : State) :
    exec (.mmasp h a b c) s = execMmasp h a b c s := rfl
theorem exec_mvm (h : Head) (a : Src) (b : Src) (c : Src) (s : State) :
    exec (.mvm h a b c) s = execMvm h a b c s := rfl
theorem exec_amalloc (h : Head) (a : Src) (s : State) :
    exec (.amalloc h a) s = execAmalloc h a s := rfl
theorem exec_amfree (h : Head) (s : State) :
    exec (.amfree h) s = execAmfree h s := rfl
theorem exec_amgrant (h : Head) (mask : BitVec 4) (a : Src) (b : Src) (s : State) :
    exec (.amgrant h mask a b) s = execAmgrant h mask a b s := rfl
theorem exec_amld (h : Head) (band : Nat) (a : Src) (s : State) :
    exec (.amld h band a) s = execAmld h band a s := rfl
theorem exec_amst (h : Head) (band : Nat) (a : Src) (s : State) :
    exec (.amst h band a) s = execAmst h band a s := rfl
theorem exec_amdrain (h : Head) (ty : Ty) (rnd : Rnd) (band : Nat) (z : Bool) (a : Src) (b : Src) (s : State) :
    exec (.amdrain h ty rnd band z a b) s = execAmdrain h ty rnd band z a b s := rfl
theorem exec_amzero (h : Head) (mask : BitVec 4) (s : State) :
    exec (.amzero h mask) s = execAmzero h mask s := rfl
theorem exec_chput (h : Head) (a : Src) (b : Src) (s : State) :
    exec (.chput h a b) s = execChput h a b s := rfl
theorem exec_chadv (h : Head) (a : Src) (b : Src) (c : Src) (s : State) :
    exec (.chadv h a b c) s = execChadv h a b c s := rfl
theorem exec_chseq (h : Head) (acq : Bool) (sel : ChSel) (a : Src) (s : State) :
    exec (.chseq h acq sel a) s = execChseq h acq sel a s := rfl
theorem exec_spawn (h : Head) (a : Src) (b : Src) (c : Src) (s : State) :
    exec (.spawn h a b c) s = execSpawn h a b c s := rfl
theorem exec_joindec (h : Head) (a : Src) (b : Src) (s : State) :
    exec (.joindec h a b) s = execJoindec h a b s := rfl
theorem exec_pushdq (h : Head) (a : Src) (s : State) :
    exec (.pushdq h a) s = execPushdq h a s := rfl
theorem exec_popdq (h : Head) (pr : Nat) (s : State) :
    exec (.popdq h pr) s = execPopdq h pr s := rfl
theorem exec_dqstat (h : Head) (s : State) :
    exec (.dqstat h) s = execDqstat h s := rfl
theorem exec_budgetRound (s : State) :
    exec .budgetRound s = execBudgetRound s := rfl
theorem exec_throttleLimit (s : State) :
    exec .throttleLimit s = execThrottleLimit s := rfl
theorem exec_throttleRecover (s : State) :
    exec .throttleRecover s = execThrottleRecover s := rfl
theorem exec_throttleFence (s : State) :
    exec .throttleFence s = execThrottleFence s := rfl
theorem exec_inputUndervoltage (s : State) :
    exec .inputUndervoltage s = execInputUndervoltage s := rfl
theorem exec_inputPowerLoss (s : State) :
    exec .inputPowerLoss s = execInputPowerLoss s := rfl
theorem exec_coolantFlowStop (s : State) :
    exec .coolantFlowStop s = execCoolantFlowStop s := rfl
theorem exec_resetIn (s : State) :
    exec .resetIn s = execResetIn s := rfl
theorem exec_httpsBootRetry (s : State) :
    exec .httpsBootRetry s = execHttpsBootRetry s := rfl
theorem exec_firmwareUpdate (s : State) :
    exec .firmwareUpdate s = execFirmwareUpdate s := rfl
theorem exec_serviceFirmwareStop (s : State) :
    exec .serviceFirmwareStop s = execServiceFirmwareStop s := rfl
theorem exec_keyPhaseChange (s : State) :
    exec .keyPhaseChange s = execKeyPhaseChange s := rfl
theorem exec_keyPhaseRetire (s : State) :
    exec .keyPhaseRetire s = execKeyPhaseRetire s := rfl
theorem exec_packetHop (s : State) :
    exec .packetHop s = execPacketHop s := rfl
theorem exec_putPacket (s : State) :
    exec .putPacket s = execPutPacket s := rfl
theorem exec_putAck (s : State) :
    exec .putAck s = execPutAck s := rfl
theorem exec_getReq (s : State) :
    exec .getReq s = execGetReq s := rfl
theorem exec_getData (s : State) :
    exec .getData s = execGetData s := rfl
theorem exec_ratomPacket (s : State) :
    exec .ratomPacket s = execRatomPacket s := rfl
theorem exec_ratomRes (s : State) :
    exec .ratomRes s = execRatomRes s := rfl
theorem exec_rredPacket (s : State) :
    exec .rredPacket s = execRredPacket s := rfl
theorem exec_rredAck (s : State) :
    exec .rredAck s = execRredAck s := rfl
theorem exec_notifyPacket (s : State) :
    exec .notifyPacket s = execNotifyPacket s := rfl
theorem exec_notifyAck (s : State) :
    exec .notifyAck s = execNotifyAck s := rfl
theorem exec_errorPacket (s : State) :
    exec .errorPacket s = execErrorPacket s := rfl
theorem exec_ochReset (s : State) :
    exec .ochReset s = execOchReset s := rfl
theorem exec_ochResetAck (s : State) :
    exec .ochResetAck s = execOchResetAck s := rfl
theorem exec_heldPacketTimeout (s : State) :
    exec .heldPacketTimeout s = execHeldPacketTimeout s := rfl
theorem exec_responseTimerExpiry (s : State) :
    exec .responseTimerExpiry s = execResponseTimerExpiry s := rfl
theorem exec_blockedPacketTimer (s : State) :
    exec .blockedPacketTimer s = execBlockedPacketTimer s := rfl
theorem exec_belay (s : State) :
    exec .belay s = execBelay s := rfl
theorem exec_ropeAck (s : State) :
    exec .ropeAck s = execRopeAck s := rfl
theorem exec_linkTrainingStart (s : State) :
    exec .linkTrainingStart s = execLinkTrainingStart s := rfl
theorem exec_trainingHandshake (s : State) :
    exec .trainingHandshake s = execTrainingHandshake s := rfl
theorem exec_thirdHandshakeTimer (s : State) :
    exec .thirdHandshakeTimer s = execThirdHandshakeTimer s := rfl
theorem exec_trainReplyTimeout (s : State) :
    exec .trainReplyTimeout s = execTrainReplyTimeout s := rfl
theorem exec_linkDownRetryTimer (s : State) :
    exec .linkDownRetryTimer s = execLinkDownRetryTimer s := rfl
theorem exec_linkLoss (s : State) :
    exec .linkLoss s = execLinkLoss s := rfl
theorem exec_linkForce (s : State) :
    exec .linkForce s = execLinkForce s := rfl
theorem exec_linkRelease (s : State) :
    exec .linkRelease s = execLinkRelease s := rfl
theorem exec_ucieLinkChange (s : State) :
    exec .ucieLinkChange s = execUcieLinkChange s := rfl
theorem exec_toposet (s : State) :
    exec .toposet s = execToposet s := rfl
theorem exec_toposetDrainLimit (s : State) :
    exec .toposetDrainLimit s = execToposetDrainLimit s := rfl
theorem exec_toposetSwitch (s : State) :
    exec .toposetSwitch s = execToposetSwitch s := rfl
theorem exec_toposetPublish (s : State) :
    exec .toposetPublish s = execToposetPublish s := rfl
theorem exec_warmResetRequest (s : State) :
    exec .warmResetRequest s = execWarmResetRequest s := rfl
theorem exec_ucieDownTimeout (s : State) :
    exec .ucieDownTimeout s = execUcieDownTimeout s := rfl
theorem exec_fabricInterfaceError (s : State) :
    exec .fabricInterfaceError s = execFabricInterfaceError s := rfl
theorem exec_warmResetReadmit (s : State) :
    exec .warmResetReadmit s = execWarmResetReadmit s := rfl
theorem exec_rdmaWrite (s : State) :
    exec .rdmaWrite s = execRdmaWrite s := rfl
theorem exec_rdmaWriteWithImmediate (s : State) :
    exec .rdmaWriteWithImmediate s = execRdmaWriteWithImmediate s := rfl
theorem exec_rdmaRead (s : State) :
    exec .rdmaRead s = execRdmaRead s := rfl
theorem exec_send (s : State) :
    exec .send s = execSend s := rfl
theorem exec_rdmaAtomicRequest (s : State) :
    exec .rdmaAtomicRequest s = execRdmaAtomicRequest s := rfl
theorem exec_partitionCreate (s : State) :
    exec .partitionCreate s = execPartitionCreate s := rfl
theorem exec_partitionChange (s : State) :
    exec .partitionChange s = execPartitionChange s := rfl
theorem exec_partitionDelete (s : State) :
    exec .partitionDelete s = execPartitionDelete s := rfl
theorem exec_frameGrant (s : State) :
    exec .frameGrant s = execFrameGrant s := rfl
theorem exec_frameRevoke (s : State) :
    exec .frameRevoke s = execFrameRevoke s := rfl
theorem exec_frameScrubDone (s : State) :
    exec .frameScrubDone s = execFrameScrubDone s := rfl
theorem exec_chainRegistration (s : State) :
    exec .chainRegistration s = execChainRegistration s := rfl
theorem exec_serviceChainRegistration (s : State) :
    exec .serviceChainRegistration s = execServiceChainRegistration s := rfl
theorem exec_faultChainRegistration (s : State) :
    exec .faultChainRegistration s = execFaultChainRegistration s := rfl
theorem exec_memoryRegionRegistration (s : State) :
    exec .memoryRegionRegistration s = execMemoryRegionRegistration s := rfl
theorem exec_attestationRequest (s : State) :
    exec .attestationRequest s = execAttestationRequest s := rfl
theorem exec_tokenFetch (s : State) :
    exec .tokenFetch s = execTokenFetch s := rfl
theorem exec_rotationSetup (s : State) :
    exec .rotationSetup s = execRotationSetup s := rfl
theorem exec_copyEngineMove (s : State) :
    exec .copyEngineMove s = execCopyEngineMove s := rfl
theorem exec_redfishSetting (s : State) :
    exec .redfishSetting s = execRedfishSetting s := rfl
theorem exec_functionLevelReset (s : State) :
    exec .functionLevelReset s = execFunctionLevelReset s := rfl
theorem exec_pcpTailWake (s : State) :
    exec .pcpTailWake s = execPcpTailWake s := rfl
theorem exec_launch (s : State) :
    exec .launch s = execLaunch s := rfl
theorem exec_notifyCommand (s : State) :
    exec .notifyCommand s = execNotifyCommand s := rfl
theorem exec_map (s : State) :
    exec .map s = execMap s := rfl
theorem exec_unmap (s : State) :
    exec .unmap s = execUnmap s := rfl
theorem exec_resume (s : State) :
    exec .resume s = execResume s := rfl
theorem exec_commandRecordCompletion (s : State) :
    exec .commandRecordCompletion s = execCommandRecordCompletion s := rfl
theorem exec_faultRecordPost (s : State) :
    exec .faultRecordPost s = execFaultRecordPost s := rfl
theorem exec_faultPostRetry (s : State) :
    exec .faultPostRetry s = execFaultPostRetry s := rfl
theorem exec_switchTick (s : State) :
    exec .switchTick s = execSwitchTick s := rfl
theorem exec_deadlineExpiry (s : State) :
    exec .deadlineExpiry s = execDeadlineExpiry s := rfl
theorem exec_overrunLimit (s : State) :
    exec .overrunLimit s = execOverrunLimit s := rfl
theorem exec_resumeMapWrite (s : State) :
    exec .resumeMapWrite s = execResumeMapWrite s := rfl
theorem exec_lehrEvent (s : State) :
    exec .lehrEvent s = execLehrEvent s := rfl
theorem exec_teamPlacement (s : State) :
    exec .teamPlacement s = execTeamPlacement s := rfl
theorem exec_restoreComplete (s : State) :
    exec .restoreComplete s = execRestoreComplete s := rfl
theorem exec_teamEnd (s : State) :
    exec .teamEnd s = execTeamEnd s := rfl
theorem exec_cairnProbe (s : State) :
    exec .cairnProbe s = execCairnProbe s := rfl
theorem exec_clauseStart (s : State) :
    exec .clauseStart s = execClauseStart s := rfl
theorem exec_variableLatencyCompletion (s : State) :
    exec .variableLatencyCompletion s = execVariableLatencyCompletion s := rfl
theorem exec_watchdogExpiry (s : State) :
    exec .watchdogExpiry s = execWatchdogExpiry s := rfl
theorem exec_yieldExpiry (s : State) :
    exec .yieldExpiry s = execYieldExpiry s := rfl
theorem exec_sleepExpiry (s : State) :
    exec .sleepExpiry s = execSleepExpiry s := rfl
theorem exec_mwaitTimeout (s : State) :
    exec .mwaitTimeout s = execMwaitTimeout s := rfl
theorem exec_lineEviction (s : State) :
    exec .lineEviction s = execLineEviction s := rfl
theorem exec_uncorrectableEccError (s : State) :
    exec .uncorrectableEccError s = execUncorrectableEccError s := rfl
theorem exec_copy (s : State) :
    exec .copy s = execCopy s := rfl
theorem exec_nopRecord (s : State) :
    exec .nopRecord s = execNopRecord s := rfl
theorem exec_mmaRecord (s : State) :
    exec .mmaRecord s = execMmaRecord s := rfl
theorem exec_mvmRecord (s : State) :
    exec .mvmRecord s = execMvmRecord s := rfl
theorem exec_engineRecordCompletion (s : State) :
    exec .engineRecordCompletion s = execEngineRecordCompletion s := rfl
theorem exec_copyChainIdleUnbind (s : State) :
    exec .copyChainIdleUnbind s = execCopyChainIdleUnbind s := rfl
theorem exec_mwaitReturnNoReason (s : State) :
    exec .mwaitReturnNoReason s = execMwaitReturnNoReason s := rfl
theorem exec_coldBoot (s : State) :
    exec .coldBoot s = execColdBoot s := rfl
theorem exec_inputVoltageRecovery (s : State) :
    exec .inputVoltageRecovery s = execInputVoltageRecovery s := rfl
theorem exec_coolantFlowResume (s : State) :
    exec .coolantFlowResume s = execCoolantFlowResume s := rfl
theorem exec_correctedEccError (s : State) :
    exec .correctedEccError s = execCorrectedEccError s := rfl
theorem exec_serviceFirmwareRestarted (s : State) :
    exec .serviceFirmwareRestarted s = execServiceFirmwareRestarted s := rfl

end Sys2Proof.Machine
end

