-- ==== Sys2Proof/Laws/Table.lean ====
section
/-! SUPPORT. What a finite table and a byte memory read after a change: the entry written, and every other entry as
before. -/

namespace Sys2Proof.Machine

open Sys2Proof

/-! ### Tables -/

@[simp] theorem Tbl.get?_set_self {κ α : Type} [DecidableEq κ] (t : Tbl κ α) (x : κ) (v : α) :
    (t.set x v).get? x = some v := by
  induction t with
  | nil => simp [Tbl.set, Tbl.get?]
  | cons e t ih =>
    obtain ⟨k, w⟩ := e
    by_cases hk : k = x <;> simp [Tbl.set, Tbl.get?, hk, ih]

theorem Tbl.get?_set_ne {κ α : Type} [DecidableEq κ] (t : Tbl κ α) (x y : κ) (v : α) (h : x ≠ y) :
    (t.set x v).get? y = t.get? y := by
  induction t with
  | nil => simp [Tbl.set, Tbl.get?, h]
  | cons e t ih =>
    obtain ⟨k, w⟩ := e
    by_cases hk : k = x
    · subst hk; simp [Tbl.set, Tbl.get?, h]
    · by_cases hy : k = y
      · subst hy; simp [Tbl.set, Tbl.get?, hk]
      · simp [Tbl.set, Tbl.get?, hk, hy, ih]

theorem Tbl.get?_set {κ α : Type} [DecidableEq κ] (t : Tbl κ α) (x y : κ) (v : α) :
    (t.set x v).get? y = if x = y then some v else t.get? y := by
  by_cases h : x = y
  · subst h; simp
  · simp [Tbl.get?_set_ne, h]

@[simp] theorem Tbl.getD_set_self {κ α : Type} [DecidableEq κ] (t : Tbl κ α) (x : κ) (v d : α) :
    (t.set x v).getD x d = v := by simp [Tbl.getD]

theorem Tbl.getD_set_ne {κ α : Type} [DecidableEq κ] (t : Tbl κ α) (x y : κ) (v d : α) (h : x ≠ y) :
    (t.set x v).getD y d = t.getD y d := by simp [Tbl.getD, Tbl.get?_set_ne, h]

theorem Tbl.getD_set {κ α : Type} [DecidableEq κ] (t : Tbl κ α) (x y : κ) (v d : α) :
    (t.set x v).getD y d = if x = y then v else t.getD y d := by
  by_cases h : x = y
  · subst h; simp
  · simp [Tbl.getD_set_ne, h]

theorem Tbl.get?_erase_ne {κ α : Type} [DecidableEq κ] (t : Tbl κ α) (x y : κ) (h : x ≠ y) :
    (t.erase x).get? y = t.get? y := by
  induction t with
  | nil => rfl
  | cons e t ih =>
    obtain ⟨k, w⟩ := e
    by_cases hk : k = x
    · subst hk; simpa [Tbl.erase, Tbl.get?, h] using ih
    · by_cases hy : k = y
      · subst hy; simp [Tbl.erase, Tbl.get?, hk]
      · simpa [Tbl.erase, Tbl.get?, hk, hy] using ih

@[simp] theorem Tbl.get?_erase_self {κ α : Type} [DecidableEq κ] (t : Tbl κ α) (x : κ) :
    (t.erase x).get? x = none := by
  induction t with
  | nil => rfl
  | cons e t ih =>
    obtain ⟨k, w⟩ := e
    by_cases hk : k = x
    · subst hk; simpa [Tbl.erase, Tbl.get?] using ih
    · simpa [Tbl.erase, Tbl.get?, hk] using ih

/-! ### Lanes -/

@[simp] theorem lanesOf_length {α : Type} (f : Nat → α) : (lanesOf f).length = 32 := by simp [lanesOf]

theorem lanesOf_getD {α : Type} (f : Nat → α) (l : Nat) (d : α) (h : l < 32) : (lanesOf f).getD l d = f l := by
  simp [lanesOf, List.getD, h]

theorem lane32_lanesOf (f : Nat → W32) (l : Nat) (h : l < 32) : lane32 (lanesOf f) l = f l := lanesOf_getD f l 0 h

theorem lane64_lanesOf (f : Nat → W64) (l : Nat) (h : l < 32) : lane64 (lanesOf f) l = f l := lanesOf_getD f l 0 h

theorem mem_lanesIn (m : W32) (l : Nat) : l ∈ lanesIn m ↔ l < 32 ∧ m.getLsbD l = true := by simp [lanesIn]

/-- A lane of the mask of a condition. -/
theorem maskOf_getLsbD (p : Nat → Bool) (l : Nat) (h : l < 32) : (maskOf p).getLsbD l = p l := by
  have key : ∀ (n : Nat), n ≤ 32 → ∀ (l : Nat), l < 32 →
      ((List.range n).foldl (fun (m : W32) i => if p i then m ||| (1#32 <<< i) else m) 0).getLsbD l =
        (decide (l < n) && p l) := by
    intro n
    induction n with
    | zero => intro _ l _; simp
    | succ n ih =>
      intro hn l hl
      rw [List.range_succ, List.foldl_append, List.foldl_cons, List.foldl_nil]
      by_cases hp : p n = true
      · simp only [hp, if_true, BitVec.getLsbD_or, ih (by omega) l hl, BitVec.getLsbD_shiftLeft, BitVec.getLsbD_one]
        by_cases hln : l = n
        · subst hln; simp [hl, hp]
        · by_cases h2 : l < n
          · have h3 : ¬ (n ≤ l) := by omega
            have h4 : l < n + 1 := by omega
            simp [h2, h4]
          · have h4 : ¬ l < n + 1 := by omega
            have h5 : l - n ≠ 0 := by omega
            simp [h2, h4]
            intro; omega
      · rw [if_neg hp, ih (by omega) l hl]
        by_cases hln : l = n
        · subst hln; simp [hp]
        · have : decide (l < n) = decide (l < n + 1) := by
            rw [decide_eq_decide]; omega
          rw [this]
  have := key 32 (Nat.le_refl 32) l h
  unfold maskOf
  rw [this]
  simp [h]

/-! ### Byte memories -/

/-- A byte after a write: the byte written at its address, the old byte elsewhere. -/
theorem Memory.get_put (m : List Host.Cell) (a b : Nat) (v : Byte) (h : Memory.wf m = true) :
    Memory.get (Memory.put m a v) b = if b = a then v else Memory.get m b := by
  induction m with
  | nil =>
    by_cases hv : v = 0#8
    · by_cases hb : b = a <;> simp [Memory.put, Memory.get, hv, hb]
    · by_cases hb : a = b
      · subst hb; simp [Memory.put, Memory.get, hv]
      · have hb' : ¬ b = a := fun h => hb h.symm
        simp [Memory.put, Memory.get, hv, hb, hb']
  | cons d ds ih =>
    obtain ⟨k, w⟩ := d
    have hd := (Memory.wf_cons k w ds).1 h
    have low : ∀ (l : List Host.Cell) (x : Nat), (∀ c ∈ l.head?, x < c.1) → Memory.get l x = 0 := by
      intro l x hx
      cases l with
      | nil => rfl
      | cons e es =>
        obtain ⟨k', w'⟩ := e
        have : x < k' := by simpa using hx
        have hne : ¬ k' = x := by omega
        simp [Memory.get, hne, this]
    have cons (k : Nat) (w : Byte) (l : List Host.Cell) (x : Nat) :
        Memory.get ((k, w) :: l) x = if k = x then w else if x < k then 0 else Memory.get l x := rfl
    rw [Memory.put]
    by_cases h1 : a < k
    · rw [if_pos h1]
      by_cases hv : v = 0
      · rw [if_pos hv, cons]
        by_cases hb : b = a
        · rw [if_pos hb, if_neg (by omega), if_pos (by omega), hv]
        · rw [if_neg hb]
      · rw [if_neg hv, cons]
        by_cases hb : b = a
        · rw [if_pos hb, if_pos hb.symm]
        · rw [if_neg hb, if_neg (fun h => hb h.symm), cons]
          by_cases hba : b < a
          · rw [if_pos hba, if_neg (by omega), if_pos (by omega)]
          · rw [if_neg hba]
    · rw [if_neg h1]
      by_cases h2 : a = k
      · subst h2
        rw [if_pos rfl]
        by_cases hv : v = 0
        · rw [if_pos hv, cons]
          by_cases hb : b = a
          · rw [if_pos hb, low ds b (hb ▸ hd.2.1), hv]
          · rw [if_neg hb, if_neg (fun h => hb h.symm)]
            by_cases hba : b < a
            · rw [if_pos hba, low ds b fun c hc => Nat.lt_trans hba (hd.2.1 c hc)]
            · rw [if_neg hba]
        · rw [if_neg hv, cons, cons]
          by_cases hb : b = a
          · rw [if_pos hb, if_pos hb.symm]
          · rw [if_neg hb]; simp only [if_neg (fun h : a = b => hb h.symm)]
      · rw [if_neg h2, cons, cons]
        by_cases hkb : k = b
        · rw [if_pos hkb, if_pos hkb, if_neg (by omega)]
        · rw [if_neg hkb, if_neg hkb]
          by_cases hbk : b < k
          · rw [if_pos hbk, if_pos hbk, if_neg (by omega)]
          · rw [if_neg hbk, if_neg hbk, ih hd.2.2]

theorem Mem.get_put (m : Mem) (a b : Nat) (v : Byte) : (m.put a v).get b = if b = a then v else m.get b :=
  Memory.get_put m.cells a b v m.canon

@[simp] theorem Mem.get_put_self (m : Mem) (a : Nat) (v : Byte) : (m.put a v).get a = v := by simp [Mem.get_put]

theorem Mem.get_put_ne (m : Mem) (a b : Nat) (v : Byte) (h : b ≠ a) : (m.put a v).get b = m.get b := by
  simp [Mem.get_put, h]

@[simp] theorem Mem.get_empty (a : Nat) : Mem.empty.get a = 0 := rfl

/-- A byte after a run of bytes has been written. -/
theorem Mem.get_putBytes (m : Mem) (a : Nat) (bs : List Byte) (b : Nat) :
    (m.putBytes a bs).get b = if a ≤ b ∧ b < a + bs.length then bs.getD (b - a) 0 else m.get b := by
  have key : ∀ (bs : List Byte) (n : Nat) (m : Mem),
      ((bs.zipIdx n).foldl (fun m p => m.put (a + p.2) p.1) m).get b =
        if a + n ≤ b ∧ b < a + n + bs.length then bs.getD (b - a - n) 0 else m.get b := by
    intro bs
    induction bs with
    | nil => intro n m; simp
    | cons v vs ih =>
      intro n m
      rw [List.zipIdx_cons, List.foldl_cons, ih (n + 1) (m.put (a + n) v), Mem.get_put]
      by_cases h0 : b = a + n
      · have h1 : ¬ (a + (n + 1) ≤ b ∧ b < a + (n + 1) + vs.length) := by omega
        have h2 : a + n ≤ b ∧ b < a + n + (v :: vs).length := by simp only [List.length_cons]; omega
        have h3 : b - a - n = 0 := by omega
        rw [if_neg h1, if_pos h0, if_pos h2, h3]; rfl
      · by_cases h1 : a + (n + 1) ≤ b ∧ b < a + (n + 1) + vs.length
        · have h2 : a + n ≤ b ∧ b < a + n + (v :: vs).length := by simp; omega
          have h3 : b - a - n = (b - a - (n + 1)) + 1 := by omega
          rw [if_pos h1, if_pos h2, h3]; rfl
        · have h2 : ¬ (a + n ≤ b ∧ b < a + n + (v :: vs).length) := by simp; omega
          rw [if_neg h1, if_neg h0, if_neg h2]
  have := key bs 0 m
  unfold Mem.putBytes
  simpa using this

end Sys2Proof.Machine
end

