-- ==== Sys2Proof/Laws/State.lean ====
section
/-! SUPPORT. What each update of the state leaves alone and what it sets: one small law for every field. -/

namespace Sys2Proof.Machine

open Sys2Proof

/-! ### `State.setThread` -/

@[simp] theorem State.setThread_unit (s : State) (t : Thread) (r : ThreadRec) : (s.setThread t r).unit = s.unit := rfl
@[simp] theorem State.setThread_sched (s : State) (t : Thread) (r : ThreadRec) : (s.setThread t r).sched = s.sched := rfl
@[simp] theorem State.setThread_occ (s : State) (t : Thread) (r : ThreadRec) : (s.setThread t r).occ = s.occ := rfl
@[simp] theorem State.setThread_cred (s : State) (t : Thread) (r : ThreadRec) : (s.setThread t r).cred = s.cred := rfl
@[simp] theorem State.setThread_focus (s : State) (t : Thread) (r : ThreadRec) : (s.setThread t r).focus = s.focus := rfl
@[simp] theorem State.setThread_free (s : State) (t : Thread) (r : ThreadRec) : (s.setThread t r).free = s.free := rfl
@[simp] theorem State.setThread_serial (s : State) (t : Thread) (r : ThreadRec) : (s.setThread t r).serial = s.serial := rfl
@[simp] theorem State.setThread_mem (s : State) (t : Thread) (r : ThreadRec) : (s.setThread t r).mem = s.mem := rfl
@[simp] theorem State.setThread_task (s : State) (t : Thread) (r : ThreadRec) : (s.setThread t r).task = s.task := rfl
@[simp] theorem State.setThread_eng (s : State) (t : Thread) (r : ThreadRec) : (s.setThread t r).eng = s.eng := rfl
@[simp] theorem State.setThread_par (s : State) (t : Thread) (r : ThreadRec) : (s.setThread t r).par = s.par := rfl
@[simp] theorem State.setThread_fab (s : State) (t : Thread) (r : ThreadRec) : (s.setThread t r).fab = s.fab := rfl
@[simp] theorem State.setThread_hub (s : State) (t : Thread) (r : ThreadRec) : (s.setThread t r).hub = s.hub := rfl
@[simp] theorem State.setThread_core_vreg (s : State) (t : Thread) (r : ThreadRec) : (s.setThread t r).core.vreg = s.core.vreg := rfl
@[simp] theorem State.setThread_core_sreg (s : State) (t : Thread) (r : ThreadRec) : (s.setThread t r).core.sreg = s.core.sreg := rfl
@[simp] theorem State.setThread_core_pred (s : State) (t : Thread) (r : ThreadRec) : (s.setThread t r).core.pred = s.core.pred := rfl
@[simp] theorem State.setThread_core_members (s : State) (t : Thread) (r : ThreadRec) : (s.setThread t r).core.members = s.core.members := rfl
@[simp] theorem State.setThread_core_ops (s : State) (t : Thread) (r : ThreadRec) : (s.setThread t r).core.ops = s.core.ops := rfl
@[simp] theorem State.setThread_core_nextOp (s : State) (t : Thread) (r : ThreadRec) : (s.setThread t r).core.nextOp = s.core.nextOp := rfl
@[simp] theorem State.setThread_core_dq (s : State) (t : Thread) (r : ThreadRec) : (s.setThread t r).core.dq = s.core.dq := rfl
@[simp] theorem State.setThread_core_dqCairn (s : State) (t : Thread) (r : ThreadRec) : (s.setThread t r).core.dqCairn = s.core.dqCairn := rfl

/-! ### `State.setMember` -/

@[simp] theorem State.setMember_unit (s : State) (m : Member) (r : MemberRec) : (s.setMember m r).unit = s.unit := rfl
@[simp] theorem State.setMember_sched (s : State) (m : Member) (r : MemberRec) : (s.setMember m r).sched = s.sched := rfl
@[simp] theorem State.setMember_occ (s : State) (m : Member) (r : MemberRec) : (s.setMember m r).occ = s.occ := rfl
@[simp] theorem State.setMember_cred (s : State) (m : Member) (r : MemberRec) : (s.setMember m r).cred = s.cred := rfl
@[simp] theorem State.setMember_focus (s : State) (m : Member) (r : MemberRec) : (s.setMember m r).focus = s.focus := rfl
@[simp] theorem State.setMember_free (s : State) (m : Member) (r : MemberRec) : (s.setMember m r).free = s.free := rfl
@[simp] theorem State.setMember_serial (s : State) (m : Member) (r : MemberRec) : (s.setMember m r).serial = s.serial := rfl
@[simp] theorem State.setMember_mem (s : State) (m : Member) (r : MemberRec) : (s.setMember m r).mem = s.mem := rfl
@[simp] theorem State.setMember_task (s : State) (m : Member) (r : MemberRec) : (s.setMember m r).task = s.task := rfl
@[simp] theorem State.setMember_eng (s : State) (m : Member) (r : MemberRec) : (s.setMember m r).eng = s.eng := rfl
@[simp] theorem State.setMember_par (s : State) (m : Member) (r : MemberRec) : (s.setMember m r).par = s.par := rfl
@[simp] theorem State.setMember_fab (s : State) (m : Member) (r : MemberRec) : (s.setMember m r).fab = s.fab := rfl
@[simp] theorem State.setMember_hub (s : State) (m : Member) (r : MemberRec) : (s.setMember m r).hub = s.hub := rfl
@[simp] theorem State.setMember_core_vreg (s : State) (m : Member) (r : MemberRec) : (s.setMember m r).core.vreg = s.core.vreg := rfl
@[simp] theorem State.setMember_core_sreg (s : State) (m : Member) (r : MemberRec) : (s.setMember m r).core.sreg = s.core.sreg := rfl
@[simp] theorem State.setMember_core_pred (s : State) (m : Member) (r : MemberRec) : (s.setMember m r).core.pred = s.core.pred := rfl
@[simp] theorem State.setMember_core_threads (s : State) (m : Member) (r : MemberRec) : (s.setMember m r).core.threads = s.core.threads := rfl
@[simp] theorem State.setMember_core_ops (s : State) (m : Member) (r : MemberRec) : (s.setMember m r).core.ops = s.core.ops := rfl
@[simp] theorem State.setMember_core_nextOp (s : State) (m : Member) (r : MemberRec) : (s.setMember m r).core.nextOp = s.core.nextOp := rfl
@[simp] theorem State.setMember_core_dq (s : State) (m : Member) (r : MemberRec) : (s.setMember m r).core.dq = s.core.dq := rfl
@[simp] theorem State.setMember_core_dqCairn (s : State) (m : Member) (r : MemberRec) : (s.setMember m r).core.dqCairn = s.core.dqCairn := rfl

/-! ### `State.setTeam` -/

@[simp] theorem State.setTeam_unit (s : State) (isl team : Nat) (t : Team) : (s.setTeam isl team t).unit = s.unit := rfl
@[simp] theorem State.setTeam_sched (s : State) (isl team : Nat) (t : Team) : (s.setTeam isl team t).sched = s.sched := rfl
@[simp] theorem State.setTeam_occ (s : State) (isl team : Nat) (t : Team) : (s.setTeam isl team t).occ = s.occ := rfl
@[simp] theorem State.setTeam_cred (s : State) (isl team : Nat) (t : Team) : (s.setTeam isl team t).cred = s.cred := rfl
@[simp] theorem State.setTeam_focus (s : State) (isl team : Nat) (t : Team) : (s.setTeam isl team t).focus = s.focus := rfl
@[simp] theorem State.setTeam_free (s : State) (isl team : Nat) (t : Team) : (s.setTeam isl team t).free = s.free := rfl
@[simp] theorem State.setTeam_serial (s : State) (isl team : Nat) (t : Team) : (s.setTeam isl team t).serial = s.serial := rfl
@[simp] theorem State.setTeam_core (s : State) (isl team : Nat) (t : Team) : (s.setTeam isl team t).core = s.core := rfl
@[simp] theorem State.setTeam_mem (s : State) (isl team : Nat) (t : Team) : (s.setTeam isl team t).mem = s.mem := rfl
@[simp] theorem State.setTeam_eng (s : State) (isl team : Nat) (t : Team) : (s.setTeam isl team t).eng = s.eng := rfl
@[simp] theorem State.setTeam_par (s : State) (isl team : Nat) (t : Team) : (s.setTeam isl team t).par = s.par := rfl
@[simp] theorem State.setTeam_fab (s : State) (isl team : Nat) (t : Team) : (s.setTeam isl team t).fab = s.fab := rfl
@[simp] theorem State.setTeam_hub (s : State) (isl team : Nat) (t : Team) : (s.setTeam isl team t).hub = s.hub := rfl

/-! ### `writeS` -/

@[simp] theorem writeS_unit (s : State) (m : Member) (i : Nat) (v : W64) : (writeS s m i v).unit = s.unit := rfl
@[simp] theorem writeS_sched (s : State) (m : Member) (i : Nat) (v : W64) : (writeS s m i v).sched = s.sched := rfl
@[simp] theorem writeS_occ (s : State) (m : Member) (i : Nat) (v : W64) : (writeS s m i v).occ = s.occ := rfl
@[simp] theorem writeS_cred (s : State) (m : Member) (i : Nat) (v : W64) : (writeS s m i v).cred = s.cred := rfl
@[simp] theorem writeS_focus (s : State) (m : Member) (i : Nat) (v : W64) : (writeS s m i v).focus = s.focus := rfl
@[simp] theorem writeS_free (s : State) (m : Member) (i : Nat) (v : W64) : (writeS s m i v).free = s.free := rfl
@[simp] theorem writeS_serial (s : State) (m : Member) (i : Nat) (v : W64) : (writeS s m i v).serial = s.serial := rfl
@[simp] theorem writeS_task (s : State) (m : Member) (i : Nat) (v : W64) : (writeS s m i v).task = s.task := rfl
@[simp] theorem writeS_eng (s : State) (m : Member) (i : Nat) (v : W64) : (writeS s m i v).eng = s.eng := rfl
@[simp] theorem writeS_par (s : State) (m : Member) (i : Nat) (v : W64) : (writeS s m i v).par = s.par := rfl
@[simp] theorem writeS_fab (s : State) (m : Member) (i : Nat) (v : W64) : (writeS s m i v).fab = s.fab := rfl
@[simp] theorem writeS_hub (s : State) (m : Member) (i : Nat) (v : W64) : (writeS s m i v).hub = s.hub := rfl
@[simp] theorem writeS_core_vreg (s : State) (m : Member) (i : Nat) (v : W64) : (writeS s m i v).core.vreg = s.core.vreg := rfl
@[simp] theorem writeS_core_pred (s : State) (m : Member) (i : Nat) (v : W64) : (writeS s m i v).core.pred = s.core.pred := rfl
@[simp] theorem writeS_core_members (s : State) (m : Member) (i : Nat) (v : W64) : (writeS s m i v).core.members = s.core.members := rfl
@[simp] theorem writeS_core_threads (s : State) (m : Member) (i : Nat) (v : W64) : (writeS s m i v).core.threads = s.core.threads := rfl
@[simp] theorem writeS_core_ops (s : State) (m : Member) (i : Nat) (v : W64) : (writeS s m i v).core.ops = s.core.ops := rfl
@[simp] theorem writeS_core_nextOp (s : State) (m : Member) (i : Nat) (v : W64) : (writeS s m i v).core.nextOp = s.core.nextOp := rfl
@[simp] theorem writeS_core_dq (s : State) (m : Member) (i : Nat) (v : W64) : (writeS s m i v).core.dq = s.core.dq := rfl
@[simp] theorem writeS_core_dqCairn (s : State) (m : Member) (i : Nat) (v : W64) : (writeS s m i v).core.dqCairn = s.core.dqCairn := rfl

/-! ### `withOp` -/

@[simp] theorem withOp_unit (s : State) (o : Op) : (withOp s o).unit = s.unit := rfl
@[simp] theorem withOp_sched (s : State) (o : Op) : (withOp s o).sched = s.sched := rfl
@[simp] theorem withOp_occ (s : State) (o : Op) : (withOp s o).occ = s.occ := rfl
@[simp] theorem withOp_cred (s : State) (o : Op) : (withOp s o).cred = s.cred := rfl
@[simp] theorem withOp_focus (s : State) (o : Op) : (withOp s o).focus = s.focus := rfl
@[simp] theorem withOp_free (s : State) (o : Op) : (withOp s o).free = s.free := rfl
@[simp] theorem withOp_serial (s : State) (o : Op) : (withOp s o).serial = s.serial := rfl
@[simp] theorem withOp_mem (s : State) (o : Op) : (withOp s o).mem = s.mem := rfl
@[simp] theorem withOp_task (s : State) (o : Op) : (withOp s o).task = s.task := rfl
@[simp] theorem withOp_eng (s : State) (o : Op) : (withOp s o).eng = s.eng := rfl
@[simp] theorem withOp_par (s : State) (o : Op) : (withOp s o).par = s.par := rfl
@[simp] theorem withOp_fab (s : State) (o : Op) : (withOp s o).fab = s.fab := rfl
@[simp] theorem withOp_hub (s : State) (o : Op) : (withOp s o).hub = s.hub := rfl
@[simp] theorem withOp_core_vreg (s : State) (o : Op) : (withOp s o).core.vreg = s.core.vreg := rfl
@[simp] theorem withOp_core_sreg (s : State) (o : Op) : (withOp s o).core.sreg = s.core.sreg := rfl
@[simp] theorem withOp_core_pred (s : State) (o : Op) : (withOp s o).core.pred = s.core.pred := rfl
@[simp] theorem withOp_core_members (s : State) (o : Op) : (withOp s o).core.members = s.core.members := rfl
@[simp] theorem withOp_core_threads (s : State) (o : Op) : (withOp s o).core.threads = s.core.threads := rfl
@[simp] theorem withOp_core_dq (s : State) (o : Op) : (withOp s o).core.dq = s.core.dq := rfl
@[simp] theorem withOp_core_dqCairn (s : State) (o : Op) : (withOp s o).core.dqCairn = s.core.dqCairn := rfl

/-! ### `setOp` -/

@[simp] theorem setOp_unit (s : State) (o : Op) : (setOp s o).unit = s.unit := rfl
@[simp] theorem setOp_sched (s : State) (o : Op) : (setOp s o).sched = s.sched := rfl
@[simp] theorem setOp_occ (s : State) (o : Op) : (setOp s o).occ = s.occ := rfl
@[simp] theorem setOp_cred (s : State) (o : Op) : (setOp s o).cred = s.cred := rfl
@[simp] theorem setOp_focus (s : State) (o : Op) : (setOp s o).focus = s.focus := rfl
@[simp] theorem setOp_free (s : State) (o : Op) : (setOp s o).free = s.free := rfl
@[simp] theorem setOp_serial (s : State) (o : Op) : (setOp s o).serial = s.serial := rfl
@[simp] theorem setOp_mem (s : State) (o : Op) : (setOp s o).mem = s.mem := rfl
@[simp] theorem setOp_task (s : State) (o : Op) : (setOp s o).task = s.task := rfl
@[simp] theorem setOp_eng (s : State) (o : Op) : (setOp s o).eng = s.eng := rfl
@[simp] theorem setOp_par (s : State) (o : Op) : (setOp s o).par = s.par := rfl
@[simp] theorem setOp_fab (s : State) (o : Op) : (setOp s o).fab = s.fab := rfl
@[simp] theorem setOp_hub (s : State) (o : Op) : (setOp s o).hub = s.hub := rfl
@[simp] theorem setOp_core_vreg (s : State) (o : Op) : (setOp s o).core.vreg = s.core.vreg := rfl
@[simp] theorem setOp_core_sreg (s : State) (o : Op) : (setOp s o).core.sreg = s.core.sreg := rfl
@[simp] theorem setOp_core_pred (s : State) (o : Op) : (setOp s o).core.pred = s.core.pred := rfl
@[simp] theorem setOp_core_members (s : State) (o : Op) : (setOp s o).core.members = s.core.members := rfl
@[simp] theorem setOp_core_threads (s : State) (o : Op) : (setOp s o).core.threads = s.core.threads := rfl
@[simp] theorem setOp_core_nextOp (s : State) (o : Op) : (setOp s o).core.nextOp = s.core.nextOp := rfl
@[simp] theorem setOp_core_dq (s : State) (o : Op) : (setOp s o).core.dq = s.core.dq := rfl
@[simp] theorem setOp_core_dqCairn (s : State) (o : Op) : (setOp s o).core.dqCairn = s.core.dqCairn := rfl

/-! ### `overtake` -/

@[simp] theorem overtake_unit (s : State) (m : Member) (cov : Op → Bool) (i : Nat) (mask : W32) : (overtake s m cov i mask).unit = s.unit := rfl
@[simp] theorem overtake_sched (s : State) (m : Member) (cov : Op → Bool) (i : Nat) (mask : W32) : (overtake s m cov i mask).sched = s.sched := rfl
@[simp] theorem overtake_occ (s : State) (m : Member) (cov : Op → Bool) (i : Nat) (mask : W32) : (overtake s m cov i mask).occ = s.occ := rfl
@[simp] theorem overtake_cred (s : State) (m : Member) (cov : Op → Bool) (i : Nat) (mask : W32) : (overtake s m cov i mask).cred = s.cred := rfl
@[simp] theorem overtake_focus (s : State) (m : Member) (cov : Op → Bool) (i : Nat) (mask : W32) : (overtake s m cov i mask).focus = s.focus := rfl
@[simp] theorem overtake_free (s : State) (m : Member) (cov : Op → Bool) (i : Nat) (mask : W32) : (overtake s m cov i mask).free = s.free := rfl
@[simp] theorem overtake_serial (s : State) (m : Member) (cov : Op → Bool) (i : Nat) (mask : W32) : (overtake s m cov i mask).serial = s.serial := rfl
@[simp] theorem overtake_mem (s : State) (m : Member) (cov : Op → Bool) (i : Nat) (mask : W32) : (overtake s m cov i mask).mem = s.mem := rfl
@[simp] theorem overtake_task (s : State) (m : Member) (cov : Op → Bool) (i : Nat) (mask : W32) : (overtake s m cov i mask).task = s.task := rfl
@[simp] theorem overtake_eng (s : State) (m : Member) (cov : Op → Bool) (i : Nat) (mask : W32) : (overtake s m cov i mask).eng = s.eng := rfl
@[simp] theorem overtake_par (s : State) (m : Member) (cov : Op → Bool) (i : Nat) (mask : W32) : (overtake s m cov i mask).par = s.par := rfl
@[simp] theorem overtake_fab (s : State) (m : Member) (cov : Op → Bool) (i : Nat) (mask : W32) : (overtake s m cov i mask).fab = s.fab := rfl
@[simp] theorem overtake_hub (s : State) (m : Member) (cov : Op → Bool) (i : Nat) (mask : W32) : (overtake s m cov i mask).hub = s.hub := rfl
@[simp] theorem overtake_core_vreg (s : State) (m : Member) (cov : Op → Bool) (i : Nat) (mask : W32) : (overtake s m cov i mask).core.vreg = s.core.vreg := rfl
@[simp] theorem overtake_core_sreg (s : State) (m : Member) (cov : Op → Bool) (i : Nat) (mask : W32) : (overtake s m cov i mask).core.sreg = s.core.sreg := rfl
@[simp] theorem overtake_core_pred (s : State) (m : Member) (cov : Op → Bool) (i : Nat) (mask : W32) : (overtake s m cov i mask).core.pred = s.core.pred := rfl
@[simp] theorem overtake_core_members (s : State) (m : Member) (cov : Op → Bool) (i : Nat) (mask : W32) : (overtake s m cov i mask).core.members = s.core.members := rfl
@[simp] theorem overtake_core_threads (s : State) (m : Member) (cov : Op → Bool) (i : Nat) (mask : W32) : (overtake s m cov i mask).core.threads = s.core.threads := rfl
@[simp] theorem overtake_core_nextOp (s : State) (m : Member) (cov : Op → Bool) (i : Nat) (mask : W32) : (overtake s m cov i mask).core.nextOp = s.core.nextOp := rfl
@[simp] theorem overtake_core_dq (s : State) (m : Member) (cov : Op → Bool) (i : Nat) (mask : W32) : (overtake s m cov i mask).core.dq = s.core.dq := rfl
@[simp] theorem overtake_core_dqCairn (s : State) (m : Member) (cov : Op → Bool) (i : Nat) (mask : W32) : (overtake s m cov i mask).core.dqCairn = s.core.dqCairn := rfl

/-! ### `commit` -/

@[simp] theorem commit_unit (s t : State) : (commit s t).unit = s.unit := rfl
@[simp] theorem commit_free (s t : State) : (commit s t).free = s.free + 1 := rfl
@[simp] theorem commit_sched (s t : State) : (commit s t).sched = t.sched := rfl
@[simp] theorem commit_occ (s t : State) : (commit s t).occ = t.occ := rfl
@[simp] theorem commit_cred (s t : State) : (commit s t).cred = t.cred := rfl
@[simp] theorem commit_focus (s t : State) : (commit s t).focus = t.focus := rfl
@[simp] theorem commit_serial (s t : State) : (commit s t).serial = t.serial := rfl
@[simp] theorem commit_core (s t : State) : (commit s t).core = t.core := rfl
@[simp] theorem commit_mem (s t : State) : (commit s t).mem = t.mem := rfl
@[simp] theorem commit_task (s t : State) : (commit s t).task = t.task := rfl
@[simp] theorem commit_eng (s t : State) : (commit s t).eng = t.eng := rfl
@[simp] theorem commit_par (s t : State) : (commit s t).par = t.par := rfl
@[simp] theorem commit_fab (s t : State) : (commit s t).fab = t.fab := rfl
@[simp] theorem commit_hub (s t : State) : (commit s t).hub = t.hub := rfl

/-! ### Lookups -/

@[simp] theorem thread?_setThread_self (s : State) (t : Thread) (r : ThreadRec) : (s.setThread t r).thread? t = some r := by
  simp [State.thread?, State.setThread]

theorem thread?_setThread_ne (s : State) (t u : Thread) (r : ThreadRec) (h : u ≠ t) :
    (s.setThread t r).thread? u = s.thread? u := by
  simp [State.thread?, State.setThread, Tbl.get?_set_ne _ t u r h.symm]

@[simp] theorem member?_setMember_self (s : State) (m : Member) (r : MemberRec) : (s.setMember m r).member? m = some r := by
  simp [State.member?, State.setMember]

theorem member?_setMember_ne (s : State) (m n : Member) (r : MemberRec) (h : n ≠ m) :
    (s.setMember m r).member? n = s.member? n := by
  simp [State.member?, State.setMember, Tbl.get?_set_ne _ m n r h.symm]

@[simp] theorem team?_setTeam_self (s : State) (isl team : Nat) (t : Team) : (s.setTeam isl team t).team? isl team = some t := by
  simp [State.team?, State.setTeam]

@[simp] theorem member?_setThread (s : State) (t : Thread) (r : ThreadRec) (m : Member) :
    (s.setThread t r).member? m = s.member? m := rfl
@[simp] theorem team?_setThread (s : State) (t : Thread) (r : ThreadRec) (i k : Nat) :
    (s.setThread t r).team? i k = s.team? i k := rfl
@[simp] theorem thread?_setMember (s : State) (m : Member) (r : MemberRec) (t : Thread) :
    (s.setMember m r).thread? t = s.thread? t := rfl
@[simp] theorem thread?_commit (s u : State) (t : Thread) : (commit s u).thread? t = u.thread? t := rfl
@[simp] theorem member?_commit (s u : State) (m : Member) : (commit s u).member? m = u.member? m := rfl
@[simp] theorem team?_commit (s u : State) (i k : Nat) : (commit s u).team? i k = u.team? i k := rfl

/-- A record set twice is set last. -/
theorem Tbl.set_set {κ α : Type} [DecidableEq κ] (t : Tbl κ α) (x : κ) (v w : α) : (t.set x v).set x w = t.set x w := by
  induction t with
  | nil => simp [Tbl.set]
  | cons e t ih =>
    obtain ⟨k, u⟩ := e
    by_cases hk : k = x <;> simp [Tbl.set, hk, ih]

@[simp] theorem setThread_setThread (s : State) (t : Thread) (r r' : ThreadRec) :
    (s.setThread t r).setThread t r' = s.setThread t r' := by
  simp [State.setThread, Tbl.set_set]

end Sys2Proof.Machine
end

