-- ==== Sys2Proof/Laws/Issue.lean ====
section
/-! SUPPORT. The issue of one instruction, said once: it always answers a next state, and where the instruction is clear
to execute, the state is what its own meaning leaves, with its slot done. -/

namespace Sys2Proof.Machine

open Sys2Proof

/-- An instruction answers a next state whenever some instruction is in issue. -/
theorem issue_answers (s : State) (h : Head) (k : Kind) (srcs : List Src) (body : Issue → Body)
    (hi : (issue? s).isSome = true) : ∃ t, issue s h k srcs body = .next (commit s t) := by
  obtain ⟨c0, hc⟩ := Option.isSome_iff_exists.1 hi
  simp only [issue, hc]
  split <;> exact ⟨_, rfl⟩

/-- An instruction that answers a next state ends in `commit`. -/
theorem issue_commits (s t : State) (h : Head) (k : Kind) (srcs : List Src) (body : Issue → Body)
    (ht : issue s h k srcs body = .next t) : ∃ u, t = commit s u := by
  unfold issue at ht
  split at ht
  · exact nomatch ht
  · simp only at ht
    split at ht <;> exact ⟨_, (Host.Outcome.next.inj ht).symm⟩

/-- What an instruction that is clear to execute answers. -/
theorem issue_clear {s : State} {h : Head} {k : Kind} {srcs : List Src} {c : Issue} (hc : Clear s h k srcs c)
    (body : Issue → Body) : issue s h k srcs body = .next (commit s (settle s c (body c))) := by
  obtain ⟨⟨c0, h0, hg⟩, hr, hf, hu, hfall, hs⟩ := hc
  unfold issue
  rw [h0]
  simp only [← hg, hf, hr]
  have hun : ¬ (k.once = true ∧ (!k.quiet) = true ∧ (!c.gaffer) = true ∧ c.tm.hdr.uchk = true ∧ c.guardDiff s h ≠ 0) := by
    rintro ⟨a, -, b, d, e⟩
    rcases hu a with x | x | x
    · simp [x] at b
    · simp [x] at d
    · exact e x
  simp only [hun, hs, ite_self, Bool.false_eq_true, if_false]
  by_cases hk : k.falls = true
  · by_cases hft : c.fallsThrough = true
    · simp [hk, hft, hfall hk hft, ClauseRes.trap]
    · simp [hft, ClauseRes.trap]
  · simp [hk, ClauseRes.trap]

/-- The thread of the instruction in issue has the record that the issue holds. -/
theorem Clear.thread {s : State} {h : Head} {k : Kind} {srcs : List Src} {c : Issue} (hc : Clear s h k srcs c) :
    s.thread? c.th = some c.r ∧ s.member? c.th.m = some c.mr ∧ s.team? c.th.m.isl c.th.m.team = some c.tm := by
  obtain ⟨⟨c0, h0, hg⟩, -⟩ := hc
  have hth : c.th = c0.th ∧ c.r = c0.r ∧ c.mr = c0.mr ∧ c.tm = c0.tm := by
    subst hg; unfold Issue.guard; split <;> exact ⟨rfl, rfl, rfl, rfl⟩
  unfold issue? at h0
  split at h0
  · exact nomatch h0
  · next th _ =>
    split at h0
    · exact nomatch h0
    · next r hr =>
      split at h0
      · next cl mr tm hcl hmr htm =>
        have := (Option.some.inj h0)
        subst this
        simp only at hth
        obtain ⟨a, b, d, e⟩ := hth
        rw [a, b, d, e]
        exact ⟨hr, hmr, htm⟩
      · exact nomatch h0

/-- R302: an instruction that acts once executes in every active lane or in none. -/
theorem Clear.once {s : State} {h : Head} {k : Kind} {srcs : List Src} {c : Issue} (hc : Clear s h k srcs c)
    (hk : k.once = true) : c.exec = 0 ∨ c.exec = c.active := by
  obtain ⟨⟨c0, h0, hg⟩, -⟩ := hc
  subst hg
  simp only [Issue.guard, hk, if_true]
  split
  · exact .inr rfl
  · exact .inl rfl

/-- The end of a slot of a thread that leaves nothing to the end of its clause. -/
theorem finishSlot_plain (s : State) (c : Issue) (r : ThreadRec) (latch : List W64) (ht : s.thread? c.th = some r)
    (he : c.NothingDue r) (hm : r.mask &&& ~~~r.exited ≠ 0) :
    finishSlot s c.th latch c.isLast c.fall = c.advance s r latch := by
  have hcut : cutShort { r with
      latches := r.latches.set (r.slot % 8) latch, slot := r.slot + 1,
      wait := { r.wait with replay := none, portless := false } }
      c.th.m.gaffer = false := by
    have hd := he.attached
    simp only [cutShort, Bool.or_eq_false_iff, Bool.and_eq_false_iff, hd, and_true]
    right
    simpa using hm
  unfold finishSlot
  rw [ht]
  simp only [hcut, Bool.or_false]
  unfold Issue.advance Issue.after Issue.past
  by_cases hl : c.isLast = true
  · simp only [hl, if_true]
    unfold endClause
    simp only [thread?_setThread_self]
    have : ¬ (r.mask &&& ~~~r.exited = 0 ∧ (!c.th.m.gaffer) = true) := fun h => hm h.1
    simp only [this, if_false]
    unfold runEnds
    simp [State.thread?, State.setThread, he.none hl, Tbl.set_set]
  · simp [hl]
    cases s; rfl

/-- A plain slot that is done. -/
theorem settle_done (s s' : State) (c : Issue) (r : ThreadRec) (latch : List W64) (ht : s'.thread? c.th = some r)
    (he : c.NothingDue r) (hm : r.mask &&& ~~~r.exited ≠ 0) : settle s c (.done s' latch) = c.advance s' r latch :=
  finishSlot_plain s' c r latch ht he hm

/-- An instruction that is clear to execute and whose meaning takes effect. -/
theorem issue_done {s s' : State} {h : Head} {k : Kind} {srcs : List Src} {c : Issue} {latch : List W64} {r : ThreadRec}
    {body : Issue → Body} (hc : Clear s h k srcs c) (hb : body c = .done s' latch) (ht : s'.thread? c.th = some r)
    (he : c.NothingDue r) (hm : r.mask &&& ~~~r.exited ≠ 0) :
    issue s h k srcs body = .next (commit s (c.advance s' r latch)) := by
  rw [issue_clear hc, hb, settle_done s s' c r latch ht he hm]

/-! ### What a moved thread leaves alone -/

@[simp] theorem advance_core_vreg (c : Issue) (s : State) (r : ThreadRec) (l : List W64) :
    (c.advance s r l).core.vreg = s.core.vreg := rfl
@[simp] theorem advance_core_sreg (c : Issue) (s : State) (r : ThreadRec) (l : List W64) :
    (c.advance s r l).core.sreg = s.core.sreg := rfl
@[simp] theorem advance_core_pred (c : Issue) (s : State) (r : ThreadRec) (l : List W64) :
    (c.advance s r l).core.pred = s.core.pred := rfl
@[simp] theorem advance_core_ops (c : Issue) (s : State) (r : ThreadRec) (l : List W64) :
    (c.advance s r l).core.ops = s.core.ops := rfl
@[simp] theorem advance_mem (c : Issue) (s : State) (r : ThreadRec) (l : List W64) : (c.advance s r l).mem = s.mem := rfl
@[simp] theorem advance_task (c : Issue) (s : State) (r : ThreadRec) (l : List W64) : (c.advance s r l).task = s.task := rfl
@[simp] theorem advance_eng (c : Issue) (s : State) (r : ThreadRec) (l : List W64) : (c.advance s r l).eng = s.eng := rfl
@[simp] theorem advance_par (c : Issue) (s : State) (r : ThreadRec) (l : List W64) : (c.advance s r l).par = s.par := rfl
@[simp] theorem advance_fab (c : Issue) (s : State) (r : ThreadRec) (l : List W64) : (c.advance s r l).fab = s.fab := rfl
@[simp] theorem advance_hub (c : Issue) (s : State) (r : ThreadRec) (l : List W64) : (c.advance s r l).hub = s.hub := rfl
@[simp] theorem advance_member? (c : Issue) (s : State) (r : ThreadRec) (l : List W64) (m : Member) :
    (c.advance s r l).member? m = s.member? m := rfl
@[simp] theorem advance_thread?_self (c : Issue) (s : State) (r : ThreadRec) (l : List W64) :
    (c.advance s r l).thread? c.th = some (c.after r l) := by
  simp [Issue.advance, State.thread?, State.setThread]
theorem advance_thread?_ne (c : Issue) (s : State) (r : ThreadRec) (l : List W64) (t : Thread) (h : t ≠ c.th) :
    (c.advance s r l).thread? t = s.thread? t := by
  simp [Issue.advance, State.thread?, State.setThread, Tbl.get?_set_ne _ c.th t _ h.symm]

end Sys2Proof.Machine
end

