-- ==== Sys2Proof/Laws/Memory.lean ====
section
/-! SUPPORT. What a write at a home bank does (R195 to R197), said once: the bytes of its range take their values, and
everything but caches, owners, poison and watches is as it was. -/

namespace Sys2Proof.Machine

open Sys2Proof

/-- A fold that keeps a view of the state at each step keeps it. -/
theorem foldl_keeps {α β γ : Type} (f : α → β → α) (g : α → γ) (h : ∀ a b, g (f a b) = g a) (l : List β) (a : α) :
    g (l.foldl f a) = g a := by
  induction l generalizing a with
  | nil => rfl
  | cons b l ih => simp [ih, h]

/-- The parts of memory that hold bytes and words of data, without the caches, their owners and poison. -/
def MemSt.data (m : MemSt) : Mem × Mem × Mem × Mem × Tbl (Nat × Nat × Nat × Nat) W32 := (m.hbm, m.l2, m.l2mark, m.spad, m.acc)

/-- Poison that moves to HBM changes no data. -/
theorem MemSt.data_evictPoison (m : MemSt) (isl sec : Nat) : (m.evictPoison isl sec).data = m.data := by
  unfold MemSt.evictPoison; split <;> rfl

/-- Poison that is cured changes no data. -/
theorem MemSt.data_cureSector (m : MemSt) (l : Loc) (k : BitVec 64) : (m.cureSector l k).data = m.data := by
  unfold MemSt.cureSector; split
  · rfl
  · dsimp only; split <;> rfl

/-- Poison that a write cures changes no data. -/
theorem MemSt.data_curePoison (m : MemSt) (f : Nat → Loc) (a n : Nat) : (m.curePoison f a n).data = m.data := by
  unfold MemSt.curePoison; split
  · rfl
  · exact foldl_keeps _ MemSt.data (fun m sec => m.data_cureSector _ _) _ _

/-- The owners of words are no data. -/
theorem MemSt.data_clearOwner (m : MemSt) (isl : Nat) (c : Option Nat) (pa n : Nat) : (m.clearOwner isl c pa n).data = m.data := by
  unfold MemSt.clearOwner
  apply foldl_keeps (g := MemSt.data)
  intro m w
  rfl

/-- What a byte reads depends on the data alone. -/
theorem MemSt.byte_data {m n : MemSt} (h : m.data = n.data) (i a : Nat) : m.byte i a = n.byte i a := by
  simp only [MemSt.data, Prod.mk.injEq] at h
  simp [MemSt.byte, h]

/-- R197: the eviction of a line changes no byte as its home bank reads it, no scratchpad and no accumulator word. -/
theorem MemSt.evict_same (m : MemSt) (isl line : Nat) :
    (∀ i a, (m.evict isl line).byte i a = m.byte i a) ∧ (m.evict isl line).spad = m.spad ∧ (m.evict isl line).acc = m.acc := by
  have hp : ∀ (l : List Nat) (m : MemSt), ((l.foldl (fun m i => m.evictPoison isl (line * 4 + i)) m)).data = m.data :=
    fun l m => foldl_keeps _ MemSt.data (fun m i => m.data_evictPoison _ _) l m
  unfold MemSt.evict
  have key : ∀ (l : List Nat) (m n : MemSt), (∀ i a, m.byte i a = n.byte i a) ∧ m.spad = n.spad ∧ m.acc = n.acc →
      let r := l.foldl (fun m i =>
        let k := gkey isl (line * 256 + i)
        if m.l2mark.get k = 0 then m
        else { m with hbm := m.hbm.put k (m.l2.get k), l2 := m.l2.put k 0, l2mark := m.l2mark.put k 0 }) m
      (∀ i a, r.byte i a = n.byte i a) ∧ r.spad = n.spad ∧ r.acc = n.acc := by
    intro l
    induction l with
    | nil => intro m n h; exact h
    | cons x l ih =>
      intro m n h
      simp only [List.foldl_cons]
      apply ih
      split
      · exact h
      · next hk =>
        refine ⟨fun i a => ?_, h.2⟩
        rw [← h.1 i a]
        simp only [MemSt.byte, Mem.get_put]
        by_cases e : gkey i a = gkey isl (line * 256 + x)
        · simp only [e, if_true, if_neg hk]
        · simp [e]
  apply key
  have := hp (List.range 4) m
  exact ⟨fun i a => MemSt.byte_data this i a, by simp only [MemSt.data, Prod.mk.injEq] at this; exact this.2.2.2.1,
    by simp only [MemSt.data, Prod.mk.injEq] at this; exact this.2.2.2.2⟩

/-- Islands have keys of their own. -/
theorem gkey_lt {isl i pa a : Nat} (ha : a < 2 ^ 39) (hp : pa < 2 ^ 39) : gkey i a = gkey isl pa ↔ i = isl ∧ a = pa := by
  unfold gkey; constructor
  · intro h; constructor <;> omega
  · rintro ⟨rfl, rfl⟩; rfl

/-- What a write at the home bank leaves, apart from bytes. -/
structure Kept (s t : State) : Prop where
  vreg : t.core.vreg = s.core.vreg
  sreg : t.core.sreg = s.core.sreg
  pred : t.core.pred = s.core.pred
  members : t.core.members = s.core.members
  ops : t.core.ops = s.core.ops
  dq : t.core.dq = s.core.dq
  task : t.task = s.task
  eng : t.eng = s.eng
  par : t.par = s.par
  fab : t.fab = s.fab
  hub : t.hub = s.hub
  spad : t.mem.spad = s.mem.spad
  acc : t.mem.acc = s.mem.acc
  sched : t.sched = s.sched
  serial : t.serial = s.serial

/-- A state keeps itself. -/
theorem Kept.rfl' (s : State) : Kept s s := ⟨rfl, rfl, rfl, rfl, rfl, rfl, rfl, rfl, rfl, rfl, rfl, rfl, rfl, rfl, rfl⟩

/-- What two changes in turn keep. -/
theorem Kept.trans {s t u : State} (h : Kept s t) (k : Kept t u) : Kept s u := by
  constructor <;> simp only [k.vreg, k.sreg, k.pred, k.members, k.ops, k.dq, k.task, k.eng, k.par, k.fab, k.hub, k.spad, k.acc, k.sched, k.serial, h.vreg, h.sreg, h.pred, h.members, h.ops, h.dq, h.task, h.eng, h.par, h.fab, h.hub, h.spad, h.acc, h.sched, h.serial]

/-- R196: a bank that makes room changes no byte. -/
theorem makeRoom_kept (isl : Nat) (s : State) (pa : Nat) :
    Kept s (makeRoom isl s pa) ∧ ∀ i a, (makeRoom isl s pa).mem.byte i a = s.mem.byte i a := by
  unfold makeRoom
  split
  · exact ⟨Kept.rfl' s, fun _ _ => rfl⟩
  · dsimp only; split
    · exact ⟨Kept.rfl' s, fun _ _ => rfl⟩
    · have h := s.mem.evict_same isl ((dirtyLines s isl pa).getLastD 0)
      unfold evictLine loseWatches
      generalize s.mem.evict isl ((dirtyLines s isl pa).getLastD 0) = m at h ⊢
      exact ⟨⟨rfl, rfl, rfl, rfl, rfl, rfl, rfl, rfl, rfl, rfl, rfl, h.2.1, h.2.2, rfl, rfl⟩, h.1⟩

/-- R195, R197: a write at the bank, with the watches that it wakes. -/
theorem writeBank_kept (s : State) (isl pa : Nat) (core : Option Nat) (bs : List Byte) (hp : pa + bs.length ≤ 2 ^ 39) :
    let t : State := wakeWatches { s with mem := (s.mem.writeBank isl pa bs).clearOwner isl core pa bs.length } isl pa bs.length
    Kept s t ∧ ∀ i a, a < 2 ^ 39 → t.mem.byte i a =
      if i = isl ∧ pa ≤ a ∧ a < pa + bs.length then bs.getD (a - pa) 0 else s.mem.byte i a := by
  intro t
  have h : t.mem.data = ({ s.mem with
      l2 := s.mem.l2.putBytes (gkey isl pa) bs
      l2mark := s.mem.l2mark.putBytes (gkey isl pa) (bs.map fun _ => 1) } : MemSt).data := by
    show (MemSt.clearOwner _ _ _ _ _).data = _
    rw [MemSt.data_clearOwner]; unfold MemSt.writeBank; rw [MemSt.data_curePoison]
  refine ⟨?_, fun i a ha => ?_⟩
  · simp only [MemSt.data, Prod.mk.injEq] at h
    constructor <;> first | rfl | exact h.2.2.2.1 | exact h.2.2.2.2
  · rw [MemSt.byte_data h]
    simp only [MemSt.byte, Mem.get_putBytes, List.length_map]
    by_cases e : i = isl ∧ pa ≤ a ∧ a < pa + bs.length
    · obtain ⟨rfl, h1, h2⟩ := e
      have e' : gkey i pa ≤ gkey i a ∧ gkey i a < gkey i pa + bs.length := by unfold gkey; omega
      have e2 : gkey i a - gkey i pa = a - pa := by unfold gkey; omega
      have e3 : a - pa < bs.length := by omega
      have e4 : ((bs.map fun _ => (1 : Byte)).getD (a - pa) 0) = 1 := by simp [List.getD_eq_getElem?_getD, e3]
      have e5 : ¬ ((1 : Byte) = 0) := by decide
      simp only [if_pos e', e2, e4, h1, h2, and_self, if_true, if_neg e5]
    · have e' : ¬ (gkey isl pa ≤ gkey i a ∧ gkey i a < gkey isl pa + bs.length) := by
        unfold gkey
        intro h
        apply e
        refine ⟨?_, ?_, ?_⟩ <;> omega
      simp only [if_neg e, if_neg e']

/-- R195: what a write that bypasses L1 leaves: the bytes of its range take their values, and no other byte changes. -/
theorem bypassBank_kept (s : State) (isl : Nat) (core : Option Nat) (pa : Nat) (bs : List Byte) (hp : pa + bs.length ≤ 2 ^ 39) :
    Kept s (bypassBank s isl core pa bs) ∧ ∀ i a, a < 2 ^ 39 → (bypassBank s isl core pa bs).mem.byte i a =
      if i = isl ∧ pa ≤ a ∧ a < pa + bs.length then bs.getD (a - pa) 0 else s.mem.byte i a := by
  unfold bypassBank
  have key : ∀ (n pa : Nat) (bs : List Byte) (s : State), bs.length < n → pa + bs.length ≤ 2 ^ 39 →
      let t := (lineParts n pa bs).foldl (fun s x =>
        let s := makeRoom isl s x.1
        wakeWatches { s with mem := (s.mem.writeBank isl x.1 x.2).clearOwner isl core x.1 x.2.length } isl x.1 x.2.length) s
      Kept s t ∧ ∀ i a, a < 2 ^ 39 → t.mem.byte i a =
        if i = isl ∧ pa ≤ a ∧ a < pa + bs.length then bs.getD (a - pa) 0 else s.mem.byte i a := by
    intro n
    induction n with
    | zero => intro pa bs s h; omega
    | succ n ih =>
      intro pa bs s hl hb
      unfold lineParts
      by_cases he : bs = []
      · subst he
        simp only [List.isEmpty_nil, if_true, List.foldl_nil, List.length_nil]
        refine ⟨Kept.rfl' s, fun i a _ => ?_⟩
        rw [if_neg (by omega)]
      · have hpos : 0 < bs.length := List.length_pos_iff.2 he
        have hne : bs.isEmpty = false := by simpa using he
        simp only [hne, Bool.false_eq_true, if_false, List.foldl_cons]
        have hk : 0 < 256 - pa % 256 := by omega
        have ht : (bs.take (256 - pa % 256)).length = min (256 - pa % 256) bs.length := List.length_take
        have hd : (bs.drop (256 - pa % 256)).length = bs.length - (256 - pa % 256) := List.length_drop
        obtain ⟨k1, b1⟩ := makeRoom_kept isl s pa
        obtain ⟨k2, b2⟩ := writeBank_kept (makeRoom isl s pa) isl pa core (bs.take (256 - pa % 256)) (by rw [ht]; omega)
        by_cases hs : bs.length ≤ 256 - pa % 256
        · have hz : bs.drop (256 - pa % 256) = [] := List.drop_eq_nil_of_le hs
          have hl0 : ∀ p, lineParts n p [] = [] := by intro p; cases n <;> simp [lineParts]
          rw [hz, hl0]
          simp only [List.foldl_nil]
          refine ⟨k1.trans k2, fun i a ha => ?_⟩
          rw [b2 i a ha, List.take_of_length_le hs, b1]
        · obtain ⟨k3, b3⟩ := ih (pa + (256 - pa % 256)) (bs.drop (256 - pa % 256)) _ (by omega) (by omega)
          refine ⟨(k1.trans k2).trans k3, fun i a ha => ?_⟩
          rw [b3 i a ha, b2 i a ha, b1]
          by_cases hi : i = isl
          · by_cases c1 : pa + (256 - pa % 256) ≤ a
            · by_cases c2 : a < pa + bs.length
              · rw [if_pos ⟨hi, c1, by omega⟩, if_pos ⟨hi, by omega, c2⟩]
                simp only [List.getD_eq_getElem?_getD, List.getElem?_drop]
                congr 2; omega
              · rw [if_neg (by omega), if_neg (by omega), if_neg (by omega)]
            · by_cases c2 : pa ≤ a
              · rw [if_neg (by omega), if_pos ⟨hi, c2, by omega⟩, if_pos ⟨hi, c2, by omega⟩]
                simp only [List.getD_eq_getElem?_getD]
                rw [List.getElem?_take_of_lt (by omega)]
              · rw [if_neg (by omega), if_neg (by omega), if_neg (by omega)]
          · simp [hi]
  exact key _ pa bs s (by omega) hp

end Sys2Proof.Machine
end

