-- ==== Sys2Proof/Laws/Registers.lean ====
section
/-! SUPPORT. The register results of fixed-latency instructions: what a lane-wise, a scalar and a predicate result change,
and that they change nothing else. -/

namespace Sys2Proof.Machine

open Sys2Proof

/-! ### Flags -/

theorem orFlags_member (s : State) (m : Member) (fl : Nat) (m' : Member) :
    (orFlags s m fl).member? m' =
      if m' = m then (s.member? m).map (fun r => { r with fstat := r.fstat ||| w64 fl }) else s.member? m' := by
  unfold orFlags
  split
  · next h =>
    subst h
    split
    · next h => subst h; cases hx : s.member? m' <;> simp [w64]
    · rfl
  · split
    · next r hr =>
      split
      · next h => subst h; simp [hr]
      · next h => exact member?_setMember_ne s m m' _ h
    · next hr =>
      split
      · next h => subst h; simp [hr]
      · rfl

/-- The flags of a member change its record in the cores and nothing else. -/
theorem orFlags_shape (s : State) (m : Member) (fl : Nat) :
    ∃ ms, orFlags s m fl = { s with core := { s.core with members := ms } } := by
  unfold orFlags
  split
  · exact ⟨s.core.members, rfl⟩
  · split
    · exact ⟨_, rfl⟩
    · exact ⟨s.core.members, rfl⟩

/-! ### Vector registers -/

theorem writeV_shape (s : State) (m : Member) (i : Nat) (mask : W32) (v : List W32) :
    ∃ vr ps, writeV s m i mask v = { s with core := { s.core with vreg := vr }, mem := { s.mem with poison := ps } } := by
  unfold writeV
  split
  · exact ⟨s.core.vreg, s.mem.poison, rfl⟩
  · split
    · exact ⟨_, _, rfl⟩
    · exact ⟨_, s.mem.poison, rfl⟩

theorem writeV_ne (s : State) (m m' : Member) (i j : Nat) (mask : W32) (v : List W32) (h : m' ≠ m ∨ j ≠ i) :
    (writeV s m i mask v).core.vreg.getD (m', j) [] = s.core.vreg.getD (m', j) [] := by
  unfold writeV
  split
  · rfl
  · refine Tbl.getD_set_ne _ _ _ _ _ ?_
    intro e
    cases e
    rcases h with h | h <;> exact h rfl

theorem writeV_lane (s : State) (m : Member) (i : Nat) (mask : W32) (v : List W32) (l : Nat) (hl : l < 32) :
    vlane (writeV s m i mask v) m i l = if mask.getLsbD l then lane32 v l else vlane s m i l := by
  unfold writeV
  split
  · next h => subst h; simp
  · simp only [vlane, Tbl.getD_set_self]
    exact lane32_lanesOf _ l hl

/-- A lane-wise result touches the vector registers, the marks of overtaken operations, and poison. -/
theorem putV_shape (s : State) (c : Issue) (h : Head) (w : Nat) (vals : List W64) :
    ∃ vr os ps, putV s c h w vals =
      { s with core := { s.core with vreg := vr, ops := os }, mem := { s.mem with poison := ps } } := by
  have step : ∀ (t : State) (j : Nat) (v : List W32),
      (∃ vr os ps, t = { s with core := { s.core with vreg := vr, ops := os }, mem := { s.mem with poison := ps } }) →
      ∃ vr os ps, writeV (overtake t c.th.m (·.coversV j) j c.exec) c.th.m j c.exec v =
        { s with core := { s.core with vreg := vr, ops := os }, mem := { s.mem with poison := ps } } := by
    rintro t j v ⟨vr, os, ps, rfl⟩
    unfold writeV
    split
    · exact ⟨_, _, _, rfl⟩
    · split
      · exact ⟨_, _, _, rfl⟩
      · exact ⟨_, _, _, rfl⟩
  unfold putV
  split
  · exact ⟨s.core.vreg, s.core.ops, s.mem.poison, rfl⟩
  · have h1 := step s h.d (vals.map fun (v : W64) => BitVec.setWidth 32 v) ⟨s.core.vreg, s.core.ops, s.mem.poison, rfl⟩
    simp only
    split
    · exact step _ _ _ h1
    · exact h1

theorem putV_ne (s : State) (c : Issue) (h : Head) (w : Nat) (vals : List W64) (m : Member) (i : Nat)
    (hn : h.k = true ∨ m ≠ c.th.m ∨ i ≠ h.d ∧ (w = 2 → i ≠ h.d + 1)) :
    (putV s c h w vals).core.vreg.getD (m, i) [] = s.core.vreg.getD (m, i) [] := by
  unfold putV
  split
  · rfl
  · next hk =>
    have h1 : m ≠ c.th.m ∨ i ≠ h.d := by
      rcases hn with x | x | x
      · exact absurd x hk
      · exact .inl x
      · exact .inr x.1
    simp only
    split
    · next hw =>
      have h2 : m ≠ c.th.m ∨ i ≠ h.d + 1 := by
        rcases hn with x | x | x
        · exact absurd x hk
        · exact .inl x
        · exact .inr (x.2 hw)
      rw [writeV_ne _ _ _ _ _ _ _ h2]
      exact writeV_ne _ _ _ _ _ _ _ h1
    · exact writeV_ne _ _ _ _ _ _ _ h1

theorem lane32_map_low (f : Nat → W64) (g : W64 → W32) (l : Nat) (hl : l < 32) :
    lane32 ((lanesOf f).map g) l = g (f l) := by
  simp [lane32, lanesOf, List.getD, hl]

theorem putV_low (s : State) (c : Issue) (h : Head) (w : Nat) (f : Nat → W64) (hk : h.k = false) (l : Nat) (hl : l < 32) :
    vlane (putV s c h w (lanesOf f)) c.th.m h.d l =
      if c.exec.getLsbD l then (f l).setWidth 32 else vlane s c.th.m h.d l := by
  have base : ∀ s', vlane s' c.th.m h.d l = vlane s c.th.m h.d l → vlane (writeV s' c.th.m h.d c.exec
      ((lanesOf f).map fun (v : W64) => BitVec.setWidth 32 v)) c.th.m h.d l =
      if c.exec.getLsbD l then (f l).setWidth 32 else vlane s c.th.m h.d l := by
    intro s' he
    rw [writeV_lane _ _ _ _ _ _ hl, he]
    by_cases hx : c.exec.getLsbD l = true
    · simp only [hx, if_true]; exact lane32_map_low f _ l hl
    · simp [hx]
  unfold putV
  simp only [hk, Bool.false_eq_true, if_false]
  split
  · unfold vlane
    rw [writeV_ne _ _ _ _ _ _ _ (.inr (by omega))]
    exact base (overtake s c.th.m (·.coversV h.d) h.d c.exec) rfl
  · exact base (overtake s c.th.m (·.coversV h.d) h.d c.exec) rfl

theorem putV_high (s : State) (c : Issue) (h : Head) (f : Nat → W64) (hk : h.k = false) (l : Nat) (hl : l < 32) :
    vlane (putV s c h 2 (lanesOf f)) c.th.m (h.d + 1) l =
      if c.exec.getLsbD l then (f l >>> 32).setWidth 32 else vlane s c.th.m (h.d + 1) l := by
  unfold putV
  simp only [hk, Bool.false_eq_true, if_false, if_true]
  rw [writeV_lane _ _ _ _ _ _ hl]
  by_cases hx : c.exec.getLsbD l = true
  · simp only [hx, if_true]; exact lane32_map_low f _ l hl
  · simp only [hx, Bool.false_eq_true, if_false]
    unfold vlane
    congr 1
    exact writeV_ne _ _ _ _ _ _ _ (.inr (by omega))

/-! ### Frames -/

/-- A change of registers, operations, members and poison alone leaves everything beyond the cores as it was. -/
theorem quiet_of (s : State) (core : CoreSt) (ps : List Loc) (foc : Option Thread) (fr : Nat) :
    Quiet s { s with core := core, mem := { s.mem with poison := ps }, focus := foc, free := fr } :=
  ⟨⟨fun _ _ => rfl, fun _ => rfl, fun _ => rfl, rfl⟩, rfl, rfl, rfl, rfl, rfl, rfl⟩

theorem Quiet.of_eq {s t u : State} (h : Quiet s u) (hm : t.mem = u.mem) (hu : t.unit = u.unit) (h1 : t.task = u.task)
    (h2 : t.eng = u.eng) (h3 : t.par = u.par) (h4 : t.fab = u.fab) (h5 : t.hub = u.hub) : Quiet s t := by
  obtain ⟨⟨a, b, c, d⟩, e, f, g, i, j, k⟩ := h
  exact ⟨⟨by rw [hm]; exact a, by rw [hm]; exact b, by rw [hm]; exact c, by rw [hm]; exact d⟩,
    by rw [hu, e], by rw [h1, f], by rw [h2, g], by rw [h3, i], by rw [h4, j], by rw [h5, k]⟩

theorem lanes_map (c : Issue) (f : Nat → W64 × Nat) :
    (c.lanes f).map (·.1) = lanesOf fun l => (if c.exec.getLsbD l then f l else (0, 0)).1 := by
  simp [Issue.lanes, lanesOf]

/-! ### The three kinds of result -/

/-- A lane-wise instruction of fixed latency, clear to execute. -/
theorem vec_done {s : State} {h : Head} {k : Kind} {srcs : List Src} {c : Issue} {w : Nat} {f : Nat → W64 × Nat}
    {body : Issue → Body} (hc : Clear s h k srcs c) (hp : Plain c) (hb : body c = vecBody s c h w f) :
    Gives (issue s h k srcs body) (VecDone s c h w f) := by
  obtain ⟨hth, hmr, -⟩ := hc.thread
  obtain ⟨vr, os, ps, es⟩ := putV_shape s c h w ((c.lanes f).map (·.1))
  obtain ⟨ms, eo⟩ := orFlags_shape (putV s c h w ((c.lanes f).map (·.1))) c.th.m (allFlags (c.lanes f))
  have hbody : body c = .done (orFlags (putV s c h w ((c.lanes f).map (·.1))) c.th.m (allFlags (c.lanes f)))
      ((c.lanes f).map (·.1)) := hb
  have ht : (orFlags (putV s c h w ((c.lanes f).map (·.1))) c.th.m (allFlags (c.lanes f))).thread? c.th = some c.r := by
    rw [eo, es]; exact hth
  refine ⟨_, issue_done hc hbody ht hp.ends hp.live, ?_⟩
  have hv : ∀ m i, (orFlags (putV s c h w ((c.lanes f).map (·.1))) c.th.m (allFlags (c.lanes f))).core.vreg.getD (m, i) [] =
      (putV s c h w ((c.lanes f).map (·.1))).core.vreg.getD (m, i) [] := fun m i => by rw [eo]
  refine ⟨?_, ?_, ?_, ?_, ?_, ⟨?_, ?_⟩, ⟨?_, ?_⟩, ?_⟩
  · intro hk l hl
    have := putV_low s c h w (fun l => (if c.exec.getLsbD l then f l else (0, 0)).1) hk l hl
    rw [← lanes_map] at this
    simp only [vlane, commit_core, advance_core_vreg, hv] at this ⊢
    rw [this]
    by_cases hx : c.exec.getLsbD l = true <;> simp [hx]
  · intro hk hw l hl
    subst hw
    have := putV_high s c h (fun l => (if c.exec.getLsbD l then f l else (0, 0)).1) hk l hl
    rw [← lanes_map] at this
    simp only [vlane, commit_core, advance_core_vreg, hv] at this ⊢
    rw [this]
    by_cases hx : c.exec.getLsbD l = true <;> simp [hx]
  · intro m i hn
    simp only [commit_core, advance_core_vreg, hv]
    exact putV_ne s c h w _ m i hn
  · simp only [commit_core, advance_core_sreg]; rw [eo, es]
  · simp only [commit_core, advance_core_pred]; rw [eo, es]
  · simp only [member?_commit, advance_member?, orFlags_member, if_true]
    rw [es]; rfl
  · intro m' hm'
    simp only [member?_commit, advance_member?, orFlags_member, hm', if_false]
    rw [es]; rfl
  · simp
  · intro th hne
    simp only [thread?_commit, advance_thread?_ne c _ _ _ th hne]
    rw [eo, es]; rfl
  · refine Quiet.of_eq (quiet_of s s.core ps s.focus s.free) ?_ rfl ?_ ?_ ?_ ?_ ?_ <;>
      simp only [commit_mem, advance_mem, commit_task, advance_task, commit_eng, advance_eng, commit_par, advance_par,
        commit_fab, advance_fab, commit_hub, advance_hub] <;> rw [eo, es]

/-- A scalar instruction of fixed latency, clear to execute. -/
theorem sca_done {s : State} {h : Head} {k : Kind} {srcs : List Src} {c : Issue} {w : Nat} {r : W64 × Nat}
    {body : Issue → Body} (hc : Clear s h k srcs c) (hp : Plain c) (hb : body c = scaBody s c h w fun _ => r) :
    Gives (issue s h k srcs body) (ScaDone s c h w r) := by
  obtain ⟨hth, hmr, -⟩ := hc.thread
  by_cases hx : c.exec = 0
  · have hbody : body c = .done s [] := by rw [hb]; simp [scaBody, hx]
    refine ⟨_, issue_done hc hbody hth hp.ends hp.live, ?_⟩
    refine ⟨fun _ h => absurd hx h, fun _ _ _ => rfl, rfl, rfl, ⟨?_, fun m' hm' => rfl⟩, ⟨?_, ?_⟩, ?_⟩
    · simp [hx, hmr, w64]
    · simp [hx]
    · intro th hne; simp only [thread?_commit, advance_thread?_ne c _ _ _ th hne]
    · exact Quiet.of_eq (quiet_of s s.core s.mem.poison s.focus s.free) rfl rfl rfl rfl rfl rfl rfl
  · have hbody : body c = .done (orFlags (putS s c h r.1) c.th.m r.2) (List.replicate 32 (latchOf w r.1)) := by
      rw [hb]; unfold scaBody; rw [if_neg hx]
    obtain ⟨ms, eo⟩ := orFlags_shape (putS s c h r.1) c.th.m r.2
    have es : ∃ sr os ps, putS s c h r.1 =
        { s with core := { s.core with sreg := sr, ops := os }, mem := { s.mem with poison := ps } } := by
      unfold putS
      split
      · exact ⟨s.core.sreg, s.core.ops, s.mem.poison, rfl⟩
      · exact ⟨_, _, _, rfl⟩
    obtain ⟨sr, os, ps, es⟩ := es
    have ht : (orFlags (putS s c h r.1) c.th.m r.2).thread? c.th = some c.r := by rw [eo, es]; exact hth
    refine ⟨_, issue_done hc hbody ht hp.ends hp.live, ?_⟩
    have hsr : (orFlags (putS s c h r.1) c.th.m r.2).core.sreg = (putS s c h r.1).core.sreg := by rw [eo]
    refine ⟨?_, ?_, ?_, ?_, ⟨?_, ?_⟩, ⟨?_, ?_⟩, ?_⟩
    · intro hk _
      simp only [commit_core, advance_core_sreg, hsr]
      simp [putS, hk, writeS]
    · intro m i hn
      simp only [commit_core, advance_core_sreg, hsr]
      unfold putS
      split
      · rfl
      · next hk =>
        refine Tbl.getD_set_ne _ _ _ _ _ ?_
        intro e
        cases e
        rcases hn with x | x | x | x
        · exact hk x
        · exact hx x
        · exact x rfl
        · exact x rfl
    · simp only [commit_core, advance_core_vreg]; rw [eo, es]
    · simp only [commit_core, advance_core_pred]; rw [eo, es]
    · simp only [member?_commit, advance_member?, orFlags_member, if_true, hx, if_false]
      rw [es]; rfl
    · intro m' hm'
      simp only [member?_commit, advance_member?, orFlags_member, hm', if_false]
      rw [es]; rfl
    · rw [if_neg hx]; simp [latchOf]
    · intro th hne
      simp only [thread?_commit, advance_thread?_ne c _ _ _ th hne]
      rw [eo, es]; rfl
    · refine Quiet.of_eq (quiet_of s s.core ps s.focus s.free) ?_ rfl ?_ ?_ ?_ ?_ ?_ <;>
        simp only [commit_mem, advance_mem, commit_task, advance_task, commit_eng, advance_eng, commit_par, advance_par,
          commit_fab, advance_fab, commit_hub, advance_hub] <;> rw [eo, es]

/-- A predicate after a write. -/
theorem writeP_lane (s : State) (m : Member) (p : Nat) (mask vals : W32) (hp : p ≠ 7) (l : Nat) :
    ((writeP s m p mask vals).core.pred.getD (m, p) 0).getLsbD l =
      if mask.getLsbD l then vals.getLsbD l else (s.core.pred.getD (m, p) 0).getLsbD l := by
  simp only [writeP, hp, if_false, Tbl.getD_set_self, BitVec.getLsbD_or, BitVec.getLsbD_and, BitVec.getLsbD_not]
  by_cases hl : l < 32
  · cases mask.getLsbD l <;> simp [hl]
  · have a : mask.getLsbD l = false := BitVec.getLsbD_of_ge _ _ (by omega)
    have b : (s.core.pred.getD (m, p) 0).getLsbD l = false := BitVec.getLsbD_of_ge _ _ (by omega)
    rw [a, b]
    simp

theorem writeP_ne (s : State) (m m' : Member) (p q : Nat) (mask vals : W32) (h : p = 7 ∨ m' ≠ m ∨ q ≠ p) :
    (writeP s m p mask vals).core.pred.getD (m', q) 0 = s.core.pred.getD (m', q) 0 := by
  unfold writeP
  split
  · rfl
  · next hp =>
    refine Tbl.getD_set_ne _ _ _ _ _ ?_
    intro e
    cases e
    rcases h with x | x | x
    · exact hp x
    · exact x rfl
    · exact x rfl

theorem writeP_shape (s : State) (m : Member) (p : Nat) (mask vals : W32) :
    ∃ pr ps, writeP s m p mask vals =
      { s with core := { s.core with pred := pr }, mem := { s.mem with poison := ps } } := by
  unfold writeP
  split
  · exact ⟨s.core.pred, s.mem.poison, rfl⟩
  · simp only
    split
    · exact ⟨_, _, rfl⟩
    · exact ⟨_, s.mem.poison, rfl⟩

/-- An instruction that writes a predicate, clear to execute: the values of the lanes that execute are those of a mask. -/
theorem pred_done {s : State} {h : Head} {k : Kind} {srcs : List Src} {c : Issue} {vals : W32} {f : Nat → Bool} {fl : Nat}
    {latch : List W64} {body : Issue → Body} (hc : Clear s h k srcs c) (hp : Plain c)
    (hf : ∀ l, l < 32 → c.exec.getLsbD l = true → vals.getLsbD l = f l)
    (hb : body c = .done (orFlags (putP s c h vals) c.th.m fl) latch) :
    Gives (issue s h k srcs body) (PredDone s c h f fl latch) := by
  obtain ⟨hth, hmr, -⟩ := hc.thread
  obtain ⟨ms, eo⟩ := orFlags_shape (putP s c h vals) c.th.m fl
  have es : ∃ pr ps, putP s c h vals =
      { s with core := { s.core with pred := pr }, mem := { s.mem with poison := ps } } := by
    unfold putP
    split
    · exact ⟨s.core.pred, s.mem.poison, rfl⟩
    · exact writeP_shape ..
  obtain ⟨pr, ps, es⟩ := es
  have ht : (orFlags (putP s c h vals) c.th.m fl).thread? c.th = some c.r := by rw [eo, es]; exact hth
  refine ⟨_, issue_done hc hb ht hp.ends hp.live, ?_⟩
  have hpr : (orFlags (putP s c h vals) c.th.m fl).core.pred = (putP s c h vals).core.pred := by rw [eo]
  refine ⟨?_, ?_, ?_, ?_, ⟨?_, ?_⟩, ⟨?_, ?_⟩, ?_⟩
  · intro hk hd l hl
    simp only [commit_core, advance_core_pred, hpr]
    simp only [putP, hk, Bool.false_eq_true, if_false]
    rw [writeP_lane s c.th.m h.d c.exec vals hd l]
    by_cases hx : c.exec.getLsbD l = true
    · simp [hx, hf l hl hx]
    · simp [hx]
  · intro m p hn
    simp only [commit_core, advance_core_pred, hpr]
    unfold putP
    split
    · rfl
    · next hk =>
      refine writeP_ne _ _ _ _ _ _ _ ?_
      rcases hn with x | x
      · exact absurd x hk
      · exact x
  · simp only [commit_core, advance_core_vreg]; rw [eo, es]
  · simp only [commit_core, advance_core_sreg]; rw [eo, es]
  · simp only [member?_commit, advance_member?, orFlags_member, if_true]
    rw [es]; rfl
  · intro m' hm'
    simp only [member?_commit, advance_member?, orFlags_member, hm', if_false]
    rw [es]; rfl
  · simp
  · intro th hne
    simp only [thread?_commit, advance_thread?_ne c _ _ _ th hne]
    rw [eo, es]; rfl
  · refine Quiet.of_eq (quiet_of s s.core ps s.focus s.free) ?_ rfl ?_ ?_ ?_ ?_ ?_ <;>
      simp only [commit_mem, advance_mem, commit_task, advance_task, commit_eng, advance_eng, commit_par, advance_par,
        commit_fab, advance_fab, commit_hub, advance_hub] <;> rw [eo, es]

/-! ### Operations that start -/

/-- R161: an instruction of variable latency, clear to execute. -/
theorem op_started {s s' : State} {h : Head} {k : Kind} {srcs : List Src} {c : Issue} {o : Op} {body : Issue → Body}
    (hc : Clear s h k srcs c) (hp : Plain c) (hs : s'.thread? c.th = some c.r) (hb : body c = .done (startOp s' c o) []) :
    issue s h k srcs body = .next (c.starts s s' o) := by
  have hr : (startOp s' c o).thread? c.th = some c.raised ∧
      ∃ f : State → State, True ∧ c.advance (startOp s' c o) c.raised [] = c.advance (withOp s' o) c.raised [] := by
    unfold startOp raiseSb Issue.raised
    have h1 : ({ s' with core := { s'.core with ops := s'.core.ops ++ [o], nextOp := s'.core.nextOp + 1 } } : State).thread? c.th =
        some c.r := hs
    rw [h1]
    simp only
    split
    · exact ⟨hs, id, trivial, rfl⟩
    · refine ⟨thread?_setThread_self .., id, trivial, ?_⟩
      unfold Issue.advance
      rw [setThread_setThread]
      rfl
  obtain ⟨ht, -, -, he⟩ := hr
  have h1 : c.NothingDue c.raised := by
    unfold Issue.raised; split
    · exact hp.ends
    · exact ⟨hp.ends.none, hp.ends.attached⟩
  have h2 : c.raised.mask &&& ~~~c.raised.exited ≠ 0 := by unfold Issue.raised; split <;> exact hp.live
  rw [issue_done hc hb ht h1 h2, he]
  rfl

/-- An instruction that is clear to issue and has no effect in any lane. -/
theorem op_passes {s : State} {h : Head} {k : Kind} {srcs : List Src} {c : Issue} {body : Issue → Body}
    (hc : Clear s h k srcs c) (hp : Plain c) (hb : body c = .done s []) :
    issue s h k srcs body = .next (c.passes s) :=
  issue_done hc hb hc.thread.1 hp.ends hp.live

end Sys2Proof.Machine
end

