-- ==== Sys2Proof/Tests/Slice0.lean ====
section
/-! SUPPORT. Tests: words and results that the spec gives, ill-formed instructions that are refused, and, for every statement
with hypotheses, a state that meets them. -/

namespace Sys2Proof.Tests

open Sys2Proof Sys2Proof.Machine

set_option Elab.async false

/-! ### Words that the spec gives (its worked examples) -/

/-- The instruction's guards always hold, and K is 0. -/
def plainHead (d : Nat) : Head := ⟨⟨false, 7⟩, ⟨false, 7⟩, false, d⟩

/-- Chapter 12's example. -/
theorem test_decode_ld : decode .strand 1024 0xB03B8014BF000600 =
    .ok (.ldVector (plainHead 1) .n32 .plain false 0 (.sreg 191) (.vreg 0)) := by decide +kernel
/-- Chapter 12's example. -/
theorem test_decode_iadd : decode .strand 1024 0x203B801001C01600 =
    .ok (.iaddVector (plainHead 1) .n32 false (.vreg 1) (.imm 1)) := by decide +kernel
/-- R334's first example. -/
theorem test_decode_iaddc : decode .strand 1024 0x213B804000002640 =
    .ok (.iaddcVector (plainHead 4) .n32 2 false 0 (.vreg 0) (.vreg 2)) := by decide +kernel
/-- R354's traced loop: the comparison. -/
theorem test_decode_icmp : decode .strand 1024 0x273B801002808601 =
    .ok (.icmpVector (plainHead 1) .n32 .ne (.vreg 2) (.konst .zero)) := by decide +kernel
/-- R354's traced loop: the branch. -/
theorem test_decode_br : decode .strand 1024 0x010B800000FFFFFC =
    .ok (.br ⟨⟨false, 1⟩, ⟨false, 7⟩, false, 0⟩ 0xFFFFFC) := by decide +kernel
/-- R361's example. -/
theorem test_decode_fadd_rtz : decode .strand 1024 0x603B804001002820 =
    .ok (.faddVector (plainHead 4) .f32 .rtz (.vreg 1) (.vreg 2)) := by decide +kernel
/-- R369's example. -/
theorem test_decode_fcvt : decode .strand 1024 0x65BB806005000B18 =
    .ok (.fcvtVector (plainHead 6) .e4m3 .rne true .f32 (.vreg 5)) := by decide +kernel
/-- R382's example. -/
theorem test_decode_scan : decode .strand 1024 0xA18B802001000600 =
    .ok (.scan ⟨⟨false, 1⟩, ⟨false, 7⟩, false, 2⟩ .n32 .rne .add false (.vreg 1)) := by decide +kernel
/-- R386's example. -/
theorem test_decode_ld_acq : decode .strand 1024 0xB83B80A414C10640 =
    .ok (.ldScalar (plainHead 10) .n32 .acq false 0 (.sreg 20) (.imm 16)) := by decide +kernel
/-- R392's example. -/
theorem test_decode_stsb : decode .strand 1024 0xB3BB805404002D00 =
    .ok (.stsbElementVector (plainHead 5) .e3m2 .plain 0 (.sreg 4) (.vreg 2)) := by decide +kernel
/-- R395's example. -/
theorem test_decode_atom : decode .strand 1024 0xB4BB803406809641 =
    .ok (.atomVector (plainHead 3) .n32 .acq .add 1 (.sreg 6) (.konst .one)) := by decide +kernel
/-- R415's example. -/
theorem test_decode_notify : decode .strand 1024 0xD23B80040AC01093 =
    .ok (.notifyRel (plainHead 0) (some 3) (.sreg 10) (.imm 1)) := by decide +kernel
/-- R420's example, in gaffer code. -/
theorem test_decode_mma_gaffer : decode .gaffer 1024 0xE03B804014015008 =
    .ok (.mma (plainHead 4) (.greg 20) (.greg 21) (.greg 8)) := by decide +kernel
/-- R445's example. -/
theorem test_decode_safept : decode .strand 1024 0x083B800000000007 = .ok (.safept (plainHead 0) 7) := by decide +kernel

/-! ### Ill-formed instructions -/

/-- R307: a vector destination at or above VR. -/
theorem test_wf_register : (Instr.iaddVector (plainHead 64) .n32 false (.vreg 0) (.vreg 1)).wf .strand 64 = false := by decide
/-- R306: a 64-bit pair at an odd register. -/
theorem test_wf_pair : (Instr.iaddVector (plainHead 1) .n64 false (.vreg 0) (.vreg 2)).wf .strand 64 = false := by decide
/-- R303: a gaffer register in strand code. -/
theorem test_wf_class : (Instr.iaddScalar (plainHead 1) .n32 false (.greg 0) (.sreg 1)).wf .strand 64 = false := by decide
/-- R314: a vector form in gaffer code. -/
theorem test_wf_form : (Instr.iaddVector (plainHead 1) .n32 false (.konst .one) (.konst .one)).wf .gaffer 64 = false := by decide
/-- R328: a type that IADD does not take. -/
theorem test_wf_type : (Instr.iaddVector (plainHead 1) .n8 false (.vreg 0) (.vreg 1)).wf .strand 64 = false := by decide
/-- R332: SAT on an unsigned INEG. -/
theorem test_wf_sat : (Instr.inegVector (plainHead 1) .n32 true (.vreg 0)).wf .strand 64 = false := by decide
/-- R336: a condition that is not for integers. -/
theorem test_wf_cond : (Instr.icmpVector (plainHead 1) .n32 .num (.vreg 0) (.vreg 1)).wf .strand 64 = false := by decide
/-- R307: a predicate above p7. -/
theorem test_wf_pred : (Instr.icmpVector (plainHead 8) .n32 .eq (.vreg 0) (.vreg 1)).wf .strand 64 = false := by decide
/-- R301: a guard above p7. -/
theorem test_wf_guard : (Instr.nop ⟨⟨false, 8⟩, ⟨false, 7⟩, false, 0⟩).wf .strand 64 = false := by decide
/-- R307: K on an instruction without a destination. -/
theorem test_wf_keep : (Instr.nop ⟨⟨false, 7⟩, ⟨false, 7⟩, true, 0⟩).wf .strand 64 = false := by decide
/-- R386: an acquiring store. -/
theorem test_wf_order :
    (Instr.stVector (plainHead 1) .n32 .acq false 0 (.sreg 0) (.vreg 1)).wf .strand 64 = false := by decide
/-- R311: an immediate as the base of an access. -/
theorem test_wf_base :
    (Instr.ldVector (plainHead 1) .n32 .plain false 0 (.imm 4) (.vreg 1)).wf .strand 64 = false := by decide
/-- R394: an exchange as a reduction. -/
theorem test_wf_reduction :
    (Instr.redVector (plainHead 0) .n32 .plain .exch 0 (.sreg 0) (.vreg 1)).wf .strand 64 = false := by decide
/-- R409: a channel above 15. -/
theorem test_wf_channel : (Instr.put (plainHead 1) .n32 (some 16) (.sreg 0) (.vreg 1)).wf .strand 64 = false := by decide
/-- R426: a bank above 127. -/
theorem test_wf_bank : (Instr.amzero (plainHead 128) 1).wf .strand 64 = false := by decide
/-- R420: an odd scalar pair. -/
theorem test_wf_spair : (Instr.mma (plainHead 4) (.sreg 0) (.sreg 1) (.sreg 9)).wf .strand 64 = false := by decide
/-- R426: four vector registers from an index that is no multiple of 4. -/
theorem test_wf_quad : (Instr.amst (plainHead 4) 0 (.vreg 2)).wf .strand 64 = false := by decide
/-- R443: a special register that does not exist. -/
theorem test_wf_special : (Instr.sysrd (plainHead 4) 0x15).wf .strand 64 = false := by decide
/-- Modifier values that R332, R337, R345, R354, R366, R369, R371, R378, R386, R394, R439, R444 and R445 do not admit. -/
theorem test_wf_modifiers :
    (Instr.iabsVector (plainHead 1) .n32 false (.vreg 0)).wf .strand 64 = false ∧
    (Instr.iaddcVector (plainHead 1) .n32 8 false 0 (.vreg 0) (.vreg 1)).wf .strand 64 = false ∧
    (Instr.selVector (plainHead 1) .n32 8 false (.vreg 0) (.vreg 1)).wf .strand 64 = false ∧
    (Instr.movhVector (plainHead 1) 2 0 (.vreg 0)).wf .strand 64 = false ∧
    (Instr.leaVector (plainHead 2) .n32 8 (.vreg 0) (.vreg 2)).wf .strand 64 = false ∧
    (Instr.v2pScalar (plainHead 1) 64 (.sreg 0)).wf .strand 64 = false ∧
    (Instr.plopVector (plainHead 1) 8 0 0 0).wf .strand 64 = false ∧
    (Instr.yield (plainHead 0) 1024).wf .strand 64 = false ∧
    (Instr.safept (plainHead 0) 4096).wf .strand 64 = false ∧
    (Instr.fcvtVector (plainHead 1) .f32 .rne false .f32 (.vreg 0)).wf .strand 64 = false ∧
    (Instr.i2fVector (plainHead 1) .f32 .rne .f16 (.vreg 0)).wf .strand 64 = false ∧
    (Instr.pushdq (plainHead 0) (.sreg 0)).wf .strand 64 = false ∧ (Instr.popdq (plainHead 0) 8).wf .strand 64 = false ∧
    (Instr.match (plainHead 1) .i32 (.vreg 0)).wf .strand 64 = false := by decide
/-- R311, R394: 16 bytes of elements that are not 64 bits wide, an offset that the field cannot hold, and operations that a
type does not take. -/
theorem test_wf_access :
    (Instr.ldVector (plainHead 4) .n32 .plain true 0 (.sreg 0) (.vreg 1)).wf .strand 64 = false ∧
    (Instr.ldVector (plainHead 4) .n32 .plain false 32 (.sreg 0) (.vreg 1)).wf .strand 64 = false ∧
    (Instr.ldxVector (plainHead 4) .n32 .plain false 4 0 (.sreg 0) (.vreg 1)).wf .strand 64 = false ∧
    (Instr.atomVector (plainHead 4) .f32 .plain .min 0 (.sreg 0) (.vreg 1)).wf .strand 64 = false ∧
    (Instr.stsbElementVector (plainHead 4) .n32 .plain 0 (.sreg 0) (.vreg 1)).wf .strand 64 = false := by decide
/-- An event is no instruction word. -/
theorem test_wf_event : Instr.putPacket.wf .strand 64 = false := by decide

/-! ### Results that the spec gives -/

/-- R335's table. -/
theorem test_division : wrapTo .i32 ((-7 : Int).tdiv 2) = 0xFFFFFFFD ∧ (Ty.i32.read 0xFFFFFFF9).tmod 2 = -1 := by decide
/-- R364's format: 470 to E4M3 under RNE overflows to a NaN, or to the maximum in the saturating form (R250's example). -/
theorem test_round_e4m3 :
    convert .e4m3 .f32 .rne false 0x43EB0000 = (0x7F, 5) ∧ convert .e4m3 .f32 .rne true 0x43EB0000 = (0x7E, 5) ∧
    convert .e4m3 .f32 .rne true 0x43E60000 = (0x7E, 1) := by decide +kernel
/-- R250's example: 2.5 and 5.0 to E2M1. -/
theorem test_round_e2m1 :
    convert .e2m1 .f32 .rne true 0x40200000 = (4, 1) ∧ convert .e2m1 .f32 .rne true 0x40A00000 = (6, 1) ∧
    convert .e2m1 .f32 .rmm true 0x40A00000 = (7, 1) := by decide +kernel
/-- R134: the last decrement makes a waiting record ready; one that finds no count is kept as LATE. -/
theorem test_join : decremented (1 * 2 ^ 56 + 1) 1 = (2 * 2 ^ 56, true) ∧
    decremented (1 * 2 ^ 56) 3 = (1 * 2 ^ 56 + 3 * 2 ^ 40, false) := by decide

/-! ### States -/

/-- A state about to execute an instruction of strand code, on a core whose team holds nothing. -/
def about (i : Instr) : State := State.reset.withFetchWord 64 ((encode i).getD 0).toNat

/-- An island whose first 512 MiB are one page at address 0, with strand clauses at 0x20000 and 0x20080 and a gaffer clause at
0x20040. -/
def mapped (s : State) : State :=
  let put (m : MemSt) (a n v : Nat) : MemSt := { m with hbm := m.hbm.putBytes a (leBytes n v) }
  let mem := put (put (put (put (put (put s.mem 0 8 (2 ^ 63 + 2 ^ 16)) 0x10000 8 (2 ^ 63 + 2 ^ 62 + 0x70)) 0x20000 8
    (2 ^ 56 + 2 ^ 48 - 1)) 0x20040 8 (2 ^ 60 + 2 ^ 48 - 1)) 0x30000 3 0x10101) 0x20080 8 (2 ^ 56 + 2 ^ 48 - 1)
  let part : Part :=
    { islands := 1, slices := 1, ce := [], dispw := 4, fabw := 4, mac := (0, 0), vlan := 1, qcap := 4096, agei := 20,
      roots := [(0, 0)], rotation := none }
  { s with mem := mem, par := { s.par with parts := [(0, part)] }, hub := { s.hub with clk := [(0, 0)], boot := .running, service := true } }

/-- A state about to execute an instruction on a mapped island, by a team with code, trap entries, a reservation, a group, an
allocation of accumulator banks granted to the group, and an open channel. -/
def equipped (i : Instr) : State :=
  let s := mapped (about i)
  let hdr := { bareHdr with code := 0x20000, codelen := 0x1000, cmap := 0x30000, strap := some 0x20000, gtrap := some 0x20040, scr := 4096 }
  let m : Member := ⟨0, 0, false, 0⟩
  { s with
    task := { s.task with teams := s.task.teams.set (0, 0) { bareTeam with hdr := hdr, groups := [⟨1, 0, 0, 0⟩, ⟨1, 0, 0, 0⟩] } }
    core := { s.core with
      members := s.core.members.modify m fun r => { r with groups := [(0, true)] }
      sreg := [((m, 0), 0x100), ((m, 1), 0), ((m, 2), 1)] }
    mem := { s.mem with am := [⟨0, 0, 0, 0, 4, false⟩], grants := [((0, 0, 0, 0), 0)] }
    fab := { s.fab with chans := [((0, 0, 3), ⟨0, false, false, false, 1, 0⟩)] } }

/-! ### Witnesses -/

/-- A check that an instruction is clear to execute, with a condition on its issue. -/
def clearAt (s : State) (h : Head) (k : Kind) (srcs : List Src) (p : Issue → Bool) : Bool :=
  match issue? s with
  | none => false
  | some c0 =>
    let c := c0.guard s h k
    !c.waits s && (!k.once || c.gaffer || !c.tm.hdr.uchk || c.guardDiff s h == 0) &&
      (!k.falls || !c.fallsThrough || c.checkFall s == .good) && c.poisonedSrc s h srcs == none && !c.tm.expired && p c

theorem clearAt_holds {s : State} {h : Head} {k : Kind} {srcs : List Src} {p : Issue → Bool}
    (ok : clearAt s h k srcs p = true) : ∃ c, Clear s h k srcs c ∧ p c = true := by
  unfold clearAt at ok
  split at ok
  · exact nomatch ok
  · next c0 h0 =>
    simp only [Bool.and_eq_true, Bool.or_eq_true, Bool.not_eq_true', beq_iff_eq] at ok
    obtain ⟨⟨⟨⟨⟨a, b⟩, d⟩, e⟩, x⟩, f⟩ := ok
    refine ⟨c0.guard s h k, ⟨⟨c0, h0, rfl⟩, x, a, ?_, ?_, e⟩, f⟩
    · intro hk
      rcases b with ((b | b) | b) | b
      · simp [hk] at b
      · exact .inl b
      · exact .inr (.inl b)
      · exact .inr (.inr b)
    · intro hk hf
      rcases d with (d | d) | d
      · simp [hk] at d
      · simp [hf] at d
      · exact d

/-- A check that some lane is active and nothing is due at the clause's end. -/
def plainly (c : Issue) : Bool := c.r.ends == [] && c.active != 0

theorem plainly_holds {c : Issue} (ok : plainly c = true) : Plain c := by
  simp only [plainly, Bool.and_eq_true, beq_iff_eq, bne_iff_ne] at ok
  exact ⟨⟨fun _ => ok.1, by simp [ok.1]⟩, ok.2⟩

/-- An instruction that is clear to execute, with some lane active. -/
theorem met {s : State} {h : Head} {k : Kind} {srcs : List Src} (p : Issue → Bool)
    (ok : clearAt s h k srcs (fun c => plainly c && p c) = true) : ∃ c, Clear s h k srcs c ∧ Plain c ∧ p c = true := by
  obtain ⟨c, h1, h2⟩ := clearAt_holds ok
  simp only [Bool.and_eq_true] at h2
  exact ⟨c, h1, plainly_holds h2.1, h2.2⟩

/-! ### Runs of one step -/

/-- A vector register of the test strand, every lane the same. -/
def withV (s : State) (i : Nat) (v : W32) : State :=
  { s with core := { s.core with vreg := s.core.vreg.set (⟨0, 0, false, 0⟩, i) (List.replicate 32 v) } }

/-- A scalar register of the test strand. -/
def withS (s : State) (i : Nat) (v : W64) : State :=
  { s with core := { s.core with sreg := s.core.sreg.set (⟨0, 0, false, 0⟩, i) v } }

/-- A lane of a vector register after a step. -/
def laneAfter (o : Out) (i l : Nat) : Option W32 := (nextOf o).map fun t => vlane t ⟨0, 0, false, 0⟩ i l

/-- A scalar register after a step. -/
def scalarAfter (o : Out) (i : Nat) : Option W64 := (nextOf o).map fun t => t.core.sreg.getD (⟨0, 0, false, 0⟩, i) 0

/-- The test strand's split after a step. -/
def threadAfter (o : Out) : Option ThreadRec := (nextOf o).bind fun t => t.thread? ⟨⟨0, 0, false, 0⟩, 0⟩

/-- R344's example. -/
theorem test_perm : laneAfter (step (withV (withV (withV (about (.permVector (plainHead 4) (.vreg 1) (.vreg 2) (.vreg 3)))
    1 0x44332211) 2 0x88776655) 3 0x8123)) 4 31 = some 0x00223344 := by decide +kernel
/-- R375's example. -/
theorem test_hfma2 : laneAfter (step (withV (withV (withV (about (.hfma2Bf16Vector (plainHead 7) (.vreg 1) (.vreg 2) (.vreg 3)))
    1 0x40003F80) 2 0x40404040) 3 0x7FC0BF80)) 7 0 = some 0x7FC04000 := by decide +kernel
/-- R338's example, its last step. -/
theorem test_movh : scalarAfter (step (withS (about (.movhScalar (plainHead 4) 3 0x8000 (.sreg 4))) 4 0x7F000201)) 4 =
    some 0x800000007F000201 := by decide +kernel
/-- R340: a shift by the width gives 0, and SAR the sign. -/
theorem test_shift_width :
    laneAfter (step (withV (about (.shlVector (plainHead 2) .n32 (.vreg 1) (.imm 32))) 1 0xFFFFFFFF)) 2 0 = some 0 ∧
    laneAfter (step (withV (about (.sarVector (plainHead 2) .i32 (.vreg 1) (.imm 32))) 1 0x80000000)) 2 0 =
      some 0xFFFFFFFF := by decide +kernel
/-- R334's example: the second addition takes the carry of the first. -/
theorem test_carry : laneAfter (step (withV (withV (about
    (.iaddcVector (plainHead 5) .n32 7 true 7 (.vreg 1) (.vreg 3))) 1 5) 3 7)) 5 9 = some 13 := by decide +kernel
/-- R441, R181: TRAP goes to the trap entry with its cause and its operand. -/
theorem test_trap : (threadAfter (step (equipped (.trap (plainHead 0) (.imm 42))))).map
    (fun r => (r.pc, r.tcause, r.tval, r.handler)) = some (0x20000, 0x12, 42, true) := by decide +kernel
/-- R348: BR goes to its target, in code that ClauseCheck admits. -/
theorem test_branch : (threadAfter (step (equipped (.br (plainHead 0) 0x3FFF)))).map (fun r => (r.pc, r.clause)) =
    some (0x20000, none) := by decide +kernel
/-- R175: the only member's arrival advances the phase. -/
theorem test_barrier : (nextOf (step (equipped (.bararr (plainHead 4) (.konst .zero))))).map
    (fun t => (t.team? 0 0).map (·.group 0)) = some (some ⟨1, 0, 0, 1⟩) := by decide +kernel
/-- R79: from reset the boot ROM acts, and the anchor runs. -/
theorem test_boot : (nextOf (step State.reset)).map (·.hub.boot) = some .running := by decide +kernel

/-! ### The statements' hypotheses -/

/-- A condition that asks for nothing. -/
def always (_ : Issue) : Bool := true

theorem witness_IntegerArithmetic :
    let s := about (.iaddVector (plainHead 4) .n32 true (.vreg 1) (.vreg 2))
    ∃ c, Clear s (plainHead 4) .vec [.vreg 1, .vreg 2] c ∧ Plain c ∧ (always) c = true :=
  met _ (by decide +kernel)

theorem witness_IntegerArithmetic_scalar :
    let s := about (.imadScalar (plainHead 4) (.sreg 1) (.sreg 2) (.sreg 3))
    ∃ c, Clear s (plainHead 4) .sca [.sreg 1, .sreg 2, .sreg 3] c ∧ Plain c ∧ (always) c = true :=
  met _ (by decide +kernel)

theorem witness_Comparison :
    let s := about (.icmpVector (plainHead 6) .i64 .lt (.vreg 2) (.vreg 4))
    ∃ c, Clear s (plainHead 6) .vec [.vreg 2, .vreg 3, .vreg 4, .vreg 5] c ∧ Plain c ∧ (always) c = true :=
  met _ (by decide +kernel)

theorem witness_Moves :
    let s := about (.selVector (plainHead 4) .n32 0 true (.vreg 1) (.konst .one))
    ∃ c, Clear s (plainHead 4) .vec [.vreg 1, .konst .one] c ∧ Plain c ∧ (always) c = true :=
  met _ (by decide +kernel)

theorem witness_LogicAndBitFields :
    let s := about (.bfiScalar (plainHead 4) (.sreg 1) (.sreg 2) (.sreg 3))
    ∃ c, Clear s (plainHead 4) .sca [.sreg 1, .sreg 2, .sreg 3] c ∧ Plain c ∧ (always) c = true :=
  met _ (by decide +kernel)

theorem witness_Shifts :
    let s := about (.sarVector (plainHead 4) .i64 (.vreg 2) (.imm 63))
    ∃ c, Clear s (plainHead 4) .vec [.vreg 2, .vreg 3, .imm 63] c ∧ Plain c ∧ (always) c = true :=
  met _ (by decide +kernel)

theorem witness_FloatArithmetic :
    let s := about (.ffmaVector (plainHead 4) (.vreg 1) (.vreg 2) (.vreg 3))
    ∃ c, Clear s (plainHead 4) .vec [.vreg 1, .vreg 2, .vreg 3] c ∧ Plain c ∧ (always) c = true :=
  met _ (by decide +kernel)

theorem witness_FloatPredicates :
    let s := about (.fcmpScalar (plainHead 4) .bf16 .geu (.sreg 1) (.sreg 2))
    ∃ c, Clear s (plainHead 4) .sca [.sreg 1, .sreg 2] c ∧ Plain c ∧ (always) c = true :=
  met _ (by decide +kernel)

theorem witness_Conversions :
    let s := about (.fcvtVector (plainHead 4) .e2m1 .rmm true .f32 (.vreg 1))
    ∃ c, Clear s (plainHead 4) .vec [.vreg 1] c ∧ Plain c ∧ (always) c = true :=
  met _ (by decide +kernel)

theorem witness_SpecialFunctions :
    let s := about (.fdivVector (plainHead 4) .f16 .rup (.vreg 1) (.vreg 2))
    ∃ c, Clear s (plainHead 4) .vec [.vreg 1, .vreg 2] c ∧ Plain c ∧ (always) c = true :=
  met _ (by decide +kernel)

theorem witness_PackedAndResidues :
    let s := about (.hadd2Vector (plainHead 4) .f16 .rne true (.vreg 1) (.vreg 2))
    ∃ c, Clear s (plainHead 4) .vec [.vreg 1, .vreg 2] c ∧ Plain c ∧ (always) c = true :=
  met _ (by decide +kernel)

theorem witness_CrossLane :
    let s := about (.scan (plainHead 4) .n32 .rne .add false (.vreg 1))
    ∃ c, Clear s (plainHead 4) .vec [.vreg 1] c ∧ Plain c ∧ (always) c = true :=
  met _ (by decide +kernel)

theorem witness_TransferWhole :
    let s := equipped (.br (plainHead 0) 0x3FFF)
    ∃ c, Clear s (plainHead 0) .vecX [] c ∧ Plain c ∧ (fun c => c.isLast && clauseCheck (equipped (.br (plainHead 0) 0x3FFF)) c.isl c.part c.core c.tm.hdr 0x20000 c.cls == .good &&
      (List.range 32).all fun l => c.heads false (fun _ => 0x20000) l == 0x20000) c = true :=
  met _ (by decide +kernel)

/-- The first lanes' predicate p0. -/
def withP (s : State) (v : W32) : State := { s with core := { s.core with pred := [((⟨0, 0, false, 0⟩, 0), v)] } }

theorem witness_BranchDivides :
    let s := withP (equipped (.br ⟨⟨false, 0⟩, ⟨false, 7⟩, false, 0⟩ 0x2000)) 0xFFFF
    ∃ c, Clear s ⟨⟨false, 0⟩, ⟨false, 7⟩, false, 0⟩ .vecX [] c ∧ Plain c ∧
      (c.isLast && !c.gaffer && !c.r.handler && c.exec == 0xFFFF && c.active == 0xFFFFFFFF &&
        clauseCheck s c.isl c.part c.core c.tm.hdr 0x10008 c.cls == .bad) = true :=
  met _ (by decide +kernel)

theorem witness_Exit :
    let s := withP (equipped (.exit ⟨⟨false, 0⟩, ⟨false, 7⟩, false, 0⟩)) 0xFFFF
    ∃ c, Clear s ⟨⟨false, 0⟩, ⟨false, 7⟩, false, 0⟩ .vecX [] c ∧ Plain c ∧ (c.exec != 0 && c.active &&& ~~~c.exec != 0 && !c.fallsThrough) = true :=
  met _ (by decide +kernel)

theorem witness_Exit_all :
    let s := equipped (.exit (plainHead 0))
    ∃ c, Clear s (plainHead 0) .vecX [] c ∧ Plain c ∧ (fun c => c.exec == c.active) c = true :=
  met _ (by decide +kernel)

theorem witness_NopYield :
    let s := about (.yield (plainHead 0) 3)
    ∃ c, Clear s (plainHead 0) .sca [] c ∧ Plain c ∧ (fun c => c.exec != 0) c = true :=
  met _ (by decide +kernel)

theorem witness_SoftwareTraps :
    let s := equipped (.brkpt (plainHead 0) 5)
    ∃ c, Clear s (plainHead 0) .scaX [] c ∧ Plain c ∧
      (!c.r.handler && (trapEntry c.tm c.th.m).isSome && c.exec != 0 && c.tm.ending.isNone) = true :=
  met _ (by decide +kernel)

theorem witness_TrapEndsTeam :
    let s := about (.brkpt (plainHead 0) 5)
    ∃ c, Clear s (plainHead 0) .scaX [] c ∧ Plain c ∧ ((trapEntry c.tm c.th.m).isNone && c.exec != 0 && c.tm.ending.isNone) = true :=
  met _ (by decide +kernel)

/-- A state about to execute an instruction in a trap handler that has left a clause at 0x20000 in its first slot. -/
def handling (i : Instr) (set : Bool) : State :=
  let s := equipped i
  { s with core := { s.core with threads := s.core.threads.modify ⟨⟨0, 0, false, 0⟩, 0⟩ fun r =>
      { r with handler := true, epcSet := set, epc := if set then 0x20000 else 0x20008
               shadow := some ⟨zeroLatches, some ⟨0x20000, bareHeader false 1, [nopWord, nopWord]⟩, 0, 0xFF, 0, []⟩ } } }

theorem witness_ReturnFromTrap :
    let s := handling (.rte (plainHead 0)) false
    ∃ c, Clear s (plainHead 0) .scaX [] c ∧ Plain c ∧
      (c.r.handler && !c.r.epcSet && c.r.epc == 0x20008 && c.r.shadow.isSome && c.exec != 0) = true :=
  met _ (by decide +kernel)

theorem witness_ReturnFromTrap_written :
    let s := handling (.rte (plainHead 0)) true
    ∃ c, Clear s (plainHead 0) .scaX [] c ∧ Plain c ∧
      (c.r.handler && c.r.epcSet && c.exec != 0 && clauseCheck s c.isl c.part c.core c.tm.hdr c.r.epc.toNat c.cls == .good) = true :=
  met _ (by decide +kernel)

/-- A state about to execute SAFEPT 7 in the last slot of its clause, while a save is asked for. -/
def saving : State :=
  let s := equipped (.safept (plainHead 0) 7)
  { s with
    task := { s.task with teams := s.task.teams.modify (0, 0) fun t =>
      { t with preempt := some ⟨.save, 0, none, false⟩, spts := [⟨0x20000, 0x20000, 0, 0, false, 7⟩] } }
    core := { s.core with threads := s.core.threads.modify ⟨⟨0, 0, false, 0⟩, 0⟩ fun r =>
      { r with slot := 1, pc := 0x20000, clause := some ⟨0x1FFE8, bareHeader false 1, [nopWord, nopWord]⟩ } } }

theorem witness_SleepAndSafePoint :
    ∃ c, Clear saving (plainHead 0) .sca [] c ∧ Plain c ∧
      (c.isLast && c.fallsThrough && saves c.tm && c.mr.course == .running && liveSplits saving c.th.m == 1 && c.exec != 0) = true :=
  met _ (by decide +kernel)

theorem witness_SpecialRegisters :
    let s := about (.syswrEpc (plainHead 0) (.sreg 1))
    ∃ c, Clear s (plainHead 0) .sca [.sreg 1] c ∧ Plain c ∧ (fun c => c.exec != 0 && !c.r.handler) c = true :=
  met _ (by decide +kernel)

theorem witness_SpecialRegisters_handler :
    let s := handling (.syswrEpc (plainHead 0) (.sreg 1)) false
    ∃ c, Clear s (plainHead 0) .sca [.sreg 1] c ∧ Plain c ∧ (c.exec != 0 && c.r.handler) = true :=
  met _ (by decide +kernel)

theorem witness_LoadsStart :
    let s := equipped (.ldScalar (plainHead 4) .n64 .acq false 0 (.sreg 0) (.imm 8))
    ∃ c, Clear s (plainHead 4) .sca [.sreg 0, .imm 8] c ∧ Plain c ∧ (c.exec != 0 && !c.fenced s && !c.unreleased s && (c.placed s .global .read ⟨0, 0, effBase s c true (.sreg 0) (.imm 8) 0, 8, .read⟩).isSome) = true :=
  met _ (by decide +kernel)

theorem witness_LoadsStart_scratchpad :
    let s := equipped (.ldsVector (plainHead 4) .n32 .plain false 0 (.konst .zero) (.konst .lane))
    ∃ c, Clear s (plainHead 4) .vec [.konst .zero, .konst .lane] c ∧ Plain c ∧ (c.exec != 0 && !c.fenced s && !c.unreleased s && (List.range 32).all fun l => (c.placed s .own .read ⟨l, 0, 4 * l, 4, .read⟩).isSome) = true :=
  met _ (by decide +kernel)

theorem witness_StoresStart :
    let s := equipped (.stScalar (plainHead 4) .n32 .rel false 0 (.sreg 0) (.imm 4))
    ∃ c, Clear s (plainHead 4) .sca [.sreg 0, .imm 4, .sreg 4] c ∧ Plain c ∧ (c.exec != 0 && !c.fenced s && !c.unreleased s && (c.placed s .global .write ⟨0, 0, effBase s c true (.sreg 0) (.imm 4) 0, 4, .write 0⟩).isSome) = true :=
  met _ (by decide +kernel)

theorem witness_SubByteStoresStart :
    let s := equipped (.stsbElementScalar (plainHead 4) .e3m2 .plain 0 (.sreg 0) (.imm 10))
    ∃ c, Clear s (plainHead 4) .sca [.sreg 0, .imm 10, .sreg 4] c ∧ Plain c ∧ (c.exec != 0 && !c.fenced s && !c.unreleased s && (c.placed s .global .write ⟨0, 0, 0x100, 8, .sub 0 0⟩).isSome) = true :=
  met _ (by decide +kernel)

theorem witness_AtomicsStart :
    let s := equipped (.atomScalar (plainHead 4) .n32 .acqrel .cas 0 (.sreg 0) (.sreg 1))
    ∃ c, Clear s (plainHead 4) .sca [.sreg 0, .sreg 1, .sreg 4] c ∧ Plain c ∧ (c.exec != 0 && !c.fenced s && !c.unreleased s && (c.placed s .global .atomic ⟨0, 0, 0x100, 4, .read⟩).isSome) = true :=
  met _ (by decide +kernel)

theorem witness_MemoryTraps :
    let s := equipped (.ldVector (plainHead 4) .n32 .plain false 0 (.sreg 0) (.imm 2))
    ∃ c, Clear s (plainHead 4) .vec [.sreg 0, .imm 2] c ∧ Plain c ∧ (c.exec != 0 && !c.fenced s && !c.unreleased s && !c.r.handler && (trapEntry c.tm c.th.m).isSome && ((lanesIn c.exec).map fun l => effBase s c false (.sreg 0) (.imm 2) l).find? (fun x => x % 4 != 0) == some 0x102) = true :=
  met _ (by decide +kernel)

theorem witness_StoreFaults :
    let s := about (.stScalar (plainHead 4) .n32 .plain false 0 (.sreg 0) (.imm 4))
    ∃ c, Clear s (plainHead 4) .sca [.sreg 0, .imm 4, .sreg 4] c ∧ Plain c ∧
      (c.exec != 0 && !c.fenced s && (trapEntry c.tm c.th.m).isNone && !c.r.handler &&
        translate s c.isl c.part (effBase s c true (.sreg 0) (.imm 4) 0) .write == .fault false 1 &&
        s.par.faults.length < 256) = true :=
  met _ (by decide +kernel)

theorem witness_Translation :
    let s := mapped State.reset
    ∃ p, s.part? 0 = some p ∧ p.roots.get? 0 = some 0 ∧ translate s 0 0 0x1FFFFFFF .write = .ok 0x1FFFFFFF false true ∧
      translate s 0 0 0x20000000 .read = .fault false 2 ∧ translate s 0 0 (2 ^ 52) .read = .fault false 1 :=
  ⟨_, rfl, by decide +kernel⟩

/-- A state with one outstanding operation that holds one access, which the schedule performs next. -/
def performing (k : AccKind) (act : OpAct) : State :=
  let s := mapped State.reset
  let a : Access := { lane := 0, half := 0, space := .global, addr := 0x100, size := 4, kind := k, sealed := false, done := false, val := 0, also := 0 }
  let o : Machine.Op :=
    { id := 1, m := ⟨0, 0, false, 0⟩, core := 0, part := 0, holders := [(0, 0)], path := [(0, 0)], lanes := 0xFFFFFFFF, scalar := true, k := false
      dst := .none, accs := [a], act := act, acq := false, remote := false, mem := true, waiting := 0, failed := none, chan := none, rets := []
      covered := [], at_ := 0, since := 0 }
  { s with sched := [.perform 1 0], core := { s.core with ops := [o], nextOp := 2 } }

theorem witness_AccessesPerform_write :
    ∃ o a, (performing (.write 7) .store).op? 1 = some o ∧ o.accs[0]? = some a ∧
      o.canPerform (performing (.write 7) .store) 0 = true ∧ a.kind = .write 7 ∧ a.addr + a.size ≤ 2 ^ 39 :=
  ⟨_, _, rfl, rfl, by decide +kernel⟩

theorem witness_AccessesPerform_atomic :
    ∃ o a, (performing (.atomic .add .n32 1 0) (.oldVal .n32)).op? 1 = some o ∧ o.accs[0]? = some a ∧
      o.canPerform (performing (.atomic .add .n32 1 0) (.oldVal .n32)) 0 = true ∧ a.kind = .atomic .add .n32 1 0 ∧
      a.size = Ty.n32.bits / 8 :=
  ⟨_, _, rfl, rfl, by decide +kernel⟩

theorem witness_AccessesPerform_load :
    ∃ o a, (performing .read (.load .n32 false)).op? 1 = some o ∧ o.accs[0]? = some a ∧
      o.canPerform (performing .read (.load .n32 false)) 0 = true ∧ a.kind = .read ∧ o.acq = false ∧ a.size ∈ [1, 2, 4, 8] ∧
      ∀ w, (performing .read (.load .n32 false)).mem.l1.get? (0, 0, w) = none :=
  ⟨_, _, rfl, rfl, by decide +kernel, rfl, rfl, by decide, fun _ => rfl⟩

/-- R265: the write lands little-endian at its own bytes. -/
theorem test_write_performs : (nextOf (step (performing (.write 0x0807) .store))).map
    (fun t => (t.mem.byte 0 0xFF, t.mem.byte 0 0x100, t.mem.byte 0 0x101, t.mem.byte 0 0x104)) = some (0, 7, 8, 0) := by
  decide +kernel

/-- A state whose one operation has its result and names it as the event. -/
def completing : State :=
  let s := equipped (.nop (plainHead 0))
  let o : Machine.Op :=
    { id := 1, m := ⟨0, 0, false, 0⟩, core := 0, part := 0, holders := [(0, 2)], path := [(0, 0)], lanes := 0xFFFFFFFF, scalar := false, k := false
      dst := .vec 3 1, accs := [], act := .value (List.replicate 32 5) 16, acq := false, remote := false, mem := true, waiting := 0, failed := none
      chan := none, rets := [], covered := [], at_ := 0, since := 0 }
  { s with occ := .op 1, core := { s.core with ops := [o], nextOp := 2 } }

theorem witness_ResultLands :
    ∃ o r, completing.op? 1 = some o ∧ o.ready completing = true ∧ o.act = .value (List.replicate 32 5) 16 ∧ o.dst = .vec 3 1 ∧
      o.holders = [(0, 2)] ∧ completing.thread? ⟨o.m, 0⟩ = some r :=
  ⟨_, _, rfl, by decide +kernel, rfl, rfl, rfl, rfl⟩

theorem witness_ExecutionEvents : ∃ o, completing.occ = .op 1 ∧ completing.op? 1 = some o ∧ o.ready completing = true :=
  ⟨_, rfl, rfl, by decide +kernel⟩

theorem witness_CacheControl :
    let s := equipped (.cctlL1inv (plainHead 0) (.sreg 0))
    ∃ c, Clear s (plainHead 0) .sca [.sreg 0] c ∧ Plain c ∧ (c.exec != 0 && !c.fenced s && !c.unreleased s && true) = true :=
  met _ (by decide +kernel)

theorem witness_Fences :
    let s := equipped (.fenceAcqrel (plainHead 0))
    ∃ c, Clear s (plainHead 0) .sca [] c ∧ Plain c ∧ (c.exec != 0 && !c.fenced s && !c.unreleased s && true) = true :=
  met _ (by decide +kernel)

theorem witness_MonitorAndWait :
    let s := equipped (.monitor (plainHead 0) (.sreg 0) none)
    ∃ c, Clear s (plainHead 0) .sca [.sreg 0] c ∧ Plain c ∧ (c.exec != 0 && !c.fenced s && !c.unreleased s && translate s c.isl c.part (effBase s c true (.sreg 0) (.konst .zero) 0) .read == .ok 0x100 false true) = true :=
  met _ (by decide +kernel)

theorem witness_Barriers :
    let s := equipped (.barsync (plainHead 0) (.konst .zero))
    ∃ c, Clear s (plainHead 0) .sca [.konst .zero] c ∧ Plain c ∧ (c.exec != 0 && !c.fenced s && !c.unreleased s && c.mr.groups.contains (0, true) && 0 < c.tm.groups.length) = true :=
  met _ (by decide +kernel)

theorem witness_Barriers_outside :
    let s := equipped (.barsync (plainHead 0) (.konst .one))
    ∃ c, Clear s (plainHead 0) .sca [.konst .one] c ∧ Plain c ∧ (c.exec != 0 && !c.fenced s && !c.unreleased s && !c.mr.groups.contains (1, true) && 1 < c.tm.groups.length && !c.r.handler && (trapEntry c.tm c.th.m).isSome) = true :=
  met _ (by decide +kernel)

theorem witness_Membership :
    let s := equipped (.attach (plainHead 4) (.sreg 2))
    ∃ c, Clear s (plainHead 4) .sca [.sreg 2] c ∧ Plain c ∧ (c.exec != 0 && !c.fenced s && !c.unreleased s && c.tm.preempt.isNone && c.mr.live) = true :=
  met _ (by decide +kernel)

theorem witness_Membership_detach :
    let s := equipped (.detach (plainHead 0))
    ∃ c, Clear s (plainHead 0) .scaX [] c ∧ Plain c ∧ (c.exec != 0 && !c.fenced s && !c.unreleased s && endReady s c.th .detach && c.r.ends == []) = true :=
  met _ (by decide +kernel)

theorem witness_DecisionQueues :
    let s := equipped (.popdq (plainHead 4) 1)
    ∃ c, Clear s (plainHead 4) .sca [] c ∧ Plain c ∧ (c.exec != 0 && !c.fenced s && !c.unreleased s && true) = true :=
  met _ (by decide +kernel)

theorem witness_Sealing :
    let s := equipped (.seal (plainHead 0) (.sreg 1) (.konst .zero))
    ∃ c, Clear s (plainHead 0) .sca [.sreg 1, .konst .zero] c ∧ Plain c ∧
      (c.exec != 0 && !c.fenced s && !c.unreleased s && rd64 s c (uS 1) (.sreg 1) 0 == 0 &&
        rd32 s c (uS 2) (.konst .zero) 0 == 0 && (splitLarge s c.isl c.part 0 0).isNone) = true :=
  met _ (by decide +kernel)

theorem witness_Sealing_leaves : (match sealLeaves (mapped State.reset) 0 0 (2 ^ 29) 8192 0 with
    | .ok l => l == [(0x10000, 0, 2 ^ 29)]
    | .error _ => false) = true ∧ splitLarge (mapped State.reset) 0 0 0 (2 ^ 29) = none := by decide +kernel

theorem witness_Sealing_part :
    let s := equipped (.seal (plainHead 0) (.sreg 1) (.sreg 2))
    ∃ c, Clear s (plainHead 0) .sca [.sreg 1, .sreg 2] c ∧ Plain c ∧
      (c.exec != 0 && !c.fenced s && rd32 s c (uS 2) (.sreg 2) 0 == 1 && splitLarge s c.isl c.part 0 65536 == some 0) = true :=
  met _ (by decide +kernel)

/-- Every site is present. -/
def pointing (s : State) : State := withS s 5 0x200

theorem witness_RemoteStarts :
    let s := pointing (equipped (.notify (plainHead 0) none (.sreg 5) (.konst .one)))
    ∃ c, Clear s (plainHead 0) .sca [.sreg 5, .konst .one] c ∧ Plain c ∧
      (c.exec != 0 && !c.fenced s && c.r.fail.isNone && present s 0 && rd64 s c (uS 1) (.sreg 5) 0 == 0x200) = true :=
  met _ (by decide +kernel)

theorem witness_Channels :
    let s := equipped (.ochopen (plainHead 0) (.konst .zero) (.konst .one))
    ∃ c, Clear s (plainHead 0) .sca [.konst .zero, .konst .one] c ∧ Plain c ∧
      (c.exec != 0 && !c.fenced s && present s 0 && (s.fab.chans.get? (c.isl, c.team, 1)).isNone) = true :=
  met _ (by decide +kernel)

theorem witness_Channels_close :
    let s := equipped (.ochclose (plainHead 0) (.imm 3))
    ∃ c, Clear s (plainHead 0) .sca [.imm 3] c ∧ Plain c ∧
      (c.exec != 0 && !c.fenced s && (s.fab.chans.get? (c.isl, c.team, 3)).isSome) = true :=
  met _ (by decide +kernel)

/-- A thread with a failure record. -/
def failing : State :=
  let s := equipped (.rfence (plainHead 0))
  { s with core := { s.core with threads := s.core.threads.modify ⟨⟨0, 0, false, 0⟩, 0⟩ fun r =>
      { r with fail := some ⟨4, 1, [3], false, 0⟩ } } }

theorem witness_RemoteStarts_failed :
    ∃ c, Clear failing (plainHead 0) .sca [] c ∧ Plain c ∧
      (c.exec != 0 && !c.fenced failing && failing.core.ops.isEmpty && c.r.fail.isSome && !c.r.handler &&
        (trapEntry c.tm c.th.m).isSome) = true :=
  met _ (by decide +kernel)

theorem witness_AccumulatorMoves :
    let s := equipped (.amld (plainHead 4) 0 (.konst .zero))
    ∃ c, Clear s (plainHead 4) .vec [.konst .zero] c ∧ Plain c ∧ (c.exec != 0 && !c.fenced s && !c.unreleased s && amHeld s c.isl c.core c.team 0 && s.mem.grants.get? (c.isl, c.core, 0, 0) == some 0 && c.mr.groups.contains (0, true)) = true :=
  met _ (by decide +kernel)

theorem witness_AccumulatorMoves_unheld :
    let s := equipped (.amzero (plainHead 9) 15)
    ∃ c, Clear s (plainHead 9) .sca [] c ∧ Plain c ∧ (c.exec != 0 && !c.fenced s && !c.unreleased s && !amHeld s c.isl c.core c.team 9 && !c.r.handler && (trapEntry c.tm c.th.m).isSome) = true :=
  met _ (by decide +kernel)

theorem witness_AccumulatorMoves_drain :
    let s := equipped (.amdrain (plainHead 0) .f32 .rne 0 true (.sreg 0) (.konst .zero))
    ∃ c, Clear s (plainHead 0) .sca [.sreg 0, .sreg 1, .konst .zero] c ∧ Plain c ∧ (c.exec != 0 && !c.fenced s && !c.unreleased s && amHeld s c.isl c.core c.team 0 && readS s c.th.m 1 0 == 0x100 && readS s c.th.m 1 1 == 0 && (c.placed s .global .write ⟨0, 0, 0x100, 8, .bypass 0⟩).isSome) = true :=
  met _ (by decide +kernel)

theorem witness_AccumulatorAllocation :
    (amAlloc State.reset 0 0 0 128).2 = 0x8000 ∧ (amAlloc State.reset 0 0 0 129).2 = 0x8000000000000000 ∧
    (amAlloc (equipped (.nop (plainHead 0))) 0 0 1 125).2 = 0x8000000000010000 := by decide +kernel

theorem witness_MatrixStarts :
    let s := withS (withS (equipped (.mma (plainHead 0) (.konst .zero) (.imm 64) (.sreg 6))) 6 0x22) 7 0
    let s := { s with task := { s.task with teams := s.task.teams.modify (0, 0) fun t => { t with hdr := { t.hdr with scr := 32768 } } } }
    ∃ c, Clear s (plainHead 0) .sca [.konst .zero, .imm 64, .sreg 6, .sreg 7] c ∧ Plain c ∧
      (c.exec != 0 && !c.fenced s && !c.unreleased s && fbBad 0x22 .mma == none && peerBad 0 false == none &&
        c.tm.inSpan 0 && amHeld s c.isl c.core c.team 0 &&
        rangesBad c.tm.hdr.scr (mmaRanges 0x22 0 64 0 false ++ mmaScales 0x22) == .inr false) = true :=
  met _ (by decide +kernel)

theorem witness_TasksAndChainsStart :
    let s := equipped (.joindec (plainHead 0) (.sreg 0) (.sreg 2))
    ∃ c, Clear s (plainHead 0) .sca [.sreg 0, .sreg 2] c ∧ Plain c ∧ (c.exec != 0 && !c.fenced s && !c.unreleased s && translate s c.isl c.part 0x100 .atomic == .ok 0x100 false true && (s.mem.poisonedAt c.isl 0x100 8).isNone) = true :=
  met _ (by decide +kernel)

theorem witness_TasksAndChainsStart_append :
    let s := equipped (.chput (plainHead 4) (.sreg 1) (.sreg 0))
    ∃ c, Clear s (plainHead 4) .sca [.sreg 1, .sreg 0] c ∧ Plain c ∧ (c.exec != 0 && !c.fenced s && !c.unreleased s && translate s c.isl c.part 0 .write == .ok 0 false true && rd64 s c (uS 2) (.sreg 0) 0 == 0x100) = true :=
  met _ (by decide +kernel)

/-! ### Clauses of control and memory -/

/-- The state before the last slot of a clause at 0x1FFE8, which the clause at 0x20000 follows. -/
def lastSlot (s : State) : State :=
  { s with core := { s.core with threads := s.core.threads.modify ⟨⟨0, 0, false, 0⟩, 0⟩ fun r =>
      { r with slot := 1, pc := 0x20000, clause := some ⟨0x1FFE8, bareHeader false 1, [nopWord, nopWord]⟩ } } }

/-- Guards that hold in the lanes of p0, the lower half. -/
def half (d : Nat) : Head := ⟨⟨false, 0⟩, ⟨false, 7⟩, false, d⟩

/-- A divergent instruction in the last slot: the lower half goes to its target. -/
def dividing (i : Instr) : State := withP (lastSlot (equipped i)) 0xFFFF

theorem witness_BranchDivides_room :
    let s := dividing (.br (half 0) 0x11)
    ∃ c, Clear s (half 0) .vecX [] c ∧ Plain c ∧
      (c.isLast && !c.gaffer && !c.r.handler && c.exec == 0xFFFF && c.active == 0xFFFFFFFF && c.fall == 0x20000 && c.addr == 0x1FFF8 &&
        [0x20000, 0x20080].all (fun x => clauseCheck s c.isl c.part c.core c.tm.hdr x c.cls == .good) &&
        liveSplits (mergeBay s c.isl c.core c.mr.bay) c.th.m < 4 &&
        decide (0 < freePool (mergeBay s c.isl c.core c.mr.bay) c.isl c.core c.mr.bay)) = true :=
  met _ (by decide +kernel)

/-- The same on a strand whose stack is full and whose bay has no room. -/
def crowded (i : Instr) (n : Nat) : State :=
  let s := dividing i
  { s with core := { s.core with
      members := s.core.members.modify ⟨0, 0, false, 0⟩ fun r => { r with stack := List.replicate n (9, freshThread 0 1), nextSplit := 4 }
      threads := [1, 2, 3].foldl (fun t k => t.set ⟨⟨0, 0, false, 0⟩, k⟩ (freshThread (0x1000 * k) 1)) s.core.threads } }

theorem witness_BranchDivides_full :
    let s := crowded (.callx (half 4) (.vreg 1)) 32
    ∃ c, Clear s (half 4) .vecX [.vreg 1] c ∧ Plain c ∧
      (c.isLast && c.exec == 0xFFFF && c.active == 0xFFFFFFFF && liveSplits (mergeBay s c.isl c.core c.mr.bay) c.th.m == 4 &&
        ((mergeBay s c.isl c.core c.mr.bay).member? c.th.m).map (·.stack.length) == some 32 && (trapEntry c.tm c.th.m).isSome &&
        !c.r.handler) = true :=
  met _ (by decide +kernel)

theorem witness_BranchDivides_pushed :
    let s := crowded (.join (half 0) 0x11) 31
    ∃ c, Clear s (half 0) .vecX [] c ∧ Plain c ∧
      (liveSplits (mergeBay s c.isl c.core c.mr.bay) c.th.m == 4 &&
        ((mergeBay s c.isl c.core c.mr.bay).member? c.th.m).map (·.stack.length) == some 31) = true :=
  met _ (by decide +kernel)

/-- A handler that returns and has left something to its end. -/
def leaving (es : List EndAct) : State :=
  let s := handling (.rte (plainHead 0)) false
  { s with core := { s.core with threads := s.core.threads.modify ⟨⟨0, 0, false, 0⟩, 0⟩ fun r => { r with ends := es } } }

theorem witness_ReturnFromTrap_ends : ∀ es ∈ [[EndAct.yield 3], [.sleep 5]],
    ∃ c, Clear (leaving es) (plainHead 0) .scaX [] c ∧
      (c.r.handler && !c.r.epcSet && c.handlerEnds == es && c.r.wait.yielded.isNone && c.r.wait.asleep.isNone && c.tm.preempt.isNone &&
        c.exec != 0) = true := by
  simp only [List.forall_mem_cons, List.not_mem_nil, false_implies, implies_true, and_true]
  exact ⟨clearAt_holds (p := fun c => _) (by decide +kernel), clearAt_holds (p := fun c => _) (by decide +kernel)⟩

theorem witness_ReturnFromTrap_bad :
    let s := handling (.rte (plainHead 0)) true
    let s := { s with core := { s.core with threads := s.core.threads.modify ⟨⟨0, 0, false, 0⟩, 0⟩ fun r => { r with epc := 0x20008 } } }
    ∃ c, Clear s (plainHead 0) .scaX [] c ∧ Plain c ∧
      (c.r.handler && c.r.epcSet && c.exec != 0 && c.handlerEnds == [] && c.tm.ending.isNone &&
        clauseCheck s c.isl c.part c.core c.tm.hdr c.r.epc.toNat c.cls == .bad) = true :=
  met _ (by decide +kernel)

theorem witness_ReturnFromTrap_outside :
    let s := equipped (.rte (plainHead 0))
    ∃ c, Clear s (plainHead 0) .scaX [] c ∧ Plain c ∧ (c.exec != 0 && !c.r.handler && (trapEntry c.tm c.th.m).isSome) = true :=
  met _ (by decide +kernel)

/-- A register past the reservation, at the barrier window, past the page, at half a page. -/
def withS4096 (i : Instr) : State := withS (equipped i) 3 4096
def withSWindow (i : Instr) : State := withS (equipped i) 3 0x7F000
def withSFar (i : Instr) : State := withS (equipped i) 3 0x20000000
def halfPage (s : State) : State := withS s 6 128

theorem witness_MemoryTraps_span :
    let s := equipped (.ldxVector (plainHead 4) .n32 .plain false 1 0 (.konst .zero) (.konst .lane))
    ∃ c, Clear s (plainHead 4) .vec [.konst .zero, .konst .lane] c ∧ Plain c ∧ (c.exec != 0 && !c.fenced s && !c.unreleased s && !c.r.handler && (trapEntry c.tm c.th.m).isSome && !c.tm.inSpan ((Reach.peer 1).core c)) = true :=
  met _ (by decide +kernel)

theorem witness_MemoryTraps_outside :
    let s := withS4096 (.ldsScalar (plainHead 4) .n32 .plain false 0 (.konst .zero) (.sreg 3))
    ∃ c, Clear s (plainHead 4) .sca [.konst .zero, .sreg 3] c ∧ Plain c ∧ (c.exec != 0 && !c.fenced s && !c.unreleased s && !c.r.handler && (trapEntry c.tm c.th.m).isSome && effBase s c true (.konst .zero) (.sreg 3) 0 == 4096 && placeOf c.tm.hdr.scr 4096 4 == .outside && placeOf c.tm.hdr.scr 4092 4 == .reserved) = true :=
  met _ (by decide +kernel)

theorem witness_MemoryTraps_window :
    let s := withSWindow (.stsScalar (plainHead 4) .n32 .plain false 0 (.konst .zero) (.sreg 3))
    ∃ c, Clear s (plainHead 4) .sca [.konst .zero, .sreg 3, .sreg 4] c ∧ Plain c ∧ (c.exec != 0 && !c.fenced s && !c.unreleased s && !c.r.handler && (trapEntry c.tm c.th.m).isSome && effBase s c true (.konst .zero) (.sreg 3) 0 == 0x7F000 && placeOf c.tm.hdr.scr 0x7F000 4 == .window) = true :=
  met _ (by decide +kernel)

theorem witness_MemoryTraps_fault :
    let s := withSFar (.atomScalar (plainHead 4) .n32 .plain .add 0 (.sreg 3) (.konst .one))
    ∃ c, Clear s (plainHead 4) .sca [.sreg 3, .konst .one] c ∧ Plain c ∧ (c.exec != 0 && !c.fenced s && !c.unreleased s && !c.r.handler && (trapEntry c.tm c.th.m).isSome && c.xlate s 0x20000000 .atomic == .fault false 2) = true :=
  met _ (by decide +kernel)

/-- The page at address 0 is sealed. -/
def sealedPage (s : State) : State :=
  { s with mem := { s.mem with hbm := s.mem.hbm.putBytes 0x10000 (leBytes 8 (2 ^ 63 + 2 ^ 62 + 0xF0)) } }

/-- An uncorrectable error has poisoned the sector at 0x100, and that of the scratchpad at 0x100. -/
def spoilt (s : State) : State := { s with mem := { s.mem with poison := [.global 0 4, .spad 0 0 4] } }

theorem witness_MemoryTraps_sealed :
    let s := sealedPage <| equipped (.stScalar (plainHead 4) .n32 .plain false 0 (.sreg 0) (.konst .zero))
    ∃ c, Clear s (plainHead 4) .sca [.sreg 0, .konst .zero, .sreg 4] c ∧ Plain c ∧ (c.exec != 0 && !c.fenced s && !c.unreleased s && !c.r.handler && (trapEntry c.tm c.th.m).isSome && c.xlate s 0x100 .write == .sealedStore) = true :=
  met _ (by decide +kernel)

theorem witness_MemoryTraps_poison :
    let s := spoilt <| equipped (.ldScalar (plainHead 4) .n32 .plain false 0 (.sreg 0) (.konst .zero))
    ∃ c, Clear s (plainHead 4) .sca [.sreg 0, .konst .zero] c ∧ Plain c ∧ (c.exec != 0 && !c.fenced s && !c.unreleased s && !c.r.handler && (trapEntry c.tm c.th.m).isSome && s.core.ops.isEmpty && s.mem.l1.isEmpty && s.mem.ccache.isEmpty && (s.mem.poisonedAt c.isl 0x100 4).isSome && (s.mem.poisonedAt c.isl 0xFC 4).isNone) = true :=
  met _ (by decide +kernel)

theorem witness_MemoryTraps_spoilt :
    let s := spoilt <| equipped (.atomsScalar (plainHead 4) .n32 .plain .add 0 (.sreg 0) (.konst .one))
    ∃ c, Clear s (plainHead 4) .sca [.sreg 0, .konst .zero, .konst .one] c ∧ Plain c ∧ (c.exec != 0 && !c.fenced s && !c.unreleased s && !c.r.handler && (trapEntry c.tm c.th.m).isSome && (s.mem.spadPoisonedAt c.isl c.core (c.tm.base c.core + 0x100) 4).isSome) = true :=
  met _ (by decide +kernel)

/-- The same operation on 8 bytes. -/
def resized (n : Nat) (s : State) : State :=
  { s with core := { s.core with ops := s.core.ops.map fun o => { o with accs := o.accs.map fun a => { a with size := n } } } }

theorem witness_AccessesPerform_sub :
    let s := resized 8 (performing (.sub 0x0F 0xFF) .store)
    ∃ o a, s.op? 1 = some o ∧ o.accs[0]? = some a ∧ o.canPerform s 0 = true ∧ a.kind = .sub 0x0F 0xFF ∧ a.addr + 8 ≤ 2 ^ 39 :=
  ⟨_, _, rfl, rfl, by decide +kernel⟩

/-- The same operation on the last word of the scratchpad of core 95. -/
def performingSpad (k : AccKind) (act : OpAct) : State :=
  let s := performing k act
  { s with core := { s.core with ops := s.core.ops.map fun o =>
      { o with core := 95, accs := o.accs.map fun a => { a with space := .spad 95, addr := 2 ^ 19 - 4 } } } }

theorem witness_AccessesPerform_scratchpad :
    ∀ k ∈ [(AccKind.read, OpAct.load .n32 false), (.write 7, .store), (.atomic .add .n32 1 0, .oldVal .n32)],
      let s := performingSpad k.1 k.2
      ∃ o a, s.op? 1 = some o ∧ o.accs[0]? = some a ∧ o.canPerform s 0 = true ∧ a.kind = k.1 ∧ a.space = .spad 95 ∧
        a.addr + a.size = 2 ^ 19 := by
  simp only [List.forall_mem_cons, List.not_mem_nil, false_implies, implies_true, and_true]
  exact ⟨⟨_, _, rfl, rfl, by decide +kernel⟩, ⟨_, _, rfl, rfl, by decide +kernel⟩, ⟨_, _, rfl, rfl, by decide +kernel⟩⟩

/-- A pointer to address 0x1F0 of the island itself, in registers of every class, and the near address 0x200 and length 32 of a
block. -/
def pointers (s : State) : State := withS (withS (withS s 5 0x1F0) 8 0x200) 9 31

theorem witness_RemoteStarts_put :
    let s := pointers <| equipped (.put (plainHead 4) .n64 (some 3) (.sreg 5) (.konst .zero))
    ∃ c, Clear s (plainHead 4) .vec [.sreg 5, .konst .zero, .vreg 4, .vreg 5] c ∧ Plain c ∧ (c.exec != 0 && !c.fenced s && !c.unreleased s && present s 0 && (c.chan? s 3).map (fun x => (x.closing, x.isl, x.broken || decide (x.unacked + chanQueued s c 3 < 2048))) == some (false, 0, true) &&
        (lanesIn c.exec).all fun l => rd64 s c (uV 1) (.sreg 5) l == 0x1F0) = true :=
  met _ (by decide +kernel)

theorem witness_RemoteStarts_atomic :
    let s := pointers <| equipped (.ratom (plainHead 4) .n32 .cas none (.sreg 5) (.konst .one))
    ∃ c, Clear s (plainHead 4) .vec [.sreg 5, .konst .one, .vreg 4] c ∧ Plain c ∧ (c.exec != 0 && !c.fenced s && !c.unreleased s && present s 0 && (lanesIn c.exec).all fun l => rd64 s c (uV 1) (.sreg 5) l == 0x1F0) = true :=
  met _ (by decide +kernel)

theorem witness_RemoteStarts_block :
    let s := pointers <| equipped (.putBlk (plainHead 8) false none (.sreg 5) none)
    ∃ c, Clear s (plainHead 8) .sca [.sreg 5, .sreg 8, .sreg 9] c ∧ Plain c ∧ (c.exec != 0 && !c.fenced s && !c.unreleased s && present s 0 && rd64 s c (uS 0) (.sreg 8) 0 == 0x200 && rd64 s c (uS 0) (.sreg 9) 0 == 31 &&
        (List.range 32).all fun i => c.xlate s (0x200 + i) .read == .ok (0x200 + i) false true) = true :=
  met _ (by decide +kernel)

theorem witness_RemoteStarts_get :
    let s := pointers <| equipped (.get (plainHead 8) true none (.sreg 5) none)
    ∃ c, Clear s (plainHead 8) .sca [.sreg 5, .sreg 8, .sreg 9] c ∧ Plain c ∧ (c.exec != 0 && !c.fenced s && !c.unreleased s && present s 0 && placeOf c.tm.hdr.scr 0x200 32 == .reserved) = true :=
  met _ (by decide +kernel)

theorem witness_RemoteStarts_release :
    let s := pointers <| equipped (.notifyRel (plainHead 0) none (.sreg 5) (.konst .zero))
    ∃ c, Clear s (plainHead 0) .sca [.sreg 5, .konst .zero] c ∧ Plain c ∧ (c.exec != 0 && !c.fenced s && !c.unreleased s && present s 0 && c.r.fail.isNone && s.core.ops.isEmpty && rd64 s c (uS 1) (.sreg 5) 0 == 0x1F0) = true :=
  met _ (by decide +kernel)

theorem witness_RemoteStarts_fence :
    let s := equipped (.rfence (plainHead 0))
    ∃ c, Clear s (plainHead 0) .sca [] c ∧ Plain c ∧ (c.exec != 0 && !c.fenced s && !c.unreleased s && c.r.fail.isNone && s.core.ops.isEmpty) = true :=
  met _ (by decide +kernel)

theorem witness_Channels_absent :
    let s := equipped (.ochopen (plainHead 0) (.imm 31) (.konst .one))
    ∃ c, Clear s (plainHead 0) .sca [.imm 31, .konst .one] c ∧ Plain c ∧ (c.exec != 0 && !c.fenced s && !c.unreleased s && !c.r.handler && (trapEntry c.tm c.th.m).isSome && !present s 31) = true :=
  met _ (by decide +kernel)

theorem witness_Channels_range :
    let s := equipped (.ochopen (plainHead 0) (.konst .zero) (.imm 16))
    ∃ c, Clear s (plainHead 0) .sca [.konst .zero, .imm 16] c ∧ Plain c ∧ (c.exec != 0 && !c.fenced s && !c.unreleased s && !c.r.handler && (trapEntry c.tm c.th.m).isSome && present s 0) = true :=
  met _ (by decide +kernel)

theorem witness_Channels_open :
    let s := equipped (.ochopen (plainHead 0) (.konst .zero) (.imm 3))
    ∃ c, Clear s (plainHead 0) .sca [.konst .zero, .imm 3] c ∧ Plain c ∧ (c.exec != 0 && !c.fenced s && !c.unreleased s && !c.r.handler && (trapEntry c.tm c.th.m).isSome && (s.fab.chans.get? (c.isl, c.team, 3)).isSome) = true :=
  met _ (by decide +kernel)

theorem witness_Channels_closed :
    let s := equipped (.ochclose (plainHead 0) (.imm 15))
    ∃ c, Clear s (plainHead 0) .sca [.imm 15] c ∧ Plain c ∧ (c.exec != 0 && !c.fenced s && !c.unreleased s && !c.r.handler && (trapEntry c.tm c.th.m).isSome && (s.fab.chans.get? (c.isl, c.team, 15)).isNone) = true :=
  met _ (by decide +kernel)

/-- A base of 0x100 and a stride of 2 in a pair of registers. -/
def strided (n : W64) (s : State) : State := withS (withS s 6 0x100) 7 n

theorem witness_AccumulatorDrain_unheld :
    let s := strided 32 <| equipped (.amdrain (plainHead 0) .f16 .rne 3 false (.sreg 6) (.imm 200))
    ∃ c, Clear s (plainHead 0) .sca [.sreg 6, .sreg 7, .imm 200] c ∧ Plain c ∧ (c.exec != 0 && !c.fenced s && !c.unreleased s && !amHeld s c.isl c.core c.team 200 && readS s c.th.m 1 6 == 0x100 && readS s c.th.m 1 7 == 32 && (c.placed s .global .write ⟨0, 0, 0x100, 8, .bypass 0⟩).isSome) = true :=
  met _ (by decide +kernel)

theorem witness_AccumulatorDrain_band :
    let s := strided 32 <| equipped (.amdrain (plainHead 0) .f32 .rne 1 true (.sreg 6) (.konst .zero))
    ∃ c, Clear s (plainHead 0) .sca [.sreg 6, .sreg 7, .konst .zero] c ∧ Plain c ∧ (c.exec != 0 && !c.fenced s && !c.unreleased s && !c.r.handler && (trapEntry c.tm c.th.m).isSome && amHeld s c.isl c.core c.team 0 && (s.mem.grants.get? (c.isl, c.core, 0, 1)).isNone) = true :=
  met _ (by decide +kernel)

theorem witness_AccumulatorDrain_misaligned :
    let s := strided 2 <| equipped (.amdrain (plainHead 0) .f32 .rne 0 true (.sreg 6) (.konst .zero))
    ∃ c, Clear s (plainHead 0) .sca [.sreg 6, .sreg 7, .konst .zero] c ∧ Plain c ∧ (c.exec != 0 && !c.fenced s && !c.unreleased s && !c.r.handler && (trapEntry c.tm c.th.m).isSome && s.mem.grants.get? (c.isl, c.core, 0, 0) == some 0 && c.mr.groups.contains (0, true) && readS s c.th.m 1 7 == 2) = true :=
  met _ (by decide +kernel)

theorem witness_TasksAndChainsStart_chput :
    let s := equipped (.chput (plainHead 4) (.sreg 0) (.sreg 1))
    ∃ c, Clear s (plainHead 4) .sca [.sreg 0, .sreg 1] c ∧ Plain c ∧ (c.exec != 0 && !c.fenced s && !c.unreleased s && !c.r.handler && (trapEntry c.tm c.th.m).isSome && 0x100 % 512 != 0) = true :=
  met _ (by decide +kernel)

theorem witness_TasksAndChainsStart_record :
    let s := equipped (.chput (plainHead 4) (.sreg 1) (.imm 32))
    ∃ c, Clear s (plainHead 4) .sca [.sreg 1, .imm 32] c ∧ Plain c ∧ (c.exec != 0 && !c.fenced s && !c.unreleased s && !c.r.handler && (trapEntry c.tm c.th.m).isSome && 32 % 64 != 0) = true :=
  met _ (by decide +kernel)

theorem witness_TasksAndChainsStart_count :
    let s := equipped (.chadv (plainHead 4) (.sreg 1) (.sreg 1) (.imm 65))
    ∃ c, Clear s (plainHead 4) .sca [.sreg 1, .sreg 1, .imm 65] c ∧ Plain c ∧ (c.exec != 0 && !c.fenced s && !c.unreleased s && !c.r.handler && (trapEntry c.tm c.th.m).isSome && rd32 s c (uS 3) (.imm 65) 0 == 65) = true :=
  met _ (by decide +kernel)

theorem witness_TasksAndChainsStart_chseq :
    let s := equipped (.chseq (plainHead 4) false .comp (.sreg 0))
    ∃ c, Clear s (plainHead 4) .sca [.sreg 0] c ∧ Plain c ∧ (c.exec != 0 && !c.fenced s && !c.unreleased s && !c.r.handler && (trapEntry c.tm c.th.m).isSome && rd64 s c (uS 1) (.sreg 0) 0 == 0x100) = true :=
  met _ (by decide +kernel)

theorem witness_TasksAndChainsStart_spawn :
    let s := equipped (.spawn (plainHead 4) (.imm 32) (.sreg 6) (.konst .zero))
    ∃ c, Clear s (plainHead 4) .sca [.imm 32, .sreg 6, .sreg 7, .konst .zero] c ∧ Plain c ∧ (c.exec != 0 && !c.fenced s && !c.unreleased s && !c.r.handler && (trapEntry c.tm c.th.m).isSome && 32 % 64 != 0) = true :=
  met _ (by decide +kernel)

theorem witness_TasksAndChainsStart_khdr :
    let s := halfPage <| equipped (.spawn (plainHead 4) (.sreg 0) (.sreg 6) (.konst .zero))
    ∃ c, Clear s (plainHead 4) .sca [.sreg 0, .sreg 6, .sreg 7, .konst .zero] c ∧ Plain c ∧ (c.exec != 0 && !c.fenced s && !c.unreleased s && !c.r.handler && (trapEntry c.tm c.th.m).isSome && (readS s c.th.m 2 6).toNat == 128) = true :=
  met _ (by decide +kernel)

theorem witness_TasksAndChainsStart_joindec :
    let s := equipped (.joindec (plainHead 4) (.imm 4) (.konst .one))
    ∃ c, Clear s (plainHead 4) .sca [.imm 4, .konst .one] c ∧ Plain c ∧ (c.exec != 0 && !c.fenced s && !c.unreleased s && !c.r.handler && (trapEntry c.tm c.th.m).isSome && rd64 s c (uS 1) (.imm 4) 0 == 4) = true :=
  met _ (by decide +kernel)

/-! ### Witnesses of events -/

/-- The part after its boot. -/
def booted : State := (nextOf (step State.reset)).getD State.reset

/-- A thread before the clause at an address, named as the event. -/
def standing (pc : Nat) : State :=
  let s := equipped (.nop (plainHead 0))
  { s with
    occ := .thread ⟨⟨0, 0, false, 0⟩, 0⟩, focus := none
    core := { s.core with threads := s.core.threads.modify ⟨⟨0, 0, false, 0⟩, 0⟩ fun r => { r with clause := none, pc := pc } } }

theorem witness_ClauseStarts :
    let th : Thread := ⟨⟨0, 0, false, 0⟩, 0⟩
    let s := settleAround (standing 0x20000) th.m
    ∃ r mr tm, s.thread? th = some r ∧ s.member? th.m = some mr ∧ s.team? 0 0 = some tm ∧ eligible s th r mr tm = true ∧
      portFree s th mr = true ∧ longest s th r mr = true ∧
      clauseCheck s 0 tm.part mr.core tm.hdr 0x20000 .strand = .good ∧
      (match fetchWord s 0 tm.part mr.core 0x20000 with
        | .ok x => (match fetchWords 0 tm.part mr.core 2 0x20008 x.1 with
          | .ok y => !waitsFor y.1 th r x.2
          | .error _ => false)
        | .error _ => false) = true :=
  ⟨_, _, _, rfl, rfl, rfl, by decide +kernel⟩

theorem witness_ClauseStarts_bad : clauseCheck (standing 0x20008) 0 0 0
    { bareHdr with code := 0x20000, codelen := 0x1000, cmap := 0x30000 } 0x20008 .strand = .bad := by decide +kernel

/-- A matrix record of the NOP kind that has not run, named as the event. -/
def recording : State :=
  let ref : RecRef := ⟨⟨0, 0, 0⟩, 1⟩
  { mapped State.reset with
    occ := .engine ref
    eng := { State.resetEng with recs :=
      [{ ref := ref, eng := .copy 0, team := 0, addr := 0, pa := 0, known := true, bits := 0, res := none, step := 0, parked := none
         replay := none, lastAcc := (0, 0), follow := false, since := 0, turn := none, lays := none }] } }

theorem witness_EngineEvents : (occRec recording).map (fun r => (recOp r.bits, nopMal r.bits)) = some (0, none) := by
  decide +kernel

theorem witness_TeamEvents :
    let s := booted
    dispatch s 0 0 = none ∧ (s.par.rots.get? 0).isSome = false := by decide +kernel

/-- A PUT of 4 bytes that stands at its destination, named as the event. -/
def arriving : State :=
  let s := mapped booted
  let p : Packet :=
    { id := 1, op := .put, route := [], hidx := 0, dest := 0, src := 0, kslot := 0, len := 0, tag := 1, och := none, chseq := 0
      steam := 0, bcnt := 3, addr := 0x100, gen := 0, pctr := 1, kph := (s.fab.keys.getD 0 ⟨false, 0, none⟩).phase
      epoch := (s.fab.keys.getD 0 ⟨false, 0, none⟩).cur, payload := [1, 2, 3, 4], count := 0, part := none, status := 0, ofReply := false, place := .queue 0 ownPort, blocked := none
      timedOut := false }
  { s with occ := .packet 1, fab := { s.fab with pkts := [p], nextPkt := 2 } }

theorem witness_RequestsServed : ∃ p, occPacket arriving = some p ∧ p.op = .put ∧ arrived arriving p = true ∧ takesIn arriving p = true ∧
    authentic arriving p = true ∧ inTurn arriving p = true ∧
    p.part = none ∧ (match p.access (dropPacket (usePlace arriving p) p.id) 4 .write false with
      | .ok _ => true
      | .error _ => false) = true :=
  ⟨_, rfl, by decide +kernel⟩

/-- The same packet as an acknowledgement of an outstanding request. -/
def replying : State :=
  let s := arriving
  { s with fab := { s.fab with
      pkts := s.fab.pkts.map fun p => { p with op := .putAck, payload := [] }
      txns := [{ src := 0, tag := 1, dest := 0, kslot := 0, steam := 0, use := .op 1, op := .put, och := none, dst := (.global, []), lane := 0, addr := 0
                 sentAt := 0, injected := true }] } }

theorem witness_RepliesAndTimers : ∃ p t, occPacket replying = some p ∧ p.op = .putAck ∧ arrived replying p = true ∧
    takesIn replying p = true ∧ authentic replying p = true ∧ p.ofReply = false ∧ replying.txn? p.dest p.tag = some t ∧ t.injected = true :=
  ⟨_, _, rfl, by decide +kernel, by decide +kernel, by decide +kernel, by decide +kernel, rfl, rfl, rfl⟩

theorem witness_LinkEvents :
    ((booted.fab.links.map (·.1)).find? fun e => joined booted e && linkUp booted e).isSome = true := by decide +kernel

theorem witness_TopologyEvents : present booted 1 = true ∧ serviceUp booted = true ∧ fenceable booted 1 = true ∧
    booted.fab.ucieDown.get? 1 = none ∧ topoFree booted = true := by decide +kernel

theorem witness_HostEvents : anchorUp booted = true ∧ serviceUp booted = true ∧ regionReached booted 0 0 = true ∧ booted.cred = .system ∧
    (⟨some 3, true⟩ : Cred).may none = false ∧ (⟨some 3, true⟩ : Cred).may (some 3) = true := by
  decide +kernel

theorem witness_PartitionEvents : serviceUp booted = true ∧ booted.part? 3 = none := by decide +kernel

theorem witness_PlatformEvents : State.reset.hub.boot ≠ .off ∧ State.reset.hub.noFlow = false ∧ booted.hub.boot ≠ .off ∧
    anchorUp booted = true ∧ (booted.hub.power.get? 0).isSome = true ∧ (booted.fab.keys.get? 0).isSome = true := by
  decide +kernel

theorem witness_MemoryEvents : ({ State.reset with occ := .line 0 (2 ^ 31 - 1) } : State).occ = .line 0 (2 ^ 31 - 1) := rfl

/-! ### Events of cores, engines and teams -/

/-- A result without an error. -/
def okay {ε α : Type} : Except ε α → Bool
  | .ok _ => true
  | .error _ => false

/-- A core clock of island 0. -/
def atClk (n : Nat) (s : State) : State := { s with hub := { s.hub with clk := [(0, n)] } }

/-- A hub time. -/
def atNs (n : Nat) (s : State) : State := { s with hub := { s.hub with ns := n } }

/-- An event's particulars. -/
def occurring (o : Occ) (s : State) : State := { s with occ := o, focus := none }

/-- A thread's record, changed. -/
def rethread (f : ThreadRec → ThreadRec) (s : State) : State :=
  { s with core := { s.core with threads := s.core.threads.modify ⟨⟨0, 0, false, 0⟩, 0⟩ f } }

/-- The test team, changed. -/
def reteam (f : Team → Team) (s : State) : State :=
  { s with task := { s.task with teams := s.task.teams.modify (0, 0) f } }

/-- One outstanding operation that does something. -/
def operating (a : OpAct) (s : State) : State :=
  { s with occ := .op 1, core := { s.core with ops := completing.core.ops.map fun o => { o with act := a }, nextOp := 2 } }

theorem witness_ExecutionEvents_ends :
    let r := rethread (fun r => { r with wait := { r.wait with yielded := some 5, asleep := some 5 } })
      (occurring (.thread ⟨⟨0, 0, false, 0⟩, 0⟩) (equipped (.nop (plainHead 0))))
    let t := occurring (.team 0 0) (equipped (.nop (plainHead 0)))
    ((r.thread? ⟨⟨0, 0, false, 0⟩, 0⟩).map fun x => (x.wait.yielded, x.wait.asleep)) = some (some 5, some 5) ∧
    (atClk 5 r).clk 0 = 5 ∧ (atClk 4 r).clk 0 = 4 ∧
    ((t.team? 0 0).map fun x => (x.ending, x.first.isSome, decide (x.wdog < x.hdr.wdog))) = some (none, true, true) ∧
    (((reteam (fun x => { x with wdog := x.hdr.wdog }) t).team? 0 0).map fun x => decide (x.hdr.wdog ≤ x.wdog)) = some true ∧
    (operating (.mwait (some 5) false) (atClk 5 (equipped (.nop (plainHead 0))))).clk 0 = 5 := by decide +kernel

/-- A full decision queue that an operation waits for, from core clock 0. -/
def probing (n : Nat) : State :=
  let s := operating (.pushdq 1) (atClk n (equipped (.nop (plainHead 0))))
  { s with core := { s.core with dq := [(⟨0, 0, false, 0⟩, List.replicate 64 0)] } }

theorem witness_ExecutionEvents_probe : ∃ o q, (probing 2048).op? 1 = some o ∧ inOrder (probing 2048) o = true ∧
    o.blockedOn (probing 2048) = some q ∧ probeDue (probing 2048) o.m.isl o.since q = true ∧
    probeDue (probing 2047) o.m.isl o.since q = false :=
  ⟨_, .dq ⟨0, 0, false, 0⟩, rfl, by decide +kernel⟩

/-- A bound chain of an engine, nothing of which is left to run. -/
def bound (e : Engine) : Chain :=
  { eng := e, team := 0, tail := 1, last := 0, head := 0, comp := 1, cap := 64, halted := false, hstat := 0, erraddr := 0, errseq := 0
    read := 1, next := 0, doneAbove := [], cairn := 0, biv := false, lastAppend := 0, follows := [], away := false }

theorem witness_EngineEvents_unbind :
    let s := occurring (.engineChain ⟨0, 0, 0x200⟩) (mapped State.reset)
    let s := { s with eng := { s.eng with chains := [(⟨0, 0, 0x200⟩, bound (.copy 0))] } }
    (atClk 65536 s).clk 0 - (bound (.copy 0)).lastAppend = 65536 ∧ (atClk 65535 s).clk 0 - (bound (.copy 0)).lastAppend < 65536 ∧
    access s 0 0 (0x200 + 280) 8 .write true = .ok (0x200 + 280, false) := by decide +kernel

/-- A layout of two elements of 4 bytes. -/
def layout : Nat :=
  let x := 2 ^ 472 + 2 * 2 ^ 446 + 2 ^ 416 + 2 ^ 400 + 2 ^ 384 + 2 * 2 ^ 368
  x + crc32c (leBytes 60 x) * 2 ^ 480

/-- A record of a copy engine's chain that has been read, with a choice of its layouts, and how many of its elements are done. -/
def copying (x : Nat) (lays : Option (Nat × Nat)) (step : Nat) : State :=
  let s := recording
  { s with occ := .engineSome ⟨⟨0, 0, 0⟩, 1⟩ 1, mem := { s.mem with hbm := s.mem.hbm.putBytes 0x300 (leBytes 64 layout) }
           eng := { s.eng with recs := s.eng.recs.map fun r => { r with bits := x, lays := lays, step := step } } }

/-- A COPY of global memory from one address to another, with its layouts at 0x300. -/
def copyBits (src dst : Nat) : Nat := 2 ^ 56 + src * 2 ^ 460 + dst * 2 ^ 408 + 0x300 * 2 ^ 356 + 0x300 * 2 ^ 304

theorem witness_CopyRecords_checks : ∃ r, occRec (copying (copyBits 0x400 0x500) none 0) = some r ∧ recOp r.bits = 1 ∧
    copyMal r.bits = none ∧
    (match readLayout (beginRec (copying (copyBits 0x400 0x500) none 0) r) r 0x300 with
      | .ok x => x == layout
      | .error _ => false) = true ∧
    layoutSealed layout = true ∧ layoutSealed (layout + 1) = false ∧ copyShapeBad r.bits layout layout = none ∧
    copyShapeBad (copyBits 0x400 0x502) layout layout = some 1 ∧ copyFormatBad 0 4 4 = false ∧ copyFormatBad 1 4 4 = true ∧
    copyMal (copyBits 0x400 0x500 + 2 ^ 52) = some 52 :=
  ⟨_, rfl, by decide +kernel⟩

theorem witness_CopyRecords_elements : ∀ k ∈ [0, 1],
    let s := copying (copyBits 0x400 0x500) (some (layout, layout)) k
    ∃ r, occRec s = some r ∧ r.step = k ∧ layCount layout = 2 ∧ copySide s r 0 = some .global ∧
      (match copyRead s (engineView s 0 r.eng) r .global 0x400 layout k with
        | .ok y => (match copyWrite s r .global 0x500 layout k (convElement r.bits y) with
          | .ok w => w.addr == 0x500 + 4 * k
          | .error _ => false)
        | .error _ => false) = true := by
  simp only [List.forall_mem_cons, List.not_mem_nil, false_implies, implies_true, and_true]
  exact ⟨⟨_, rfl, by decide +kernel⟩, ⟨_, rfl, by decide +kernel⟩⟩

theorem witness_CopyRecords_faults :
    let s := copying (copyBits 0x20000000 0x500) (some (layout, layout)) 0
    ∃ r, occRec s = some r ∧ copyRead s (engineView s 0 r.eng) r .global 0x20000000 layout 0 =
      .error (.fault 0x20000000 false 2 .read) :=
  ⟨_, rfl, by decide +kernel⟩

theorem witness_CopyRecords_lands :
    let w : EngWrite := ⟨⟨⟨0, 0, 0⟩, 1⟩, .copy 0, none, 0x504, [1, 2, 3, 4]⟩
    let s := { recording with eng := { recording.eng with outs := [w] } }
    s.eng.outs[0]? = some w ∧ outWhole s 0 w = true ∧ outBehind s 0 w = false := by decide +kernel

/-- A record that the matrix engine of core 0 performs, for a team with 32 KiB of scratchpad. -/
def matching (x step : Nat) : State :=
  let ref : RecRef := ⟨⟨0, 0, 0⟩, 1⟩
  let s := reteam (fun t => { t with hdr := { t.hdr with scr := 32768 } }) (equipped (.nop (plainHead 0)))
  { s with
    occ := .engineSome ref 1
    eng := { s.eng with
      recs := recording.eng.recs.map fun r => { r with eng := .matrix 0, bits := x, step := step }
      matRun := [((0, 0), ⟨.record ref, [], 0, [], false⟩)] } }

/-- An MMA of two steps in F32 of bank 0 that begins with zero, and an MVM of two rows of 16 elements. -/
def mmaBits (fb : Nat) : Nat := 0x10 * 2 ^ 56 + fb * 2 ^ 448 + 0x4000 * 2 ^ 384 + 2 * 2 ^ 346 + 2 ^ 313
def mvmBits (fb w : Nat) : Nat := 0x11 * 2 ^ 56 + fb * 2 ^ 448 + w * 2 ^ 396 + 2 * 2 ^ 380 + 16 * 2 ^ 364 + 64 * 2 ^ 332 + 2 ^ 272

theorem witness_MatrixRecords : ∀ k ∈ [0, 1],
    let s := matching (mmaBits 0x22) k
    ∃ r t, occRec s = some r ∧ s.team? 0 0 = some t ∧ recOp r.bits = 0x10 ∧ atEngine s r 0 = true ∧ r.step = k ∧
      mmaMal r.bits = none ∧ mmaPre t 0 r.bits = none ∧ okay (stepJob (engineView (beginRec s r) 0 r.eng) 0 0 t r.bits k) = true := by
  simp only [List.forall_mem_cons, List.not_mem_nil, false_implies, implies_true, and_true]
  exact ⟨⟨_, _, rfl, rfl, by decide +kernel⟩, ⟨_, _, rfl, rfl, by decide +kernel⟩⟩

theorem witness_MatrixRecords_rows :
    let s := matching (mvmBits 0x22 0x400) 1
    ∃ r t, occRec s = some r ∧ s.team? 0 0 = some t ∧ recOp r.bits = 0x11 ∧ atEngine s r 0 = true ∧ mvmMal r.bits = none ∧
      rangeStatus t.hdr.scr (mvmVectors 0x22 0 0 16 0) = none ∧
      okay (recRow (beginRec s r) (engineView (beginRec s r) 0 r.eng) r 1) = true :=
  ⟨_, _, rfl, rfl, by decide +kernel⟩

theorem witness_MatrixRecords_spans :
    let s := matching (mmaBits 0x22 + 2 ^ 381) 0
    ∃ t, s.team? 0 0 = some t ∧ mmaPre t 0 (mmaBits 0x22 + 2 ^ 381) = some (0x08, 0) ∧
      mmaPre t 0 (mmaBits 0x22 + 0x8000 * 2 ^ 416) = some (0x0A, 0x8000) :=
  ⟨_, rfl, by decide +kernel⟩

theorem witness_MatrixRecords_done :
    let run : MatRun := ⟨.record ⟨⟨0, 0, 0⟩, 1⟩, [((0, 0), 5), ((0, 1), 6)], 0, [], false⟩
    let s := { recording with eng := { recording.eng with matRun := [((0, 0), run)] } }
    s.eng.matRun.get? (0, 0) = some run ∧ run.bad = false ∧ run.passed = [] ∧ (run.writes.map (·.1)).Nodup := by decide +kernel

/-- The record of the NOP kind has ended with a status, its chain has that one record, and it may ask for a join decrement. -/
def finished (st ja : Nat) : State :=
  let s := recording
  { s with occ := .engine ⟨⟨0, 0, 0⟩, 1⟩
           eng := { s.eng with
             recs := s.eng.recs.map fun r => { r with res := some (st, 7), bits := ja * 2 ^ 135 }
             chains := [(⟨0, 0, 0⟩, { bound (.copy 0) with comp := 0 })] } }

theorem witness_RecordCompletion : ∀ st ∈ [0, 3],
    let s := finished st 0
    ∃ r, s.rec? ⟨⟨0, 0, 0⟩, 1⟩ = some r ∧ r.res = some (st, 7) ∧ r.parked = none ∧ recordActive s 0 0 r.eng = true ∧
      (writeStatus s r st 7).2 = st ∧ (∀ q ∈ s.eng.recs, q.ref = r.ref) := by
  simp only [List.forall_mem_cons, List.not_mem_nil, false_implies, implies_true, and_true]
  exact ⟨⟨_, rfl, by decide +kernel⟩, ⟨_, rfl, by decide +kernel⟩⟩

theorem witness_RecordCompletion_join :
    ∃ r, (finished 0 0x100).rec? ⟨⟨0, 0, 0⟩, 1⟩ = some r ∧ nbits r.bits 186 135 = 0x100 ∧
      okay (recordJoin (writeStatus (finished 0 0x100) r 0 7).1 r) = true ∧
      okay (recordJoin (writeStatus (finished 0 0x20000000) r 0 7).1 { r with bits := 0x20000000 * 2 ^ 135 }) = false :=
  ⟨_, rfl, by decide +kernel⟩

/-- A READY record at 0x50000 whose kernel header stands at 0x40000, for the code at 0x20000. -/
def ready (x : Nat) : State :=
  let s := occurring (.place 0 0) (mapped State.reset)
  { s with
    mem := { s.mem with hbm := s.mem.hbm.putBytes 0x40000 (leBytes 256 x) }
    task := { s.task with queue := [⟨0, 0, { bareTeam.task with addr := 0x50000, pa := 0x50000, khdr := 0x40000 }, 0, none⟩], nextOrder := 1 } }

/-- The header of a kernel with one strand and a gaffer. -/
def header : Nat :=
  2 ^ 56 + 2 * 2 ^ 24 + 2 ^ 12 + 1 + 0x1000 * 2 ^ 64 + (2 ^ 32 - 0x10000) * 2 ^ 128 + (2 ^ 32 - 0x20000) * 2 ^ 160 +
    (2 ^ 32 - 0x1FFC0) * 2 ^ 192 + (2 ^ 32 - 0x20000) * 2 ^ 224

theorem witness_TeamEvents_placed :
    let s := ready header
    dispatchTurn s 0 0 = some (0, 3) ∧ (dispatch s 0 0).isSome = true ∧ s.fab.fenced.get? 0 = none ∧ dispatches s 0 0 = true ∧
    freeTeamId s 0 = some 0 ∧
    (match placeable s 0 0 with
      | [.ready q] => !s.mem.poison.contains q.mark && (match readKernel s 0 0 q.task with
        | .ok k => k.hdr.gentry == some 0x20040 && (findSpan s 0 0 k.hdr (initialOn k.hdr) (fun _ => true)).isSome
        | .error _ => false)
      | _ => false) = true := by decide +kernel

theorem witness_TeamEvents_unplaceable :
    (match placeable (ready 0) 0 0 with
      | [.ready q] => q.task.origin != 1 && (match readKernel (ready 0) 0 0 q.task with
        | .ok _ => false
        | .error e => e == (0x23, none))
      | _ => false) = true := by decide +kernel

/-- An event of the test team. -/
def teamEvent : State := occurring (.team 0 0) (equipped (.nop (plainHead 0)))

/-- The end of the test team has begun, with a target that has not answered, or with a LAUNCH record to complete. -/
def ending (waiting : List Nat) (cmd : Option CmdRef) (origin : Nat) : State :=
  let s := reteam (fun t => { t with ending := some (0x20, 0), task := { t.task with origin := origin } }) teamEvent
  let c : CmdRec := { ref := ⟨0, 0, 1, 1⟩, addr := 0, bits := 0, res := none, begun := true, trec := some (0, 0), pages := none, dropped := false }
  let ch : CmdChain := { home := 0, desc := 0, head := 0, consumed := 1, comp := 0, halted := false, last := 0, done := [], reg := 1, low := 0 }
  { s with
    task := { s.task with ends := [⟨0, 0, 0, bareTeam.task, 0x20, 0, waiting, [], cmd⟩] }
    hub := { s.hub with cmds := [c], chains := [((0, 0), ch)] } }

theorem witness_TeamEnds :
    let now (s : State) := s.task.ends.find? fun x => x.isl = 0 ∧ x.team = 0
    (let s := reteam (fun t => { t with ending := some (0x20, 0) }) teamEvent
     (s.team? 0 0).map (fun t => (t.ending, t.gone)) = some (some (0x20, 0), false) ∧ now s = none) ∧
    memoryOpen (dropEndless (operating .store teamEvent) 0 0 true) 0 0 = true ∧
    memoryOpen (dropEndless teamEvent 0 0 true) 0 0 = false ∧
    (now (ending [0] none 0)).map (fun e => (e.cmd, e.waiting)) = some (none, [0]) ∧
    (now (ending [] none 0)).map (fun e => (e.cmd, e.waiting)) = some (none, []) ∧
    ((ending [] none 1).team? 0 0).map (fun t => (t.task.origin, ((ending [] none 1).hub.cmds.find? (namesLaunch (ending [] none 1) 0 t.task)).isSome)) =
      some (1, true) ∧
    (now (ending [] (some ⟨0, 0, 1, 1⟩) 1)).map (·.cmd) = some (some ⟨0, 0, 1, 1⟩) ∧
    teamEvent.eng.outs = [] ∧ teamEvent.eng.chains = [] := by decide +kernel

/-- The test team has been asked to give its place up, and its members have reached a course. -/
def asked (d : Decision) (c : Course) : State :=
  let s := reteam (fun t => { t with preempt := some ⟨d, 5, none, false⟩, hdr := { t.hdr with resmap := 0x60000, spcount := 1 } }) teamEvent
  let s := rethread (fun r => { r with clause := none }) s
  { s with core := { s.core with members := s.core.members.modify ⟨0, 0, false, 0⟩ fun r => { r with course := c } } }

theorem witness_TeamEnds_discarded :
    ((asked .discard .running).team? 0 0).map (fun t => (t.ending, discardDone (asked .discard .running) 0 0 t)) = some (none, true) := by
  decide +kernel

/-- A team whose members have saved, or whose map stands beyond its page. -/
def saved (map : Nat) : State :=
  reteam (fun t => { t with hdr := { t.hdr with resmap := map } }) (asked .save (.saved 7))

/-- Every piece of a map stands in a page that can be written. -/
def mapStands (s : State) : Option Bool := (s.team? 0 0).map fun t =>
  ((0, 16) :: (mapPieces s 0 0 t).map fun x => (x.1, x.2.length)).all fun x => okay (access s 0 0 (t.hdr.resmap + x.1) x.2 .write false)

theorem witness_SavesAndRestores :
    ((saved 0x60000).team? 0 0).map (fun t => (t.preempt.isSome, saveReady (saved 0x60000) 0 0 t)) = some (true, true) ∧
    mapStands (saved 0x60000) = some true ∧
    ((saved 0x20000000).team? 0 0).map (fun t => okay (writeMap (saved 0x20000000) 0 0 t ⟨.save, 5, none, false⟩)) = some false ∧
    ((asked .save .running).team? 0 0).map (saveReady (asked .save .running) 0 0) = some false := by decide +kernel

theorem witness_SavesAndRestores_restored :
    let s := reteam (fun t => { t with restoring := true }) (asked .save .running)
    ((s.team? 0 0).map fun t => (restoreDone s 0 0 t, t.hasMap)) = some (true, true) ∧
    okay (readVa s 0 0 0x60000 8) = true ∧ access s 0 0 0x60008 8 .write true = .ok (0x60008, false) := by decide +kernel

/-- Two partitions that take turns on island 0, with the test team of the resident one, and a tick at a time. -/
def rotating (tick : Option Nat) (gang : Bool) (ns : Nat) : State :=
  let s := reteam (fun t => { t with part := 1, preempt := tick.map fun _ => ⟨.lost, 10, none, false⟩ }) (atNs ns teamEvent)
  let p : Part := ((mapped State.reset).part? 0).getD
    { islands := 1, slices := 1, ce := [], dispw := 4, fabw := 4, mac := (0, 0), vlan := 1, qcap := 4096, agei := 20, roots := [], rotation := none }
  let q : Part := { p with ce := [(0, 3)], rotation := some 0 }
  let r : Rotation :=
    { order := [1, 2], quantum := [(1, 100000), (2, 100000)], deadline := 10000, gang := gang, pos := 0, start := 0, shorten := []
      tick := tick, late := if tick.isSome then [(0, 0)] else [] }
  { s with par := { s.par with parts := [(0, p), (1, q), (2, q)], rots := [(0, r)] } }

theorem witness_SwitchEvents :
    let rot (s : State) : Rotation := (s.par.rots.get? 0).getD ⟨[], [], 0, false, 0, 0, [], none, []⟩
    (let s := occurring (.slot 0) (rotating none false 100000)
     tickReady s (rot s) = true ∧ (0, 0) ∈ teamsOn s (rot s).resident 0 ∧ 0 ∈ islandsOf s (rot s).resident ∧
      (s.team? 0 0).map (fun t => (t.first.isSome, t.ending, t.gone)) = some (true, none, false)) ∧
    (let s := rotating none false 99999
     tickReady s (rot s) = false) ∧
    (∀ g ∈ [false, true],
      let s := rotating (some 0) g 10000
      deadlineDue s 0 (rot s) = true ∧ (rot s).gang = g ∧ (s.team? 0 0).map (·.running) = some true) ∧
    (let s := rotating (some 0) false 9999
     deadlineDue s 0 (rot s) = false) ∧
    (let s := rotating (some 0) false 160000
     deadlinePast s (rot s) 16 = true) ∧
    (let s := rotating (some 0) false 159999
     deadlinePast s (rot s) 16 = false) := by decide +kernel

/-- An event of the lehr: a slice of a queued job or of a switch, or engines that move. -/
def scrubbed (j : LehrJob) (bad : Nat) (queued : Bool) : State :=
  let s := rotating (if queued then none else some 0) false 5
  { s with
    occ := .lehr j bad
    task := { s.task with teams := [] }, core := { s.core with members := [], threads := [] }
    par := { s.par with jobs := if queued then [j] else [] } }

theorem witness_LehrEvents :
    (let j : LehrJob := ⟨0, 0xFFF, 0, 5, 0, 0⟩
     queuedJobOk (scrubbed j 1 true) j = true) ∧
    (let j : LehrJob := ⟨0, 1, 3, 1, 1, 2⟩
     switchJobOk (scrubbed j 0 false) j = true ∧ (rotationFor (scrubbed j 0 false) j).isSome = true) ∧
    (let j : LehrJob := ⟨0, 0, 1, 6, 1, 2⟩
     queuedJobOk (scrubbed j 0 true) j = true ∧ ((scrubbed j 0 true).part? 1).isSome = true) ∧
    (let j : LehrJob := ⟨0, 1, 0, 3, 1, 0⟩
     (queuedJobOk (scrubbed j 0 false) j || switchJobOk (scrubbed j 0 false) j) = false) := by decide +kernel

/-! ### Events of the fabric -/

/-- The packet that stands at its destination, changed. -/
def repacket (f : Packet → Packet) (s : State) : State := { s with fab := { s.fab with pkts := s.fab.pkts.map f } }

/-- A packet is received: the particulars of `Received`, as a check. -/
def receives (s : State) (op : PktOp) (p : Packet) : Bool :=
  p.op == op && arrived s p && takesIn s p && !tooOld s p && authentic s p && inTurn s p

theorem witness_RequestsServed_kinds : ∀ x ∈ [(PktOp.getReq, Acc.read, 0x100), (.ratom, .atomic, 0x100), (.rred, .atomic, 0x100),
      (.notify, .atomic, 0x100)],
    let s := repacket (fun p => { p with op := x.1, payload := if x.1 = .getReq then [] else [0, 0] ++ leBytes 8 1 ++ leBytes 8 0, count := 1 }) arriving
    ((occPacket s).map fun p => receives s x.1 p && p.part.isNone && okay (p.access (dropPacket (usePlace s p) p.id) 8 x.2.1 false)) =
      some true := by decide +kernel

theorem witness_RequestsServed_refused :
    let far (s : State) := repacket (fun p => { p with src := 1 }) s
    (let s := repacket (fun p => { p with addr := 0x20000000 }) arriving
     ((occPacket s).map fun p => receives s .put p && !okay (p.access (dropPacket (usePlace s p) p.id) 4 .write false)) = some true) ∧
    (let s := repacket (fun p => { p with place := .queue 0 24 }) { arriving with fab := { arriving.fab with switchGen := 1 } }
     ((occPacket s).map fun p => arrived s p && takesIn s p && tooOld s p) = some true) ∧
    (let s := far (repacket (fun p => { p with epoch := 99 }) arriving)
     ((occPacket s).map fun p => arrived s p && takesIn s p && !tooOld s p && !authentic s p) = some true) ∧
    (let s := repacket (fun p => { p with och := some 3, chseq := 2 }) arriving
     ((occPacket s).map fun p => arrived s p && takesIn s p && !tooOld s p && authentic s p && !inTurn s p) = some true) ∧
    (let s := repacket (fun p => { p with op := .ochReset, och := some 3, payload := [] }) arriving
     ((occPacket s).map fun p => arrived s p && takesIn s p && !tooOld s p && authentic s p) = some true) ∧
    (let s := far (repacket (fun p => { p with place := .held 0 }) arriving)
     ((occPacket s).map fun p => (p.place, p.src != p.dest)) = some (.held 0, true) ∧
      (atNs 10000000 s).hub.ns = 10000000 ∧ (atNs 9999999 s).hub.ns < 10000000) := by decide +kernel

/-- A packet at the router of island 0 that goes one hop east, named as the event with a port. -/
def hopping (f : Packet → Packet) (port : Nat) (s : State) : State :=
  { repacket (fun p => f { p with src := 0, dest := 1, route := [1], hidx := 0, place := .queue 0 24 }) { arriving with
      fab := { s.fab with pkts := arriving.fab.pkts, nextPkt := 2 } } with occ := .hop 1 port }

theorem witness_RepliesAndTimers_hops :
    (let s := hopping id 4 booted
     ((occPacket s).map fun p => (atHead s p && !tooOld s p && !headerReserved p.header && (exits s 0 1 p).contains 4, p.nextHop,
        (farEnd (codeNow s) ⟨0, 4⟩).map (bufferRoom s))) = some (true, some 1, some true)) ∧
    (let s := hopping (fun p => { p with route := [] }) 4 booted
     ((occPacket s).map fun p => (atHead s p, tooOld s p, p.nextHop, p.place.router != some p.dest)) = some (true, false, none, true)) ∧
    (let s := hopping (fun p => { p with route := [15] }) 4 booted
     ((occPacket s).map fun p => (p.nextHop, hopPorts 0 15)) = some (some 15, [])) ∧
    (let s := hopping (fun p => { p with gen := 65535 }) 4 { booted with fab := { booted.fab with switchGen := 0 } }
     ((occPacket s).map (tooOld s)) = some true) ∧
    (let s := hopping id 4 { booted with fab := { booted.fab with links := [] } }
     ((occPacket s).map fun p => (headerReserved p.header, exits s 0 1 p)) = some (false, [])) ∧
    (let s := hopping (fun p => { p with place := .rope 0 }) 4 booted
     ((occPacket s).map fun p => (p.place.onRope, p.place.router, (exits s 0 1 p).contains 4)) = some (true, some 0, true)) := by
  decide +kernel

/-- A reply of some kind, its request, and an operation that waits for it. -/
def answering (op : PktOp) (waiting : Nat) : State :=
  let s := repacket (fun p => { p with op := op }) replying
  { s with core := { s.core with ops := completing.core.ops.map fun o => { o with act := .get, waiting := waiting } } }

theorem witness_RepliesAndTimers_replies :
    (∀ op ∈ [PktOp.getData, .ratomRes, .rredAck, .notifyAck, .ochResetAck, .error],
      let s := answering op 1
      ((occPacket s).map fun p => (p.op, arrived s p && takesIn s p && authentic s p && !p.ofReply,
        (s.txn? p.dest p.tag).map fun t => t.injected && !heldData s t)) = some (op, true, some true)) ∧
    ((answering .getData 2).op? 1).map (·.waiting) = some 2 ∧ ((answering .getData 1).op? 1).map (·.waiting) = some 1 := by
  decide +kernel

theorem witness_RepliesAndTimers_timers :
    (let s := { replying with fab := { replying.fab with pkts := [], txns := replying.fab.txns.map fun t => { t with dest := 1 } } }
     (s.txn? 0 1).map (fun t => (t.injected, t.dest != t.src, t.sentAt, (landing s t).isNone)) = some (true, true, 0, true) ∧
      (atNs s.hub.respNs s).hub.ns = s.hub.respNs) ∧
    (let s := repacket (fun p => { p with src := 1, place := .queue 0 4, blocked := some 0 })
       { arriving with fab := { arriving.fab with ucieDown := [(0, 0)] } }
     ((occPacket s).map fun p => (p.place, p.blocked, p.timedOut, atHead s p, canAdvance s 0 p)) =
        some (.queue 0 4, some 0, false, true, false)) ∧
    (let s := hopping (fun p => { p with blocked := some 0 }) 4 booted
     ((occPacket s).map (canAdvance s 0)) = some true) ∧
    (let s := hopping (fun p => { p with blocked := some 0, timedOut := true }) 4 booted
     (oldestStuck s 0).map (·.id) = some 1 ∧ (oldestStuck s 1).isNone = true ∧ onRope s 1 = false ∧
      s.fab.pkts.all (fun q => !q.place.onRope) = true) := by decide +kernel

/-- A link of the booted unit in a state since hub time 0. -/
def linked (f : Link → Link) : State := occurring (.link ⟨0, 4⟩) (modLink booted ⟨0, 4⟩ fun l => f { l with since := 0 })

theorem witness_LinkEvents_states :
    (let s := linked fun l => { l with st := .down, cause := true }
     anchorUp s = true ∧ joined s ⟨0, 4⟩ = true ∧ (linkAt s ⟨0, 4⟩).st = .down ∧ (linkAt s ⟨0, 4⟩).cause = true) ∧
    (let s := linked fun l => { l with st := .down, cause := false }
     eligible45 s ⟨0, 4⟩ = true ∧ (linkAt s ⟨0, 4⟩).st = .down ∧ (linkAt s ⟨0, 4⟩).cause = false ∧ (linkAt s ⟨0, 4⟩).since = 0) ∧
    (∀ st ∈ [LinkSt.mismatch, .train, .forced], (linkAt (linked fun l => { l with st := st }) ⟨0, 4⟩).st = st) ∧
    (linkUp (linked id) ⟨0, 4⟩ = true ∧ serviceUp (linked id) = true) ∧
    (let c : LinkCfg := ⟨8, 0xFF, 200⟩
     handshakeOk ((linkAt (linked id) ⟨0, 4⟩).train 0) true true c = true ∧
      (let l := { (linkAt (linked id) ⟨0, 4⟩).train 0 with prop0 := some c, prop1 := some ⟨6, 0x3F, 100⟩ }
       handshakeOk l false true ⟨6, 0x3F, 100⟩ = true ∧ handshakeOk l true true c = false)) := by decide +kernel

/-- A TOPOSET of the system's chain, read and not begun. -/
def toposet (x : Nat) (s : State) : State :=
  let c : CmdRec := { ref := ⟨0, 0, 1, 1⟩, addr := 0, bits := 3 * 2 ^ 56 + x, res := none, begun := false, trec := none, pages := none, dropped := false }
  { s with occ := .cmd c.ref, focus := none, hub := { s.hub with cmds := [c] } }

theorem witness_TopologyEvents_toposet :
    (let s := toposet (5 * 2 ^ 440) booted
     (occCmd s 3).isSome = true ∧ serviceUp s = true ∧ topoFree s = true ∧ s.fab.xcode ≠ 5) ∧
    toposetMal (3 * 2 ^ 56 + 99 * 2 ^ 426) = some 426 ∧ toposetMal (3 * 2 ^ 56 + 100 * 2 ^ 426) = none ∧
    (let s := toposet (booted.fab.xcode * 2 ^ 440) booted
     (occCmd s 3).map (fun c => (toposetMal c.bits, nbits c.bits 447 440 == s.fab.xcode)) = some (none, true)) ∧
    (let s := toposet 0 { booted with fab := { booted.fab with fenced := [(3, false)] } }
     topoFree s = false ∧ topoTurn s (.inl ⟨0, 0, 1, 1⟩) = false ∧ s.fab.topoq = []) ∧
    (let s := toposet 0 { booted with fab := { booted.fab with topoq := [.inl ⟨0, 0, 1, 1⟩] } }
     topoTurn s (.inl ⟨0, 0, 1, 1⟩) = true) := by decide +kernel

/-- A topology switch under way. -/
def switching (p : TopoPhase) (code : Nat := 5) : State :=
  let s := toposet 0 booted
  { s with fab := { s.fab with toposet := some ⟨⟨0, 0, 1, 1⟩, code, 500000, 0, p, []⟩ } }

theorem witness_TopologyEvents_phases :
    drained (switching .drain) = true ∧ serviceUp (switching .drain) = true ∧
    (let s := switching .drain
     drained { s with fab := { s.fab with txns := replying.fab.txns.map fun t => { t with dest := 1 } } } = false) ∧
    partialMask (switching .retrain) ≠ 0 ∧
    (let s := switching .retrain booted.fab.xcode
     (expressEnds s).any (training s) = false ∧ (s.hub.cmds.find? (·.ref = ⟨0, 0, 1, 1⟩)).isSome = true ∧ partialMask s = 0) ∧
    (let s := modLink (switching .retrain booted.fab.xcode) ⟨0, 16⟩ (·.train 0)
     (expressEnds s).any (training s) = true) := by decide +kernel

/-- Island 1 has been fenced. -/
def fencedUnit (done : Bool) : State :=
  let s := occurring (.island 1) booted
  { s with fab := { s.fab with fenced := [(1, done)] } }

theorem witness_TopologyEvents_fences :
    readmitReady (fencedUnit true) 1 = true ∧ fenceable (fencedUnit true) 1 = false ∧ readmitReady (occurring (.island 1) booted) 1 = false ∧
    (booted.hub.power.get? 1).map (fun p => decide (p.hotRounds < 100)) = some true ∧
    (let s := { booted with fab := { booted.fab with ucieDown := [(1, 0)] } }
     fenceable s 1 = true ∧ s.fab.ucieDown.get? 1 = some 0) ∧
    topoTurn { booted with fab := { booted.fab with topoq := [.inr 1] } } (.inr 1) = true := by decide +kernel

/-! ### Events of the host and the platform -/

/-- A booted unit with a page of memory and a region of partition 0 on island 0, which the hub reaches over its first hop. -/
def hosted (o : Occ) : State :=
  let s := occurring o (mapped booted)
  { s with hub := { booted.hub with regions := [((0, 1), ⟨0, 0x70000, 65536⟩)] }
           fab := { s.fab with views := [((31, 0), ⟨[0], [0], [true], [true]⟩)] } }

/-- A frame for partition 0. -/
def frame : Frame := ⟨100, 0, 0, 1, 0, 7⟩

theorem witness_RdmaEvents :
    (let s := hosted (.rdmaWrite frame 1 65532 [1, 2, 3, 4] (some 5))
     anchorUp s = true ∧ regionReached s 0 1 = true ∧ frameTo s frame = some 0 ∧ frameTo s { frame with vlan := 2 } = none ∧
      (s.hub.regions.get? (0, 1)).map (fun g => (g.va + 65532, g.len)) = some (0x7FFFC, 65532 + 4) ∧
      (0x7FFFC : Nat) / 65536 = (0x7FFFC + 4 - 1) / 65536 ∧
      accessBy s 0 .remote 0 0x7FFFC 4 .write false = .ok (0x7FFFC, false) ∧ accessBy s 0 .remote 0 0x7FFFC 4 .read true = .ok (0x7FFFC, false) ∧
      accessBy s 0 .remote 0 0x20000000 4 .write false = .error (.fault 0x20000000 false 2) ∧
      (bindQp s frame).hub.qps.get? (0, 7) = some ⟨0, [], []⟩) ∧
    (let s := { hosted .none with mem := { (hosted .none).mem with poison := [.global 0 0x1C00] } }
     accessBy s 0 .remote 0 0x70000 4 .read true = .error (.poison 0x70000)) := by decide +kernel

theorem witness_RegistrationEvents :
    let s := hosted .none
    serviceUp s = true ∧ (s.part? 0).isSome = true ∧ holdsIsland s 0 0 = true ∧ hubReaches s 0 = true ∧ 0x80200 % 512 = 0 ∧
    access s 0 0 0x80200 512 .write false = .ok (0x80200, false) ∧ (nextPost s 0 0).isNone = true ∧ holdsIsland s 0 31 = false := by
  decide +kernel

/-- A chain of commands whose descriptor stands at 0x80200 with TAIL at a number, and whose first record is at 0x90000. -/
def commanding (tail x : Nat) : State :=
  let s := hosted (.chain 0 0)
  let put (m : MemSt) (a n v : Nat) : MemSt := { m with hbm := m.hbm.putBytes a (leBytes n v) }
  let c : CmdChain := { home := 0, desc := 0x80200, head := 0x90000, consumed := 0, comp := 0, halted := false, last := 0, done := [], reg := 1, low := 0 }
  { s with mem := put (put s.mem 0x80200 8 tail) 0x90000 64 x, hub := { s.hub with chains := [((0, 0), c)] } }

theorem witness_CommandEvents :
    (let s := commanding 1 (2 * 2 ^ 56)
     (match s.hub.chains.get? (0, 0) with
      | some c => decide ((chainServed s (0, 0) c && (pcpServe s 0).isSome && okay (readVa s 0 0 0x80200 8) && okay (nextCmd s (0, 0) c) &&
          okay (readVa s 0 0 0x90000 64) && (cmdEarly s 0 0 (2 * 2 ^ 56)).isNone) = true)
      | none => false) = true) ∧
    (let s := commanding 0 0
     (match s.hub.chains.get? (0, 0) with
      | some c => decide (chainServed s (0, 0) { c with consumed := 1 } = true ∧ chainServed s (0, 0) { c with halted := true } = false ∧
          okay (nextCmd s (0, 0) { c with consumed := 1, last := 0x20000000 }) = false)
      | none => false) = true) := by decide +kernel

/-- A command that has been read and not begun, or whose status is decided. -/
def command (x : Nat) (res : Option (Nat × Nat × Nat)) (s : State) : State :=
  let c : CmdRec := { ref := ⟨0, 0, 1, 1⟩, addr := 0x90000, bits := x, res := res, begun := res.isSome, trec := none, pages := none, dropped := false }
  { s with occ := .cmd c.ref, hub := { s.hub with cmds := [c] } }

theorem witness_CommandEvents_completed :
    let s := command 0 (some (0, 0, 0)) (commanding 1 0)
    (s.hub.cmds.find? (·.ref = ⟨0, 0, 1, 1⟩)).map (fun c => (c.ready s, c.res)) = some (true, some (0, 0, 0)) ∧
    (s.hub.chains.get? (0, 0)).map (fun c => (c.reg, c.done, c.comp)) = some (1, [], 0) ∧
    access s 0 0 (0x90000 + 56) 8 .write false = .ok (0x90038, false) ∧ access s 0 0 (0x80200 + 280) 8 .write false = .ok (0x80318, false) := by
  decide +kernel

/-- A LAUNCH, with a record address and a join count, and a NOTIFY of the same address. -/
def launchBits (va count : Nat) : Nat := 2 ^ 56 + va * 2 ^ 130 + count * 2 ^ 190
def notifyBits (va count : Nat) : Nat := 2 * 2 ^ 56 + va * 2 ^ 391 + count * 2 ^ 375

theorem witness_CommandEffects_launch : ∀ n ∈ [0, 1],
    let s := command (launchBits 0xA0000 n) none (commanding 1 0)
    (match occCmd s 1 with
    | some c => decide (launchTurn s c = true ∧ (pcpServe s 0).isSome = true ∧ launchMal c.bits = none ∧ targetBad s 0 0 = none ∧
        translate s 0 0 0xA0000 .atomic = .ok 0xA0000 false true ∧ s.mem.poisonedAt 0 0xA0000 8 = none ∧
        recordHeld (jwState (s.mem.nat 0 0xA0000 8)) = false ∧ nbits c.bits 205 190 = n ∧
        recordBad (0xC5 * 2 ^ 183) 0xA0000 0 = none ∧ (queueOf s 0 0).length < qcapOf s 0)
    | none => false) = true := by decide +kernel

theorem witness_CommandEffects_bad :
    launchMal (launchBits 0xA0020 0) = some 130 ∧ targetBad (hosted .none) 0 31 = some 0x12 ∧
    translate (hosted .none) 0 0 0x20000000 .atomic = .fault false 2 ∧ recordHeld 2 = true ∧ recordHeld 1 = false ∧
    (let s := command (notifyBits 0xA0000 1) none (commanding 1 0)
     (match occCmd s 2 with
      | some c => decide (nbits c.bits 447 443 = 0 ∧ nbits c.bits 442 391 = 0xA0000 ∧ nbits c.bits 390 375 = 1 ∧ firstBit c.bits 374 128 = none ∧
          (joinDecrement s 0 0 0xA0000 0xA0000 1).2 = true ∧
          (joinDecrement { s with mem := { s.mem with poison := [.global 0 0x2800] } } 0 0 0xA0000 0xA0000 1).2 = false)
      | none => false) = true) := by decide +kernel

/-- A posted fault that the test thread waits for, and one that has yet to be posted. -/
def faulted (fseq held : Option Nat) (s : State) : State :=
  let k : FaultKey := ⟨0, 0, 0x2000, false, true⟩
  let e : FaultEnt :=
    { key := k, va := 0x20000000, core := 0, agent := 0, acc := 0, level := 2, team := 0, engine := 0, retry := 0, stamp := 0, fseq := fseq, held := held, order := 3 }
  rethread (fun r => { r with wait := { r.wait with parked := some k } })
    { s with occ := .fault 0 0 3, par := { s.par with faults := [e], fchains := [((0, 0), ⟨0x80200, 0xB0000, 0, 0⟩)] } }

theorem witness_CommandEffects_resume :
    let s := command (6 * 2 ^ 56 + 9 * 2 ^ 379) none (faulted (some 9) none (hosted .none))
    (match occCmd s 6 with
    | some c => decide (firstBit c.bits 378 128 = none ∧ targetBad s 0 0 = none ∧
        (s.par.faults.find? fun e => e.key.isl = 0 ∧ e.key.part = 0 ∧ e.fseq = some (nbits c.bits 442 379)).isSome = true)
    | none => false) = true := by decide +kernel

theorem witness_FaultPosts :
    (let s := atClk 1024 (faulted none none (hosted .none))
     (occFault s).map (fun e => (e.held, decide (e.stamp + 1024 ≤ s.clk 0))) = some (none, true) ∧
      okay (readVa s 0 0 (0x80200 + 256) 8) = true ∧ okay (readVa s 0 0 (0x80200 + 8) 8) = true ∧
      access s 0 0 0xB0000 64 .write true = .ok (0xB0000, false) ∧ access s 0 0 (0x80200 + 16) 8 .write true = .ok (0x80210, false)) ∧
    (let s := atClk 1023 (faulted none none (hosted .none))
     (occFault s).map (fun e => decide (s.clk 0 < e.stamp + 1024)) = some true) ∧
    (let s := atClk 70000 (faulted none (some 70000) (hosted .none))
     (occFault s).map (fun e => decide (e.held = some (s.clk 0))) = some true) ∧
    (let s := faulted none none (hosted .none)
     let s := { s with par := { s.par with fchains := [((0, 0), ⟨0x80200, 0x20000000, 0, 0⟩)] } }
     okay (access s 0 0 0x20000000 64 .write true) = false) := by decide +kernel

/-- A MAP or UNMAP of one small page of partition 1, whose tables stand from 0x10000 on, or of one without tables. -/
def mapping (x : Nat) (tables : Bool) (leaf : Nat) : State :=
  let s := command x none (hosted .none)
  let put (m : MemSt) (a n v : Nat) : MemSt := { m with hbm := m.hbm.putBytes a (leBytes n v) }
  let p : Part := ((mapped State.reset).part? 0).getD
    { islands := 1, slices := 1, ce := [], dispw := 4, fabw := 4, mac := (0, 0), vlan := 1, qcap := 4096, agei := 20, roots := [], rotation := none }
  let q : Part := { p with roots := if tables then [(0, 0x100000)] else [] }
  let c : CmdRec := { ref := ⟨1, 16, 1, 1⟩, addr := 0x90000, bits := x, res := none, begun := false, trec := none, pages := none, dropped := false }
  { s with
    occ := .cmd c.ref, hub := { s.hub with cmds := [c] }
    mem := put (put (put (put s.mem 0x100000 8 (2 ^ 63 + 0x110000)) 0x110000 8 (2 ^ 63 + 0x120000)) 0x120008 8 leaf) 0x120010 8
      (2 ^ 63 + 2 ^ 62 + 0x500000 + 0x70)
    par := { s.par with parts := [(0, p), (1, q)], frames := [((0, 0x50), (.owned, 1)), ((0, 0x60), (.table, 1))] } }

def mapBits (va pfn : Nat) : Nat := 4 * 2 ^ 56 + va * 2 ^ 391 + pfn * 2 ^ 368 + 2 ^ 352 + 3 * 2 ^ 348
def unmapBits (va : Nat) : Nat := 5 * 2 ^ 56 + va * 2 ^ 391 + 2 ^ 352

theorem witness_MapEvents :
    (let s := mapping (mapBits 0x10000 0x50) true 0
     (match occCmd s 4 with
      | some c => decide (serviceUp s = true ∧ mapMal c.bits = none ∧ present s 0 = true ∧ holdsIsland s 1 0 = true ∧ hubReaches s 0 = true ∧
          scrubbing s 1 = false ∧ s.par.frames.get? (0, 0x50) = some (.owned, 1) ∧ (readPte s 0 0x120008).v = false ∧
          (readPte s 0 0x100000).v = true ∧ (readPte s 0 0x100000).pfn = 0x11 ∧ (readPte s 0 0x110000).pfn = 0x12 ∧
          freeTable s 1 0 = some 0x60)
      | none => false) = true) ∧
    (readPte (mapping (mapBits 0x20000 0x50) true 0) 0 0x120010).v = true ∧ mapMal (mapBits 0x10000 0x50 + 2 ^ 130) = some 130 ∧
    (mapping (mapBits 0x10000 0x51) true 0).par.frames.get? (0, 0x51) ≠ some (.owned, 1) ∧ holdsIsland (mapping 0 true 0) 1 5 = false := by
  decide +kernel

theorem witness_MapEvents_unmap :
    let s := mapping (unmapBits 0x10000) true (2 ^ 63 + 2 ^ 62 + 0x500000 + 0x70)
    (match occCmd s 5 with
    | some c => decide (unmapMal c.bits = none ∧ (readPte s 0 0x120008).v = true ∧
        tableEmpty (writePte s 0 0x120008 0) 0 0x120000 8192 = false)
    | none => false) = true := by decide +kernel

/-- A partition of one slice and one copy engine of island 1. -/
def tenant : Part :=
  { islands := 2, slices := 1, ce := [(1, 1)], dispw := 0, fabw := 0, mac := (1, 2), vlan := 2, qcap := 4096, agei := 20, roots := [], rotation := none }

/-- The booted unit after that partition has been created. -/
def tenanted : State := createPart booted 1 tenant

theorem witness_PartitionEvents_requests :
    let q := tenant.requested
    idFree booted 1 = true ∧ partOk booted 1 q = true ∧
    (maskBits 24 q.islands).all (fun i => enginesIdle booted i (q.ce.getD i 0 &&& enginesOf booted 0 i)) = true ∧
    idFree booted 0 = false ∧ (tenanted.part? 1).isSome = true ∧
    (let old := (tenanted.part? 1).getD q
     partOk tenanted 1 { q with slices := 3, roots := old.roots, rotation := old.rotation } = true ∧ old.islands = 2) ∧
    (present tenanted 1 = true ∧ holdsIsland tenanted 1 1 = true ∧
      (frameRange 0x100 2).all (fun k => (tenanted.par.frames.get? (1, k)).isNone) = true) := by decide +kernel

theorem witness_PartitionEvents_frames :
    let s := { tenanted with par := { tenanted.par with frames := [((1, 0x100), (.owned, 1)), ((1, 0x101), (.scrub, 1))] } }
    revocable s 1 1 (mappedRuns s 1 1) 0x100 = true ∧ revocable s 1 1 (mappedRuns s 1 1) 0x101 = false ∧
    s.par.frames.get? (1, 0x101) = some (.scrub, 1) ∧ moveOk booted 1 1 0 1 = false ∧ moveOk tenanted 1 2 0 1 = true := by
  decide +kernel

theorem witness_PartitionEvents_rotation :
    let p : Part := { tenant with dispw := 4, fabw := 4 }
    let s := { booted with par := { booted.par with parts := booted.par.parts ++ [(1, p), (2, p)] } }
    let r : Rotation := { order := [1, 2], quantum := [(1, 100000), (2, 1000000000)], deadline := 0, gang := false, pos := 0, start := 0, shorten := []
                          tick := none, late := [] }
    rotationOk s 0 r = true ∧ rotationOk s 0 { r with quantum := [(1, 99999), (2, 100000)] } = false := by decide +kernel

theorem witness_PowerEvents :
    anchorUp booted = true ∧ booted.hub.undervoltage = false ∧ booted.hub.noFlow = false ∧ (booted.hub.power.map (·.1)).Nodup ∧
    (atNs booted.hub.nextRound booted).hub.nextRound ≤ (atNs booted.hub.nextRound booted).hub.ns ∧
    booted.hub.ns < booted.hub.nextRound ∧ (booted.hub.power.get? 0).map (·.throttled) = some false ∧ nodeUp booted 0 = true ∧
    nodeUp { booted with fab := { booted.fab with fenced := [(0, false)] } } 0 = false := by decide +kernel

theorem witness_PlatformEvents_boot :
    let good : Image := { State.reset.hub.flash with signed := true }
    (let s := { State.reset with hub := { State.reset.hub with flash := good } }
     verifies s s.hub.flash = true ∧ verifies s { good with signed := false } = false ∧
      (bootRom { s with hub := { s.hub with noFlow := true } } []).hub.boot = .dry ∧
      (bootRom { s with hub := { s.hub with flash := { good with signed := false } } } []).hub.boot = .https) ∧
    (booted.fab.keys.get? 0).map (·.old) = some none ∧ (booted.par.tokens.get? (0, 0)).isSome = true ∧
    (booted.par.tokens.get? (0, 12)).isNone = true ∧ (booted.part? 5).isNone = true ∧ booted.hub.boot = .running := by decide +kernel

theorem witness_PlatformEvents_settings :
    (setting booted 0 0 700).isSome = true ∧ (setting booted 0 0 699).isNone = true ∧ (setting booted 0 0 960).isSome = true ∧
    (setting booted 0 0 961).isNone = true ∧ (setting booted 3 0 4000).isSome = true ∧ (setting tenanted 6 1 4096).isSome = true ∧
    (setting tenanted 6 1 2048).isNone = true ∧ (setting tenanted 7 1 27).isSome = true ∧ (setting tenanted 7 1 28).isNone = true ∧
    (setting tenanted 4 1 256).isNone = true := by decide +kernel

theorem witness_MemoryEvents_errors :
    checkedUse booted (.global 0 4) = false ∧
    (let s := { State.reset with mem := { State.reset.mem with l1 := [((0, 0, 64), ⟨5, true, false⟩), ((0, 0, 80), ⟨5, false, false⟩)] } }
     l1Owned s 0 0 4 = true ∧ l1Owned s 0 0 5 = false) ∧
    (checkedUse (performing (.write 7) .store) (.global 0 4) = true ∧ checkedUse (performing (.write 7) .store) (.global 0 5) = false) := by
  decide +kernel

/-- A state about to execute a word, in a kernel with 64 vector registers. -/
def wording (w : W64) : State :=
  reteam (fun t => { t with hdr := { t.hdr with vr := 64 } })
    (rethread (fun r => { r with clause := some (bareClause false w) }) (equipped (.nop (plainHead 0))))

/-- The trap cause of a word that is no instruction. -/
def wordCause : Except DecErr Instr → Nat
  | .ok _ => 0
  | .error .illegalOpcode => 1
  | .error (.reservedField _) => 2
  | .error (.operandRange ..) => 3

/-- A word of zeros, an IADD with a reserved bit, and one whose destination is register 64. -/
theorem witness_StepRunsDecoded_traps : ∀ x ∈ [((0 : W64), 1), (0x203B801001C01680, 2), (0x203B840001C01600, 3)],
    ∃ c, Runs (wording x.1) (wording x.1) c ∧ (c.word == x.1 && wordCause (decode c.cls c.tm.hdr.vr c.word) == x.2 && !c.tm.expired &&
      !c.r.handler && (trapEntry c.tm c.th.m).isSome) = true := by
  simp only [List.forall_mem_cons, List.not_mem_nil, false_implies, implies_true, and_true]
  exact ⟨⟨_, .inl ⟨rfl, rfl, by decide +kernel, rfl, rfl⟩, by decide +kernel⟩,
    ⟨_, .inl ⟨rfl, rfl, by decide +kernel, rfl, rfl⟩, by decide +kernel⟩,
    ⟨_, .inl ⟨rfl, rfl, by decide +kernel, rfl, rfl⟩, by decide +kernel⟩⟩

theorem witness_StepRunsDecoded_early :
    let s := rethread (fun r => { r with clause := some ⟨0, bareHeader false 1, [0x010B800000FFFFFC, nopWord]⟩ }) (equipped (.nop (plainHead 0)))
    ∃ c, Runs s s c ∧ (match decode c.cls c.tm.hdr.vr c.word with
      | .ok i => isTransfer i && !c.isLast
      | .error _ => false) = true :=
  ⟨_, .inl ⟨rfl, rfl, by decide +kernel, rfl, rfl⟩, by decide +kernel⟩

theorem witness_StepRunsDecoded_expired :
    let s := reteam (fun t => { t with wdog := t.hdr.wdog }) (wording 0)
    ∃ c, Runs s s c ∧ (c.tm.expired && !okay (decode c.cls c.tm.hdr.vr c.word)) = true :=
  ⟨_, .inl ⟨rfl, rfl, by decide +kernel, rfl, rfl⟩, by decide +kernel⟩

/-! ### Witnesses of the machine's statements -/

theorem witness_StepKeepsManufacture : ∃ t, step State.reset = .next t := by
  have h : (nextOf (step State.reset)).isSome = true := by decide +kernel
  cases e : step State.reset with
  | next t => exact ⟨t, rfl⟩
  | fault r => simp [e, nextOf] at h
  | refused r => simp [e, nextOf] at h

theorem witness_StepRunsDecoded :
    let s := about (.nop (plainHead 0))
    ∃ c, Runs s s c ∧ decode c.cls c.tm.hdr.vr c.word = .ok (.nop (plainHead 0)) :=
  ⟨_, .inl ⟨rfl, rfl, by decide +kernel, rfl, rfl⟩, by decide +kernel⟩

theorem witness_DecodeEncode : (Instr.nop (plainHead 0)).WellFormed .gaffer 1024 ∧
    (Instr.amzero (plainHead 127) 15).WellFormed .strand 64 := by decide +kernel

theorem witness_EveryInstructionAnswers : (encodeRaw (.nop (plainHead 0))).isSome = true ∧
    (issue? (about (.nop (plainHead 0)))).isSome = true := by decide +kernel

theorem witness_RoundingIsCorrect : ((Ty.fmt .e4m3).round .rne false false 460 0).2.testBit 2 = false := by decide +kernel

end Sys2Proof.Tests
end

section
/-! R12 and log entry 2: what every outcome keeps of the unit, arm by arm, and the step lemma of the manufacturing record. -/

namespace Sys2Proof.Machine

open Sys2Proof

/-- Whatever state the outcome leads to has the manufacturing record of `s` and a free-value counter beyond that of `s`. -/
def Advances (s : State) (o : Out) : Prop := ∀ t, o = .next t → t.unit = s.unit ∧ s.free < t.free

theorem advances_next (s t : State) : Advances s (.next (commit s t)) := by
  rintro _ ⟨⟩
  exact ⟨rfl, Nat.lt_succ_self _⟩

theorem advances_refused (s : State) (r : Refusal) : Advances s (.refused r) := fun _ h => nomatch h

theorem advances_idle (s : State) (m : String) : Advances s (idle m) := advances_refused s _

theorem advances_redfish (s t : State) (scope : Option Nat) : Advances s (redfish s scope t) := advances_next s _

theorem advances_issue (s : State) (h : Head) (k : Kind) (srcs : List Src) (body : Issue → Body) :
    Advances s (issue s h k srcs body) := by
  intro t ht
  obtain ⟨u, rfl⟩ := issue_commits s t h k srcs body ht
  exact ⟨rfl, Nat.lt_succ_self _⟩

/-- R298: the meaning of an instruction that has a word is the issue of one slot. -/
theorem exec_word_issues (i : Instr) (s : State) (hw : (encodeRaw i).isSome = true) :
    ∃ h k srcs body, exec i s = issue s h k srcs body := by
  delta exec
  cases i with
  | budgetRound | throttleLimit | throttleRecover | throttleFence | inputUndervoltage | inputPowerLoss |
  coolantFlowStop | resetIn | httpsBootRetry | firmwareUpdate | serviceFirmwareStop | keyPhaseChange | keyPhaseRetire
  | packetHop | putPacket | putAck | getReq | getData | ratomPacket | ratomRes | rredPacket | rredAck | notifyPacket |
  notifyAck | errorPacket | ochReset | ochResetAck | heldPacketTimeout | responseTimerExpiry | blockedPacketTimer |
  belay | ropeAck | linkTrainingStart | trainingHandshake | thirdHandshakeTimer | trainReplyTimeout |
  linkDownRetryTimer | linkLoss | linkForce | linkRelease | ucieLinkChange | toposet | toposetDrainLimit |
  toposetSwitch | toposetPublish | warmResetRequest | ucieDownTimeout | fabricInterfaceError | warmResetReadmit |
  rdmaWrite | rdmaWriteWithImmediate | rdmaRead | send | rdmaAtomicRequest | partitionCreate | partitionChange |
  partitionDelete | frameGrant | frameRevoke | frameScrubDone | chainRegistration | serviceChainRegistration |
  faultChainRegistration | memoryRegionRegistration | attestationRequest | tokenFetch | rotationSetup | copyEngineMove
  | redfishSetting | functionLevelReset | pcpTailWake | launch | notifyCommand | map | unmap | resume |
  commandRecordCompletion | faultRecordPost | faultPostRetry | switchTick | deadlineExpiry | overrunLimit |
  resumeMapWrite | lehrEvent | teamPlacement | restoreComplete | teamEnd | cairnProbe | clauseStart |
  variableLatencyCompletion | watchdogExpiry | yieldExpiry | sleepExpiry | mwaitTimeout | lineEviction |
  uncorrectableEccError | copy | nopRecord | mmaRecord | mvmRecord | engineRecordCompletion | copyChainIdleUnbind |
  mwaitReturnNoReason | coldBoot | inputVoltageRecovery | coolantFlowResume | correctedEccError |
  serviceFirmwareRestarted => exact nomatch hw
  | amst => dsimp only [execAmst]; exact ⟨_, _, _, _, rfl⟩
  | amdrain => dsimp only [execAmdrain]; exact ⟨_, _, _, _, rfl⟩
  | _ => dsimp only; exact ⟨_, _, _, _, rfl⟩

/-- An event, once its conditions are split, either ends in `commit` or is refused. -/
theorem exec_event_advances (i : Instr) (s : State) (he : encodeRaw i = none) : Advances s (exec i s) := by
  cases i with
  | budgetRound | throttleLimit | throttleRecover | throttleFence | inputUndervoltage | inputPowerLoss |
  coolantFlowStop | resetIn | httpsBootRetry | firmwareUpdate | serviceFirmwareStop | keyPhaseChange | keyPhaseRetire
  | packetHop | putPacket | putAck | getReq | getData | ratomPacket | ratomRes | rredPacket | rredAck | notifyPacket |
  notifyAck | errorPacket | ochReset | ochResetAck | heldPacketTimeout | responseTimerExpiry | blockedPacketTimer |
  belay | ropeAck | linkTrainingStart | trainingHandshake | thirdHandshakeTimer | trainReplyTimeout |
  linkDownRetryTimer | linkLoss | linkForce | linkRelease | ucieLinkChange | toposet | toposetDrainLimit |
  toposetSwitch | toposetPublish | warmResetRequest | ucieDownTimeout | fabricInterfaceError | warmResetReadmit |
  rdmaWrite | rdmaWriteWithImmediate | rdmaRead | send | rdmaAtomicRequest | partitionCreate | partitionChange |
  partitionDelete | frameGrant | frameRevoke | frameScrubDone | chainRegistration | serviceChainRegistration |
  faultChainRegistration | memoryRegionRegistration | attestationRequest | tokenFetch | rotationSetup | copyEngineMove
  | redfishSetting | functionLevelReset | pcpTailWake | launch | notifyCommand | map | unmap | resume |
  commandRecordCompletion | faultRecordPost | faultPostRetry | switchTick | deadlineExpiry | overrunLimit |
  resumeMapWrite | lehrEvent | teamPlacement | restoreComplete | teamEnd | cairnProbe | clauseStart |
  variableLatencyCompletion | watchdogExpiry | yieldExpiry | sleepExpiry | mwaitTimeout | lineEviction |
  uncorrectableEccError | copy | nopRecord | mmaRecord | mvmRecord | engineRecordCompletion | copyChainIdleUnbind |
  mwaitReturnNoReason | coldBoot | inputVoltageRecovery | coolantFlowResume | correctedEccError |
  serviceFirmwareRestarted =>
    simp only [
      exec_budgetRound, exec_throttleLimit, exec_throttleRecover, exec_throttleFence, exec_inputUndervoltage,
      exec_inputPowerLoss, exec_coolantFlowStop, exec_resetIn, exec_httpsBootRetry, exec_firmwareUpdate,
      exec_serviceFirmwareStop, exec_keyPhaseChange, exec_keyPhaseRetire, exec_packetHop, exec_putPacket, exec_putAck,
      exec_getReq, exec_getData, exec_ratomPacket, exec_ratomRes, exec_rredPacket, exec_rredAck, exec_notifyPacket,
      exec_notifyAck, exec_errorPacket, exec_ochReset, exec_ochResetAck, exec_heldPacketTimeout,
      exec_responseTimerExpiry, exec_blockedPacketTimer, exec_belay, exec_ropeAck, exec_linkTrainingStart,
      exec_trainingHandshake, exec_thirdHandshakeTimer, exec_trainReplyTimeout, exec_linkDownRetryTimer,
      exec_linkLoss, exec_linkForce, exec_linkRelease, exec_ucieLinkChange, exec_toposet, exec_toposetDrainLimit,
      exec_toposetSwitch, exec_toposetPublish, exec_warmResetRequest, exec_ucieDownTimeout, exec_fabricInterfaceError,
      exec_warmResetReadmit, exec_rdmaWrite, exec_rdmaWriteWithImmediate, exec_rdmaRead, exec_send,
      exec_rdmaAtomicRequest, exec_partitionCreate, exec_partitionChange, exec_partitionDelete, exec_frameGrant,
      exec_frameRevoke, exec_frameScrubDone, exec_chainRegistration, exec_serviceChainRegistration,
      exec_faultChainRegistration, exec_memoryRegionRegistration, exec_attestationRequest, exec_tokenFetch,
      exec_rotationSetup, exec_copyEngineMove, exec_redfishSetting, exec_functionLevelReset, exec_pcpTailWake,
      exec_launch, exec_notifyCommand, exec_map, exec_unmap, exec_resume, exec_commandRecordCompletion,
      exec_faultRecordPost, exec_faultPostRetry, exec_switchTick, exec_deadlineExpiry, exec_overrunLimit,
      exec_resumeMapWrite, exec_lehrEvent, exec_teamPlacement, exec_restoreComplete, exec_teamEnd, exec_cairnProbe,
      exec_clauseStart, exec_variableLatencyCompletion, exec_watchdogExpiry, exec_yieldExpiry, exec_sleepExpiry,
      exec_mwaitTimeout, exec_lineEviction, exec_uncorrectableEccError, exec_copy, exec_nopRecord, exec_mmaRecord,
      exec_mvmRecord, exec_engineRecordCompletion, exec_copyChainIdleUnbind, exec_mwaitReturnNoReason, exec_coldBoot,
      exec_inputVoltageRecovery, exec_coolantFlowResume, exec_correctedEccError, exec_serviceFirmwareRestarted,
      execBudgetRound, execThrottleLimit, execThrottleRecover, execThrottleFence, execInputUndervoltage,
      execInputPowerLoss, execCoolantFlowStop, execResetIn, execHttpsBootRetry, execFirmwareUpdate,
      execServiceFirmwareStop, execKeyPhaseChange, execKeyPhaseRetire, execPacketHop, execPutPacket, execPutAck,
      execGetReq, execGetData, execRatomPacket, execRatomRes, execRredPacket, execRredAck, execNotifyPacket,
      execNotifyAck, execErrorPacket, execOchReset, execOchResetAck, execHeldPacketTimeout, execResponseTimerExpiry,
      execBlockedPacketTimer, execBelay, execRopeAck, execLinkTrainingStart, execTrainingHandshake,
      execThirdHandshakeTimer, execTrainReplyTimeout, execLinkDownRetryTimer, execLinkLoss, execLinkForce,
      execLinkRelease, execUcieLinkChange, execToposet, execToposetDrainLimit, execToposetSwitch, execToposetPublish,
      execWarmResetRequest, execUcieDownTimeout, execFabricInterfaceError, execWarmResetReadmit, execRdmaWrite,
      execRdmaWriteWithImmediate, execRdmaRead, execSend, execRdmaAtomicRequest, execPartitionCreate,
      execPartitionChange, execPartitionDelete, execFrameGrant, execFrameRevoke, execFrameScrubDone,
      execChainRegistration, execServiceChainRegistration, execFaultChainRegistration, execMemoryRegionRegistration,
      execAttestationRequest, execTokenFetch, execRotationSetup, execCopyEngineMove, execRedfishSetting,
      execFunctionLevelReset, execPcpTailWake, execLaunch, execNotifyCommand, execMap, execUnmap, execResume,
      execCommandRecordCompletion, execFaultRecordPost, execFaultPostRetry, execSwitchTick, execDeadlineExpiry,
      execOverrunLimit, execResumeMapWrite, execLehrEvent, execTeamPlacement, execRestoreComplete, execTeamEnd,
      execCairnProbe, execClauseStart, execVariableLatencyCompletion, execWatchdogExpiry, execYieldExpiry,
      execSleepExpiry, execMwaitTimeout, execLineEviction, execUncorrectableEccError, execCopy, execNopRecord,
      execMmaRecord, execMvmRecord, execEngineRecordCompletion, execCopyChainIdleUnbind, execMwaitReturnNoReason,
      execColdBoot, execInputVoltageRecovery, execCoolantFlowResume, execCorrectedEccError,
      execServiceFirmwareRestarted,
      opEvent, reqEvent, replyEvent, matEvent]
    repeat' split
    all_goals simp only [advances_next, advances_idle, advances_refused, advances_redfish]
  | _ => exact nomatch he

theorem exec_advances (i : Instr) (s : State) : Advances s (exec i s) := by
  cases he : encodeRaw i with
  | none => exact exec_event_advances i s he
  | some w =>
    obtain ⟨h, k, srcs, body, hi⟩ := exec_word_issues i s (by rw [he]; rfl)
    rw [hi]
    exact advances_issue s h k srcs body

theorem issueStep_advances (s : State) : Advances s (issueStep s) := by
  unfold issueStep
  split
  · exact advances_refused s _
  · split
    · exact advances_next s _
    · exact exec_advances _ s

/-- What the schedule sets for a choice, its particulars and the thread in issue, is neither the record nor the counter. -/
theorem runChoice_advances (s : State) (c : Choice) : Advances s (runChoice s c) := by
  unfold runChoice
  split
  case h_1 i o =>
    split
    · exact exec_advances i { s with occ := o, cred := .system }
    · exact advances_refused s _
  case h_2 cr i o =>
    split
    · exact exec_advances i { s with occ := o, cred := cr }
    · exact advances_refused s _
  case h_3 th =>
    split
    · exact issueStep_advances { s with focus := some th }
    · exact advances_refused s _
  case h_4 =>
    split
    · exact advances_next s _
    · exact advances_refused s _

theorem nextOf_eq_some (o : Out) (t : State) : nextOf o = some t ↔ o = .next t := by cases o <;> simp [nextOf]

/-- Log entry 1: a clause start that the fixed order takes is followed by a tick, which ends in a `commit` of its own. -/
theorem tryChoice_advances (s t : State) (c : Choice) (h : tryChoice s c = some t) : t.unit = s.unit ∧ s.free < t.free := by
  obtain ⟨u, hu, rfl⟩ := Option.map_eq_some_iff.1 h
  obtain ⟨hunit, hfree⟩ := runChoice_advances s c u ((nextOf_eq_some _ u).1 hu)
  split
  · exact ⟨hunit, Nat.lt_succ_of_lt hfree⟩
  · exact ⟨hunit, hfree⟩

theorem auto_advances (s : State) : Advances s (auto s) := by
  unfold auto
  split
  · next t ht =>
    obtain ⟨c, -, hc⟩ := List.exists_of_findSome?_eq_some ht
    rintro _ ⟨⟩
    exact tryChoice_advances s t c hc
  · exact advances_next s _

theorem step_advances (s : State) : Advances s (step s) := by
  unfold step
  split
  · exact runChoice_advances { s with sched := _ } _
  · split
    · split
      · exact issueStep_advances s
      · exact auto_advances { s with focus := none }
    · exact auto_advances s

/-- Settles O55: every step ends in `commit`, and a byte memory carries its form with it. -/
theorem stepKeepsManufacture : Obligations.StepKeepsManufacture := by
  unfold Obligations.StepKeepsManufacture
  intro s t h
  obtain ⟨hunit, hfree⟩ := step_advances s t h
  exact ⟨hunit, hfree, fun m _ => m.canon⟩

end Sys2Proof.Machine
end

section
/-! R24, R79, R88: the state that a cold reset leaves. -/

namespace Sys2Proof.Machine

open Sys2Proof

theorem reset_byte (isl pa : Nat) : State.reset.mem.byte isl pa = 0 := by
  simp [MemSt.byte, State.reset, State.resetMem]

/-- Settles O54: every table of the reset state is empty, and its memories hold nothing. -/
theorem resetState : Obligations.ResetState :=
  ⟨rfl, rfl, rfl, rfl, rfl, fun _ _ => rfl, fun _ => rfl, fun _ => rfl, reset_byte, fun _ => Mem.get_empty _, rfl,
    fun _ => rfl, fun _ _ => rfl, rfl, rfl, rfl, rfl, rfl⟩

end Sys2Proof.Machine
end

section
/-! Frames of the operations that complete, and of the packets that go: what their agents leave of teams, of the topology
and of the hub. -/

namespace Sys2Proof.Machine

open Sys2Proof

/-! ### What completes inside an island -/

/-- What stands outside the cores, the engines and memory. -/
def State.outside (s : State) : TaskSt × PartSt × FabSt × HubSt := (s.task, s.par, s.fab, s.hub)

theorem makeRoom_outside (isl : Nat) (s : State) (pa : Nat) : (makeRoom isl s pa).outside = s.outside := by
  unfold makeRoom
  split
  · rfl
  · dsimp only
    split <;> rfl

theorem bypassBank_outside (s : State) (isl : Nat) (core : Option Nat) (pa : Nat) (bs : List Byte) :
    (bypassBank s isl core pa bs).outside = s.outside := by
  refine foldl_keeps _ State.outside (fun s x => ?_) _ _
  exact makeRoom_outside isl s x.1

theorem writeV_outside (s : State) (m : Member) (i : Nat) (mask : W32) (v : List W32) :
    (writeV s m i mask v).outside = s.outside := by
  unfold writeV
  split <;> rfl

theorem landS_outside (s : State) (o : Op) (d w : Nat) : (landS s o d w).outside = s.outside := by
  refine foldl_keeps _ State.outside (fun s n => ?_) _ _
  split
  · split <;> rfl
  · rfl

theorem land_outside (s : State) (o : Op) : (land s o).outside = s.outside := by
  unfold land
  split
  · rfl
  · split
    · rfl
    · exact foldl_keeps _ State.outside (fun s n => writeV_outside ..) _ _
    · exact landS_outside ..

theorem orFlags_outside (s : State) (m : Member) (fl : Nat) : (orFlags s m fl).outside = s.outside := by
  obtain ⟨ms, h⟩ := orFlags_shape s m fl
  rw [h]
  rfl

theorem acquireOp_outside (s : State) (o : Op) : (acquireOp s o).outside = s.outside := by
  unfold acquireOp
  split <;> rfl

theorem modPath_outside (s : State) (m : Member) (n : Nat) (f : ThreadRec → ThreadRec) :
    (s.modPath m n f).outside = s.outside := by
  unfold State.modPath
  split
  · rfl
  · split <;> rfl

theorem lowerSb_outside (s : State) (m : Member) (n sb : Nat) : (lowerSb s m n sb).outside = s.outside := by
  unfold lowerSb
  split
  · rfl
  · exact modPath_outside ..

theorem retire_outside (s : State) (o : Op) : (retire s o).outside = s.outside := by
  refine foldl_keeps _ State.outside (fun s x => ?_) _ _
  exact lowerSb_outside s o.m x.1 x.2

theorem finishOp_outside (s : State) (o : Op) : (finishOp s o).outside = s.outside := by
  unfold finishOp
  rw [retire_outside, acquireOp_outside, orFlags_outside, land_outside]

theorem recordFailure_outside (s : State) (o : Op) : (recordFailure s o).outside = s.outside := by
  unfold recordFailure
  split
  · rfl
  · exact foldl_keeps _ State.outside (fun s x => modPath_outside ..) _ _

theorem finishRemote_outside (s : State) (o : Op) : (finishRemote s o).outside = s.outside := by
  unfold finishRemote
  rw [finishOp_outside, recordFailure_outside]

theorem performOut_outside (s : State) (x : EngWrite) : (performOut s x).outside = s.outside := by
  unfold performOut
  dsimp only
  split
  · rw [bypassBank_outside]; rfl
  · rfl

theorem flushOuts_outside (s : State) (p : EngWrite → Bool) : (flushOuts s p).outside = s.outside := by
  unfold flushOuts
  rw [foldl_keeps performOut State.outside performOut_outside]
  rfl

theorem abandonCopies_outside (s : State) (isl part : Nat) : (abandonCopies s isl part).outside = s.outside :=
  flushOuts_outside s _

theorem deliver_outside (s : State) (t : Txn) (bs : List Byte) : (deliver s t bs).outside = s.outside := by
  unfold deliver
  dsimp only
  split
  · exact foldl_keeps _ State.outside (fun s x => bypassBank_outside ..) _ _
  · rfl
  · rfl

/-! ### What a reply leaves -/

/-- What the completion of a request leaves alone: all but the requests, the channels, the messages to hosts, and how far
the ends of teams have come. -/
def State.unanswered (s : State) : TaskSt × List (Nat × Nat) × PartSt × FabSt × HubSt :=
  ({ s.task with ends := [] }, s.task.ends.map fun e => (e.isl, e.team), s.par, { s.fab with txns := [], chans := [] },
    { s.hub with out := [] })

theorem unanswered_of_outside {s t : State} (h : t.outside = s.outside) :
    t.unanswered = s.unanswered ∧ t.fab.txns = s.fab.txns := by
  simp only [State.outside, Prod.mk.injEq] at h
  obtain ⟨htask, hpar, hfab, hhub⟩ := h
  simp only [State.unanswered, htask, hpar, hfab, hhub, and_self]

theorem chanDone_unanswered (s : State) (t : Txn) (st : Option Nat) :
    (chanDone s t st).unanswered = s.unanswered ∧ (chanDone s t st).fab.txns = s.fab.txns := by
  unfold chanDone
  split <;> exact ⟨rfl, rfl⟩

theorem endAcked_unanswered (s : State) (isl team n : Nat) (st : Option Nat) :
    (endAcked s isl team n st).unanswered = s.unanswered := by
  have hkeys : (endAcked s isl team n st).task.ends.map (fun e => (e.isl, e.team)) =
      s.task.ends.map fun e => (e.isl, e.team) := by
    simp only [endAcked, List.map_map]
    refine List.map_congr_left fun e _ => ?_
    simp only [Function.comp]
    split <;> rfl
  simp only [State.unanswered, hkeys]
  rfl

/-- R34, R416: the requests of a source and tag are gone, and nothing else but what a reply tells. -/
theorem packetDone_unanswered (s : State) (t : Txn) (st : Option Nat) :
    (packetDone s t st).unanswered = s.unanswered ∧
      (packetDone s t st).fab.txns = s.fab.txns.filter fun x => !(x.src == t.src && x.tag == t.tag) := by
  unfold packetDone
  dsimp only
  generalize hs : ({ s with fab := { s.fab with txns := s.fab.txns.filter fun x => !(x.src == t.src && x.tag == t.tag) } } :
    State) = s0
  have hkeep : s0.unanswered = s.unanswered ∧
      s0.fab.txns = s.fab.txns.filter fun x => !(x.src == t.src && x.tag == t.tag) := by
    subst hs; exact ⟨rfl, rfl⟩
  rw [← hkeep.1, ← hkeep.2, ← (chanDone_unanswered s0 t st).1, ← (chanDone_unanswered s0 t st).2]
  generalize chanDone s0 t st = s1
  split
  · split <;> exact ⟨rfl, rfl⟩
  · exact ⟨endAcked_unanswered .., rfl⟩
  · split
    · exact ⟨rfl, rfl⟩
    · split
      · exact unanswered_of_outside (finishRemote_outside ..)
      · exact ⟨rfl, rfl⟩

/-- R283, R413: what a GET brings lands inside the island, and completes its request. -/
theorem takeData_unanswered (s : State) (t : Txn) (p : Packet) :
    (takeData s t p).unanswered = s.unanswered ∧
      (takeData s t p).fab.txns = s.fab.txns.filter fun x => !(x.src == t.src && x.tag == t.tag) := by
  unfold takeData
  dsimp only
  obtain ⟨hd, hdt⟩ := unanswered_of_outside
    (deliver_outside s { t with dst := (t.dst.1, t.dst.2.drop ((p.part.map (·.1)).getD 0)) }
      (p.payload.drop ((p.part.map (·.1)).getD 0)))
  obtain ⟨hp, hpt⟩ := packetDone_unanswered (deliver s { t with dst := (t.dst.1, t.dst.2.drop ((p.part.map (·.1)).getD 0)) }
    (p.payload.drop ((p.part.map (·.1)).getD 0))) t none
  exact ⟨hp.trans hd, by rw [hpt, hdt]⟩

end Sys2Proof.Machine
end

section
/-! R46, R52: the two halves of a topology switch: what was injected drains, and the express links take their new
positions. -/

namespace Sys2Proof.Machine

open Sys2Proof

/-! ### Draining -/

theorem packetDone_pkts (s : State) (t : Txn) (st : Option Nat) : (packetDone s t st).fab.pkts = s.fab.pkts :=
  congrArg (fun x => x.2.2.2.1.pkts) (packetDone_unanswered s t st).1

theorem takeData_pkts (s : State) (t : Txn) (p : Packet) : (takeData s t p).fab.pkts = s.fab.pkts :=
  congrArg (fun x => x.2.2.2.1.pkts) (takeData_unanswered s t p).1

theorem txn?_some {s : State} {src tag : Nat} {t : Txn} (h : s.txn? src tag = some t) : t.src = src ∧ t.tag = tag := by
  simpa using List.find?_some h

theorem txn?_none {s : State} {src tag : Nat} (h : s.txn? src tag = none) :
    ∀ x ∈ s.fab.txns, ¬ (x.src = src ∧ x.tag = tag) := by
  simpa [State.txn?] using h

theorem landing_some {s : State} {t : Txn} {p : Packet} (h : landing s t = some p) :
    p.op = .getData ∧ p.dest = t.src ∧ p.tag = t.tag ∧ p.part.isSome = true := by
  simpa [and_assoc] using List.find?_some h

/-- R265: a GET_DATA in part lands and completes its request, if there is one still. -/
theorem flushPacket_getData (s : State) (p : Packet) (hop : p.op = .getData) (hpart : p.part.isSome = true) :
    flushPacket s p = match s.txn? p.dest p.tag with
      | some t => takeData (dropPacket s p.id) t p
      | none => dropPacket s p.id := by
  unfold flushPacket
  rw [if_neg (by simpa [Option.isNone_iff_eq_none, Option.isSome_iff_ne_none] using hpart), hop]
  cases s.txn? p.dest p.tag <;> rfl

theorem mem_txns_without (l : List Txn) (src tag : Nat) (x : Txn) :
    x ∈ l.filter (fun x => !(x.src == src && x.tag == tag)) ↔ x ∈ l ∧ ¬ (x.src = src ∧ x.tag = tag) := by
  simp [List.mem_filter, imp_iff_not_or]

/-- R52: a drained operation leaves no request of its source and tag, and no new packet. -/
theorem drain_leaves (s : State) (t : Txn) :
    (∀ x ∈ (drain s t).fab.txns, x ∈ s.fab.txns ∧ ¬ (x.src = t.src ∧ x.tag = t.tag)) ∧
      ∀ p ∈ (drain s t).fab.pkts, p ∈ s.fab.pkts := by
  unfold drain
  split
  next p hp =>
    obtain ⟨hop, hdest, htag, hpart⟩ := landing_some hp
    rw [flushPacket_getData s p hop hpart, hdest, htag]
    split
    next u hu =>
      obtain ⟨husrc, hutag⟩ := txn?_some hu
      rw [(takeData_unanswered _ u p).2, takeData_pkts, husrc, hutag]
      exact ⟨fun x hx => (mem_txns_without ..).1 hx, fun p hp => (List.mem_filter.1 hp).1⟩
    next hu => exact ⟨fun x hx => ⟨hx, txn?_none hu x hx⟩, fun p hp => (List.mem_filter.1 hp).1⟩
  next =>
    rw [(packetDone_unanswered s t _).2, packetDone_pkts]
    exact ⟨fun x hx => (mem_txns_without ..).1 hx, fun _ hp => hp⟩

theorem foldl_drain_leaves (l : List Txn) (s : State) :
    (∀ x ∈ (l.foldl drain s).fab.txns, x ∈ s.fab.txns ∧ ∀ t ∈ l, ¬ (x.src = t.src ∧ x.tag = t.tag)) ∧
      ∀ p ∈ (l.foldl drain s).fab.pkts, p ∈ s.fab.pkts := by
  induction l generalizing s with
  | nil => simp
  | cons t l ih =>
    obtain ⟨htxns, hpkts⟩ := ih (drain s t)
    obtain ⟨ht, hp⟩ := drain_leaves s t
    refine ⟨fun x hx => ?_, fun p h => hp p (hpkts p h)⟩
    obtain ⟨hx1, hx2⟩ := htxns x hx
    exact ⟨(ht x hx1).1, List.forall_mem_cons.2 ⟨(ht x hx1).2, hx2⟩⟩

theorem foldl_dropPacket_leaves (l : List Packet) (s : State) :
    (l.foldl (fun s p => dropPacket s p.id) s).fab.txns = s.fab.txns ∧
      ∀ p ∈ (l.foldl (fun s p => dropPacket s p.id) s).fab.pkts, p ∈ s.fab.pkts ∧ p ∉ l := by
  induction l generalizing s with
  | nil => simp
  | cons q l ih =>
    obtain ⟨htxns, hpkts⟩ := ih (dropPacket s q.id)
    refine ⟨htxns, fun p hp => ?_⟩
    obtain ⟨hmem, hl⟩ := hpkts p hp
    obtain ⟨hps, hid⟩ := List.mem_filter.1 hmem
    refine ⟨hps, ?_⟩
    rw [List.mem_cons, not_or]
    exact ⟨fun e => by simp [e] at hid, hl⟩

/-- R52: the drain limit leaves nothing that was injected. -/
theorem drained_drainAll (s : State) : drained (drainAll s) = true := by
  obtain ⟨htxns, hpkts⟩ := foldl_drain_leaves (requestsOut s) ((requestsLeft s).foldl (fun s p => dropPacket s p.id) s)
  obtain ⟨hsame, hleft⟩ := foldl_dropPacket_leaves (requestsLeft s) s
  have hout : requestsOut (drainAll s) = [] := by
    refine List.filter_eq_nil_iff.2 fun x hx hreq => ?_
    obtain ⟨hmem, hnone⟩ := htxns x hx
    rw [hsame] at hmem
    exact hnone x (List.mem_filter.2 ⟨hmem, hreq⟩) ⟨rfl, rfl⟩
  have hpk : requestsLeft (drainAll s) = [] := by
    refine List.filter_eq_nil_iff.2 fun p hp hreq => ?_
    obtain ⟨hmem, hnot⟩ := hleft p (hpkts p hp)
    exact hnot (List.mem_filter.2 ⟨hmem, hreq⟩)
  simp [drained, hout, hpk]

/-! ### Switching -/

/-- What the express code, the links and the time of the hub are. -/
def State.waveguides (s : State) : Manufacture × Option Toposet × Nat × Tbl LinkEnd Link × Nat :=
  (s.unit, s.fab.toposet, s.fab.xcode, s.fab.links, s.hub.ns)

theorem answer_waveguides (s : State) (node : Nat) (p : Packet) (op : PktOp) (bytes : List Byte) (st : Nat) :
    (answer s node p op bytes st).waveguides = s.waveguides := by
  unfold answer
  dsimp only
  split
  · rfl
  · simp only [sealPacket]
    split <;> rfl

theorem reject_waveguides (s : State) (node : Nat) (p : Packet) (st : FStatus) :
    (reject s node p st).waveguides = s.waveguides :=
  answer_waveguides ..

theorem strand_waveguides (s : State) (e : LinkEnd) : (strand s e).waveguides = s.waveguides :=
  foldl_keeps _ State.waveguides (fun _ _ => reject_waveguides ..) _ _

theorem strandBoth_waveguides (s : State) (e : LinkEnd) : (strandBoth s e).waveguides = s.waveguides := by
  unfold strandBoth
  split
  · rw [strand_waveguides, strand_waveguides]
  · exact strand_waveguides s e

theorem dropLink_ns (s : State) (e : LinkEnd) : (dropLink s e).hub.ns = s.hub.ns := by
  unfold dropLink
  dsimp only
  split
  · exact congrArg (·.2.2.2.2) (strandBoth_waveguides (modLink s e fun _ => downLink s.hub.ns true) e)
  · rfl

theorem linkAt_modLink (s : State) (e x : LinkEnd) (f : Link → Link) :
    linkAt (modLink s e f) x = if canonEnd (codeNow s) e = canonEnd (codeNow s) x then f (linkAt s e) else linkAt s x := by
  unfold linkAt modLink
  exact Tbl.getD_set ..

/-- R52: a link has a cause to train in its new position. -/
def resetLink (s : State) (e : LinkEnd) : State :=
  if joined s e then modLink s e fun _ => downLink s.hub.ns true else s

/-- What a switch's new positions rest on. -/
def State.panel (s : State) : Manufacture × Nat × Nat := (s.unit, codeNow s, s.hub.ns)

theorem resetLink_panel (s : State) (e : LinkEnd) : (resetLink s e).panel = s.panel := by
  unfold resetLink
  split <;> rfl

theorem joined_of_panel {s t : State} (h : t.panel = s.panel) (e : LinkEnd) : joined t e = joined s e := by
  simp only [State.panel, Prod.mk.injEq] at h
  obtain ⟨hunit, hcode, -⟩ := h
  simp only [joined, present, hunit, hcode]

/-- A link that is down with a cause to train stays so while others go down. -/
theorem linkAt_resetLink_down (s : State) (e x : LinkEnd) (h : linkAt s x = downLink s.hub.ns true) :
    linkAt (resetLink s e) x = downLink s.hub.ns true := by
  unfold resetLink
  split
  · rw [linkAt_modLink]
    split
    · rfl
    · exact h
  · exact h

theorem linkAt_foldl_resetLink_down (l : List LinkEnd) (s : State) (x : LinkEnd)
    (h : linkAt s x = downLink s.hub.ns true) : linkAt (l.foldl resetLink s) x = downLink s.hub.ns true := by
  induction l generalizing s with
  | nil => exact h
  | cons e l ih =>
    have hns : (resetLink s e).hub.ns = s.hub.ns := congrArg (·.2.2) (resetLink_panel s e)
    have := ih (resetLink s e) (by rw [hns]; exact linkAt_resetLink_down s e x h)
    rwa [hns] at this

theorem linkAt_foldl_resetLink (l : List LinkEnd) (s : State) (x : LinkEnd) (hx : x ∈ l) (hj : joined s x = true) :
    linkAt (l.foldl resetLink s) x = downLink s.hub.ns true := by
  induction l generalizing s with
  | nil => exact nomatch hx
  | cons e l ih =>
    have hpanel := resetLink_panel s e
    have hns : (resetLink s e).hub.ns = s.hub.ns := congrArg (·.2.2) hpanel
    rw [List.foldl_cons, ← hns]
    rcases List.mem_cons.1 hx with rfl | hl
    · refine linkAt_foldl_resetLink_down l _ x ?_
      rw [hns, resetLink, if_pos hj, linkAt_modLink, if_pos rfl]
    · exact ih _ hl (by rw [joined_of_panel hpanel]; exact hj)

/-- R52: after the switch the waveguides join by the new code, and every express link is about to train. -/
theorem switchLinks_links (s : State) (t : Toposet) :
    codeNow (switchLinks s t) = t.code ∧
      ∀ e ∈ expressLinks, joined (switchLinks s t) e = true → linkAt (switchLinks s t) e = downLink s.hub.ns true := by
  have hs0 : (expressLinks.foldl (fun s e => if linkUp s e then dropLink s e else s) s).hub.ns = s.hub.ns := by
    refine foldl_keeps _ (fun s : State => s.hub.ns) (fun s e => ?_) _ _
    split
    · exact dropLink_ns s e
    · rfl
  unfold switchLinks
  dsimp only
  generalize expressLinks.foldl (fun s e => if linkUp s e then dropLink s e else s) s = s0 at hs0 ⊢
  generalize hs1 : ({ s0 with fab := { s0.fab with
    links := s0.fab.links.drop (fun e => 16 ≤ e.port && e.node != 31), toposet := some { t with phase := .retrain } } } :
    State) = s1
  have hcode : codeNow s1 = t.code := by subst hs1; simp [codeNow]
  have hns : s1.hub.ns = s.hub.ns := by subst hs1; exact hs0
  have hpanel : (expressLinks.foldl resetLink s1).panel = s1.panel := foldl_keeps _ State.panel resetLink_panel _ _
  refine ⟨(congrArg (·.2.1) hpanel).trans hcode, fun e he hj => ?_⟩
  rw [← hns]
  exact linkAt_foldl_resetLink expressLinks s1 e he ((joined_of_panel hpanel e).symm.trans hj)

end Sys2Proof.Machine
end

section
/-! R54, R55: what the fence of an island leaves. -/

namespace Sys2Proof.Machine

open Sys2Proof

/-! ### What a fence leaves of teams and of the topology -/

/-- What a fence's steps before the lehr leave alone: the teams whose ends have begun, the topology switch under way, the
generation of the topology, and the time of the hub. -/
def State.course (s : State) : List (Nat × Nat) × Option Toposet × Nat × Nat :=
  (s.task.ends.map (fun e => (e.isl, e.team)), s.fab.toposet, s.fab.topogen, s.hub.ns)

/-- The same, with the teams. -/
def State.standing (s : State) : Tbl (Nat × Nat) Team × List (Nat × Nat) × Option Toposet × Nat × Nat :=
  (s.task.teams, s.course)

theorem standing_of_unanswered {s t : State} (h : t.unanswered = s.unanswered) : t.standing = s.standing :=
  congrArg (fun x => (x.1.teams, x.2.1, x.2.2.2.1.toposet, x.2.2.2.1.topogen, x.2.2.2.2.ns)) h

theorem standing_of_outside {s t : State} (h : t.outside = s.outside) : t.standing = s.standing :=
  standing_of_unanswered (unanswered_of_outside h).1

theorem course_of_standing {s t : State} (h : t.standing = s.standing) : t.course = s.course := (Prod.mk.inj h).2

theorem team?_of_standing {s t : State} (h : t.standing = s.standing) (isl team : Nat) :
    t.team? isl team = s.team? isl team := by
  have hteams : t.task.teams = s.task.teams := (Prod.mk.inj h).1
  unfold State.team?
  rw [hteams]

theorem flushPacket_getData_standing (s : State) (p : Packet) (hop : p.op = .getData) :
    (flushPacket s p).standing = s.standing := by
  by_cases hpart : p.part.isSome = true
  · rw [flushPacket_getData s p hop hpart]
    split
    · next t _ => exact standing_of_unanswered (s := dropPacket s p.id) (takeData_unanswered (dropPacket s p.id) t p).1
    · rfl
  · unfold flushPacket
    rw [if_pos (by simpa using hpart)]

theorem foldl_flushPacket_standing (l : List Packet) (hl : ∀ p ∈ l, p.op = .getData) (s : State) :
    (l.foldl flushPacket s).standing = s.standing := by
  induction l generalizing s with
  | nil => rfl
  | cons p l ih =>
    obtain ⟨hp, hl⟩ := List.forall_mem_cons.1 hl
    exact (ih hl _).trans (flushPacket_getData_standing s p hp)

theorem flushPackets_getData_standing (s : State) (isl : Nat) :
    (flushPackets s fun p => p.op == .getData && p.dest == isl).standing = s.standing := by
  refine foldl_flushPacket_standing _ (fun p hp => ?_) s
  have hcond := (List.mem_filter.1 hp).2
  simp only [Bool.and_eq_true, beq_iff_eq] at hcond
  exact hcond.1

theorem loseTxns_standing (s : State) (isl : Nat) : (loseTxns s isl).standing = s.standing :=
  foldl_keeps _ State.standing (fun s t => standing_of_unanswered (packetDone_unanswered s t _).1) _ _

theorem abandonAll_standing (s : State) (isl : Nat) : (abandonAll s isl).standing = s.standing :=
  foldl_keeps _ State.standing (fun s p => standing_of_outside (abandonCopies_outside s isl p)) _ _

/-! ### Teams that end with the island -/

theorem freeFaults_standing (s : State) (isl part : Nat) : (freeFaults s isl part).standing = s.standing := by
  unfold freeFaults
  dsimp only
  split <;> rfl

theorem stopTeam_standing (s : State) (isl team : Nat) : (stopTeam s isl team).standing = s.standing := by
  unfold stopTeam
  dsimp only
  split
  · exact freeFaults_standing _ _ _
  · rfl

theorem stopTeam_team? (s : State) (isl team i k : Nat) : (stopTeam s isl team).team? i k = s.team? i k :=
  team?_of_standing (stopTeam_standing s isl team) i k

theorem team?_setTeam_ne (s : State) (isl team i k : Nat) (t : Team) (h : (isl, team) ≠ (i, k)) :
    (s.setTeam isl team t).team? i k = s.team? i k :=
  Tbl.get?_set_ne _ _ _ _ h

theorem endTeam_course (s : State) (isl team st lc : Nat) : (endTeam s isl team st lc).course = s.course := by
  unfold endTeam
  split
  · split
    · rfl
    · rw [course_of_standing (stopTeam_standing _ isl team)]
      rfl
  · rfl

theorem endTeam_team?_ne (s : State) (isl team st lc i k : Nat) (h : (isl, team) ≠ (i, k)) :
    (endTeam s isl team st lc).team? i k = s.team? i k := by
  unfold endTeam
  split
  · split
    · rfl
    · rw [stopTeam_team?, team?_setTeam_ne _ _ _ _ _ _ h]
  · rfl

theorem endTeam_team?_isSome (s : State) (isl team st lc : Nat) (h : (s.team? isl team).isSome = true) :
    ((endTeam s isl team st lc).team? isl team).isSome = true := by
  obtain ⟨t, ht⟩ := Option.isSome_iff_exists.1 h
  unfold endTeam
  rw [ht]
  dsimp only
  split
  · exact h
  · rw [stopTeam_team?, team?_setTeam_self]
    rfl

theorem resetTeam_course (s : State) (isl team : Nat) : (resetTeam s isl team).course = s.course := by
  unfold resetTeam State.modTeam
  split
  · rfl
  · split
    · exact endTeam_course s isl team 0x22 0
    · exact endTeam_course s isl team 0x22 0

theorem resetTeam_team?_ne (s : State) (isl team i k : Nat) (h : (isl, team) ≠ (i, k)) :
    (resetTeam s isl team).team? i k = s.team? i k := by
  unfold resetTeam State.modTeam
  split
  · rfl
  · split
    · rw [team?_setTeam_ne _ _ _ _ _ _ h, endTeam_team?_ne _ _ _ _ _ _ _ h]
    · exact endTeam_team?_ne _ _ _ _ _ _ _ h

/-- R55: a team that lives and has sent no decrement ends with ISLAND_RESET. -/
theorem resetTeam_team?_self (s : State) (isl team : Nat) (hends : (isl, team) ∉ s.course.1)
    (h : (s.team? isl team).isSome = true) :
    ((resetTeam s isl team).team? isl team).map (·.ending) = some (some (0x22, 0)) := by
  have hany : (s.task.ends.any fun e => e.isl == isl && e.team == team) = false := by
    simpa [State.course] using hends
  obtain ⟨t, ht⟩ := Option.isSome_iff_exists.1 (endTeam_team?_isSome s isl team 0x22 0 h)
  unfold resetTeam State.modTeam
  rw [if_neg (by simp [hany]), ht]
  dsimp only
  rw [team?_setTeam_self]
  rfl

/-- R55: once reset, a team stays so while the island's other teams end. -/
theorem foldl_resetTeam_team? (l : List (Nat × Nat)) (s : State) (isl team : Nat) (hends : (isl, team) ∉ s.course.1)
    (h : (s.team? isl team).isSome = true)
    (hl : (isl, team) ∈ l ∨ (s.team? isl team).map (·.ending) = some (some (0x22, 0))) :
    ((l.foldl (fun s k => resetTeam s k.1 k.2) s).team? isl team).map (·.ending) = some (some (0x22, 0)) := by
  induction l generalizing s with
  | nil => exact hl.resolve_left List.not_mem_nil
  | cons k l ih =>
    have hcourse : (isl, team) ∉ (resetTeam s k.1 k.2).course.1 := by rw [resetTeam_course]; exact hends
    by_cases hk : k = (isl, team)
    · subst hk
      have hreset := resetTeam_team?_self s isl team hends h
      refine ih _ hcourse ?_ (.inr hreset)
      rw [← Option.isSome_map (f := fun t : Team => t.ending), hreset]
      rfl
    · have hsame := resetTeam_team?_ne s k.1 k.2 isl team hk
      refine ih _ hcourse (by rw [hsame]; exact h) ?_
      rw [hsame]
      exact hl.imp_left fun hm => (List.mem_cons.1 hm).resolve_left (Ne.symm hk)

theorem Tbl.mem_of_get? {κ α : Type} [DecidableEq κ] {t : Tbl κ α} {x : κ} {v : α} (h : t.get? x = some v) :
    (x, v) ∈ t := by
  induction t with
  | nil => exact nomatch h
  | cons e t ih =>
    obtain ⟨k, w⟩ := e
    by_cases hk : k = x
    · simp_all [Tbl.get?]
    · simp only [Tbl.get?, hk, if_false] at h
      exact .tail _ (ih h)

theorem endAllTeams_course (s : State) (isl : Nat) : (endAllTeams s isl).course = s.course := by
  refine foldl_keeps _ State.course (fun s k => ?_) _ _
  exact resetTeam_course s k.1 k.2

theorem endAllTeams_team? (s : State) (isl team : Nat) (tm : Team) (ht : s.team? isl team = some tm)
    (hgone : tm.gone = false) (hends : (isl, team) ∉ s.course.1) :
    ((endAllTeams s isl).team? isl team).map (·.ending) = some (some (0x22, 0)) := by
  refine foldl_resetTeam_team? _ s isl team hends (by rw [ht]; rfl) (.inl ?_)
  refine List.mem_map.2 ⟨((isl, team), tm), List.mem_filter.2 ⟨Tbl.mem_of_get? ht, ?_⟩, rfl⟩
  simp [hgone]

/-! ### The fence -/

/-- R55: the island as its fence leaves it to the lehr: its teams have ended, its packets and requests are gone, its copies
are abandoned, its cache is written back, and its clock has started again. -/
def fenceStopped (s : State) (isl : Nat) : State :=
  restartClock (writeBack (abandonAll (loseTxns (losePackets
    (endAllTeams (flushPackets s fun p => p.op == .getData && p.dest == isl) isl) isl) isl) isl) isl fun _ => true) isl

theorem restartClock_standing (s : State) (isl : Nat) : (restartClock s isl).standing = s.standing := rfl

theorem writeBack_standing (s : State) (isl : Nat) (p : Nat → Bool) : (writeBack s isl p).standing = s.standing := rfl

theorem losePackets_standing (s : State) (isl : Nat) : (losePackets s isl).standing = s.standing := rfl

theorem fenceStopped_standing (s : State) (isl : Nat) :
    (fenceStopped s isl).standing =
      (endAllTeams (flushPackets s fun p => p.op == .getData && p.dest == isl) isl).standing := by
  unfold fenceStopped
  rw [restartClock_standing, writeBack_standing, abandonAll_standing, loseTxns_standing, losePackets_standing]

theorem fenceStopped_course (s : State) (isl : Nat) : (fenceStopped s isl).course = s.course :=
  calc (fenceStopped s isl).course
      = (endAllTeams (flushPackets s fun p => p.op == .getData && p.dest == isl) isl).course :=
        course_of_standing (fenceStopped_standing s isl)
    _ = (flushPackets s fun p => p.op == .getData && p.dest == isl).course := endAllTeams_course _ isl
    _ = s.course := course_of_standing (flushPackets_getData_standing s isl)

theorem fenceStopped_team? (s : State) (isl team : Nat) (tm : Team) (ht : s.team? isl team = some tm)
    (hgone : tm.gone = false) (hends : ∀ e ∈ s.task.ends, e.isl ≠ isl ∨ e.team ≠ team) :
    ((fenceStopped s isl).team? isl team).map (·.ending) = some (some (0x22, 0)) := by
  have hflush := flushPackets_getData_standing s isl
  have hnot : (isl, team) ∉ s.course.1 := by
    simpa [State.course, imp_iff_not_or] using hends
  rw [team?_of_standing (fenceStopped_standing s isl)]
  refine endAllTeams_team? _ isl team tm ?_ hgone ?_
  · rw [team?_of_standing hflush, ht]
  · rw [course_of_standing hflush]
    exact hnot

/-- R55: a stopped island goes to the lehr, its interface takes nothing in, and it counts as fenced. -/
def queueFence (s : State) (isl : Nat) : State :=
  let s2 := addJob s ⟨isl, 0xFFF, 0xFFFFFF, 5, 0, 0⟩
  { s2 with fab := { s2.fab with
    ucieDown := s2.fab.ucieDown.set isl s2.hub.ns
    quiesce := if s2.fab.quiesce.contains isl then s2.fab.quiesce else s2.fab.quiesce ++ [isl]
    toposet := s2.fab.toposet.map fun (t : Toposet) => { t with fences := t.fences ++ [isl] }
    fenced := s2.fab.fenced.set isl false } }

theorem fence_eq (s : State) (isl : Nat) :
    fence s isl = if (queueFence (fenceStopped s isl) isl).fab.toposet.isSome then queueFence (fenceStopped s isl) isl
      else publish (queueFence (fenceStopped s isl) isl) := rfl

theorem mem_queueFence_quiesce (s : State) (isl : Nat) : isl ∈ (queueFence s isl).fab.quiesce := by
  dsimp only [queueFence]
  split
  next h => exact List.contains_iff_mem.1 h
  next => exact List.mem_append_right _ (List.mem_singleton.2 rfl)

theorem publish_topogen (s : State) : (publish s).fab.topogen = (s.fab.topogen + 1) % 2 ^ 32 := rfl

/-- R54, R55: a stopped island is fenced, and the fence is published at once unless a topology switch will publish it. -/
theorem publish_queueFence (s : State) (isl : Nat) :
    let u := if (queueFence s isl).fab.toposet.isSome then queueFence s isl else publish (queueFence s isl)
    u.fab.fenced.get? isl = some false ∧ u.hub.clk = s.hub.clk ∧ isl ∈ u.fab.quiesce ∧
      u.fab.ucieDown.get? isl = some s.hub.ns ∧ (⟨isl, 0xFFF, 0xFFFFFF, 5, 0, 0⟩ : LehrJob) ∈ u.par.jobs ∧
      (s.fab.toposet = none → u.fab.topogen = (s.fab.topogen + 1) % 2 ^ 32) ∧ u.task.teams = s.task.teams := by
  have hq := mem_queueFence_quiesce s isl
  have hjob : (⟨isl, 0xFFF, 0xFFFFFF, 5, 0, 0⟩ : LehrJob) ∈ (queueFence s isl).par.jobs :=
    List.mem_append_right _ (List.mem_singleton.2 rfl)
  intro u
  by_cases htopo : s.fab.toposet = none
  · have hu : u = publish (queueFence s isl) := if_neg (by simp [queueFence, addJob, fenceSlices, htopo])
    rw [hu]
    exact ⟨Tbl.get?_set_self .., rfl, hq, Tbl.get?_set_self .., hjob, fun _ => rfl, rfl⟩
  · have hu : u = queueFence s isl := by
      refine if_pos ?_
      simpa [queueFence, addJob, fenceSlices, Option.isSome_iff_ne_none] using htopo
    rw [hu]
    exact ⟨Tbl.get?_set_self .., rfl, hq, Tbl.get?_set_self .., hjob, fun h => absurd h htopo, rfl⟩

end Sys2Proof.Machine
end

section
/-! R11, R51 to R56: the topology events. -/

namespace Sys2Proof.Machine

open Sys2Proof

/-! ### Command records -/

theorem occCmd_mem {s : State} {code : Nat} {c : CmdRec} (h : occCmd s code = some c) : c ∈ s.hub.cmds := by
  unfold occCmd at h
  split at h
  · exact List.mem_of_find?_eq_some (Option.filter_eq_some_iff.1 h).1
  · exact nomatch h

/-- R70: a started record whose status is decided stands among the records with it. -/
theorem endCmd_decides (s : State) (c : CmdRec) (st : Nat) (detail info : Option Nat) (hc : c ∈ s.hub.cmds) :
    ∃ r ∈ (endCmd s c st detail info).hub.cmds, r.ref = c.ref ∧ r.begun = true ∧
      ∃ d i, r.res = some (st, d, i) ∧ ∀ y, detail = some y → d = y := by
  refine ⟨_, List.mem_map.2 ⟨c, hc, if_pos rfl⟩, rfl, rfl, _, _, rfl, ?_⟩
  rintro y rfl
  rfl

/-! ### TOPOSET -/

/-- R54: a TOPOSET whose turn it is begins. -/
theorem exec_toposet_turn {s : State} {c : CmdRec} (hc : occCmd s 3 = some c) (hs : serviceUp s = true)
    (ht : topoFree s = true ∨ topoTurn s (.inl c.ref) = true) :
    exec .toposet s = .next (commit s (toposet (leaveTopoq s (.inl c.ref)) c)) := by
  have hgo : (topoFree s || topoTurn s (.inl c.ref)) = true := by simpa using ht
  rw [exec_toposet, execToposet, hc]
  simp only [hs, hgo, Bool.not_true, Bool.false_eq_true, if_false, if_true]

theorem exec_toposet_waits {s : State} {c : CmdRec} (hc : occCmd s 3 = some c) (hs : serviceUp s = true)
    (hf : topoFree s = false) (ht : topoTurn s (.inl c.ref) = false) :
    exec .toposet s = if s.fab.topoq.contains (.inl c.ref) then idle "TOPOSET" else .next (commit s (waitTopo s (.inl c.ref))) := by
  rw [exec_toposet, execToposet, hc]
  simp only [hs, hf, ht, Bool.not_true, Bool.or_self, Bool.false_eq_true, if_false]

theorem toposet_malformed {s : State} {c : CmdRec} {b : Nat} (h : toposetMal c.bits = some b) :
    toposet s c = endCmd s c 0x11 (some b) none := by
  simp only [toposet, h]

theorem toposet_same {s : State} {c : CmdRec} (h : toposetMal c.bits = none) (hx : nbits c.bits 447 440 = s.fab.xcode) :
    toposet s c = endCmd s c 0x01 none none := by
  simp only [toposet, h, hx, if_true]

theorem toposet_begins {s : State} {c : CmdRec} (h : toposetMal c.bits = none) (hx : nbits c.bits 447 440 ≠ s.fab.xcode) :
    (toposet s c).fab = { s.fab with
      quiesce := (List.range 24).filter (present s)
      toposet := some ⟨c.ref, nbits c.bits 447 440,
        (if nbits c.bits 439 426 = 0 then 500 else nbits c.bits 439 426) * 1000, s.hub.ns, .drain, []⟩ } := by
  simp only [toposet, h, if_neg hx]
  rfl

/-- R53: what the publication of a switch leaves. -/
theorem toposetPublish_fab (s : State) (t : Toposet) :
    (toposetPublish s t).fab = { (publish { s with fab := { s.fab with xcode := t.code, toposet := none } }).fab with
      switchGen := (s.fab.topogen + 1) % 2 ^ 32 % 65536
      quiesce := s.fab.quiesce.filter fun i => (s.fab.fenced.get? i).isSome } := by
  unfold toposetPublish finishToposet
  dsimp only
  split
  · split <;> rfl
  · rfl

/-- R53, R70: the record of a TOPOSET tells the islands whose express links are not all up. -/
theorem toposetPublish_cmd (s : State) (t : Toposet) (c : CmdRec) (hc : s.hub.cmds.find? (·.ref = t.cmd) = some c) :
    ∃ r ∈ (toposetPublish s t).hub.cmds, r.ref = t.cmd ∧ ∃ d i,
      r.res = some ((if partialMask s = 0 then 0x00 else 0x02), d, i) ∧ (partialMask s ≠ 0 → d = partialMask s) := by
  have href : c.ref = t.cmd := by simpa using List.find?_some hc
  have hmem : c ∈ s.hub.cmds := List.mem_of_find?_eq_some hc
  unfold toposetPublish finishToposet
  dsimp only
  split
  next c' hc' =>
    obtain rfl : c' = c := Option.some.inj (hc'.symm.trans hc)
    split
    next hmask =>
      obtain ⟨r, hr, hr1, -, d, i, hres, -⟩ := endCmd_decides _ c' 0x00 none none hmem
      exact ⟨r, hr, hr1.trans href, d, i, hres, fun h => absurd hmask h⟩
    next hmask =>
      obtain ⟨r, hr, hr1, -, d, i, hres, hd⟩ := endCmd_decides _ c' 0x02 (some (partialMask s)) none hmem
      exact ⟨r, hr, hr1.trans href, d, i, hres, fun _ => hd _ rfl⟩
  next hc' => exact absurd (hc'.symm.trans hc) (by simp)

/-- R52: the events of a switch under way. -/
theorem exec_switch_events {s : State} {t : Toposet} (ht : s.fab.toposet = some t) :
    exec .toposetDrainLimit s =
      (if serviceUp s = true ∧ t.phase = .drain ∧ t.since + t.drainNs ≤ s.hub.ns ∧ drained s = false then
        .next (commit s (drainAll s)) else idle "TOPOSET_DRAIN_LIMIT") ∧
    exec .toposetSwitch s =
      (if serviceUp s = true ∧ t.phase = .drain ∧ drained s = true then .next (commit s (switchLinks s t))
      else idle "TOPOSET_SWITCH") ∧
    exec .toposetPublish s =
      (if serviceUp s = true ∧ t.phase = .retrain ∧ !(expressEnds s).any (training s) then
        .next (commit s (toposetPublish s t)) else idle "TOPOSET_PUBLISH") := by
  rw [exec_toposetDrainLimit, exec_toposetSwitch, exec_toposetPublish, execToposetDrainLimit, execToposetSwitch,
    execToposetPublish, ht]
  exact ⟨rfl, rfl, rfl⟩

/-- R11, R55: the UCIe link of a present island goes down or comes up. -/
theorem exec_ucieLinkChange_at {s : State} {isl up : Nat} (hocc : s.occ = .islandIn isl up) (hp : present s isl = true) :
    exec .ucieLinkChange s =
      let down := if up = 0 then (if (s.fab.ucieDown.get? isl).isSome then s.fab.ucieDown else s.fab.ucieDown.set isl s.hub.ns)
        else s.fab.ucieDown.erase isl
      let s1 := { s with fab := { s.fab with ucieDown := down } }
      .next (commit s (sendHeld (if up ≠ 0 ∧ (s.fab.fenced.get? isl).isSome then retrainLinks s1 isl else s1))) := by
  rw [exec_ucieLinkChange, execUcieLinkChange, hocc]
  simp only [hp, Bool.not_true, Bool.false_eq_true, if_false]

/-! ### Re-admission -/

/-- R141: every record in an island's ready queues has the island's time as its STAMP. -/
theorem restamp_queue (s : State) (isl : Nat) (q : QEntry) (hq : q ∈ (restamp s isl).task.queue) (hi : q.isl = isl) :
    q.task.stamp = s.clk isl := by
  obtain ⟨x, -, rfl⟩ := List.mem_map.1 hq
  by_cases hx : x.isl = isl
  · simp [hx]
  · rw [if_neg hx] at hi
    exact absurd hi hx

theorem fenceStopped_clk (s : State) (isl : Nat) : (fenceStopped s isl).clk isl = 0 := Tbl.getD_set_self ..

/-- R54, R55: what the fence of an island leaves. -/
theorem fence_leaves (s : State) (isl team : Nat) (tm : Team) :
    let u := fence s isl
    u.fab.fenced.get? isl = some false ∧ u.clk isl = 0 ∧ isl ∈ u.fab.quiesce ∧ u.fab.ucieDown.get? isl = some s.hub.ns ∧
      (⟨isl, 0xFFF, 0xFFFFFF, 5, 0, 0⟩ : LehrJob) ∈ u.par.jobs ∧
      (s.fab.toposet = none → u.fab.topogen = (s.fab.topogen + 1) % 2 ^ 32) ∧
      (s.team? isl team = some tm → tm.gone = false → (∀ e ∈ s.task.ends, e.isl ≠ isl ∨ e.team ≠ team) →
        (u.team? isl team).map (·.ending) = some (some (0x22, 0))) := by
  intro u
  have hcourse := fenceStopped_course s isl
  simp only [State.course, Prod.mk.injEq] at hcourse
  obtain ⟨-, htopo, hgen, hns⟩ := hcourse
  obtain ⟨hfenced, hclk, hquiesce, hdown, hjob, hpub, hteams⟩ := publish_queueFence (fenceStopped s isl) isl
  rw [← fence_eq] at hfenced hclk hquiesce hdown hjob hpub hteams
  refine ⟨hfenced, ?_, hquiesce, hns ▸ hdown, hjob, fun hnone => ?_, fun ht hgone hends => ?_⟩
  · unfold State.clk
    rw [hclk]
    exact fenceStopped_clk s isl
  · rw [← hgen]
    exact hpub (htopo.trans hnone)
  · have hsame : u.team? isl team = (fenceStopped s isl).team? isl team := by
      unfold State.team?
      rw [hteams]
    rw [hsame]
    exact fenceStopped_team? s isl team tm ht hgone hends

/-- R55: the events that fence an island come only to one that may be fenced. -/
theorem exec_fences {s : State} {isl : Nat} (hocc : s.occ = .island isl) :
    exec .fabricInterfaceError s =
      (if fenceable s isl then .next (commit s (fence s isl)) else idle "FABRIC_INTERFACE_ERROR") ∧
    exec .ucieDownTimeout s = (match s.fab.ucieDown.get? isl with
      | some t => if fenceable s isl && t + 100000000 ≤ s.hub.ns then .next (commit s (fence s isl)) else idle "UCIE_DOWN_TIMEOUT"
      | none => idle "UCIE_DOWN_TIMEOUT") ∧
    exec .throttleFence s = (match s.hub.power.get? isl with
      | some p =>
        if fenceable s isl && 100 ≤ p.hotRounds then
          .next (commit s (report (fence (setPower s isl { p with hotRounds := 0 }) isl) 0 14 [isl]))
        else idle "THROTTLE_FENCE"
      | none => idle "THROTTLE_FENCE") := by
  rw [exec_fabricInterfaceError, exec_ucieDownTimeout, exec_throttleFence, execFabricInterfaceError, execUcieDownTimeout,
    execThrottleFence, hocc]
  exact ⟨rfl, rfl, rfl⟩

/-- R54: a request for a warm reset arrives. -/
theorem exec_warmResetRequest_arrives {s : State} {isl : Nat} (hocc : s.occ = .island isl) (hs : serviceUp s = true)
    (hp : present s isl = true) :
    exec .warmResetRequest s = redfish s none (if topoFree s then fence s isl else waitTopo s (.inr isl)) := by
  rw [exec_warmResetRequest, execWarmResetRequest, hocc]
  simp only [hs, hp, Bool.not_true, Bool.or_self, Bool.false_eq_true, if_false]

/-- R54: a request for a warm reset that has waited comes up. -/
theorem exec_warmResetRequest_waited {s : State} {isl : Nat} (hocc : s.occ = .node isl) (hs : serviceUp s = true) :
    exec .warmResetRequest s = if topoTurn s (.inr isl) then .next (commit s (fence (leaveTopoq s (.inr isl)) isl))
      else idle "WARM_RESET_REQUEST" := by
  rw [exec_warmResetRequest, execWarmResetRequest, hocc]
  simp only [hs, Bool.true_and]

theorem exec_warmResetReadmit_at {s : State} {isl : Nat} (hocc : s.occ = .island isl) :
    exec .warmResetReadmit s = if readmitReady s isl then
      .next (commit s (publish (restamp { s with fab := { s.fab with
        fenced := s.fab.fenced.erase isl, quiesce := s.fab.quiesce.filter (· ≠ isl) } } isl)))
      else idle "WARM_RESET_READMIT" := by
  rw [exec_warmResetReadmit, execWarmResetReadmit, hocc]

/-- R63: a Redfish request that arrives leads to its state where the credentials allow it. -/
theorem asked_of_redfish {i : Instr} {s t : State} {scope : Option Nat} (h : exec i s = redfish s scope t) :
    Asked i s scope t := by
  unfold Asked Occurs
  rw [h, redfish]
  refine ⟨fun hm hs => ?_, fun hm hs => ?_, fun hm => ?_⟩ <;> simp [*]

end Sys2Proof.Machine
end

section
/-! The statement of the topology events. -/

namespace Sys2Proof.Machine

open Sys2Proof

/-- Settles O49, family by family: TOPOSET, the switch under way, the UCIe link, the fence, its request, and the events of
one island. -/
theorem topologyEvents : Obligations.TopologyEvents := by
  unfold Obligations.TopologyEvents
  intro s c t isl n team b pw tm no ends d late mask publishes
  refine ⟨fun hc => ?_, fun ht => ?_, fun hocc hpres => ?_, fence_leaves s isl team tm, fun hs hpres => ?_, fun hocc => ?_⟩
  · have hmem : c ∈ s.hub.cmds := occCmd_mem hc
    refine ⟨fun hs => ?_, fun hs hfree hturn => ?_, fun hs hgo => ?_⟩
    · show exec .toposet s = idle "TOPOSET"
      rw [exec_toposet, execToposet, hc]
      simp [hs]
    · have hw := exec_toposet_waits hc hs hfree hturn
      exact ⟨fun hq => by rw [if_pos hq] at hw; exact hw, fun hq => by rw [if_neg (by simp [hq])] at hw; exact hw⟩
    · have hx := exec_toposet_turn hc hs hgo
      refine ⟨fun hm => ?_, fun hm hcode => ?_, fun hm hcode => ?_⟩
      · exact ⟨_, hx, toposet_malformed hm ▸ endCmd_decides _ c 0x11 (some b) none hmem⟩
      · exact ⟨_, hx, toposet_same (s := leaveTopoq s (.inl c.ref)) hm hcode ▸ endCmd_decides _ c 0x01 none none hmem⟩
      · have hfab := toposet_begins (s := leaveTopoq s (.inl c.ref)) hm hcode
        refine ⟨_, hx, ?_⟩
        dsimp only
        rw [commit_fab, hfab]
        exact ⟨rfl, rfl, rfl, rfl, rfl⟩
  · obtain ⟨hlimit, hswitch, hpublish⟩ := exec_switch_events ht
    refine ⟨fun hs => ?_, fun hs hphase => ⟨fun hdue hleft => ?_, fun hnot => ?_, fun hdry => ?_, fun hleft => ?_, ?_⟩,
      fun hs hphase => ⟨?_, ?_, fun hlate => ?_, fun hready hcmd => ?_⟩⟩
    · show exec .toposetDrainLimit s = idle _ ∧ exec .toposetSwitch s = idle _ ∧ exec .toposetPublish s = idle _
      simp [hlimit, hswitch, hpublish, hs]
    · exact ⟨hlimit.trans (if_pos ⟨hs, hphase, hdue, hleft⟩), drained_drainAll s⟩
    · refine hlimit.trans (if_neg ?_)
      rintro ⟨-, -, hdue, hleft⟩
      exact hnot.elim (fun h => absurd hdue (Nat.not_le.2 h)) fun h => by simp [h] at hleft
    · exact ⟨hswitch.trans (if_pos ⟨hs, hphase, hdry⟩), switchLinks_links s t⟩
    · exact hswitch.trans (if_neg (by simp [hleft]))
    · exact hpublish.trans (if_neg (by simp [hphase]))
    · exact hlimit.trans (if_neg (by simp [hphase]))
    · exact hswitch.trans (if_neg (by simp [hphase]))
    · exact hpublish.trans (if_neg fun h => by simp [show (expressEnds s).any (training s) = true from hlate] at h)
    · have hgo : serviceUp s = true ∧ t.phase = .retrain ∧ (!(expressEnds s).any (training s)) = true :=
        ⟨hs, hphase, by rw [show (expressEnds s).any (training s) = false from hready]; rfl⟩
      refine ⟨_, hpublish.trans (if_pos hgo), ?_⟩
      have hfab := toposetPublish_fab s t
      refine ⟨?_, ?_, ?_, ?_, fun hf => ?_, toposetPublish_cmd s t c hcmd⟩
      all_goals rw [commit_fab, hfab]
      · rfl
      · rfl
      · rfl
      · rfl
      · simp [hf, Tbl.get?]
  · obtain hx := exec_ucieLinkChange_at hocc hpres
    intro s1
    refine ⟨fun hn => ⟨fun hf => ?_, fun hf => ?_⟩, fun hn hdown => ?_⟩
    · exact hx.trans (by simp [hn, hf, s1])
    · exact hx.trans (by simp [hn, hf, s1])
    · exact hx.trans (by simp [hn, hdown])
  · refine ⟨fun hocc => ⟨fun hfree => ?_, fun hfree => ?_⟩, fun hocc => ⟨fun hturn => ?_, fun hturn => ?_⟩⟩
    · exact asked_of_redfish ((exec_warmResetRequest_arrives hocc hs hpres).trans (by rw [if_pos hfree]))
    · exact asked_of_redfish ((exec_warmResetRequest_arrives hocc hs hpres).trans (by rw [if_neg (by simp [hfree])]; rfl))
    · exact (exec_warmResetRequest_waited hocc hs).trans (if_pos hturn)
    · exact (exec_warmResetRequest_waited hocc hs).trans (if_neg (by simp [hturn]))
  · obtain ⟨herror, hdown, hhot⟩ := exec_fences hocc
    have hadmit := exec_warmResetReadmit_at hocc
    refine ⟨fun hf => herror.trans (if_pos hf), fun hf => ⟨herror.trans (if_neg (by simp [hf])), ?_, ?_⟩,
      fun hf hsince => ⟨fun hdue => ?_, fun hdue => ?_⟩, fun hup => ?_, fun hf hpw => ⟨fun hr => ?_, fun hr => ?_⟩,
      fun hr => hadmit.trans (if_neg (by simp [hr])), fun hr => ?_⟩
    · refine hdown.trans ?_
      split <;> simp [hf, idle]
    · refine hhot.trans ?_
      split <;> simp [hf, idle]
    · refine hdown.trans ?_
      simp [hsince, hf, hdue]
    · refine hdown.trans ?_
      simp [hsince, Nat.not_le.2 hdue, idle]
    · refine hdown.trans ?_
      simp [hup, idle]
    · refine hhot.trans ?_
      simp [hpw, hf, hr]
    · refine hhot.trans ?_
      simp [hpw, Nat.not_le.2 hr, idle]
    · refine ⟨_, hadmit.trans (if_pos hr), Tbl.get?_erase_self .., ?_, rfl, fun q hq hi => ?_, rfl⟩
      · show isl ∉ s.fab.quiesce.filter (· ≠ isl)
        simp
      · exact restamp_queue _ isl q hq hi

end Sys2Proof.Machine
end

section
/-! R14 to R22: clock steps, budget rounds, temperature, input and coolant. -/

namespace Sys2Proof.Machine

open Sys2Proof

/-! ### Tables -/

/-- A table whose values are changed entry by entry. -/
theorem Tbl.get?_map {κ α β : Type} [DecidableEq κ] (t : Tbl κ α) (g : κ × α → κ × β) (f : κ → α → β)
    (hg : ∀ e, g e = (e.1, f e.1 e.2)) (x : κ) : Tbl.get? (t.map g) x = (t.get? x).map (f x) := by
  induction t with
  | nil => rfl
  | cons e t ih =>
    obtain ⟨k, v⟩ := e
    rw [List.map_cons, hg]
    by_cases hk : k = x
    · subst hk
      simp [Tbl.get?]
    · simpa [Tbl.get?, hk] using ih

theorem Tbl.mem_keys_of_get? {κ α : Type} [DecidableEq κ] {t : Tbl κ α} {x : κ} {v : α} (h : t.get? x = some v) :
    x ∈ t.map (·.1) :=
  List.mem_map_of_mem (f := (·.1)) (Tbl.mem_of_get? h)

/-! ### Clock steps -/

theorem mem_clockSteps (k : Nat) : k ∈ clockSteps ↔ 32 ≤ k ∧ k ≤ 88 := by
  simp only [clockSteps, List.mem_map, List.mem_range]
  constructor
  · rintro ⟨i, hi, rfl⟩
    omega
  · rintro ⟨hlow, hhigh⟩
    exact ⟨88 - k, by omega, by omega⟩

theorem clockSteps_descend : clockSteps.Pairwise (· > ·) := by decide

/-- R18: the highest step that fits, where one fits. -/
theorem bestStep_fits (isl share demand k : Nat) (hk : 32 ≤ k ∧ k ≤ 88 ∧ Config.predictedPower isl k demand ≤ share) :
    (32 ≤ bestStep isl share demand ∧ bestStep isl share demand ≤ 88 ∧
      Config.predictedPower isl (bestStep isl share demand) demand ≤ share) ∧ k ≤ bestStep isl share demand := by
  obtain ⟨hlow, hhigh, hfit⟩ := hk
  have hmem : k ∈ clockSteps := (mem_clockSteps k).2 ⟨hlow, hhigh⟩
  unfold bestStep
  cases hfind : clockSteps.find? fun k => Config.predictedPower isl k demand ≤ share with
  | none => simpa [hfit] using List.find?_eq_none.1 hfind k hmem
  | some b =>
    obtain ⟨hb, as, bs, hsplit, has⟩ := List.find?_eq_some_iff_append.1 hfind
    obtain ⟨hblow, hbhigh⟩ := (mem_clockSteps b).1 (List.mem_of_find?_eq_some hfind)
    refine ⟨⟨hblow, hbhigh, by simpa using hb⟩, ?_⟩
    rw [hsplit, List.mem_append, List.mem_cons] at hmem
    rcases hmem with hk | rfl | hk
    · simpa [hfit] using has k hk
    · exact Nat.le_refl _
    · have hdesc := clockSteps_descend
      rw [hsplit] at hdesc
      exact Nat.le_of_lt ((List.pairwise_cons.1 (List.pairwise_append.1 hdesc).2.1).1 k hk)

theorem bestStep_none (isl share demand : Nat)
    (h : ¬ ∃ k, 32 ≤ k ∧ k ≤ 88 ∧ Config.predictedPower isl k demand ≤ share) : bestStep isl share demand = 32 := by
  have hfind : clockSteps.find? (fun k => Config.predictedPower isl k demand ≤ share) = none := by
    refine List.find?_eq_none.2 fun k hk hfit => h ⟨k, ?_, ?_, by simpa using hfit⟩
    · exact ((mem_clockSteps k).1 hk).1
    · exact ((mem_clockSteps k).1 hk).2
  rw [bestStep, hfind]
  rfl

/-! ### Islands that change their step -/

/-- Everything but the power state of the islands. -/
def State.unpowered (s : State) : State := { s with hub := { s.hub with power := [] } }

theorem setPower_unpowered (s : State) (isl : Nat) (p : Power) : (setPower s isl p).unpowered = s.unpowered := rfl

theorem moveStep_unpowered (s : State) (isl : Nat) : (moveStep s isl).unpowered = s.unpowered := by
  unfold moveStep
  split <;> rfl

theorem foldl_moveStep_unpowered (l : List Nat) (s : State) : (l.foldl moveStep s).unpowered = s.unpowered :=
  foldl_keeps moveStep State.unpowered moveStep_unpowered l s

theorem moveSteps_unpowered (s : State) : (moveSteps s).unpowered = s.unpowered := foldl_moveStep_unpowered _ s

theorem undervoltage_of_unpowered {s t : State} (h : t.unpowered = s.unpowered) : t.hub.undervoltage = s.hub.undervoltage :=
  congrArg (a₁ := t.unpowered) (a₂ := s.unpowered) (fun x : State => x.hub.undervoltage) h

theorem noFlow_of_unpowered {s t : State} (h : t.unpowered = s.unpowered) : t.hub.noFlow = s.hub.noFlow :=
  congrArg (a₁ := t.unpowered) (a₂ := s.unpowered) (fun x : State => x.hub.noFlow) h

theorem out_of_unpowered {s t : State} (h : t.unpowered = s.unpowered) : t.hub.out = s.hub.out :=
  congrArg (a₁ := t.unpowered) (a₂ := s.unpowered) (fun x : State => x.hub.out) h

theorem nextRound_of_unpowered {s t : State} (h : t.unpowered = s.unpowered) : t.hub.nextRound = s.hub.nextRound :=
  congrArg (a₁ := t.unpowered) (a₂ := s.unpowered) (fun x : State => x.hub.nextRound) h

theorem stepFor_of_unpowered {s t : State} (h : t.unpowered = s.unpowered) (isl : Nat) (p : Power) :
    stepFor t isl p = stepFor s isl p := by
  simp only [stepFor, undervoltage_of_unpowered h, noFlow_of_unpowered h]

theorem moveStep_power (s : State) (isl i : Nat) :
    (moveStep s isl).hub.power.get? i =
      if i = isl then (s.hub.power.get? i).map fun p => { p with step := stepFor s i p } else s.hub.power.get? i := by
  unfold moveStep
  split
  next p hp =>
    show (s.hub.power.set isl _).get? i = _
    rw [Tbl.get?_set]
    by_cases hi : i = isl
    · subst hi
      simp [hp]
    · simp [hi, Ne.symm hi]
  next hp =>
    split
    next hi => subst hi; simp [hp]
    next => rfl

theorem foldl_moveStep_power (l : List Nat) (s : State) (i : Nat) :
    (l.foldl moveStep s).hub.power.get? i =
      if i ∈ l then (s.hub.power.get? i).map fun p => { p with step := stepFor s i p } else s.hub.power.get? i := by
  induction l generalizing s with
  | nil => rfl
  | cons k l ih =>
    rw [List.foldl_cons, ih, moveStep_power]
    simp only [stepFor_of_unpowered (moveStep_unpowered s k)]
    by_cases hl : i ∈ l
    · by_cases hk : i = k
      · simp only [if_pos hl, if_pos hk, if_pos (List.mem_cons_of_mem k hl), Option.map_map]
        rfl
      · rw [if_pos hl, if_neg hk, if_pos (List.mem_cons_of_mem k hl)]
    · by_cases hk : i = k
      · rw [if_neg hl, if_pos hk, if_pos (hk ▸ List.mem_cons_self)]
      · rw [if_neg hl, if_neg hk, if_neg (by simp [hk, hl])]

/-- R18, R20 to R22: every island takes the step that its state allows. -/
theorem moveSteps_power {s : State} {i : Nat} {p : Power} (hp : s.hub.power.get? i = some p) :
    (moveSteps s).hub.power.get? i = some { p with step := stepFor s i p } := by
  unfold moveSteps
  rw [foldl_moveStep_power, if_pos (Tbl.mem_keys_of_get? hp), hp]
  rfl

theorem setThrottle_power {s : State} {isl : Nat} {p : Power} (hot : Bool) (hp : s.hub.power.get? isl = some p) :
    (setThrottle s isl hot).hub.power.get? isl =
      let q := { p with
        throttled := hot, hotRounds := if hot || s.hub.noFlow then p.hotRounds else 0
        throttles := p.throttles + if hot && !p.throttled then 1 else 0 }
      some { q with step := stepFor s isl q } := by
  unfold setThrottle
  rw [hp]
  dsimp only
  rw [moveStep_power, if_pos rfl]
  show Option.map _ ((s.hub.power.set isl _).get? isl) = _
  rw [Tbl.get?_set_self]
  rfl

/-! ### Budget rounds -/

/-- R17, R20: the power state of an island after a round. -/
def roundPower (rs : List Reading) (remain sum excess : Nat) (s : State) (e : Nat × Power) : Power :=
  let r := readingOf rs e.1
  let p := { e.2 with
    demand := r.watts, temp := r.temp, share := shareOf remain sum excess r e.2.floor
    hotRounds := if e.2.throttled || s.hub.noFlow then e.2.hotRounds + 1 else 0 }
  { p with step := stepFor s e.1 p }

theorem roundOn_eq (rs : List Reading) (remain sum excess : Nat) (s : State) (e : Nat × Power) :
    roundOn rs remain sum excess s e = setPower s e.1 (roundPower rs remain sum excess s e) := rfl

theorem roundPower_of_unpowered {s t : State} (h : t.unpowered = s.unpowered) (rs : List Reading) (remain sum excess : Nat)
    (e : Nat × Power) : roundPower rs remain sum excess t e = roundPower rs remain sum excess s e := by
  simp only [roundPower, stepFor_of_unpowered h, noFlow_of_unpowered h]

theorem foldl_roundOn_unpowered (rs : List Reading) (remain sum excess : Nat) (es : List (Nat × Power)) (s : State) :
    (es.foldl (roundOn rs remain sum excess) s).unpowered = s.unpowered :=
  foldl_keeps (roundOn rs remain sum excess) State.unpowered (fun _ _ => rfl) es s

/-- R17: an island that has no share in a round keeps its power state. -/
theorem foldl_roundOn_power_ne (rs : List Reading) (remain sum excess isl : Nat) (es : List (Nat × Power)) (s : State)
    (h : isl ∉ es.map (·.1)) :
    (es.foldl (roundOn rs remain sum excess) s).hub.power.get? isl = s.hub.power.get? isl := by
  induction es generalizing s with
  | nil => rfl
  | cons e es ih =>
    rw [List.map_cons, List.mem_cons, not_or] at h
    obtain ⟨he, hes⟩ := h
    rw [List.foldl_cons, ih _ hes, roundOn_eq]
    exact Tbl.get?_set_ne _ _ _ _ (Ne.symm he)

theorem foldl_roundOn_power (rs : List Reading) (remain sum excess isl : Nat) (p : Power) (es : List (Nat × Power)) (s : State)
    (hn : (es.map (·.1)).Nodup) (h : (isl, p) ∈ es) :
    (es.foldl (roundOn rs remain sum excess) s).hub.power.get? isl = some (roundPower rs remain sum excess s (isl, p)) := by
  induction es generalizing s with
  | nil => exact nomatch h
  | cons e es ih =>
    rw [List.map_cons, List.nodup_cons] at hn
    obtain ⟨he, hes⟩ := hn
    rw [List.foldl_cons]
    rcases List.mem_cons.1 h with rfl | h
    · rw [foldl_roundOn_power_ne _ _ _ _ _ _ _ he, roundOn_eq]
      exact Tbl.get?_set_self ..
    · rw [ih _ hes h]
      exact congrArg some (roundPower_of_unpowered (s := s) rfl rs remain sum excess (isl, p))

theorem nodeUp_of_unpowered {s t : State} (h : t.unpowered = s.unpowered) (n : Nat) : nodeUp t n = nodeUp s n :=
  congrArg (a₁ := t.unpowered) (a₂ := s.unpowered) (fun x : State => nodeUp x n) h

/-- R17, R20: what a round leaves: the islands that take part have their shares, the others their power states, and the
telemetry shows each. -/
theorem budgetRound_power (s : State) (rs : List Reading) (hub isl : Nat) (pw : Power)
    (hn : (s.hub.power.map (·.1)).Nodup) (hp : s.hub.power.get? isl = some pw) :
    let es := sharers s
    let excess := (es.map fun e => if (readingOf rs e.1).flag then (readingOf rs e.1).watts - e.2.floor else 0).sum
    let p := roundPower rs (s.hub.cap - min hub s.hub.cap) (es.map fun e => e.2.floor).sum excess s (isl, pw)
    let u := budgetRound s rs hub
    u.hub.nextRound = s.hub.nextRound + 1000000 ∧
    (nodeUp s isl = true → u.hub.power.get? isl = some p ∧
      u.hub.telemetry.get? isl = some (p.telemetry (readingOf rs isl))) ∧
    (nodeUp s isl = false → u.hub.power.get? isl = some pw ∧
      u.hub.telemetry.get? isl = some ({ pw with share := 0 }.telemetry (readingOf rs isl))) := by
  intro es excess p u
  generalize hs1 : es.foldl (roundOn rs (s.hub.cap - min hub s.hub.cap) (es.map fun e => e.2.floor).sum excess) s = s1
  have hsame : s1.unpowered = s.unpowered := hs1 ▸ foldl_roundOn_unpowered ..
  have hpower : u.hub.power = s1.hub.power := by rw [← hs1]; rfl
  have htelem : ∀ q, s1.hub.power.get? isl = some q → u.hub.telemetry.get? isl =
      some ((if nodeUp s isl then q else { q with share := 0 }).telemetry (readingOf rs isl)) := by
    intro q hq
    have htable : u.hub.telemetry = (publishTelemetry rs s1).hub.telemetry := by rw [← hs1]; rfl
    rw [htable]
    refine (Tbl.get?_map s1.hub.power _ (fun i x => (if nodeUp s1 i then x else { x with share := 0 }).telemetry
      (readingOf rs i)) (fun _ => rfl) isl).trans ?_
    rw [hq, nodeUp_of_unpowered hsame]
    rfl
  refine ⟨?_, fun hup => ?_, fun hdown => ?_⟩
  · have hnext : u.hub.nextRound = s1.hub.nextRound + 1000000 := by rw [← hs1]; rfl
    rw [hnext, nextRound_of_unpowered hsame]
  · have hmem : (isl, pw) ∈ es := List.mem_filter.2 ⟨Tbl.mem_of_get? hp, hup⟩
    have hnodup : (es.map (·.1)).Nodup := hn.sublist (List.filter_sublist.map _)
    have hq : s1.hub.power.get? isl = some p := hs1 ▸ foldl_roundOn_power rs _ _ _ isl pw es s hnodup hmem
    refine ⟨hpower ▸ hq, ?_⟩
    rw [htelem p hq, if_pos hup]
  · have hnot : isl ∉ es.map (·.1) := by
      intro h
      obtain ⟨e, he, rfl⟩ := List.mem_map.1 h
      exact absurd ((List.mem_filter.1 he).2.symm.trans hdown) (by decide)
    have hq : s1.hub.power.get? isl = some pw := by
      rw [← hs1, foldl_roundOn_power_ne _ _ _ _ _ _ _ hnot, hp]
    refine ⟨hpower ▸ hq, ?_⟩
    rw [htelem pw hq, if_neg (by simp [hdown])]

end Sys2Proof.Machine
end

section
/-! R17 to R22: the events of power, temperature, input and coolant. -/

namespace Sys2Proof.Machine

open Sys2Proof

theorem exec_budgetRound_at {s : State} {rs : List Reading} {hub : Nat} (hocc : s.occ = .budget rs hub) :
    exec .budgetRound s = if anchorUp s && s.hub.nextRound ≤ s.hub.ns then .next (commit s (budgetRound s rs hub))
      else idle "BUDGET_ROUND" := by
  rw [exec_budgetRound, execBudgetRound, hocc]

theorem exec_throttles {s : State} {isl : Nat} {p : Power} (hocc : s.occ = .island isl) (hp : s.hub.power.get? isl = some p) :
    exec .throttleLimit s = .next (commit s (setThrottle s isl true)) ∧
    exec .throttleRecover s =
      if p.throttled then .next (commit s (setThrottle s isl false)) else idle "THROTTLE_RECOVER" := by
  rw [exec_throttleLimit, exec_throttleRecover, execThrottleLimit, execThrottleRecover, hocc]
  simp only [hp, Option.isSome_some, Option.map_some, Option.getD_some, if_true, and_self]

/-- R20: reaching the limit is a throttle event, counted once. -/
theorem throttleLimit_gives {s : State} {isl : Nat} {p : Power} (hocc : s.occ = .island isl)
    (hp : s.hub.power.get? isl = some p) :
    Gives (exec .throttleLimit s) fun t => t.hub.power.get? isl = some { p with
      throttled := true, step := 32, throttles := p.throttles + if p.throttled then 0 else 1 } := by
  refine ⟨_, (exec_throttles hocc hp).1, (setThrottle_power true hp).trans ?_⟩
  cases hthrottled : p.throttled <;> simp [stepFor]

theorem throttleRecover_gives {s : State} {isl : Nat} {p : Power} (hocc : s.occ = .island isl)
    (hp : s.hub.power.get? isl = some p) (hthrottled : p.throttled = true) :
    Gives (exec .throttleRecover s) fun t => t.hub.power.get? isl = some { p with
      throttled := false, hotRounds := if s.hub.noFlow then p.hotRounds else 0
      step := if s.hub.undervoltage || s.hub.noFlow then 32 else bestStep isl p.share p.demand } := by
  refine ⟨_, (exec_throttles hocc hp).2.trans (if_pos hthrottled), (setThrottle_power false hp).trans ?_⟩
  simp [stepFor]

/-- R18, R20 to R22: every island takes the step that its state allows, after a change of every power state. -/
theorem moveSteps_map_power {s : State} {t : Tbl Nat Power} {g : Nat × Power → Nat × Power} {f : Power → Power} {i : Nat}
    {p : Power} (hg : ∀ e, g e = (e.1, f e.2)) (hs : s.hub.power = t.map g) (hp : t.get? i = some p) :
    (moveSteps s).hub.power.get? i = some { f p with step := stepFor s i (f p) } := by
  refine moveSteps_power ?_
  rw [hs, Tbl.get?_map t g (fun _ => f) hg, hp]
  rfl

theorem inputUndervoltage_gives {s : State} (hboot : s.hub.boot ≠ .off) (hlow : s.hub.undervoltage = false) :
    Gives (exec .inputUndervoltage s) fun t =>
      t.hub.undervoltage = true ∧ t.hub.out = s.hub.out ++ [.redfish 0 15 []] ∧
      ∀ i x, s.hub.power.get? i = some x → (t.hub.power.get? i).map (·.step) = some 32 := by
  generalize hs1 : ({ s with hub := { s.hub with undervoltage := true } } : State) = s1
  have hlow1 : s1.hub.undervoltage = true := by subst hs1; rfl
  have hpower1 : s1.hub.power = s.hub.power := by subst hs1; rfl
  have hout1 : s1.hub.out = s.hub.out := by subst hs1; rfl
  have hsame := moveSteps_unpowered s1
  refine ⟨commit s (report (moveSteps s1) 0 15 []), ?_, ?_, ?_, fun i x hx => ?_⟩
  · rw [exec_inputUndervoltage, execInputUndervoltage, if_neg (by simp [hboot, hlow]), hs1]
  · exact (undervoltage_of_unpowered hsame).trans hlow1
  · exact congrArg (· ++ _) ((out_of_unpowered hsame).trans hout1)
  · have hx1 : s1.hub.power.get? i = some x := hpower1 ▸ hx
    show ((moveSteps s1).hub.power.get? i).map _ = _
    simp [moveSteps_power hx1, stepFor, hlow1]

theorem inputVoltageRecovery_gives {s : State} (hlow : s.hub.undervoltage = true) :
    Gives (exec .inputVoltageRecovery s) fun t => t.hub.undervoltage = false ∧
      ∀ i x, s.hub.power.get? i = some x → (t.hub.power.get? i).map (·.step) =
        some (if x.throttled || s.hub.noFlow then 32 else bestStep i x.share x.demand) := by
  generalize hs1 : ({ s with hub := { s.hub with undervoltage := false } } : State) = s1
  have hlow1 : s1.hub.undervoltage = false := by subst hs1; rfl
  have hflow1 : s1.hub.noFlow = s.hub.noFlow := by subst hs1; rfl
  have hpower1 : s1.hub.power = s.hub.power := by subst hs1; rfl
  refine ⟨commit s (moveSteps s1), ?_, ?_, fun i x hx => ?_⟩
  · rw [exec_inputVoltageRecovery, execInputVoltageRecovery, if_pos hlow, hs1]
  · exact (undervoltage_of_unpowered (moveSteps_unpowered s1)).trans hlow1
  · have hx1 : s1.hub.power.get? i = some x := hpower1 ▸ hx
    show ((moveSteps s1).hub.power.get? i).map _ = _
    simp [moveSteps_power hx1, stepFor, hlow1, hflow1]

/-- R22: a throttle event of every island. -/
theorem coolantFlowStop_gives {s : State} (hflow : s.hub.noFlow = false) :
    Gives (exec .coolantFlowStop s) fun t => t.hub.noFlow = true ∧
      ∀ i x, s.hub.power.get? i = some x → t.hub.power.get? i = some { x with step := 32, throttles := x.throttles + 1 } := by
  generalize hs1 : ({ s with hub := { s.hub with
    noFlow := true, power := s.hub.power.map fun (i, p) => (i, { p with throttles := p.throttles + 1 }) } } : State) = s1
  have hflow1 : s1.hub.noFlow = true := by subst hs1; rfl
  have hpower1 : s1.hub.power = s.hub.power.map fun (i, p) => (i, { p with throttles := p.throttles + 1 }) := by subst hs1; rfl
  refine ⟨commit s (moveSteps s1), ?_, ?_, fun i x hx => ?_⟩
  · rw [exec_coolantFlowStop, execCoolantFlowStop, if_neg (by simp [hflow]), hs1]
  · exact (noFlow_of_unpowered (moveSteps_unpowered s1)).trans hflow1
  · show (moveSteps s1).hub.power.get? i = _
    rw [moveSteps_map_power (f := fun p => { p with throttles := p.throttles + 1 }) (fun _ => rfl) hpower1 hx]
    simp [stepFor, hflow1]

/-- R22: the islands as the coolant flows again: the rounds of one that is not too hot start anew. -/
def coolantFlows (s : State) : State := { s with hub := { s.hub with
  noFlow := false
  power := s.hub.power.map fun (i, p) => (i, if p.throttled then p else { p with hotRounds := 0 }) } }

theorem exec_coolantFlowResume_at {s : State} (hflow : s.hub.noFlow = true) :
    exec .coolantFlowResume s = .next (commit s
      (if s.hub.boot = .dry then anchorBoot (moveSteps (coolantFlows s)) (badLinks s) else moveSteps (coolantFlows s))) := by
  rw [exec_coolantFlowResume, execCoolantFlowResume, if_neg (by simp [hflow])]
  rfl

theorem coolantFlowResume_gives {s : State} (hflow : s.hub.noFlow = true) (hboot : s.hub.boot ≠ .dry) :
    Gives (exec .coolantFlowResume s) fun t => t.hub.noFlow = false ∧
      ∀ i x, s.hub.power.get? i = some x → t.hub.power.get? i = some { x with
        hotRounds := if x.throttled then x.hotRounds else 0
        step := if x.throttled || s.hub.undervoltage then 32 else bestStep i x.share x.demand } := by
  refine ⟨commit s (moveSteps (coolantFlows s)), ?_, ?_, fun i x hx => ?_⟩
  · rw [exec_coolantFlowResume_at hflow, if_neg hboot]
  · exact noFlow_of_unpowered (moveSteps_unpowered (coolantFlows s))
  · show (moveSteps (coolantFlows s)).hub.power.get? i = _
    rw [moveSteps_map_power (f := fun p => if p.throttled then p else { p with hotRounds := 0 }) (fun _ => rfl) rfl hx]
    cases hthrottled : x.throttled <;> simp [hthrottled, stepFor, coolantFlows]

end Sys2Proof.Machine
end

section
/-! R25 to R28, R45: two ports that face each other, and the training of every waveguide at a boot. -/

namespace Sys2Proof.Machine

open Sys2Proof

/-! ### Facing ports -/

theorem siteOf_div (row col : Nat) : siteOf row col / 6 = row % 4 := by unfold siteOf; omega

theorem siteOf_mod (row col : Nat) : siteOf row col % 6 = col % 6 := by unfold siteOf; omega

theorem siteOf_lt (row col : Nat) : siteOf row col < 24 := by unfold siteOf; omega

theorem siteOf_self {n : Nat} (h : n < 24) : siteOf (n / 6) (n % 6) = n := by unfold siteOf; omega

/-- R28: a displacement lies within the grid. -/
theorem displacement_le (m k : Nat) : (displacement m k).1 ≤ 4 ∧ (displacement m k).2 ≤ 6 := by
  unfold displacement
  split <;> decide

/-- R25, R27, R28: the port that a site's port faces, in rows and columns. -/
theorem farEnd_site (code row col port : Nat) :
    farEnd code ⟨siteOf row col, port⟩ =
      if 24 ≤ port then none
      else if port < 4 then
        (if row % 4 = 0 then some ⟨31, 4 * (col % 6) + port⟩ else some ⟨siteOf (row % 4 - 1) (col % 6), 8 + port⟩)
      else if port < 8 then some ⟨siteOf (row % 4) (col % 6 + 1), 8 + port⟩
      else if port < 12 then
        (if row % 4 = 3 then some ⟨siteOf 3 (col % 6 + 3), port⟩ else some ⟨siteOf (row % 4 + 1) (col % 6), port - 8⟩)
      else if port < 16 then some ⟨siteOf (row % 4) (col % 6 + 5), port - 8⟩
      else
        let m := (port - 16) / 2
        let d := displacement m (nbits code (2 * m + 1) (2 * m))
        if port % 2 = 0 then some ⟨siteOf (row % 4 + d.1) (col % 6 + d.2), port + 1⟩
        else some ⟨siteOf (row % 4 + 4 - d.1) (col % 6 + 6 - d.2), port - 1⟩ := by
  have hlt := siteOf_lt row col
  have hor : (24 ≤ siteOf row col ∨ 24 ≤ port) ↔ 24 ≤ port := by omega
  simp only [farEnd, siteOf_div, siteOf_mod, if_neg (show ¬ siteOf row col = 31 by omega), hor]

theorem farEnd_hub {code port : Nat} (h : port < 24) : farEnd code ⟨31, port⟩ = some ⟨port / 4, port % 4⟩ := by
  simp [farEnd, h]

/-- The end of a site's port, given by its row and column. -/
theorem siteEnd_eq {row col port node p : Nat} (hp : port = p) (hn : siteOf row col = node) :
    some (⟨siteOf row col, port⟩ : LinkEnd) = some ⟨node, p⟩ := by rw [hp, hn]

/-- The ports of the nodes of the panel. -/
def allEnds : List LinkEnd := allNodes.flatMap fun n => (List.range 24).map fun p => (⟨n, p⟩ : LinkEnd)

theorem mem_allEnds (e : LinkEnd) : e ∈ allEnds ↔ (e.node < 24 ∨ e.node = 31) ∧ e.port < 24 := by
  obtain ⟨n, p⟩ := e
  simp only [allEnds, allNodes, List.mem_flatMap, List.mem_append, List.mem_map, List.mem_range, List.mem_singleton,
    LinkEnd.mk.injEq]
  constructor
  · rintro ⟨k, hk, q, hq, rfl, rfl⟩
    exact ⟨hk, hq⟩
  · rintro ⟨hk, hq⟩
    exact ⟨n, hk, p, hq, rfl, rfl⟩

theorem mem_allEnds_of_farEnd {code : Nat} {e f : LinkEnd} (h : farEnd code e = some f) : e ∈ allEnds := by
  rw [mem_allEnds]
  unfold farEnd at h
  dsimp only at h
  split at h
  next hhub =>
    split at h
    next hport => exact ⟨.inr hhub, hport⟩
    next => exact nomatch h
  next =>
    split at h
    next => exact nomatch h
    next hin => omega

/-- R25, R27, R28: the ends of a waveguide face each other: a site's end. -/
theorem farEnd_farEnd_site {code row col port : Nat} (hrow : row < 4) (hcol : col < 6) (hport : port < 24) :
    (farEnd code ⟨siteOf row col, port⟩).bind (farEnd code) = some ⟨siteOf row col, port⟩ := by
  rw [farEnd_site, if_neg (by omega)]
  have hself : ∀ r c, r % 4 = row → c % 6 = col → siteOf r c = siteOf row col := by
    intro r c hr hc
    unfold siteOf
    omega
  by_cases hnorth : port < 4
  · rw [if_pos hnorth]
    by_cases htop : row % 4 = 0
    · rw [if_pos htop, Option.bind_some, farEnd_hub (by omega)]
      unfold siteOf
      simp only [Option.some.injEq, LinkEnd.mk.injEq]
      omega
    · rw [if_neg htop, Option.bind_some, farEnd_site, if_neg (by omega), if_neg (by omega), if_neg (by omega),
        if_pos (by omega), if_neg (by omega)]
      exact siteEnd_eq (by omega) (hself _ _ (by omega) (by omega))
  rw [if_neg hnorth]
  by_cases heast : port < 8
  · rw [if_pos heast, Option.bind_some, farEnd_site, if_neg (by omega), if_neg (by omega), if_neg (by omega),
      if_neg (by omega), if_pos (by omega)]
    exact siteEnd_eq (by omega) (hself _ _ (by omega) (by omega))
  rw [if_neg heast]
  by_cases hsouth : port < 12
  · rw [if_pos hsouth]
    by_cases hbottom : row % 4 = 3
    · rw [if_pos hbottom, Option.bind_some, farEnd_site, if_neg (by omega), if_neg hnorth, if_neg heast, if_pos hsouth,
        if_pos (by omega)]
      exact siteEnd_eq rfl (hself _ _ (by omega) (by omega))
    · rw [if_neg hbottom, Option.bind_some, farEnd_site, if_neg (by omega), if_pos (by omega), if_neg (by omega)]
      exact siteEnd_eq (by omega) (hself _ _ (by omega) (by omega))
  rw [if_neg hsouth]
  by_cases hwest : port < 16
  · rw [if_pos hwest, Option.bind_some, farEnd_site, if_neg (by omega), if_neg (by omega), if_pos (by omega)]
    exact siteEnd_eq (by omega) (hself _ _ (by omega) (by omega))
  rw [if_neg hwest]
  dsimp only
  generalize hm : (port - 16) / 2 = m
  obtain ⟨hd1, hd2⟩ := displacement_le m (nbits code (2 * m + 1) (2 * m))
  by_cases heven : port % 2 = 0
  · have hpair : (port + 1 - 16) / 2 = m := by omega
    rw [if_pos heven, Option.bind_some, farEnd_site, if_neg (by omega), if_neg (by omega), if_neg (by omega),
      if_neg (by omega), if_neg (by omega)]
    dsimp only
    rw [if_neg (by omega), hpair]
    exact siteEnd_eq (by omega) (hself _ _ (by omega) (by omega))
  · have hpair : (port - 1 - 16) / 2 = m := by omega
    rw [if_neg heven, Option.bind_some, farEnd_site, if_neg (by omega), if_neg (by omega), if_neg (by omega),
      if_neg (by omega), if_neg (by omega)]
    dsimp only
    rw [if_pos (by omega), hpair]
    exact siteEnd_eq (by omega) (hself _ _ (by omega) (by omega))

/-- R25, R27: the hub's ends face ports of the top row. -/
theorem farEnd_farEnd_hub {code port : Nat} (hport : port < 24) :
    (farEnd code ⟨31, port⟩).bind (farEnd code) = some ⟨31, port⟩ := by
  have hsite : siteOf 0 (port / 4) = port / 4 := by unfold siteOf; omega
  rw [farEnd_hub hport, Option.bind_some, ← hsite, farEnd_site, if_neg (by omega), if_pos (by omega), if_pos rfl]
  simp only [Option.some.injEq, LinkEnd.mk.injEq, true_and]
  omega

/-- R25, R27, R28: the ends of a waveguide face each other. -/
theorem farEnd_symm {code : Nat} {e f : LinkEnd} (h : farEnd code e = some f) : farEnd code f = some e := by
  obtain ⟨n, p⟩ := e
  obtain ⟨hnode, hport⟩ : (n < 24 ∨ n = 31) ∧ p < 24 := (mem_allEnds _).1 (mem_allEnds_of_farEnd h)
  have hback : (farEnd code ⟨n, p⟩).bind (farEnd code) = some ⟨n, p⟩ := by
    rcases hnode with hsite | rfl
    · rw [← siteOf_self hsite]
      exact farEnd_farEnd_site (by omega) (by omega) hport
    · exact farEnd_farEnd_hub hport
  rwa [h, Option.bind_some] at hback

/-! ### The end at which a link is kept -/

theorem canonEnd_of_farEnd {code : Nat} {e f : LinkEnd} (h : farEnd code e = some f) :
    canonEnd code e = if f.node < e.node ∨ (f.node = e.node ∧ f.port < e.port) then f else e := by
  simp only [canonEnd, h]

/-- Both ends of a waveguide keep their link at the same end. -/
theorem canonEnd_farEnd {code : Nat} {e f : LinkEnd} (h : farEnd code e = some f) : canonEnd code f = canonEnd code e := by
  rw [canonEnd_of_farEnd h, canonEnd_of_farEnd (farEnd_symm h)]
  by_cases hlow : f.node < e.node ∨ (f.node = e.node ∧ f.port < e.port)
  · rw [if_pos hlow, if_neg (by omega)]
  · rw [if_neg hlow]
    by_cases hhigh : e.node < f.node ∨ (e.node = f.node ∧ e.port < f.port)
    · rw [if_pos hhigh]
    · rw [if_neg hhigh]
      obtain ⟨n, p⟩ := e
      obtain ⟨n', p'⟩ := f
      simp only [LinkEnd.mk.injEq] at hlow hhigh ⊢
      omega

theorem canonEnd_eq_or {code : Nat} {e f : LinkEnd} (h : farEnd code e = some f) :
    canonEnd code e = e ∨ canonEnd code e = f := by
  rw [canonEnd_of_farEnd h]
  split
  · exact .inr rfl
  · exact .inl rfl

theorem farEnd_of_joined {s : State} {e : LinkEnd} (h : joined s e = true) : ∃ f, farEnd (codeNow s) e = some f := by
  unfold joined at h
  split at h
  next f hf => exact ⟨f, hf⟩
  next => exact nomatch h

theorem joined_farEnd {s : State} {e f : LinkEnd} (h : farEnd (codeNow s) e = some f) : joined s f = joined s e := by
  simp only [joined, h, farEnd_symm h]
  exact Bool.and_comm ..

/-- R45: the end that keeps the link of a joined port is a joined port that keeps its own. -/
theorem canonEnd_joined {s : State} {e : LinkEnd} (h : joined s e = true) :
    canonEnd (codeNow s) e ∈ allEnds ∧ joined s (canonEnd (codeNow s) e) = true ∧
      canonEnd (codeNow s) (canonEnd (codeNow s) e) = canonEnd (codeNow s) e := by
  obtain ⟨f, hf⟩ := farEnd_of_joined h
  rcases canonEnd_eq_or hf with hc | hc
  · rw [hc]
    exact ⟨mem_allEnds_of_farEnd hf, h, hc⟩
  · rw [hc, joined_farEnd hf, canonEnd_farEnd hf, hc]
    exact ⟨mem_allEnds_of_farEnd (farEnd_symm hf), h, rfl⟩

/-! ### Training -/

/-- R45: a link comes up at full width and speed. -/
def trainLink (s : State) (e : LinkEnd) : State := modLink s e fun _ => fullLink s.hub.ns

/-- R79: without a link that fails, every link trains. -/
theorem trainAll_nil (s : State) :
    trainAll s [] = (allEnds.filter fun e => joined s e && canonEnd (codeNow s) e == e).foldl trainLink s := rfl

theorem linkUp_trainLink (s : State) (e x : LinkEnd) (h : canonEnd (codeNow s) e = canonEnd (codeNow s) x ∨ linkUp s x = true) :
    linkUp (trainLink s e) x = true := by
  unfold linkUp trainLink at *
  rw [linkAt_modLink]
  split
  next => rfl
  next hne => exact h.resolve_left hne

theorem linkUp_foldl_trainLink (l : List LinkEnd) (s : State) (x : LinkEnd)
    (h : (∃ e ∈ l, canonEnd (codeNow s) e = canonEnd (codeNow s) x) ∨ linkUp s x = true) :
    linkUp (l.foldl trainLink s) x = true := by
  induction l generalizing s with
  | nil =>
    rcases h with ⟨e, he, -⟩ | hup
    · exact nomatch he
    · exact hup
  | cons e l ih =>
    refine ih (trainLink s e) ?_
    rcases h with ⟨k, hk, hcanon⟩ | hup
    · rcases List.mem_cons.1 hk with rfl | hl
      · exact .inr (linkUp_trainLink s k x (.inl hcanon))
      · exact .inl ⟨k, hl, hcanon⟩
    · exact .inr (linkUp_trainLink s e x (.inr hup))

/-- R45, R79: every port whose waveguide joins two nodes of the unit comes up. -/
theorem linkUp_trainAll_nil {s : State} {e : LinkEnd} (h : joined s e = true) : linkUp (trainAll s []) e = true := by
  obtain ⟨hmem, hj, hcanon⟩ := canonEnd_joined h
  rw [trainAll_nil]
  exact linkUp_foldl_trainLink _ s e (.inl ⟨_, List.mem_filter.2 ⟨hmem, by simp [hj, hcanon]⟩, hcanon⟩)

end Sys2Proof.Machine
end

section
/-! R79: what the boot ROM and the anchor leave. -/

namespace Sys2Proof.Machine

open Sys2Proof

/-! ### Powering the islands -/

/-- R16, R79: the anchor has its key, and the islands their first power state and their clocks. -/
def poweredOn (s0 : State) : State :=
  let s := freshAttestation s0
  let is_ := (List.range 24).filter (present s0)
  { s with hub := { s.hub with
    boot := .running, image := s.hub.flash, service := true, clk := is_.map fun i => (i, 0)
    power := is_.map fun i => (i, firstPower), nextRound := s.hub.ns + 1000000 } }

/-- R119, R121: the lehr has scrubbed every island at a cold boot. -/
def scrubbedCold (s : State) : State := ((List.range 24).filter (present s)).foldl coldTokens (moveSteps (poweredOn s))

theorem anchorBoot_eq (s : State) (bad : List LinkEnd) :
    anchorBoot s bad =
      let u := trainAll (scrubbedCold s) bad
      publish (freshKey { u with
        par := { u.par with parts := [(0, systemPart (freshAttestation s))] }
        fab := { u.fab with ucieDown := u.fab.ucieDown.drop fun i => present (freshAttestation s) i } } 0) := rfl

/-- Everything but power states, tokens and links. -/
def State.unbooted (s : State) : State :=
  { s with
    par := { s.par with tokens := [], scrub := [] }
    fab := { s.fab with links := [] }
    hub := { s.hub with power := [] } }

theorem moveSteps_unbooted (s : State) : (moveSteps s).unbooted = s.unbooted :=
  congrArg (a₁ := (moveSteps s).unpowered) (a₂ := s.unpowered) State.unbooted (moveSteps_unpowered s)

theorem coldTokens_unbooted (s : State) (isl : Nat) : (coldTokens s isl).unbooted = s.unbooted :=
  foldl_keeps (writeToken ⟨isl, 0xFFF, 0xFFFFFF, 0, 0, 0⟩) State.unbooted (fun _ _ => rfl) _ s

theorem trainAll_unbooted (s : State) (bad : List LinkEnd) : (trainAll s bad).unbooted = s.unbooted := by
  refine foldl_keeps _ State.unbooted (fun s e => ?_) _ _
  rfl

theorem scrubbedCold_unbooted (s : State) : (scrubbedCold s).unbooted = (poweredOn s).unbooted :=
  (foldl_keeps coldTokens State.unbooted coldTokens_unbooted _ _).trans (moveSteps_unbooted _)

/-! ### Tokens -/

theorem mem_maskSlices_all (k : Nat) : k ∈ maskSlices 0xFFF ↔ k < 12 := by
  rw [show maskSlices 0xFFF = List.range 12 by decide, List.mem_range]

theorem token_writeToken (j : LehrJob) (s : State) (k : Nat) (x : Nat × Nat)
    (h : (j.isl, k) = x ∨ (s.par.tokens.get? x).isSome = true) :
    ((writeToken j s k).par.tokens.get? x).isSome = true := by
  show ((s.par.tokens.set (j.isl, k) _).get? x).isSome = true
  rw [Tbl.get?_set]
  split
  · rfl
  next hne => exact h.resolve_left hne

theorem token_foldl_writeToken (j : LehrJob) (l : List Nat) (s : State) (x : Nat × Nat)
    (h : (∃ k ∈ l, (j.isl, k) = x) ∨ (s.par.tokens.get? x).isSome = true) :
    ((l.foldl (writeToken j) s).par.tokens.get? x).isSome = true := by
  induction l generalizing s with
  | nil =>
    rcases h with ⟨k, hk, -⟩ | hs
    · exact nomatch hk
    · exact hs
  | cons k l ih =>
    rw [List.foldl_cons]
    refine ih (writeToken j s k) ?_
    rcases h with ⟨k', hk', hx⟩ | hs
    · rcases List.mem_cons.1 hk' with rfl | hl
      · exact .inr (token_writeToken j s k' x (.inl hx))
      · exact .inl ⟨k', hl, hx⟩
    · exact .inr (token_writeToken j s k x (.inr hs))

/-- R119, R121: a cold boot writes the token of every slice of an island. -/
theorem token_coldTokens (s : State) (isl i k : Nat) (hk : k < 12)
    (h : isl = i ∨ (s.par.tokens.get? (i, k)).isSome = true) :
    ((coldTokens s isl).par.tokens.get? (i, k)).isSome = true := by
  unfold coldTokens
  refine token_foldl_writeToken ⟨isl, 0xFFF, 0xFFFFFF, 0, 0, 0⟩ (maskSlices 0xFFF) s (i, k) (h.imp ?_ id)
  rintro rfl
  exact ⟨k, (mem_maskSlices_all k).2 hk, rfl⟩

theorem token_foldl_coldTokens (l : List Nat) (s : State) (i k : Nat) (hk : k < 12)
    (h : i ∈ l ∨ (s.par.tokens.get? (i, k)).isSome = true) :
    ((l.foldl coldTokens s).par.tokens.get? (i, k)).isSome = true := by
  induction l generalizing s with
  | nil => exact h.resolve_left (List.not_mem_nil)
  | cons i' l ih =>
    rw [List.foldl_cons]
    refine ih (coldTokens s i') ?_
    rcases h with hi | hs
    · rcases List.mem_cons.1 hi with rfl | hl
      · exact .inr (token_coldTokens s i i k hk (.inl rfl))
      · exact .inl hl
    · exact .inr (token_coldTokens s i' i k hk (.inr hs))

theorem trainAll_par (s : State) (bad : List LinkEnd) : (trainAll s bad).par = s.par := by
  refine foldl_keeps _ State.par (fun s e => ?_) _ _
  rfl

/-! ### The anchor -/

theorem getD_map_zero (l : List Nat) (i : Nat) : Tbl.getD (l.map fun k => (k, 0)) i 0 = 0 := by
  induction l with
  | nil => rfl
  | cons k l ih =>
    by_cases hk : k = i
    · simp [Tbl.getD, Tbl.get?, hk]
    · simpa [Tbl.getD, Tbl.get?, hk] using ih

/-- R79: the anchor's own state after a boot. -/
theorem anchorBoot_hub (s : State) (bad : List LinkEnd) :
    let t := anchorBoot s bad
    t.hub.boot = .running ∧ t.hub.service = true ∧ t.hub.noFlow = s.hub.noFlow ∧ t.hub.image = s.hub.flash ∧
      t.hub.nextRound = s.hub.ns + 1000000 ∧ ∀ i, t.clk i = 0 := by
  intro t
  have hhub : ({ t.hub with out := [], sends := [], power := [] } : HubSt) =
      { (poweredOn s).hub with out := [], sends := [], power := [] } :=
    congrArg (a₁ := (trainAll (scrubbedCold s) bad).unbooted) (a₂ := (poweredOn s).unbooted)
      (fun x : State => ({ x.hub with out := [], sends := [] } : HubSt))
      ((trainAll_unbooted _ _).trans (scrubbedCold_unbooted s))
  refine ⟨congrArg (·.boot) hhub, congrArg (·.service) hhub, congrArg (·.noFlow) hhub, congrArg (·.image) hhub,
    congrArg (·.nextRound) hhub, fun i => ?_⟩
  exact (congrArg (fun h : HubSt => h.clk.getD i 0) hhub).trans (getD_map_zero _ i)

/-- R84: partition 0 holds the panel. -/
theorem anchorBoot_part? (s : State) (bad : List LinkEnd) :
    (anchorBoot s bad).part? 0 = some (systemPart (freshAttestation s)) := by
  rw [anchorBoot_eq]
  generalize trainAll (scrubbedCold s) bad = u
  rfl

theorem anchorBoot_token (s : State) (bad : List LinkEnd) (i k : Nat) (hi : present s i = true) (hk : k < 12) :
    ((anchorBoot s bad).par.tokens.get? (i, k)).isSome = true := by
  have hlt : i < 24 := by
    unfold present at hi
    simp only [Bool.and_eq_true, decide_eq_true_eq] at hi
    exact hi.1
  have htok := token_foldl_coldTokens ((List.range 24).filter (present s)) (moveSteps (poweredOn s)) i k hk
    (.inl (List.mem_filter.2 ⟨List.mem_range.2 hlt, hi⟩))
  have hpar := trainAll_par (scrubbedCold s) bad
  rw [anchorBoot_eq]
  generalize trainAll (scrubbedCold s) bad = u at hpar
  show (u.par.tokens.get? (i, k)).isSome = true
  rw [hpar]
  exact htok

/-- R45, R79: every waveguide that joins two nodes of the unit is up after a boot at which none fails. -/
theorem anchorBoot_linkUp (s : State) (e : LinkEnd) (h : joined (anchorBoot s []) e = true) :
    linkUp (anchorBoot s []) e = true := by
  have hup : joined (scrubbedCold s) e = true → linkUp (trainAll (scrubbedCold s) []) e = true := linkUp_trainAll_nil
  have hjoined : joined (trainAll (scrubbedCold s) []) e = joined (scrubbedCold s) e :=
    congrArg (a₁ := (trainAll (scrubbedCold s) []).unbooted) (a₂ := (scrubbedCold s).unbooted)
      (fun x : State => joined x e) (trainAll_unbooted _ _)
  rw [anchorBoot_eq] at h ⊢
  rw [← hjoined] at hup
  generalize trainAll (scrubbedCold s) [] = u at h hup
  exact hup h

end Sys2Proof.Machine
end

section
/-! R21 to R24, R33, R78 to R82, R120: the events of boot, firmware, keys, attestation, tokens and settings. -/

namespace Sys2Proof.Machine

open Sys2Proof

/-! ### Boot -/

/-- R24: what a cold reset keeps, and what it leaves as at reset. -/
theorem coldState_keeps (s : State) (b : Boot) :
    let t := coldState s b
    t.hub.boot = b ∧ t.mem = State.reset.mem ∧ t.core = State.reset.core ∧ t.task = State.reset.task ∧
      t.eng = State.reset.eng ∧ t.unit = s.unit ∧ t.hub.flash = s.hub.flash ∧ t.hub.rollback = s.hub.rollback ∧
      t.par.parts = State.reset.par.parts ∧ t.par.scrub = s.par.scrub :=
  ⟨rfl, rfl, rfl, rfl, rfl, rfl, rfl, rfl, rfl, rfl⟩

/-- R79: the boot ROM has found an image that verifies. -/
def romVerified (s : State) : State := logLine (logLine s .romStarted) (.imageVerified s.hub.flash.version)

theorem bootRom_rejected {s : State} (bad : List LinkEnd) (h : verifies s s.hub.flash = false) :
    (bootRom s bad).hub.boot = .https ∧ (bootRom s bad).hub.nextRound = s.hub.ns := by
  rw [bootRom, h]
  exact ⟨rfl, rfl⟩

theorem bootRom_verified {s : State} (bad : List LinkEnd) (h : verifies s s.hub.flash = true) :
    bootRom s bad = startAnchor (romVerified s) bad := by
  rw [bootRom, h]
  rfl

theorem startAnchor_dry {s : State} (bad : List LinkEnd) (h : s.hub.noFlow = true) :
    (startAnchor s bad).hub.boot = .dry := by
  simp only [startAnchor, h, if_true, logLine]

theorem startAnchor_flows {s : State} (bad : List LinkEnd) (h : s.hub.noFlow = false) :
    startAnchor s bad = anchorBoot (logLine s (.anchorStarted s.hub.flash.version)) bad := by
  simp only [startAnchor, h, Bool.false_eq_true, if_false]

/-- R79, R84: what the boot ROM leaves where its image verifies and the coolant flows. -/
theorem bootRom_boots {s : State} (hv : verifies s s.hub.flash = true) (hflow : s.hub.noFlow = false) :
    let t := bootRom s []
    t.hub.boot = .running ∧ t.hub.service = true ∧ t.hub.image = s.hub.flash ∧ t.hub.nextRound = s.hub.ns + 1000000 ∧
      (t.part? 0).map (fun p => (p.islands, p.slices, p.dispw, p.fabw, p.roots)) =
        some (s.unit.popmask.toNat, 0xFFF, 16, 255, []) ∧
      (∀ i, present s i = true → t.clk i = 0 ∧ ∀ j, j < 12 → (t.par.tokens.get? (i, j)).isSome = true) ∧
      ∀ e ∈ allEnds, joined t e = true → linkUp t e = true := by
  intro t
  have ht : t = anchorBoot (logLine (romVerified s) (.anchorStarted s.hub.flash.version)) [] :=
    (bootRom_verified [] hv).trans (startAnchor_flows [] hflow)
  obtain ⟨hboot, hservice, -, himage, hround, hclk⟩ :=
    anchorBoot_hub (logLine (romVerified s) (.anchorStarted s.hub.flash.version)) []
  rw [ht]
  refine ⟨hboot, hservice, himage, hround, ?_, fun i hi => ⟨hclk i, fun j hj => anchorBoot_token _ _ i j hi hj⟩,
    fun e _ hj => anchorBoot_linkUp _ e hj⟩
  rw [anchorBoot_part?]
  rfl

theorem exec_resets {s : State} (h : s.hub.boot ≠ .off) :
    Occurs .resetIn s (bootRom (coldState s .rom) (badLinks s)) ∧
      Occurs .inputPowerLoss s { coldState s .off with hub := { (coldState s .off).hub with undervoltage := false } } := by
  unfold Occurs
  rw [exec_resetIn, exec_inputPowerLoss, execResetIn, execInputPowerLoss, if_neg h, if_neg h]
  exact ⟨rfl, rfl⟩

theorem exec_resets_off {s : State} (h : s.hub.boot = .off) :
    exec .resetIn s = .refused (.notEnabled "RESET_IN") ∧
      exec .inputPowerLoss s = .refused (.notEnabled "INPUT_POWER_LOSS") := by
  rw [exec_resetIn, exec_inputPowerLoss, execResetIn, execInputPowerLoss, if_pos h, if_pos h]
  exact ⟨rfl, rfl⟩

theorem coldBoot_occurs {s : State} (h : s.hub.boot = .off ∨ s.hub.boot = .rom) :
    Occurs .coldBoot s (bootRom (coldState s .rom) (badLinks s)) := by
  rw [Occurs, exec_coldBoot, execColdBoot, if_pos h]

theorem exec_httpsBootRetry_at {s : State} {i : Option Image} (hocc : s.occ = .image i) :
    exec .httpsBootRetry s = if s.hub.boot ≠ .https ∨ s.hub.ns < s.hub.nextRound then idle "HTTPS_BOOT_RETRY"
      else .next (commit s (match i.filter (verifies s) with
        | some x => startAnchor (logLine { s with hub := { s.hub with flash := x } } (.imageVerified x.version)) []
        | none => logLine { s with hub := { s.hub with nextRound := s.hub.ns + 30000000000 } } .imageRejected)) := by
  rw [exec_httpsBootRetry, execHttpsBootRetry, hocc] <;> rfl

/-- R79: an image that verifies starts the anchor. -/
theorem httpsBootRetry_starts {s : State} {img : Image} (hboot : s.hub.boot = .https) (hdue : s.hub.nextRound ≤ s.hub.ns)
    (hocc : s.occ = .image (some img)) (hv : verifies s img = true) :
    Occurs .httpsBootRetry s
      (startAnchor (logLine { s with hub := { s.hub with flash := img } } (.imageVerified img.version)) []) := by
  rw [Occurs, exec_httpsBootRetry_at hocc, if_neg (by simp [hboot, hdue]), Option.filter_some_pos hv]

/-- R79: where none verifies the next try is 30 s later. -/
theorem httpsBootRetry_waits {s : State} {img : Image} (hboot : s.hub.boot = .https) (hdue : s.hub.nextRound ≤ s.hub.ns)
    (hocc : s.occ = .image none ∨ s.occ = .image (some img) ∧ verifies s img = false) :
    Occurs .httpsBootRetry s
      (logLine { s with hub := { s.hub with nextRound := s.hub.ns + 30000000000 } } .imageRejected) := by
  rw [Occurs]
  rcases hocc with hocc | ⟨hocc, hv⟩
  · rw [exec_httpsBootRetry_at hocc, if_neg (by simp [hboot, hdue])]
    rfl
  · rw [exec_httpsBootRetry_at hocc, if_neg (by simp [hboot, hdue]), Option.filter_some_neg (by simp [hv])]

/-! ### Firmware -/

theorem firmwareUpdate_image {s : State} {x : Image} (hs : serviceUp s = true) (hocc : s.occ = .image (some x)) :
    Asked .firmwareUpdate s none (if verifies s x then { s with hub := { s.hub with flash := x } } else refuse s 8) := by
  refine asked_of_redfish ?_
  rw [exec_firmwareUpdate, execFirmwareUpdate, hocc]
  simp only [hs, Bool.not_true, Bool.false_eq_true, if_false]

/-- R80: an update that is interrupted leaves an image that does not verify. -/
theorem firmwareUpdate_interrupted {s : State} (hs : serviceUp s = true) (hocc : s.occ = .image none) :
    Asked .firmwareUpdate s none { s with hub := { s.hub with flash := ⟨0, false, 0⟩ } } := by
  refine asked_of_redfish ?_
  rw [exec_firmwareUpdate, execFirmwareUpdate, hocc]
  simp only [hs, Bool.not_true, Bool.false_eq_true, if_false]

theorem exec_serviceFirmware {s : State} :
    exec .serviceFirmwareStop s = (if serviceUp s then .next (commit s { s with hub := { s.hub with service := false } })
      else idle "SERVICE_FIRMWARE_STOP") ∧
    exec .serviceFirmwareRestarted s =
      (if anchorUp s && !s.hub.service then .next (commit s { s with hub := { s.hub with service := true } })
      else idle "SERVICE_FIRMWARE_RESTARTED") := by
  rw [exec_serviceFirmwareStop, exec_serviceFirmwareRestarted]
  exact ⟨rfl, rfl⟩

/-! ### Keys -/

theorem rekey_present {s : State} {n : Nat} {k : KeySlot} (hk : s.fab.keys.get? n = some k) :
    rekey s n = { s with fab := { s.fab with
      keys := s.fab.keys.set n ⟨!k.phase, s.fab.nextEpoch, some k.cur⟩, nextEpoch := s.fab.nextEpoch + 1
      pctr := s.fab.pctr.drop fun x => x.2 = n } } := by
  simp only [rekey, Tbl.getD, hk, Option.getD_some]

/-- R33: a slot takes a new key where no old one is accepted any more; else the old one can retire. -/
theorem exec_keyPhases {s : State} {n : Nat} {k : KeySlot} (hocc : s.occ = .slot n) (ha : anchorUp s = true)
    (hk : s.fab.keys.get? n = some k) :
    exec .keyPhaseChange s =
      (if k.old.isSome || decide (64 ≤ n) then idle "KEY_PHASE_CHANGE" else .next (commit s (rekey s n))) ∧
    exec .keyPhaseRetire s =
      (if k.old.isSome then
        .next (commit s { s with fab := { s.fab with keys := s.fab.keys.set n { k with old := none } } })
      else idle "KEY_PHASE_RETIRE") := by
  rw [exec_keyPhaseChange, exec_keyPhaseRetire, execKeyPhaseChange, execKeyPhaseRetire, hocc]
  simp only [hk, ha, Bool.not_true, Bool.false_or, Option.map_some, Option.getD_some, Bool.true_and, and_self]

/-! ### Attestation and tokens -/

theorem attestationRequest_asked {s : State} {part nonce : Nat} (hs : serviceUp s = true)
    (hocc : s.occ = .attest part nonce) :
    Asked .attestationRequest s (some part) (if (s.part? part).isSome then
      sendHost s (.redfish part 16 ((attestation s part nonce).map (·.toNat))) else refuse s 9) := by
  refine asked_of_redfish ?_
  rw [exec_attestationRequest, execAttestationRequest, hocc]
  simp only [hs, Bool.not_true, Bool.false_eq_true, if_false]

theorem tokenFetch_asked {s : State} {part isl slice : Nat} (hs : serviceUp s = true) (hocc : s.occ = .token part isl slice) :
    Asked .tokenFetch s (some part) (match s.par.tokens.get? (isl, slice) with
      | some t => if part = 0 ∨ part = t.partIn then
          sendHost s (.redfish part 17 ((tokenBytes isl t).map (·.toNat) ++ attCertificate s)) else refuse s 9
      | none => refuse s 9) := by
  refine asked_of_redfish ?_
  rw [exec_tokenFetch, execTokenFetch, hocc]
  simp only [hs, Bool.not_true, Bool.false_eq_true, if_false] <;> rfl

/-! ### Settings -/

theorem redfishSetting_asked {s : State} {which part v : Nat} (hs : serviceUp s = true) (hocc : s.occ = .setting which part v) :
    Asked .redfishSetting s none ((setting s which part v).getD (refuse s 10)) := by
  refine asked_of_redfish ?_
  rw [exec_redfishSetting, execRedfishSetting, hocc]
  simp only [hs, if_true]

theorem redfishRead_asked {s : State} {which v : Nat} (hs : serviceUp s = true) (hocc : s.occ = .redfishRead which v) :
    Asked .redfishSetting s (if which = 6 then some v else none)
      (((redfishRead s which v).map fun vs => sendHost s (.redfish 0 19 vs)).getD (refuse s 10)) := by
  refine asked_of_redfish ?_
  rw [exec_redfishSetting, execRedfishSetting, hocc]
  simp only [hs, if_true, readScope]
  cases redfishRead s which v <;> rfl

/-- R63: a setting of the hub within its range, and one that is refused. -/
theorem hub_setting {s : State} {which part v : Nat} {ok : Bool} {h : HubSt}
    (hset : setting s which part v = if ok then some { s with hub := h } else none) :
    (ok = true → setting s which part v = some { s with hub := h }) ∧ (ok = false → setting s which part v = none) := by
  rw [hset]
  constructor <;> rintro rfl <;> rfl

/-- R63: a setting of a partition other than partition 0. -/
theorem part_setting {s : State} {which part v : Nat} {ok : Bool} {P : Prop} {f : Part → Part} (hok : ok = true ↔ P)
    (hset : setting s which part v = if ok && part != 0 && (s.part? part).isSome then some (s.modPart part f) else none) :
    (P ∧ part ≠ 0 ∧ (s.part? part).isSome = true → setting s which part v = some (s.modPart part f)) ∧
      (¬ (P ∧ part ≠ 0 ∧ (s.part? part).isSome = true) → setting s which part v = none) := by
  have hall : (ok && part != 0 && (s.part? part).isSome) = true ↔ P ∧ part ≠ 0 ∧ (s.part? part).isSome = true := by
    rw [← hok]
    simp only [Bool.and_eq_true, bne_iff_ne, ne_eq, and_assoc]
  rw [hset]
  exact ⟨fun h => if_pos (hall.2 h), fun h => if_neg (mt hall.1 h)⟩

/-- R84: the capacities of a queue: the powers of two from 4,096 to 1,048,576. -/
theorem queueCap_iff (v : Nat) :
    ((List.range 9).any fun k => v == 2 ^ (k + 12)) = true ↔ ∃ j, 12 ≤ j ∧ j ≤ 20 ∧ v = 2 ^ j := by
  simp only [List.any_eq_true, List.mem_range, beq_iff_eq]
  constructor
  · rintro ⟨k, hk, rfl⟩
    exact ⟨k + 12, by omega, by omega, rfl⟩
  · rintro ⟨j, hlow, hhigh, rfl⟩
    exact ⟨j - 12, by omega, by rw [Nat.sub_add_cancel hlow]⟩

theorem setting_none_of_ge {s : State} {which : Nat} (part v : Nat) (h : 8 ≤ which) : setting s which part v = none := by
  obtain ⟨k, rfl⟩ := Nat.exists_eq_add_of_le' h
  rfl

end Sys2Proof.Machine
end

section
/-! O52: power, boot, firmware, keys, attestation and settings. -/

namespace Sys2Proof.Machine

open Sys2Proof

/-- Settles O52: every event of the platform leads where the spec says, for every state that meets its condition. -/
theorem platformEvents : Obligations.PlatformEvents := by
  unfold Obligations.PlatformEvents
  refine ⟨?power, ?management⟩
  case power =>
    intro s isl share demand hub pw rs fits stepOf
    refine ⟨?steps, bestStep_none isl share demand, ?round, ?early, ?shares, ?throttles, inputUndervoltage_gives,
      inputVoltageRecovery_gives, coolantFlowStop_gives, coolantFlowResume_gives, ?dry⟩
    case steps =>
      rintro ⟨k, hk⟩
      exact ⟨(bestStep_fits isl share demand k hk).1, fun x hx => (bestStep_fits isl share demand x hx).2⟩
    case round =>
      intro hocc ha hdue
      rw [Occurs, exec_budgetRound_at hocc, if_pos (by simp [ha, hdue])]
    case early =>
      intro hocc hearly
      rw [exec_budgetRound_at hocc, if_neg (by simp [hearly])]
      rfl
    case shares =>
      intro hn hp es x remain floors excess base got low u
      obtain ⟨hnext, hup, hdown⟩ := budgetRound_power s rs hub isl pw hn hp
      refine ⟨hnext, hup, fun h => ?_⟩
      obtain ⟨hkept, htelem⟩ := hdown h
      exact ⟨hkept, congrArg (Option.map (·.share)) htelem⟩
    case throttles =>
      intro hocc hp
      refine ⟨throttleLimit_gives hocc hp, throttleRecover_gives hocc hp, fun h => ?_⟩
      rw [(exec_throttles hocc hp).2, if_neg (by simp [h])]
      rfl
    case dry =>
      intro hflow hboot
      refine ⟨_, (exec_coolantFlowResume_at hflow).trans (by rw [if_pos hboot]), ?_⟩
      obtain ⟨hrun, hservice, hflows, -⟩ := anchorBoot_hub (moveSteps (coolantFlows s)) (badLinks s)
      exact ⟨hflows.trans (noFlow_of_unpowered (moveSteps_unpowered (coolantFlows s))), hrun, hservice⟩
  case management =>
    intro s n part nonce which isl slice v img k tk b svc hub mine
    refine ⟨coldState_keeps s b, ⟨bootRom_rejected [], fun hv hflow => ?_, bootRom_boots⟩, exec_resets, exec_resets_off,
      coldBoot_occurs, fun hboot hdue => ⟨httpsBootRetry_starts hboot hdue, httpsBootRetry_waits hboot hdue⟩, ?early,
      ?service, ?floor, ?cap, ?timer, ?block, ?refused, ?dispw, ?fabw, ?qcap, ?agei, ?stopped, ?restarted, ?keys⟩
    · rw [bootRom_verified [] hv]
      exact startAnchor_dry [] hflow
    case early =>
      intro h hocc
      rw [exec_httpsBootRetry_at hocc, if_pos h]
      rfl
    case service =>
      intro hs
      refine ⟨firmwareUpdate_image hs, firmwareUpdate_interrupted hs, ?_, fun hocc => ?_, fun hocc => ?_,
        redfishSetting_asked hs, redfishRead_asked hs⟩
      · rw [Occurs, exec_serviceFirmware.1, if_pos hs]
      · have h := attestationRequest_asked hs hocc
        exact ⟨fun hsome => by rwa [if_pos hsome] at h, fun hnone => by rwa [hnone] at h⟩
      · have h := tokenFetch_asked hs hocc
        refine ⟨fun htk hpart => ?_, fun htk hzero hother => ?_, fun hnone => ?_⟩
        · simpa only [htk, if_pos hpart] using h
        · simpa only [htk, hzero, hother, or_self, if_false] using h
        · simpa only [hnone] using h
    case floor =>
      rintro rfl hlow hhigh hpower
      exact (hub_setting rfl).1 (by simp [hlow, hhigh, hpower])
    case cap =>
      rintro rfl hv
      exact (hub_setting rfl).1 (by simp [hv])
    case timer =>
      rintro rfl hlow hhigh
      exact (hub_setting rfl).1 (by simp [hlow, hhigh])
    case block =>
      rintro rfl hv
      exact (hub_setting rfl).1 (by simpa using hv)
    case refused =>
      rintro (⟨rfl, h⟩ | ⟨rfl, h⟩ | ⟨rfl, h⟩ | ⟨rfl, h⟩ | h)
      · refine (hub_setting rfl).2 ?_
        simp only [Bool.and_eq_false_iff, decide_eq_false_iff_not]
        omega
      · exact (hub_setting rfl).2 (by simp [h])
      · refine (hub_setting rfl).2 ?_
        simp only [Bool.and_eq_false_iff, decide_eq_false_iff_not]
        omega
      · exact (hub_setting rfl).2 (by simpa using h)
      · exact setting_none_of_ge part v h
    case dispw =>
      rintro rfl
      exact part_setting (by simp) rfl
    case fabw =>
      rintro rfl
      exact part_setting (by simp) rfl
    case qcap =>
      rintro rfl
      exact part_setting (queueCap_iff v) rfl
    case agei =>
      rintro rfl
      simp only [setting, Bool.and_eq_true, decide_eq_true_eq, and_assoc]
    case stopped =>
      intro hs
      rw [exec_serviceFirmware.1, if_neg (by simp [hs])]
      rfl
    case restarted =>
      intro ha hs
      rw [Occurs, exec_serviceFirmware.2, if_pos (by simp [ha, hs])]
    case keys =>
      intro hocc ha hk
      obtain ⟨hchange, hretire⟩ := exec_keyPhases hocc ha hk
      refine ⟨fun hn hold => ?_, fun hold => ⟨?_, ?_⟩, fun hold => ?_⟩
      · rw [Occurs, hchange, if_neg (by simp [hold, hn]), rekey_present hk]
      · rw [hchange, if_pos (by simp [Option.isSome_iff_ne_none, hold])]
        rfl
      · rw [Occurs, hretire, if_pos (Option.isSome_iff_ne_none.2 hold)]
      · rw [hretire, if_neg (by simp [hold])]
        rfl

end Sys2Proof.Machine
end

section
/-! R44 to R46, R63: the events of a link end. -/

namespace Sys2Proof.Machine

open Sys2Proof

/-! ### Proposals and echoes -/

theorem linkAt_modLink_self (s : State) (e : LinkEnd) (f : Link → Link) : linkAt (modLink s e f) e = f (linkAt s e) := by
  rw [linkAt_modLink, if_pos rfl]

/-- R44: the widths of a link, the greatest first: the first that is low enough is the greatest of them. -/
theorem firstWidth_spec (most : Nat) :
    let w := ([8, 6, 4, 2].find? (· ≤ most)).getD 0
    w ≤ most ∧ w ∈ [0, 2, 4, 6, 8] ∧ ∀ v ∈ [2, 4, 6, 8], v ≤ most → v ≤ w := by
  intro w
  have hw : w = if 8 ≤ most then 8 else if 6 ≤ most then 6 else if 4 ≤ most then 4 else if 2 ≤ most then 2 else 0 := by
    simp only [w, List.find?_cons, List.find?_nil]
    repeat' split
    all_goals simp_all
  simp only [List.mem_cons, List.not_mem_nil, or_false, forall_eq_or_imp, forall_eq, hw]
  split_ifs <;> omega

/-- R44: what two proposals have in common. -/
theorem LinkCfg.meet_spec (a b : LinkCfg) :
    (a.meet b).lanes = a.lanes &&& b.lanes ∧ (a.meet b).speed = min a.speed b.speed ∧
      (a.meet b).width ≤ min a.width b.width ∧ (a.meet b).width ≤ lanesIn8 (a.lanes &&& b.lanes) ∧
      (a.meet b).width ∈ [0, 2, 4, 6, 8] ∧
      ∀ w ∈ [2, 4, 6, 8], w ≤ min a.width b.width → w ≤ lanesIn8 (a.lanes &&& b.lanes) → w ≤ (a.meet b).width := by
  obtain ⟨hle, hmem, hmost⟩ := firstWidth_spec (min (min a.width b.width) (lanesIn8 (a.lanes &&& b.lanes)))
  exact ⟨rfl, rfl, hle.trans (Nat.min_le_left ..), hle.trans (Nat.min_le_right ..), hmem,
    fun w hw hwidth hlanes => hmost w hw (Nat.le_min.2 ⟨hwidth, hlanes⟩)⟩

/-- R44: a proposal and an echo of an end change nothing of the other's. -/
theorem Link.heard_spec (k : Link) (near : Bool) (c : LinkCfg) :
    (k.heard true near c).prop near = some c ∧ (k.heard true near c).prop (!near) = k.prop (!near) ∧
      (k.heard false near c).echo near = (k.prop near).map (·.meet c) ∧
      (k.heard false near c).echo (!near) = k.echo (!near) := by
  cases near <;> exact ⟨rfl, rfl, rfl, rfl⟩

theorem Link.decided_of_echoes {k : Link} {a b : LinkCfg} (now : Nat) (ha : k.echo0 = some a) (hb : k.echo1 = some b) :
    k.decided now = if a ≠ b then { k with st := .mismatch, since := now }
      else if a.width = 0 then downLink now false else { k with st := .up, since := now, cfg := some a } := by
  simp only [Link.decided, ha, hb]

theorem Link.decided_undecided {k : Link} (now : Nat) (h : k.echo0 = none ∨ k.echo1 = none) : k.decided now = k := by
  unfold Link.decided
  split
  next ha hb => simp [ha, hb] at h
  next => rfl

/-! ### The events -/

theorem exec_linkTrainingStart_at {s : State} {e : LinkEnd} (hocc : s.occ = .link e) :
    exec .linkTrainingStart s = if anchorUp s && joined s e && (linkAt s e).st == .down && (linkAt s e).cause then
      .next (commit s (modLink s e (·.train s.hub.ns))) else idle "LINK_TRAINING_START" := by
  rw [exec_linkTrainingStart, execLinkTrainingStart, hocc]

theorem exec_thirdHandshakeTimer_at {s : State} {e : LinkEnd} (hocc : s.occ = .link e) :
    exec .thirdHandshakeTimer s = if (linkAt s e).st == .mismatch && (linkAt s e).since + 1000000 ≤ s.hub.ns then
      .next (commit s (modLink s e (·.restart s.hub.ns))) else idle "THIRD_HANDSHAKE_TIMER" := by
  rw [exec_thirdHandshakeTimer, execThirdHandshakeTimer, hocc]

theorem exec_trainReplyTimeout_at {s : State} {e : LinkEnd} (hocc : s.occ = .link e) :
    exec .trainReplyTimeout s = if (linkAt s e).st == .train && (linkAt s e).since + 10000000 ≤ s.hub.ns then
      .next (commit s (modLink s e fun _ => downLink s.hub.ns false)) else idle "TRAIN_REPLY_TIMEOUT" := by
  rw [exec_trainReplyTimeout, execTrainReplyTimeout, hocc]

theorem exec_linkDownRetryTimer_at {s : State} {e : LinkEnd} (hocc : s.occ = .link e) :
    exec .linkDownRetryTimer s =
      if anchorUp s && (linkAt s e).st == .down && !(linkAt s e).cause && (linkAt s e).since + 100000000 ≤ s.hub.ns &&
          eligible45 s e then
        .next (commit s (modLink s e (·.train s.hub.ns)))
      else idle "LINK_DOWN_RETRY_TIMER" := by
  rw [exec_linkDownRetryTimer, execLinkDownRetryTimer, hocc]

theorem exec_linkLoss_at {s : State} {e : LinkEnd} (hocc : s.occ = .link e) :
    exec .linkLoss s = if linkUp s e then
      .next (commit s (linkChanged (strandBoth (modLink s e (·.train s.hub.ns)) e))) else idle "LINK_LOSS" := by
  rw [exec_linkLoss, execLinkLoss, hocc]

/-- R63: system software forces a link whose waveguide joins two nodes of the unit. -/
theorem linkForce_asked {s : State} {e : LinkEnd} (hocc : s.occ = .link e) (hs : serviceUp s = true)
    (hj : joined s e = true) : Asked .linkForce s none (forceLink s e) := by
  refine asked_of_redfish ?_
  rw [exec_linkForce, execLinkForce, hocc]
  simp only [hs, hj, Bool.not_true, Bool.or_self, Bool.false_eq_true, if_false]

theorem exec_linkRelease_at {s : State} {e : LinkEnd} (hocc : s.occ = .link e) :
    exec .linkRelease s = if serviceUp s && (linkAt s e).st == .forced then
      redfish s none (modLink s e fun _ => downLink s.hub.ns true) else idle "LINK_RELEASE" := by
  rw [exec_linkRelease, execLinkRelease, hocc]

theorem exec_trainingHandshake_at {s : State} {e : LinkEnd} {first : Bool} {c : LinkCfg}
    (hocc : s.occ = .handshake e first c) (hj : joined s e = true) :
    exec .trainingHandshake s =
      let near := canonEnd (codeNow s) e == e
      let s1 := modLink s e fun l => (l.heard first near c).decided s.hub.ns
      if handshakeOk (linkAt s e) first near c then .next (commit s (if linkUp s1 e then linkChanged s1 else s1))
      else idle "TRAINING_HANDSHAKE" := by
  rw [exec_trainingHandshake, execTrainingHandshake, hocc]
  cases hok : handshakeOk (linkAt s e) first (canonEnd (codeNow s) e == e) c <;> simp [hj, hok]

theorem forceLink_down {s : State} {e : LinkEnd} (h : linkUp s e = false) :
    linkAt (forceLink s e) e = { downLink s.hub.ns false with st := .forced } := by
  rw [forceLink, if_neg (by simp [h]), linkAt_modLink_self]

theorem forceLink_up {s : State} {e : LinkEnd} (h : linkUp s e = true) :
    forceLink s e =
      linkChanged (strandBoth (modLink s e fun _ => { downLink s.hub.ns false with st := .forced }) e) := by
  rw [forceLink, if_pos h]

/-- Settles O48, event by event: each takes place where its conditions hold, and is refused where one of them fails. -/
theorem linkEvents : Obligations.LinkEvents := by
  unfold Obligations.LinkEvents
  intro s e first c
  dsimp only
  refine ⟨linkAt_modLink_self s e, LinkCfg.meet_spec, fun k near => k.heard_spec near c, fun k now a b ha hb => ?_,
    fun k now h => Link.decided_undecided now h, fun hocc => ?_, fun hocc hj => ?_⟩
  · rw [Link.decided_of_echoes now ha hb]
    exact ⟨fun h => if_pos h, fun h hw => by rw [if_neg (not_not.2 h), if_pos hw],
      fun h hw => by rw [if_neg (not_not.2 h), if_neg hw]⟩
  · refine ⟨fun ha hj hst hcause => ?_, fun h => ?_, fun hst hdue => ?_, fun h => ?_, fun hst hdue => ?_, fun h => ?_,
      fun ha hst hcause hel hdue => ?_, fun h => ?_, fun hup => ?_, fun hup => ?_, fun hs hj => ?_, fun hs hst => ?_,
      fun hst => ?_⟩
    · exact (exec_linkTrainingStart_at hocc).trans (if_pos (by simp [ha, hj, hst, hcause]))
    · refine (exec_linkTrainingStart_at hocc).trans (if_neg ?_)
      rcases h with h | h <;> simp +contextual [h]
    · exact (exec_thirdHandshakeTimer_at hocc).trans (if_pos (by simp [hst, hdue]))
    · refine (exec_thirdHandshakeTimer_at hocc).trans (if_neg ?_)
      rcases h with h | h <;> simp +contextual [h]
    · exact (exec_trainReplyTimeout_at hocc).trans (if_pos (by simp [hst, hdue]))
    · refine (exec_trainReplyTimeout_at hocc).trans (if_neg ?_)
      rcases h with h | h <;> simp +contextual [h]
    · exact (exec_linkDownRetryTimer_at hocc).trans (if_pos (by simp [ha, hst, hcause, hel, hdue]))
    · refine (exec_linkDownRetryTimer_at hocc).trans (if_neg ?_)
      rcases h with h | h | h <;> simp +contextual [h]
    · exact (exec_linkLoss_at hocc).trans (if_pos hup)
    · exact (exec_linkLoss_at hocc).trans (if_neg (by simp [hup]))
    · exact ⟨linkForce_asked hocc hs hj, forceLink_down, forceLink_up⟩
    · exact asked_of_redfish ((exec_linkRelease_at hocc).trans (if_pos (by simp [hs, hst])))
    · exact (exec_linkRelease_at hocc).trans (if_neg (by simp [hst]))
  · have hx := exec_trainingHandshake_at hocc hj
    exact ⟨fun hok => hx.trans (if_pos hok), fun hok => hx.trans (if_neg (by simp [hok]))⟩

end Sys2Proof.Machine
end

section
/-! R33, R39: what a packet that answers another is, and what it leaves of the fabric. -/

namespace Sys2Proof.Machine

open Sys2Proof

/-- R33: sealing touches the keys and the source's counter, and of the packet its counter, phase and epoch. -/
theorem sealPacket_shape (s : State) (p : Packet) : ∃ keys epoch pctr n ph e,
    sealPacket s p = ({ s with fab := { s.fab with keys := keys, nextEpoch := epoch, pctr := pctr } },
      { p with pctr := n, kph := ph, epoch := e }) := by
  unfold sealPacket
  dsimp only
  split
  · exact ⟨_, _, _, _, _, _, rfl⟩
  · exact ⟨_, _, _, _, _, _, rfl⟩

/-- R33, R39: a new packet that a node sends in answer to another. -/
structure IsAnswer (u : State) (node : Nat) (p : Packet) (op : PktOp) (bs : List Byte) (st : Nat) (x : Packet) : Prop where
  named : (x.id, x.op, x.dest, x.src, x.tag, x.kslot) = (u.fab.nextPkt, op, p.src, node, p.tag, p.kslot)
  carries : (x.payload, x.status, x.ofReply, x.hidx, x.och, x.part) = (bs, st, !p.op.request, 0, none, none)
  place : x.place = .queue node (if node = p.src then ownPort else 24)

theorem answer_unreached {u : State} {node : Nat} {p : Packet} (op : PktOp) (bs : List Byte) (st : Nat)
    (h : node ≠ p.src ∧ reaches u node p.src = false) : answer u node p op bs st = u := by
  unfold answer
  exact if_pos ⟨h.1, by simp [h.2]⟩

/-- R33, R39: an answer that goes is one packet more; it touches nothing else but keys and counters. -/
theorem answer_reached {u : State} {node : Nat} {p : Packet} (op : PktOp) (bs : List Byte) (st : Nat)
    (h : node = p.src ∨ reaches u node p.src = true) : ∃ keys epoch pctr x, IsAnswer u node p op bs st x ∧
      answer u node p op bs st = { u with fab := { u.fab with
        keys := keys, nextEpoch := epoch, pctr := pctr, nextPkt := u.fab.nextPkt + 1
        pkts := u.fab.pkts.filter (·.id ≠ u.fab.nextPkt) ++ [x] } } := by
  have hgo : ¬ (node ≠ p.src ∧ (!reaches u node p.src) = true) := by
    rintro ⟨hne, hr⟩
    exact h.elim hne fun hr' => by simp [hr'] at hr
  unfold answer
  dsimp only
  rw [if_neg hgo]
  obtain ⟨keys, epoch, pctr, n, ph, e, hseal⟩ := sealPacket_shape u { p with
    id := u.fab.nextPkt, op := op, route := [], hidx := 0, dest := p.src, src := node, och := none, chseq := 0,
    len := op.replyLen p, payload := bs, part := none, count := 0, status := st, ofReply := !p.op.request,
    gen := u.fab.topogen % 65536 }
  rw [hseal]
  exact ⟨keys, epoch, pctr, _, ⟨rfl, rfl, rfl⟩, rfl⟩

/-- An answer leaves memory and the channels' order as they are, and adds no packet of a channel. -/
theorem answer_leaves (u : State) (node : Nat) (p : Packet) (op : PktOp) (bs : List Byte) (st : Nat) :
    (answer u node p op bs st).mem = u.mem ∧ (answer u node p op bs st).fab.expect = u.fab.expect ∧
      ∀ q ∈ (answer u node p op bs st).fab.pkts, q ∈ u.fab.pkts ∨ q.och = none := by
  by_cases h : node ≠ p.src ∧ reaches u node p.src = false
  · rw [answer_unreached op bs st h]
    exact ⟨rfl, rfl, fun q hq => .inl hq⟩
  · obtain ⟨keys, epoch, pctr, x, hx, heq⟩ := answer_reached (u := u) (p := p) op bs st
      (by simpa [or_iff_not_imp_left] using h)
    rw [heq]
    refine ⟨rfl, rfl, fun q hq => ?_⟩
    rcases List.mem_append.1 hq with hold | hnew
    · exact .inl (List.mem_filter.1 hold).1
    · obtain rfl := List.mem_singleton.1 hnew
      have hc := hx.carries
      simp only [Prod.mk.injEq] at hc
      exact .inr hc.2.2.2.2.1

theorem dropPacket_pkt?_self (s : State) (id : Nat) : (dropPacket s id).pkt? id = none := by
  simp [State.pkt?, dropPacket]

/-! ### A reset of a channel -/

theorem reject_leaves (s : State) (node : Nat) (p : Packet) (st : FStatus) :
    ∀ q ∈ (reject s node p st).fab.pkts, (q ∈ s.fab.pkts ∧ q.id ≠ p.id) ∨ q.och = none := by
  intro q hq
  refine ((answer_leaves (dropPacket s p.id) node p .error [] st.code).2.2 q hq).imp_left fun h => ?_
  obtain ⟨hmem, hid⟩ := List.mem_filter.1 h
  exact ⟨hmem, by simpa using hid⟩

theorem foldl_reject_leaves (l : List Packet) (s : State) :
    ∀ q ∈ (l.foldl (fun s q => reject s q.dest q .drained) s).fab.pkts,
      (q ∈ s.fab.pkts ∧ ∀ x ∈ l, q.id ≠ x.id) ∨ q.och = none := by
  induction l generalizing s with
  | nil => exact fun q hq => .inl ⟨hq, fun x hx => nomatch hx⟩
  | cons x l ih =>
    intro q hq
    rcases ih (reject s x.dest x .drained) q hq with ⟨hmem, hl⟩ | hnone
    · exact (reject_leaves s x.dest x .drained q hmem).imp_left fun h =>
        ⟨h.1, List.forall_mem_cons.2 ⟨h.2, hl⟩⟩
    · exact .inr hnone

/-- R41: after a reset the channel's order begins at 1, and no packet of the channel is held. -/
theorem serveReset_leaves (s : State) (p : Packet) (ch : Nat) (hch : p.och = some ch) :
    (serveReset s p).fab.expect.get? (orderKey p ch) = some 1 ∧
      ∀ q ∈ (serveReset s p).fab.pkts, q.och = some ch → orderKey q ch = orderKey p ch → ∀ h, q.place ≠ .held h := by
  unfold serveReset
  rw [hch]
  dsimp only
  refine ⟨?_, fun q hq hq_ch hkey h hheld => ?_⟩
  · rw [(answer_leaves ..).2.1]
    exact Tbl.get?_set_self ..
  · rcases (answer_leaves ..).2.2 q hq with hmem | hnone
    · rcases foldl_reject_leaves _ _ q hmem with ⟨hs, hl⟩ | hnone
      · exact hl q (List.mem_filter.2 ⟨hs, by simp [hq_ch, hkey, hheld]⟩) rfl
      · simp [hq_ch] at hnone
    · simp [hq_ch] at hnone

end Sys2Proof.Machine
end

section
/-! R33, R40, R41, R53: a request at its destination. -/

namespace Sys2Proof.Machine

open Sys2Proof

/-! ### The checks -/

/-- R33, R53: what comes before the service of a request: it has arrived and is taken in, its topology is not too old, and
its key is held. -/
def requestGate (s : State) (p : Packet) (op : PktOp) (m : String) (rest : Out) : Out :=
  if p.op ≠ op ∨ !arrived s p ∨ !takesIn s p then idle m
  else if tooOld s p then .next (commit s (reject s p.dest p .drained))
  else if !authentic s p then .next (commit s (reject s p.dest p .auth))
  else rest

/-- R40: a request that comes before its turn is held, if it is not held already. -/
def holdBack (s : State) (p : Packet) (m : String) : Out :=
  match p.place with
  | .held _ => idle m
  | _ => .next (commit s (setPacket s { p with place := .held s.hub.ns, blocked := none, timedOut := false }))

theorem holdBack_held {s : State} {p : Packet} {t : Nat} (m : String) (h : p.place = .held t) : holdBack s p m = idle m := by
  simp only [holdBack, h]

theorem holdBack_fresh {s : State} {p : Packet} (m : String) (h : ∀ t, p.place ≠ .held t) :
    holdBack s p m =
      .next (commit s (setPacket s { p with place := .held s.hub.ns, blocked := none, timedOut := false })) := by
  unfold holdBack
  split
  next t ht => exact absurd ht (h t)
  next => rfl

theorem requestGate_shut {s : State} {p : Packet} {op : PktOp} (m : String) (rest : Out)
    (h : p.op ≠ op ∨ arrived s p = false ∨ takesIn s p = false) : requestGate s p op m rest = idle m :=
  if_pos (by simpa using h)

theorem requestGate_taken {s : State} {p : Packet} {op : PktOp} (m : String) (rest : Out) (hop : p.op = op)
    (ha : arrived s p = true) (ht : takesIn s p = true) :
    requestGate s p op m rest =
      if tooOld s p then .next (commit s (reject s p.dest p .drained))
      else if !authentic s p then .next (commit s (reject s p.dest p .auth)) else rest :=
  if_neg (by simp [hop, ha, ht])

/-- R33: a request that is received is served after it has left the fabric and used its place. -/
def atService (s : State) (p : Packet) : State := dropPacket (usePlace s p) p.id

theorem reqEvent_eq_gate {s : State} {p : Packet} (m : String) (op : PktOp) (piece : State → Packet → Option State)
    (serve : State → Packet → State) (hp : occPacket s = some p) :
    reqEvent s m op piece serve = requestGate s p op m (if inTurn s p then
      .next (commit s ((piece s p).getD (serve (atService s p) p))) else holdBack s p m) := by
  unfold reqEvent receiveReq requestGate holdBack
  rw [hp]
  dsimp only
  by_cases hshut : p.op ≠ op ∨ (!arrived s p) = true ∨ (!takesIn s p) = true
  · simp only [if_pos hshut]
  simp only [if_neg hshut]
  by_cases hold : tooOld s p = true
  · simp only [if_pos hold]
  simp only [if_neg hold]
  by_cases hkey : (!authentic s p) = true
  · simp only [if_pos hkey]
  simp only [if_neg hkey]
  by_cases hturn : inTurn s p = true
  · simp only [if_pos hturn]
    cases piece s p <;> rfl
  simp only [if_neg hturn]
  cases p.place <;> rfl

theorem exec_ochReset_eq_gate {s : State} {p : Packet} (hp : occPacket s = some p) :
    exec .ochReset s =
      requestGate s p .ochReset "OCH_RESET" (.next (commit s (serveReset (dropPacket s p.id) p))) := by
  rw [exec_ochReset, execOchReset, hp]
  rfl

/-- The events of requests, with their packets and names. -/
def requestEvents : List (PktOp × Instr × String) :=
  [(.put, .putPacket, "PUT_PACKET"), (.getReq, .getReq, "GET_REQ"), (.ratom, .ratomPacket, "RATOM_PACKET"),
    (.rred, .rredPacket, "RRED_PACKET"), (.notify, .notifyPacket, "NOTIFY_PACKET"), (.ochReset, .ochReset, "OCH_RESET")]

/-- R40, R41: every request passes the same checks, and all but a reset wait for their turn. -/
theorem exec_request_gate {s : State} {p : Packet} {op : PktOp} {i : Instr} {m : String}
    (h : (op, i, m) ∈ requestEvents) (hp : occPacket s = some p) :
    ∃ rest, exec i s = requestGate s p op m rest ∧ (op ≠ .ochReset → inTurn s p = false → rest = holdBack s p m) := by
  have held (piece serve) (hx : exec i s = reqEvent s m op piece serve) : ∃ rest, exec i s = requestGate s p op m rest ∧
      (op ≠ .ochReset → inTurn s p = false → rest = holdBack s p m) :=
    ⟨_, hx.trans (reqEvent_eq_gate m op piece serve hp), fun _ hturn => if_neg (by simp [hturn])⟩
  simp only [requestEvents, List.mem_cons, List.not_mem_nil, or_false, Prod.mk.injEq] at h
  rcases h with ⟨rfl, rfl, rfl⟩ | ⟨rfl, rfl, rfl⟩ | ⟨rfl, rfl, rfl⟩ | ⟨rfl, rfl, rfl⟩ | ⟨rfl, rfl, rfl⟩ | ⟨rfl, rfl, rfl⟩
  · exact held _ _ (exec_putPacket s)
  · exact held _ _ (exec_getReq s)
  · exact held _ _ (exec_ratomPacket s)
  · exact held _ _ (exec_rredPacket s)
  · exact held _ _ (exec_notifyPacket s)
  · exact ⟨_, exec_ochReset_eq_gate hp, fun hne => absurd rfl hne⟩

theorem reqEvent_received {s : State} {p : Packet} {op : PktOp} (m : String) {piece : State → Packet → Option State}
    (serve : State → Packet → State) (h : Received s op p) (hpiece : piece s p = none) :
    reqEvent s m op piece serve = .next (commit s (serve (atService s p) p)) := by
  rw [reqEvent_eq_gate m op piece serve h.named, requestGate_taken m _ h.kind h.here h.taken]
  simp [h.fresh, h.key, h.turn, hpiece]

/-! ### The service -/

/-- R265: the event that serves a whole packet leaves no bytes of it. -/
theorem pieceOf_packet {s : State} {id : Nat} (h : s.occ = .packet id) (a rest : Nat) : pieceOf s a rest = none := by
  simp only [pieceOf, h]

theorem Packet.served_whole {p : Packet} (h : p.part = none) (s : State) (acc : Acc) :
    p.served s acc = (p.access s (p.bcnt + 1) acc (acc == .read)).map fun pa => (0, pa) := by
  simp only [Packet.served, h]

theorem putPiece_whole {s : State} {id : Nat} (h : s.occ = .packet id) (p : Packet) : putPiece s p = none := by
  unfold putPiece
  split
  · rfl
  · rw [pieceOf_packet h]
    rfl

theorem getPiece_whole {s : State} {id : Nat} (h : s.occ = .packet id) (p : Packet) : getPiece s p = none := by
  unfold getPiece
  split
  · rfl
  · rw [pieceOf_packet h]

/-- R34, R101: a request whose access fails: the walk is reported where R91 asks for it, and the status is answered. -/
def serveFailed (s : State) (p : Packet) (e : XErr) : State :=
  answer (e.note s p.dest p.kslot) p.dest p .error [] e.fstatus.code

theorem servePut_ok {s : State} {p : Packet} {pa : Nat} (h : p.part = none)
    (ha : p.access s (p.bcnt + 1) .write false = .ok pa) :
    servePut s p = answer (bypassBank s p.dest none pa p.payload) p.dest p .putAck [] 0 := by
  have hserved : p.served s .write = .ok (0, pa) := by rw [p.served_whole h]; exact congrArg _ ha
  simp [servePut, hserved]

theorem servePut_error {s : State} {p : Packet} {e : XErr} (h : p.part = none)
    (ha : p.access s (p.bcnt + 1) .write false = .error e) : servePut s p = serveFailed s p e := by
  have hserved : p.served s .write = .error e := by rw [p.served_whole h]; exact congrArg _ ha
  simp only [servePut, hserved, serveFailed]

theorem serveGet_ok {s : State} {p : Packet} {pa : Nat} (h : p.part = none) (hbare : p.payload = [])
    (ha : p.access s (p.bcnt + 1) .read true = .ok pa) (hclean : s.mem.poisonedAt p.dest pa (p.bcnt + 1) = none) :
    serveGet s p = answer s p.dest p .getData (s.mem.bytes p.dest pa (p.bcnt + 1)) 0 := by
  have hserved : p.served s .read = .ok (0, pa) := by rw [p.served_whole h]; exact congrArg _ ha
  simp [serveGet, hserved, hclean, hbare]

theorem serveGet_error {s : State} {p : Packet} {e : XErr} (h : p.part = none)
    (ha : p.access s (p.bcnt + 1) .read true = .error e) : serveGet s p = serveFailed s p e := by
  have hserved : p.served s .read = .error e := by rw [p.served_whole h]; exact congrArg _ ha
  simp only [serveGet, hserved, serveFailed]

theorem serveAtomic_ok {s : State} {p : Packet} {pa : Nat} (reply : PktOp)
    (ha : p.access s (p.bcnt + 1) .atomic true = .ok pa) :
    let old := w64 (s.mem.nat p.dest pa (p.bcnt + 1))
    serveAtomic s p reply =
      answer (bypassBank s p.dest none pa (leBytes (p.bcnt + 1) (remoteStep p.payload old).toNat)) p.dest p reply
        (if reply = .ratomRes then leBytes 8 old.toNat else []) 0 := by
  simp only [serveAtomic, ha]

theorem serveAtomic_error {s : State} {p : Packet} {e : XErr} (reply : PktOp)
    (ha : p.access s (p.bcnt + 1) .atomic true = .error e) : serveAtomic s p reply = serveFailed s p e := by
  simp only [serveAtomic, ha, serveFailed]

theorem serveNotify_ok {s : State} {p : Packet} {pa : Nat} (ha : p.access s 8 .atomic false = .ok pa) :
    let r := joinDecrement s p.dest p.kslot p.addr pa p.count
    serveNotify s p =
      if r.2 then answer r.1 p.dest p .notifyAck [] 0 else answer s p.dest p .error [] FStatus.poison.code := by
  simp only [serveNotify, ha]

theorem serveNotify_error {s : State} {p : Packet} {e : XErr} (ha : p.access s 8 .atomic false = .error e) :
    serveNotify s p = serveFailed s p e := by
  simp only [serveNotify, ha, serveFailed]

/-! ### The events -/

theorem Occurs.of_eq {i : Instr} {s t u : State} (h : Occurs i s t) (he : t = u) : Occurs i s u := he ▸ h

theorem putPacket_served {s : State} {p : Packet} (h : Received s .put p) (hw : ∃ id, s.occ = .packet id) :
    Occurs .putPacket s (servePut (atService s p) p) := by
  obtain ⟨id, hocc⟩ := hw
  exact (exec_putPacket s).trans (reqEvent_received _ servePut h (putPiece_whole hocc p))

theorem getReq_served {s : State} {p : Packet} (h : Received s .getReq p) (hw : ∃ id, s.occ = .packet id) :
    Occurs .getReq s (serveGet (atService s p) p) := by
  obtain ⟨id, hocc⟩ := hw
  exact (exec_getReq s).trans (reqEvent_received _ serveGet h (getPiece_whole hocc p))

theorem ratomPacket_served {s : State} {p : Packet} (h : Received s .ratom p) :
    Occurs .ratomPacket s (serveAtomic (atService s p) p .ratomRes) :=
  (exec_ratomPacket s).trans (reqEvent_received _ (fun s p => serveAtomic s p .ratomRes) h rfl)

theorem rredPacket_served {s : State} {p : Packet} (h : Received s .rred p) :
    Occurs .rredPacket s (serveAtomic (atService s p) p .rredAck) :=
  (exec_rredPacket s).trans (reqEvent_received _ (fun s p => serveAtomic s p .rredAck) h rfl)

theorem notifyPacket_served {s : State} {p : Packet} (h : Received s .notify p) :
    Occurs .notifyPacket s (serveNotify (atService s p) p) :=
  (exec_notifyPacket s).trans (reqEvent_received _ serveNotify h rfl)

/-- R41: a reset is applied on arrival, whatever the order of its channel. -/
theorem ochReset_served {s : State} {p : Packet} (hp : occPacket s = some p) (hop : p.op = .ochReset)
    (ha : arrived s p = true) (ht : takesIn s p = true) (hfresh : tooOld s p = false) (hkey : authentic s p = true) :
    Occurs .ochReset s (serveReset (dropPacket s p.id) p) := by
  rw [Occurs, exec_ochReset_eq_gate hp, requestGate_taken _ _ hop ha ht]
  simp [hfresh, hkey]

theorem exec_heldPacketTimeout_at {s : State} {p : Packet} {t : Nat} (hp : occPacket s = some p) (hheld : p.place = .held t) :
    exec .heldPacketTimeout s = if p.src ≠ p.dest ∧ t + 10000000 ≤ s.hub.ns then
      .next (commit s (reject s p.dest p .drained)) else idle "HELD_PACKET_TIMEOUT" := by
  rw [exec_heldPacketTimeout, execHeldPacketTimeout, hp]
  simp only [hheld]

theorem wrote_bypassBank (u : State) (isl : Nat) (core : Option Nat) (pa : Nat) (bs : List Byte)
    (h : pa + bs.length ≤ 2 ^ 39) : Wrote u (bypassBank u isl core pa bs) isl pa bs := by
  obtain ⟨hkept, hbytes⟩ := bypassBank_kept u isl core pa bs h
  exact ⟨hbytes, hkept.spad, hkept.acc⟩

end Sys2Proof.Machine
end

section
/-! The statement of the requests of the fabric. -/

namespace Sys2Proof.Machine

open Sys2Proof

/-- Settles O46: the answer itself, the service of each kind of request, and the checks that all of them pass. -/
theorem requestsServed : Obligations.RequestsServed := by
  unfold Obligations.RequestsServed
  intro s p m s1 bad n whole comes
  refine ⟨wrote_bypassBank, fun u node op bs st => ?answer, fun u node st => ⟨rfl, dropPacket_pkt?_self u p.id⟩,
    fun h hw => ?put, fun h hw hbare => ?get, ?atomic, fun h => ?notify, fun h hfresh hkey => ?reset,
    fun t hp hheld hfar => ?timeout, fun op i hmem => ?checks⟩
  case answer =>
    refine ⟨answer_unreached op bs st, fun h => ?_⟩
    obtain ⟨keys, epoch, pctr, x, hx, heq⟩ := answer_reached (u := u) (p := p) op bs st h
    rw [heq]
    exact ⟨rfl, fun y hy hid => List.mem_append_left _ (List.mem_filter.2 ⟨hy, by simpa using hid⟩),
      x, List.mem_append_right _ (List.mem_singleton_self x), hx.named, hx.carries, hx.place⟩
  case put =>
    obtain ⟨hocc, hpart⟩ := hw
    have hx := putPacket_served h hocc
    exact ⟨fun pa ha => hx.of_eq (servePut_ok hpart ha), fun e he => hx.of_eq (servePut_error hpart he)⟩
  case get =>
    obtain ⟨hocc, hpart⟩ := hw
    have hx := getReq_served h hocc
    exact ⟨fun pa ha hclean => hx.of_eq (serveGet_ok hpart hbare ha hclean), fun e he => hx.of_eq (serveGet_error hpart he)⟩
  case atomic =>
    intro op i hmem h
    simp only [List.mem_cons, List.not_mem_nil, or_false, Prod.mk.injEq] at hmem
    rcases hmem with ⟨rfl, rfl⟩ | ⟨rfl, rfl⟩
    · have hx := ratomPacket_served h
      exact ⟨fun pa ha => hx.of_eq (serveAtomic_ok .ratomRes ha), fun e he => hx.of_eq (serveAtomic_error .ratomRes he)⟩
    · have hx := rredPacket_served h
      exact ⟨fun pa ha => hx.of_eq (serveAtomic_ok .rredAck ha), fun e he => hx.of_eq (serveAtomic_error .rredAck he)⟩
  case notify =>
    have hx := notifyPacket_served h
    exact ⟨fun pa ha => hx.of_eq (serveNotify_ok ha), fun e he => hx.of_eq (serveNotify_error he)⟩
  case reset =>
    obtain ⟨hp, hop, ha, ht⟩ := h
    have hx := ochReset_served hp hop ha ht hfresh hkey
    exact ⟨hx, fun ch hch => ⟨_, hx, serveReset_leaves _ p ch hch⟩⟩
  case timeout =>
    have hx := exec_heldPacketTimeout_at hp hheld
    exact ⟨fun hdue => hx.trans (if_pos ⟨hfar, hdue⟩), fun hearly => hx.trans (if_neg fun h => by omega)⟩
  case checks =>
    refine ⟨fun hp hshut => ?_, fun h => ?_⟩
    · obtain ⟨rest, hx, -⟩ := exec_request_gate hmem hp
      exact hx.trans (requestGate_shut m rest hshut)
    · obtain ⟨hp, hop, ha, ht⟩ := h
      obtain ⟨rest, hx, hrest⟩ := exec_request_gate hmem hp
      rw [requestGate_taken m rest hop ha ht] at hx
      refine ⟨fun hold => hx.trans (if_pos hold), fun hfresh hkey => hx.trans ?_, fun hne hfresh hkey hturn => ?_⟩
      · simp [hfresh, hkey]
      · obtain rfl := hrest hne hturn
        simp only [hfresh, hkey, Bool.not_true, Bool.false_eq_true, if_false] at hx
        exact ⟨fun hnew => hx.trans (holdBack_fresh m hnew), fun t hheld => hx.trans (holdBack_held m hheld)⟩

end Sys2Proof.Machine
end

section
/-! R32, R34, R36, R47, R49, R53: a packet at a router. -/

namespace Sys2Proof.Machine

open Sys2Proof

/-! ### Packets by number -/

theorem pkt?_id {s : State} {id : Nat} {p : Packet} (h : s.pkt? id = some p) : p.id = id := by
  simpa using List.find?_some h

/-- A record of a list that is replaced is found in its place. -/
theorem find?_map_replace {α : Type} (key : α → Nat) (l : List α) (x y : α)
    (h : l.find? (fun z => key z = key x) = some y) :
    (l.map fun z => if key z = key x then x else z).find? (fun z => key z = key x) = some x := by
  have hsame : ((fun z => decide (key z = key x)) ∘ fun z => if key z = key x then x else z) =
      fun z => decide (key z = key x) := by
    funext z
    by_cases hz : key z = key x <;> simp [hz]
  have hy : key y = key x := by simpa using List.find?_some h
  rw [List.find?_map, hsame, h]
  simp [hy]

theorem setPacket_pkt?_self {s : State} {p q : Packet} (h : s.pkt? q.id = some p) :
    (setPacket s q).pkt? q.id = some q :=
  find?_map_replace Packet.id s.fab.pkts q p h

theorem enterBuffer_pkt?_self (s : State) (p : Packet) (node inp : Nat) :
    (enterBuffer s p node inp).pkt? p.id =
      some { p with place := .queue node inp, blocked := none, timedOut := false } := by
  have hnone : (s.fab.pkts.filter (·.id ≠ p.id)).find? (·.id = p.id) = none := by simp
  rw [State.pkt?, enterBuffer, List.find?_append, hnone]
  simp

/-! ### One hop -/

/-- The event names a port for a packet that waits at a router, at the head of its buffer. -/
structure AtRouter (s : State) (id port node : Nat) (p : Packet) : Prop where
  named : s.occ = .hop id port
  here : s.pkt? id = some p
  place : p.place.router = some node
  head : atHead s p = true

theorem packetHop_occurs {s t : State} {id port node : Nat} {p : Packet} (h : AtRouter s id port node p)
    (hhop : hop s node port p = some t) : Occurs .packetHop s t := by
  rw [Occurs, exec_packetHop, execPacketHop]
  simp only [h.named, h.here, h.place, h.head, hhop, if_true]

theorem packetHop_refused {s : State} {id port node : Nat} {p : Packet} (h : AtRouter s id port node p)
    (hhop : hop s node port p = none) : exec .packetHop s = idle "PACKET_HOP" := by
  rw [exec_packetHop, execPacketHop]
  simp only [h.named, h.here, h.place, h.head, hhop, if_true]

theorem hop_tooOld {s : State} {p : Packet} (node port : Nat) (h : tooOld s p = true) :
    hop s node port p = some (reject s node p .drained) :=
  if_pos h

theorem hop_ended {s : State} {p : Packet} (node port : Nat) (h : tooOld s p = false) (hnext : p.nextHop = none) :
    hop s node port p = if node = p.dest then none else some (reject s node p .misroute) := by
  simp only [hop, h, hnext, Bool.false_eq_true, if_false]

theorem hop_coded {s : State} {p : Packet} {code : Nat} (node port : Nat) (h : tooOld s p = false)
    (hnext : p.nextHop = some code) :
    hop s node port p = if headerReserved p.header = true ∨ hopPorts node code = [] then some (discard s node p)
      else if (exits s node code p).isEmpty then some (reject s node p (noWay s node code))
      else if !(exits s node code p).contains port then none
      else (farRoom s node port p).map (advance s p) := by
  simp only [hop, h, hnext, Bool.false_eq_true, if_false]

/-- R32: a packet that is discarded is gone, and counted. -/
theorem discard_counts (s : State) (node : Nat) (p : Packet) :
    (∀ q ∈ (discard s node p).fab.pkts, q.id ≠ p.id) ∧
      (discard s node p).fab.discards.get? node = some (s.fab.discards.getD node 0 + 1) :=
  ⟨fun q hq => by simpa using (List.mem_filter.1 hq).2, Tbl.get?_set_self ..⟩

theorem farRoom_eq {s : State} {node port : Nat} {far : LinkEnd} (p : Packet)
    (h : farEnd (codeNow s) ⟨node, port⟩ = some far) :
    farRoom s node port p = if p.place.onRope || bufferRoom s far then some far else none := by
  rw [farRoom, h]
  rfl

/-- A packet at a router stands in an input buffer or on the rope lane. -/
theorem PktAt.router_cases {a : PktAt} {node : Nat} (h : a.router = some node) :
    (∃ inp, a = .queue node inp) ∨ a = .rope node := by
  cases a with
  | queue n i =>
    rw [PktAt.router] at h
    split at h
    · exact nomatch h
    · exact .inl ⟨i, by rw [Option.some.inj h]⟩
  | rope n => exact .inr (by rw [Option.some.inj h])
  | source => exact nomatch h
  | held t => exact nomatch h

theorem advance_buffered {s : State} {p : Packet} {node : Nat} (far : LinkEnd) (hplace : p.place.router = some node)
    (hrope : p.place.onRope = false) :
    (advance s p far).pkt? p.id = some { p with
      hidx := p.hidx + 1, place := .queue far.node far.port, blocked := none, timedOut := false } := by
  rcases PktAt.router_cases hplace with ⟨inp, hq⟩ | hr
  · rw [advance, hq]
    exact enterBuffer_pkt?_self s { p with hidx := p.hidx + 1 } far.node far.port
  · rw [hr] at hrope
    exact nomatch hrope

/-- R49: on the rope lane the token notes where its packet stands. -/
theorem advance_rope {s : State} {p : Packet} {node : Nat} (far : LinkEnd) (hp : s.pkt? p.id = some p)
    (hplace : p.place.router = some node) (hrope : p.place.onRope = true) :
    (advance s p far).pkt? p.id = some { p with hidx := p.hidx + 1, place := .rope far.node } ∧
      (advance s p far).fab.belay.map (·.rope) = s.fab.belay.map fun _ => far.node := by
  rcases PktAt.router_cases hplace with ⟨inp, hq⟩ | hr
  · rw [hq] at hrope
    exact nomatch hrope
  · rw [advance, hr]
    refine ⟨setPacket_pkt?_self (q := { p with hidx := p.hidx + 1, place := .rope far.node }) hp, ?_⟩
    show (s.fab.belay.map _).map _ = _
    rw [Option.map_map]
    rfl

end Sys2Proof.Machine
end

section
/-! R34, R265, R283, R413, R416: what a reply leaves at its source. -/

namespace Sys2Proof.Machine

open Sys2Proof

/-! ### The completion of a packet's share -/

theorem setOp_op?_self {s : State} {o q : Op} (h : s.op? q.id = some o) : (setOp s q).op? q.id = some q :=
  find?_map_replace Op.id s.core.ops q o h

theorem modPath_ops (s : State) (m : Member) (n : Nat) (f : ThreadRec → ThreadRec) :
    (s.modPath m n f).core.ops = s.core.ops := by
  unfold State.modPath
  split
  · rfl
  · split <;> rfl

theorem lowerSb_ops (s : State) (m : Member) (n sb : Nat) : (lowerSb s m n sb).core.ops = s.core.ops := by
  unfold lowerSb
  split
  · rfl
  · exact modPath_ops ..

/-- R161: an operation that retires is outstanding no more. -/
theorem retire_op?_self (s : State) (o : Op) : (retire s o).op? o.id = none := by
  have hops : (retire s o).core.ops = s.core.ops.filter (·.id ≠ o.id) := by
    refine foldl_keeps _ (fun s : State => s.core.ops) (fun s x => ?_) _ _
    exact lowerSb_ops s o.m x.1 x.2
  simp [State.op?, hops]

theorem finishRemote_op?_self (s : State) (o : Op) : (finishRemote s o).op? o.id = none := retire_op?_self ..

/-- R34, R416: an operation with one answer fewer to wait for; the first failure of its packets stands. -/
def Op.answered (o : Op) (t : Txn) (st : Option Nat) : Op :=
  { o with
    waiting := o.waiting - 1
    failed := if o.failed.isSome then o.failed else st.map fun x => (x, t.dest) }

/-- R40, R41: the requests of a source and tag are gone, and the channel of one has its answer. -/
def afterAnswer (s : State) (t : Txn) (st : Option Nat) : State :=
  chanDone { s with fab := { s.fab with txns := s.fab.txns.filter fun x => !(x.src == t.src && x.tag == t.tag) } } t st

theorem afterAnswer_shape (s : State) (t : Txn) (st : Option Nat) : ∃ txns chans,
    afterAnswer s t st = { s with fab := { s.fab with txns := txns, chans := chans } } := by
  unfold afterAnswer chanDone
  split <;> exact ⟨_, _, rfl⟩

theorem afterAnswer_op? (s : State) (t : Txn) (st : Option Nat) (id : Nat) : (afterAnswer s t st).op? id = s.op? id := by
  obtain ⟨txns, chans, h⟩ := afterAnswer_shape s t st
  rw [h]
  rfl

theorem packetDone_op {s : State} {t : Txn} {o : Op} (st : Option Nat) (huse : t.use = .op o.id) (ho : s.op? o.id = some o) :
    packetDone s t st =
      if (o.answered t st).waiting = 0 then finishRemote (setOp (afterAnswer s t st) (o.answered t st)) (o.answered t st)
      else setOp (afterAnswer s t st) (o.answered t st) := by
  have hfound : (afterAnswer s t st).op? o.id = some o := (afterAnswer_op? ..).trans ho
  unfold packetDone
  rw [huse]
  dsimp only
  rw [← afterAnswer, hfound]
  unfold Op.answered
  cases hfailed : o.failed <;> cases st <;> simp only [hfailed] <;> rfl

theorem packetDone_engine {s : State} {t : Txn} (st : Option Nat) (huse : t.use = .engine) :
    packetDone s t st = if st.isSome then report (afterAnswer s t st) t.kslot 5 [t.dest, t.addr] else afterAnswer s t st := by
  unfold packetDone
  rw [huse]
  rfl

theorem packetDone_teamEnd {s : State} {t : Txn} {isl team k : Nat} (st : Option Nat) (huse : t.use = .teamEnd isl team k) :
    packetDone s t st = endAcked (afterAnswer s t st) isl team k st := by
  unfold packetDone
  rw [huse]
  rfl

theorem packetDone_txns {s : State} {t : Txn} (st : Option Nat) :
    ∀ x ∈ (packetDone s t st).fab.txns, x ∈ s.fab.txns ∧ (x.src ≠ t.src ∨ x.tag ≠ t.tag) := by
  rw [(packetDone_unanswered s t st).2]
  intro x hx
  simpa only [not_and_or] using (mem_txns_without ..).1 hx

theorem packetDone_op_waits {s : State} {t : Txn} {o : Op} (st : Option Nat) (huse : t.use = .op o.id)
    (ho : s.op? o.id = some o) (hw : 1 < o.waiting) : (packetDone s t st).op? o.id = some (o.answered t st) := by
  rw [packetDone_op st huse ho, if_neg (show ¬ (o.answered t st).waiting = 0 from Nat.sub_ne_zero_of_lt hw)]
  exact setOp_op?_self (q := o.answered t st) ((afterAnswer_op? ..).trans ho)

theorem packetDone_op_finishes {s : State} {t : Txn} {o : Op} (st : Option Nat) (huse : t.use = .op o.id)
    (ho : s.op? o.id = some o) (hw : o.waiting = 1) : (packetDone s t st).op? o.id = none := by
  rw [packetDone_op st huse ho, if_pos (show (o.answered t st).waiting = 0 from Nat.sub_eq_zero_of_le hw.le)]
  exact finishRemote_op?_self _ (o.answered t st)

/-- R147: an end of a team waits no more for a target that has answered. -/
theorem endAcked_waiting (s : State) (isl team k : Nat) (st : Option Nat) :
    ∀ e ∈ (endAcked s isl team k st).task.ends, e.isl = isl → e.team = team → k ∉ e.waiting := by
  intro e he hisl hteam hk
  obtain ⟨x, -, rfl⟩ := List.mem_map.1 he
  by_cases hx : x.isl = isl ∧ x.team = team ∧ x.waiting.contains k = true
  · rw [if_pos hx] at hk
    simp at hk
  · rw [if_neg hx] at hisl hteam hk
    exact hx ⟨hisl, hteam, by simpa using hk⟩

/-! ### The bytes of a GET -/

theorem bypassBank_byte (s : State) (isl : Nat) (core : Option Nat) (a : Nat) (v : Byte) (ha : a < 2 ^ 39) (i b : Nat)
    (hb : b < 2 ^ 39) :
    (bypassBank s isl core a [v]).mem.byte i b = if i = isl ∧ b = a then v else s.mem.byte i b := by
  rw [(bypassBank_kept s isl core a [v] ha).2 i b hb]
  by_cases h : i = isl ∧ b = a
  · obtain ⟨rfl, rfl⟩ := h
    simp
  · rw [if_neg h, if_neg (by simp only [List.length_singleton]; omega)]

theorem foldl_bypassBank_bytes (isl : Nat) (core : Option Nat) (l : List (Nat × Byte)) (s : State)
    (hnodup : (l.map (·.1)).Nodup) (hlt : ∀ a ∈ l.map (·.1), a < 2 ^ 39) :
    let u := l.foldl (fun s x => bypassBank s isl core x.1 [x.2]) s
    (∀ x ∈ l, u.mem.byte isl x.1 = x.2) ∧
      ∀ i a, a < 2 ^ 39 → (i ≠ isl ∨ a ∉ l.map (·.1)) → u.mem.byte i a = s.mem.byte i a := by
  induction l generalizing s with
  | nil => exact ⟨fun x hx => (nomatch hx), fun _ _ _ _ => rfl⟩
  | cons y l ih =>
    rw [List.map_cons, List.nodup_cons] at hnodup
    obtain ⟨hy, hl⟩ := List.forall_mem_cons.1 hlt
    obtain ⟨hnew, hrest⟩ := ih (bypassBank s isl core y.1 [y.2]) hnodup.2 hl
    have hfirst (i a) (ha : a < 2 ^ 39) := bypassBank_byte s isl core y.1 y.2 hy i a ha
    refine ⟨fun x hx => ?_, fun i a ha hout => ?_⟩
    · rcases List.mem_cons.1 hx with rfl | hmem
      · exact (hrest isl x.1 hy (.inr hnodup.1)).trans ((hfirst isl x.1 hy).trans (if_pos ⟨rfl, rfl⟩))
      · exact hnew x hmem
    · rw [List.map_cons, List.mem_cons, not_or] at hout
      exact (hrest i a ha (hout.imp_right And.right)).trans ((hfirst i a ha).trans (if_neg fun h =>
        hout.elim (fun hi => hi h.1) fun hne => hne.1 h.2))

/-- R283, R413: bytes for global memory reach their addresses, and no other byte changes. -/
theorem deliver_global {s : State} {t : Txn} {bs : List Byte} (hdst : t.dst.1 = .global) (hnodup : t.dst.2.Nodup)
    (hlt : ∀ a ∈ t.dst.2, a < 2 ^ 39) (hlen : bs.length = t.dst.2.length) :
    (∀ x ∈ t.dst.2.zip bs, (deliver s t bs).mem.byte t.src x.1 = x.2) ∧
      ∀ i a, a < 2 ^ 39 → (i ≠ t.src ∨ a ∉ t.dst.2) → (deliver s t bs).mem.byte i a = s.mem.byte i a := by
  have hkeys : (t.dst.2.zip bs).map (·.1) = t.dst.2 := List.map_fst_zip hlen.ge
  have hfold (core) := foldl_bypassBank_bytes t.src core (t.dst.2.zip bs) s (by rwa [hkeys]) (by rwa [hkeys])
  rw [hkeys] at hfold
  unfold deliver
  dsimp only
  rw [hdst]
  exact hfold _

theorem spadPut_byte (m : MemSt) (isl core off : Nat) (v : Byte) (k : Nat) :
    (m.spadPut isl core off [v]).spad.get k = if k = skey isl core off then v else m.spad.get k := by
  have hdata : (m.spadPut isl core off [v]).data =
      ({ m with spad := m.spad.putBytes (skey isl core off) [v] } : MemSt).data := MemSt.data_curePoison ..
  simp only [MemSt.data, Prod.mk.injEq] at hdata
  obtain ⟨-, -, -, hspad, -⟩ := hdata
  rw [hspad, Mem.get_putBytes]
  by_cases h : k = skey isl core off
  · simp [h]
  · rw [if_neg h, if_neg (by simp only [List.length_singleton]; omega)]

theorem spadPut_bank (m : MemSt) (isl core off : Nat) (bs : List Byte) (i a : Nat) :
    (m.spadPut isl core off bs).byte i a = m.byte i a :=
  MemSt.byte_data (n := { m with spad := m.spad.putBytes (skey isl core off) bs }) (MemSt.data_curePoison ..) i a

theorem foldl_spadPut_bytes (isl core : Nat) (l : List (Nat × Byte)) (m : MemSt) (hnodup : (l.map (·.1)).Nodup) :
    let u := l.foldl (fun (m : MemSt) (x : Nat × Byte) => m.spadPut isl core x.1 [x.2]) m
    (∀ x ∈ l, u.spad.get (skey isl core x.1) = x.2) ∧
      ∀ a, a ∉ l.map (·.1) → u.spad.get (skey isl core a) = m.spad.get (skey isl core a) := by
  induction l generalizing m with
  | nil => exact ⟨fun x hx => (nomatch hx), fun _ _ => rfl⟩
  | cons y l ih =>
    rw [List.map_cons, List.nodup_cons] at hnodup
    obtain ⟨hnew, hrest⟩ := ih (m.spadPut isl core y.1 [y.2]) hnodup.2
    refine ⟨fun x hx => ?_, fun a hout => ?_⟩
    · rcases List.mem_cons.1 hx with rfl | hmem
      · exact (hrest x.1 hnodup.1).trans ((spadPut_byte ..).trans (if_pos rfl))
      · exact hnew x hmem
    · rw [List.map_cons, List.mem_cons, not_or] at hout
      refine (hrest a hout.2).trans ((spadPut_byte ..).trans (if_neg fun h => hout.1 ?_))
      exact Nat.add_left_cancel h

/-- R283, R413: bytes for a scratchpad reach their offsets, and no byte of the banks changes. -/
theorem deliver_spad {s : State} {t : Txn} {bs : List Byte} {c : Nat} (hdst : t.dst.1 = .spad c) (hnodup : t.dst.2.Nodup)
    (hlen : bs.length = t.dst.2.length) :
    (∀ x ∈ t.dst.2.zip bs, (deliver s t bs).mem.spad.get (skey t.src c x.1) = x.2) ∧
      ∀ i a, (deliver s t bs).mem.byte i a = s.mem.byte i a := by
  have hkeys : (t.dst.2.zip bs).map (·.1) = t.dst.2 := List.map_fst_zip hlen.ge
  unfold deliver
  dsimp only
  rw [hdst]
  exact ⟨(foldl_spadPut_bytes t.src c (t.dst.2.zip bs) s.mem (by rwa [hkeys])).1,
    fun i a => foldl_keeps _ (fun m : MemSt => m.byte i a) (fun m x => spadPut_bank ..) _ _⟩

/-! ### The events of replies -/

theorem replyEvent_replied {s : State} {op : PktOp} {p : Packet} {t : Txn} (m : String)
    (take : State → Txn → Packet → State) {piece : State → Txn → Packet → Option State} (h : Replied s op p t)
    (hheld : op = .getData → heldData s t = false) (hpiece : piece s t p = none) :
    replyEvent s m op take piece = .next (commit s (take (dropPacket s p.id) t p)) := by
  have hfree : ¬ (op = .getData ∧ heldData s t = true) := fun hx => by simp [hheld hx.1] at hx
  unfold replyEvent receiveReply
  rw [h.named]
  simp [h.kind, h.here, h.taken, h.key, h.request, h.sent, h.first, hpiece, hfree]

theorem replyEvent_bare {s : State} {op : PktOp} {p : Packet} {t : Txn} (m : String)
    (take : State → Txn → Packet → State) (h : Replied s op p t) (hop : op ≠ .getData) :
    replyEvent s m op take = .next (commit s (take (dropPacket s p.id) t p)) :=
  replyEvent_replied m take h (fun he => absurd he hop) rfl

theorem getData_waits {s : State} {p : Packet} {t : Txn} (h : Replied s .getData p t) (hheld : heldData s t = true) :
    exec .getData s = idle "GET_DATA" := by
  rw [exec_getData, execGetData, replyEvent, receiveReply, h.named]
  simp [h.kind, h.here, h.taken, h.key, h.request, h.sent, h.first, hheld]

theorem takeData_whole (s : State) (t : Txn) {p : Packet} (h : p.part = none) :
    takeData s t p = packetDone (deliver s t p.payload) t none := by
  simp [takeData, h]

theorem getData_lands {s : State} {p : Packet} {t : Txn} {id : Nat} (h : Replied s .getData p t)
    (hheld : heldData s t = false) (hocc : s.occ = .packet id) (hpart : p.part = none) :
    Occurs .getData s (packetDone (deliver (dropPacket s p.id) t p.payload) t none) := by
  have hpiece : dataPiece s t p = none := by rw [dataPiece, pieceOf_packet hocc]; rfl
  rw [Occurs, exec_getData, execGetData, replyEvent_replied _ takeData h (fun _ => hheld) hpiece, takeData_whole _ t hpart]

end Sys2Proof.Machine
end

section
/-! R35, R47 to R49: the timers of requests and of packets, and the belay token. -/

namespace Sys2Proof.Machine

open Sys2Proof

theorem exec_responseTimerExpiry_at {s : State} {src tag : Nat} {t : Txn} (hocc : s.occ = .txn src tag)
    (ht : s.txn? src tag = some t) :
    exec .responseTimerExpiry s =
      if t.injected ∧ t.dest ≠ t.src ∧ t.sentAt + s.hub.respNs ≤ s.hub.ns ∧ landing s t = none then
        .next (commit s (packetDone s t (some FStatus.timeout.code)))
      else idle "RESPONSE_TIMER_EXPIRY" := by
  rw [exec_responseTimerExpiry, execResponseTimerExpiry, hocc]
  simp only [ht]

theorem exec_blockedPacketTimer_at {s : State} {p : Packet} {node port since : Nat} (hp : occPacket s = some p)
    (hplace : p.place = .queue node port) (hblocked : p.blocked = some since) :
    exec .blockedPacketTimer s =
      if !p.timedOut && atHead s p && !canAdvance s node p && since + s.hub.blockNs ≤ s.hub.ns then
        .next (commit s (countRope (setPacket s { p with timedOut := true }) node 1 0))
      else idle "BLOCKED_PACKET_TIMER" := by
  rw [exec_blockedPacketTimer, execBlockedPacketTimer, hp]
  simp only [hplace, hblocked]

/-- R48: a packet moves to the rope lane of the node where the token stands. -/
def takeRope (s : State) (b : Belay) (p : Packet) : State :=
  let s1 := countRope (setPacket s { p with place := .rope b.node, timedOut := false }) b.node 0 1
  { s1 with fab := { s1.fab with belay := some { b with holding := some p.id, rope := b.node } } }

theorem belay_holding {s : State} {b : Belay} (hb : s.fab.belay = some b) (hh : b.holding ≠ none) :
    exec .belay s = idle "BELAY" := by
  rw [exec_belay, execBelay, hb]
  exact if_pos (.inr (Option.isSome_iff_ne_none.2 hh))

theorem belay_passes {s : State} {b : Belay} (hb : s.fab.belay = some b) (hocc : s.occ = .node b.node)
    (hh : b.holding = none) (h : oldestStuck s b.node = none ∨ ∃ q ∈ s.fab.pkts, q.place.onRope = true) :
    Occurs .belay s (passBelay s b) := by
  have hnone : (if s.fab.pkts.any (·.place.onRope) then none else oldestStuck s b.node) = none := by
    rcases h with h | h
    · rw [h, ite_self]
    · exact if_pos (List.any_eq_true.2 h)
  rw [Occurs, exec_belay, execBelay, hb]
  simp only [hocc, hh, hnone, ne_eq, not_true_eq_false, Option.isSome_none, Bool.false_eq_true, or_self, if_false]

theorem belay_takes {s : State} {b : Belay} {p : Packet} (hb : s.fab.belay = some b) (hocc : s.occ = .node b.node)
    (hh : b.holding = none) (hclear : ∀ q ∈ s.fab.pkts, q.place.onRope = false) (hp : oldestStuck s b.node = some p) :
    Occurs .belay s (takeRope s b p) := by
  have hsome : (if s.fab.pkts.any (·.place.onRope) then none else oldestStuck s b.node) = some p := by
    rw [if_neg (by simpa using hclear), hp]
  rw [Occurs, exec_belay, execBelay, hb]
  simp only [hocc, hh, hsome, ne_eq, not_true_eq_false, Option.isSome_none, Bool.false_eq_true, or_self, if_false]
  rfl

theorem exec_ropeAck_holding {s : State} {b : Belay} {id : Nat} (hb : s.fab.belay = some b) (hocc : s.occ = .node b.node)
    (hh : b.holding = some id) :
    exec .ropeAck s = if onRope s id then idle "ROPE_ACK" else .next (commit s (passBelay s b)) := by
  rw [exec_ropeAck, execRopeAck, hb]
  cases hrope : onRope s id <;> simp [hocc, hh, hrope]

theorem ropeAck_free {s : State} {b : Belay} (hb : s.fab.belay = some b) (hh : b.holding = none) :
    exec .ropeAck s = idle "ROPE_ACK" := by
  rw [exec_ropeAck, execRopeAck, hb]
  simp only [hh]

end Sys2Proof.Machine
end

section
/-! The statement of hops, replies and timers. -/

namespace Sys2Proof.Machine

open Sys2Proof

/-- Settles O47: the hop, the completion of a request and the bytes that it brings, each kind of reply, the two timers, and
the belay token. -/
theorem repliesAndTimers : Obligations.RepliesAndTimers := by
  unfold Obligations.RepliesAndTimers
  intro s p t b o id node port src tag code n far st s1 ends
  refine ⟨fun hocc hp hplace hhead => ?hop, ?done, fun bs hdst hnodup hlt hlen => deliver_global hdst hnodup hlt hlen,
    fun bs c hdst hnodup hlen => deliver_spad hdst hnodup hlen,
    fun h => (exec_putAck s).trans (replyEvent_bare _ _ h (by decide)),
    fun h => ⟨fun hheld hends => getData_lands h hheld hends.1 hends.2, fun hheld => getData_waits h hheld⟩,
    fun h => (exec_ratomRes s).trans (replyEvent_bare _ _ h (by decide)),
    fun h => (exec_rredAck s).trans (replyEvent_bare _ _ h (by decide)),
    fun h => (exec_notifyAck s).trans (replyEvent_bare _ _ h (by decide)),
    fun h => (exec_ochResetAck s).trans (replyEvent_bare _ _ h (by decide)),
    fun h => (exec_errorPacket s).trans (replyEvent_bare _ _ h (by decide)),
    fun hocc ht hinj hfar => ?response, fun hp hplace hhead hblocked hfresh => ?blocked, fun hb hocc => ?belay⟩
  case hop =>
    have hat : AtRouter s id port node p := ⟨hocc, hp, hplace, hhead⟩
    obtain rfl := pkt?_id hp
    refine ⟨fun hold => packetHop_occurs hat (hop_tooOld node port hold), fun hfresh hnext => ?_, fun hfresh hnext => ?_⟩
    · have hh := hop_ended node port hfresh hnext
      exact ⟨fun hne => packetHop_occurs hat (hh.trans (if_neg hne)), fun he => packetHop_refused hat (hh.trans (if_pos he))⟩
    have hh := hop_coded node port hfresh hnext
    refine ⟨fun hbad => ⟨_, packetHop_occurs hat (hh.trans (if_pos hbad)), discard_counts s node p⟩, fun hok hports => ?_⟩
    rw [if_neg (by simp [hok, hports])] at hh
    refine ⟨fun hnone => packetHop_occurs hat (hh.trans (if_pos (by simp [hnone]))), fun hsome hnot => ?_,
      fun hmem hfar => ?_⟩
    · rw [if_neg (by simpa using hsome), if_pos (by simpa using hnot)] at hh
      exact packetHop_refused hat hh
    · rw [if_neg (by simpa using List.ne_nil_of_mem hmem), if_neg (by simpa using hmem), farRoom_eq p hfar] at hh
      refine ⟨fun hrope hfull => ?_, fun hrope hroom => ?_, fun hrope => ?_⟩
      · exact packetHop_refused hat (by simpa [hrope, hfull] using hh)
      · exact ⟨_, packetHop_occurs hat (by simpa [hrope, hroom] using hh), advance_buffered far hplace hrope⟩
      · exact ⟨_, packetHop_occurs hat (by simpa [hrope] using hh), advance_rope far hp hplace hrope⟩
  case done =>
    refine ⟨packetDone_txns st, packetDone_op_waits st, packetDone_op_finishes st, fun x huse hst => ?_,
      fun isl team k huse => ?_⟩
    · obtain ⟨txns, chans, hshape⟩ := afterAnswer_shape s t st
      rw [packetDone_engine st huse, hst, ← hst, hshape, if_pos (by simp [hst])]
      rfl
    · rw [packetDone_teamEnd st huse]
      exact endAcked_waiting (afterAnswer s t st) isl team k st
  case response =>
    have hx := exec_responseTimerExpiry_at hocc ht
    refine ⟨fun hdue hland => hx.trans (if_pos ⟨hinj, hfar, hdue, hland⟩), fun hnot => hx.trans (if_neg ?_)⟩
    rintro ⟨-, -, hdue, hland⟩
    exact hnot.elim (fun h => absurd hdue (Nat.not_le.2 h)) fun h => h hland
  case blocked =>
    have hx := exec_blockedPacketTimer_at hp hplace hblocked
    refine ⟨fun hstuck hdue => hx.trans (if_pos (by simp [hfresh, hhead, hstuck, hdue])), fun hnot => hx.trans (if_neg ?_)⟩
    rcases hnot with h | h <;> simp [h]
  case belay =>
    refine ⟨belay_passes hb hocc, belay_takes hb hocc, belay_holding hb, fun hh hoff => ?_, fun h => ?_⟩
    · exact ⟨_, (exec_ropeAck_holding hb hocc hh).trans (if_neg (by simp [hoff])), rfl, rfl⟩
    · rcases h with hnone | ⟨hh, hon⟩
      · exact ropeAck_free hb hnone
      · exact (exec_ropeAck_holding hb hocc hh).trans (if_pos hon)

end Sys2Proof.Machine
end

section
/-! R11, R69, R76, R91, R195: what a device's write in an island's memory leaves, and the hub's own writes of chains. -/

namespace Sys2Proof.Machine

open Sys2Proof

/-! ### Writes of devices -/

/-- What a write at a home bank leaves alone: all but memory and the watches of threads. -/
def State.unbanked (s : State) : State := { s with mem := State.resetMem, core := { s.core with threads := [] } }

/-- What a report leaves alone as well. -/
def State.unreported (s : State) : State := { s.unbanked with hub := { s.hub with out := [] } }

/-- What a change of a command chain leaves alone as well. -/
def State.unchained (s : State) : State := { s.unbanked with hub := { s.hub with out := [], chains := [] } }

theorem unreported_of_unbanked {s t : State} (h : t.unbanked = s.unbanked) : t.unreported = s.unreported :=
  congrArg (fun u : State => { u with hub := { u.hub with out := [] } }) h

theorem unchained_of_unreported {s t : State} (h : t.unreported = s.unreported) : t.unchained = s.unchained :=
  congrArg (fun u : State => { u with hub := { u.hub with chains := [] } }) h

theorem makeRoom_unbanked (isl : Nat) (s : State) (pa : Nat) : (makeRoom isl s pa).unbanked = s.unbanked := by
  unfold makeRoom
  split
  · rfl
  · dsimp only
    split <;> rfl

theorem bypassBank_unbanked (s : State) (isl : Nat) (core : Option Nat) (pa : Nat) (bs : List Byte) :
    (bypassBank s isl core pa bs).unbanked = s.unbanked := by
  refine foldl_keeps _ State.unbanked (fun s x => ?_) _ _
  exact makeRoom_unbanked isl s x.1

theorem noteWalk_unreported (s : State) (isl part va : Nat) : (noteWalk s isl part va).unreported = s.unreported := by
  unfold noteWalk
  split <;> rfl

theorem note_unreported (e : XErr) (s : State) (isl part : Nat) : (e.note s isl part).unreported = s.unreported := by
  unfold XErr.note
  split
  · exact noteWalk_unreported ..
  · rfl

theorem writeVa_unbanked {s t : State} {isl part va : Nat} {bs : List Byte} {meets : Bool}
    (h : writeVa s isl part va bs meets = .ok t) : t.unbanked = s.unbanked := by
  unfold writeVa at h
  split at h
  · obtain rfl := Except.ok.inj h
    exact bypassBank_unbanked ..
  · exact nomatch h

theorem putVa_unreported {lost : State → State} (hlost : ∀ u, (lost u).unreported = u.unreported) (s : State)
    (isl part va : Nat) (bs : List Byte) : (putVa s isl part va bs lost).unreported = s.unreported := by
  unfold putVa
  split
  next t h => exact unreported_of_unbanked (writeVa_unbanked h)
  next e _ => exact (hlost _).trans (note_unreported e s isl part)

/-! ### The hub's writes of a chain -/

theorem hubPut_unbanked {s t : State} {isl part va : Nat} {bs : List Byte} (h : hubPut s isl part va bs = some t) :
    t.unbanked = s.unbanked := by
  unfold hubPut at h
  split at h
  · cases hw : writeVa s isl part va bs false with
    | error e => simp [hw, Except.toOption] at h
    | ok u =>
      obtain rfl : u = t := by simpa [hw, Except.toOption] using h
      exact writeVa_unbanked hw
  · exact nomatch h

theorem hubWrite_unreported (s : State) (isl part va : Nat) (bs : List Byte) :
    (hubWrite s isl part va bs).unreported = s.unreported := by
  unfold hubWrite
  cases h : hubPut s isl part va bs with
  | none => exact noteWalk_unreported s isl part va
  | some t => exact unreported_of_unbanked (hubPut_unbanked h)

theorem sendEvent_unreported (s : State) (part evqp : Nat) (bs : List Byte) :
    (sendEvent s part evqp bs).unreported = s.unreported := by
  unfold sendEvent
  split <;> rfl

theorem haltCmd_unchained (s : State) (k : Nat × Nat) (addr : Nat) : (haltCmd s k addr).unchained = s.unchained := by
  unfold haltCmd
  split
  · rfl
  · split
    · rfl
    · next c _ _ =>
      exact unchained_of_unreported (s := setCmdChain s k { c with halted := true })
        ((hubWrite_unreported ..).trans (hubWrite_unreported ..))

theorem completeSeq_unchained (s : State) (k : Nat × Nat) (seq : Nat) :
    (completeSeq s k seq).unchained = s.unchained := by
  unfold completeSeq
  split
  · rfl
  next c _ =>
    dsimp only
    generalize raisePrefix _ _ = c'
    split
    · rfl
    · refine unchained_of_unreported (s := setCmdChain s k c') ?_
      split
      · exact (sendEvent_unreported ..).trans (hubWrite_unreported ..)
      · exact (noteWalk_unreported ..).trans (hubWrite_unreported ..)

/-- R69: a record that completes leaves the PCP. -/
theorem completeCmd_unchained (s : State) (c : CmdRec) (res : Nat × Nat × Nat) :
    (completeCmd s c res).unchained =
      ({ s with hub := { s.hub with cmds := s.hub.cmds.filter (·.ref ≠ c.ref) } } : State).unchained := by
  unfold completeCmd
  dsimp only
  split
  · rfl
  · split
    · rfl
    · rw [completeSeq_unchained]
      split
      next h => exact unchained_of_unreported (unreported_of_unbanked (hubPut_unbanked h))
      next => exact (haltCmd_unchained ..).trans (unchained_of_unreported (noteWalk_unreported ..))

theorem completeCmd_cmds (s : State) (c : CmdRec) (res : Nat × Nat × Nat) :
    (completeCmd s c res).hub.cmds = s.hub.cmds.filter (·.ref ≠ c.ref) :=
  congrArg (fun u : State => u.hub.cmds) (completeCmd_unchained s c res)

end Sys2Proof.Machine
end

section
/-! R76, R110: what the steps of a function-level reset leave of partitions, frames, chains and records. -/

namespace Sys2Proof.Machine

open Sys2Proof

/-! ### What no step of a reset changes before the frames go -/

/-- The partitions with their rotations, the frames, the jobs of the lehr, and the hub but for its chains, commands and
messages. Of a rotation it leaves out what an overrun shortens (R117). -/
def State.tenure (s : State) :
    Tbl Nat Part × Tbl Nat Rotation × Tbl (Nat × Nat) (FrameSt × Nat) × List LehrJob × HubSt :=
  (s.par.parts, s.par.rots.map fun e => (e.1, { e.2 with shorten := [] }), s.par.frames, s.par.jobs,
    { s.hub with out := [], chains := [], cmds := [] })

theorem tenure_of_unchained {s t : State} (h : t.unchained = s.unchained) : t.tenure = s.tenure := by
  exact (congrArg State.tenure h :)

theorem tenure_of_unanswered {s t : State} (h : t.unanswered = s.unanswered) : t.tenure = s.tenure :=
  congrArg (fun x => (x.2.2.1.parts, x.2.2.1.rots.map fun e => (e.1, { e.2 with shorten := [] }), x.2.2.1.frames,
    x.2.2.1.jobs, { x.2.2.2.2 with out := [], chains := [], cmds := [] })) h

theorem answer_tenure (s : State) (node : Nat) (p : Packet) (op : PktOp) (bytes : List Byte) (st : Nat) :
    (answer s node p op bytes st).tenure = s.tenure := by
  unfold answer
  dsimp only
  split
  · rfl
  · simp only [sealPacket]
    split <;> rfl

theorem bypassBank_tenure (s : State) (isl : Nat) (core : Option Nat) (pa : Nat) (bs : List Byte) :
    (bypassBank s isl core pa bs).tenure = s.tenure :=
  tenure_of_unchained (unchained_of_unreported (unreported_of_unbanked (bypassBank_unbanked ..)))

theorem note_tenure (e : XErr) (s : State) (isl part : Nat) : (e.note s isl part).tenure = s.tenure :=
  tenure_of_unchained (unchained_of_unreported (note_unreported e s isl part))

theorem servePut_tenure (s : State) (p : Packet) : (servePut s p).tenure = s.tenure := by
  unfold servePut
  split
  · rw [answer_tenure, bypassBank_tenure]
  · rw [answer_tenure, note_tenure]

theorem serveGet_tenure (s : State) (p : Packet) : (serveGet s p).tenure = s.tenure := by
  unfold serveGet
  split
  · rw [answer_tenure, note_tenure]
  · dsimp only
    split <;> exact answer_tenure ..

/-- R265: a packet that has been served in part goes through. -/
theorem flushPacket_tenure (s : State) (p : Packet) : (flushPacket s p).tenure = s.tenure := by
  unfold flushPacket
  split
  · rfl
  · dsimp only
    split
    · exact servePut_tenure ..
    · exact serveGet_tenure ..
    · next t _ _ => exact tenure_of_unanswered (s := dropPacket s p.id) (takeData_unanswered (dropPacket s p.id) t p).1
    · rfl

theorem flushPackets_tenure (s : State) (p : Packet → Bool) : (flushPackets s p).tenure = s.tenure :=
  foldl_keeps _ State.tenure flushPacket_tenure _ _

/-! ### Step 1: the records of a partition complete -/

theorem completeCmd_tenure (s : State) (c : CmdRec) (res : Nat × Nat × Nat) : (completeCmd s c res).tenure = s.tenure := by
  have h := congrArg State.tenure (completeCmd_unchained s c res)
  exact h

/-- Records that complete in turn leave the PCP. -/
theorem foldl_completeCmd_cmds (f : State → CmdRec → Nat × Nat × Nat) (l : List CmdRec) (s : State) :
    ∀ x ∈ (l.foldl (fun s c => completeCmd s c (f s c)) s).hub.cmds, x ∈ s.hub.cmds ∧ ∀ c ∈ l, x.ref ≠ c.ref := by
  induction l generalizing s with
  | nil => exact fun x hx => ⟨hx, fun c hc => nomatch hc⟩
  | cons c l ih =>
    intro x hx
    obtain ⟨hmem, hl⟩ := ih _ x hx
    rw [completeCmd_cmds] at hmem
    obtain ⟨hs, hc⟩ := List.mem_filter.1 hmem
    exact ⟨hs, List.forall_mem_cons.2 ⟨by simpa using hc, hl⟩⟩

theorem Tbl.get?_drop {κ α : Type} [DecidableEq κ] (t : Tbl κ α) (p : κ → Bool) (x : κ) :
    (t.drop p).get? x = if p x then none else t.get? x := by
  induction t with
  | nil => simp [Tbl.drop, Tbl.get?]
  | cons e t ih =>
    obtain ⟨k, v⟩ := e
    unfold Tbl.drop at ih ⊢
    by_cases hk : k = x
    · subst hk
      cases hp : p k <;> simp_all [Tbl.get?]
    · cases hp : p k <;> simp_all [Tbl.get?]

theorem Tbl.get?_drop_of {κ α : Type} [DecidableEq κ] {t : Tbl κ α} {p : κ → Bool} {x : κ} (h : p x = true) :
    (t.drop p).get? x = none := by
  rw [Tbl.get?_drop, if_pos h]

/-- R76: the hub as a reset's first step finds it, before the records complete. -/
def stopHub (s : State) (part : Nat) : State :=
  { s with hub := { s.hub with
    sends := s.hub.sends.filter fun x => match x.2 with
      | .send p _ _ => p != part
      | _ => true
    qpError := (s.hub.qpError.filter fun (q : Nat × Nat) => q.1 != part) ++ (List.range 256).map fun q => (part, q)
    qps := s.hub.qps.drop (fun k => k.1 == part)
    regions := s.hub.regions.drop (fun k => k.1 == part) } }

theorem stopHub_tenure {s t : State} (h : t.tenure = s.tenure) (part : Nat) :
    (stopHub t part).tenure = (stopHub s part).tenure :=
  congrArg (fun x => (x.1, x.2.1, x.2.2.1, x.2.2.2.1, { x.2.2.2.2 with
    sends := x.2.2.2.2.sends.filter fun y => match y.2 with
      | .send p _ _ => p != part
      | _ => true
    qpError := (x.2.2.2.2.qpError.filter fun (q : Nat × Nat) => q.1 != part) ++ (List.range 256).map fun q => (part, q)
    qps := x.2.2.2.2.qps.drop (fun k => k.1 == part)
    regions := x.2.2.2.2.regions.drop (fun k => k.1 == part) })) h

theorem mem_stopHub_qpError (s : State) {part k : Nat} (hk : k < 256) : (part, k) ∈ (stopHub s part).hub.qpError := by
  simp [stopHub, hk]

/-- Stopping leaves the partition no record and no chain. -/
theorem flrStop_leaves (s : State) (part : Nat) :
    (flrStop s part).tenure = (stopHub s part).tenure ∧ (∀ x ∈ (flrStop s part).hub.cmds, x.ref.part ≠ part) ∧
      ∀ k, (flrStop s part).hub.chains.get? (part, k) = none := by
  refine ⟨?_, fun x hx hp => ?_, fun k => ?_⟩
  · exact foldl_keeps _ State.tenure (fun s c => completeCmd_tenure s c _) _ (stopHub s part)
  · obtain ⟨hmem, hnot⟩ :=
      foldl_completeCmd_cmds (fun s _ => (0x15, openField s 0 24, openField s 1 32)) _ (stopHub s part) x hx
    exact hnot x (List.mem_filter.2 ⟨hmem, by simpa using hp⟩) rfl
  · exact Tbl.get?_drop_of (p := fun k : Nat × Nat => k.1 == part) (beq_self_eq_true part)

/-! ### Step 2: teams end and engines abandon their commands -/

/-- What the end of a team leaves alone: beside `tenure` the chains, which records the PCP has started, and the keys. -/
def State.lasting (s : State) := (s.tenure, s.hub.chains, s.hub.cmds.map (·.ref), s.fab.keys)

/-- A step that winds up a team: it keeps what lasts, and engines start no record. -/
structure Winds (s t : State) : Prop where
  lasting : t.lasting = s.lasting
  recs : t.eng.recs.map (·.ref) ⊆ s.eng.recs.map (·.ref)

theorem Winds.rfl' (s : State) : Winds s s := ⟨rfl, fun _ h => h⟩

theorem Winds.trans {s t u : State} (h : Winds s t) (k : Winds t u) : Winds s u :=
  ⟨k.lasting.trans h.lasting, fun _ hx => h.recs (k.recs hx)⟩

theorem Winds.foldl {β : Type} (f : State → β → State) (h : ∀ s b, Winds s (f s b)) (l : List β) (s : State) :
    Winds s (l.foldl f s) := by
  induction l generalizing s with
  | nil => exact .rfl' s
  | cons b l ih => exact (h s b).trans (ih _)

/-- A step that winds up follows a change of neither. -/
theorem Winds.after {s t u : State} (h : Winds t u) (hlasting : t.lasting = s.lasting) (hrecs : t.eng.recs = s.eng.recs) :
    Winds s u :=
  ⟨h.lasting.trans hlasting, hrecs ▸ h.recs⟩

theorem winds_of_unreported {s t : State} (h : t.unreported = s.unreported) : Winds s t := by
  have hlasting := congrArg State.lasting h
  have hrecs := congrArg (fun u : State => u.eng.recs) h
  exact (Winds.rfl' t).after hlasting hrecs

theorem rewalk_winds (s : State) (isl part : Nat) : Winds s (rewalk s isl part) := by
  refine ⟨rfl, fun x hx => ?_⟩
  unfold rewalk at hx
  simp only [List.map_map, List.mem_map, Function.comp] at hx
  obtain ⟨r, hr, rfl⟩ := hx
  refine List.mem_map.2 ⟨r, hr, ?_⟩
  split <;> rfl

theorem freeFaults_winds (s : State) (isl part : Nat) : Winds s (freeFaults s isl part) := by
  unfold freeFaults
  dsimp only
  split
  · exact (rewalk_winds ..).after rfl rfl
  · exact .rfl' s

theorem stopTeam_winds (s : State) (isl team : Nat) : Winds s (stopTeam s isl team) := by
  unfold stopTeam
  dsimp only
  split
  · exact (freeFaults_winds ..).after rfl rfl
  · exact ⟨rfl, fun _ h => h⟩

theorem bypassBank_winds (s : State) (isl : Nat) (core : Option Nat) (pa : Nat) (bs : List Byte) :
    Winds s (bypassBank s isl core pa bs) :=
  winds_of_unreported (unreported_of_unbanked (bypassBank_unbanked ..))

theorem performOut_winds (s : State) (x : EngWrite) : Winds s (performOut s x) := by
  unfold performOut
  dsimp only
  split
  · exact (bypassBank_winds ..).after rfl rfl
  · exact ⟨rfl, fun _ h => h⟩

theorem flushOuts_winds (s : State) (p : EngWrite → Bool) : Winds s (flushOuts s p) :=
  (Winds.foldl _ performOut_winds _ _).after rfl rfl

theorem putVa_winds {lost : State → State} (hlost : ∀ u, (lost u).unreported = u.unreported) (s : State)
    (isl part va : Nat) (bs : List Byte) : Winds s (putVa s isl part va bs lost) :=
  winds_of_unreported (putVa_unreported hlost s isl part va bs)

theorem putWords_winds (s : State) (r : ChainRef) (ws : List (Nat × Nat)) : Winds s (putWords s r ws) := by
  refine Winds.foldl _ (fun s w => ?_) _ _
  exact putVa_winds (lost := fun s => report s r.part 4 [r.isl, r.desc]) (fun _ => rfl) ..

theorem unbindChain_winds (s : State) (r : ChainRef) : Winds s (unbindChain s r) := by
  unfold unbindChain
  split
  · exact .rfl' s
  · exact (putWords_winds ..).after rfl rfl

theorem releaseChain_winds (s : State) (r : ChainRef) (c : Chain) : Winds s (releaseChain s r c) := by
  unfold releaseChain
  dsimp only
  have hdrop : Winds s { s with eng := { s.eng with recs := s.eng.recs.filter fun x => x.ref.chain != r || x.known } } :=
    ⟨rfl, List.map_subset _ (List.filter_subset_self ..)⟩
  split
  · exact hdrop.trans ((freeFaults_winds ..).after rfl rfl)
  · exact (hdrop.trans (unbindChain_winds ..)).trans (freeFaults_winds ..)

theorem releaseChains_winds (s : State) (isl team : Nat) : Winds s (releaseChains s isl team) := by
  refine Winds.foldl _ (fun s c => ?_) _ _
  exact releaseChain_winds s c.1 c.2

theorem dropEndless_winds (s : State) (isl team : Nat) (normal : Bool) : Winds s (dropEndless s isl team normal) :=
  ⟨rfl, fun _ h => h⟩

theorem forgetMembers_winds (s : State) (isl team : Nat) : Winds s (forgetMembers s isl team) := ⟨rfl, fun _ h => h⟩

theorem releaseAm_winds (s : State) (isl team : Nat) (t : Team) : Winds s (releaseAm s isl team t) := by
  refine (Winds.foldl _ (fun s i => ?_) _ _).after rfl rfl
  unfold releaseBanks
  split
  · exact .rfl' s
  · exact ⟨rfl, fun _ h => h⟩

theorem removeTeam_winds (s : State) (isl team : Nat) : Winds s (removeTeam s isl team) := by
  unfold removeTeam
  split
  · exact .rfl' s
  · split <;> exact ⟨rfl, fun _ h => h⟩

theorem renameTeam_winds (s : State) (isl a b : Nat) : Winds s (renameTeam s isl a b) := by
  refine ⟨rfl, fun x hx => ?_⟩
  unfold renameTeam at hx
  simp only [List.map_map, List.mem_map, Function.comp] at hx
  obtain ⟨r, hr, rfl⟩ := hx
  refine List.mem_map.2 ⟨r, hr, ?_⟩
  split <;> rfl

/-- A view of a table's entries that does not tell a new value from the old one. -/
theorem Tbl.map_set_same {κ α β : Type} [DecidableEq κ] {t : Tbl κ α} {x : κ} {v w : α} (g : κ × α → β)
    (h : t.get? x = some v) (hg : g (x, w) = g (x, v)) : (t.set x w).map g = t.map g := by
  induction t with
  | nil => exact nomatch h
  | cons e t ih =>
    obtain ⟨k, u⟩ := e
    by_cases hk : k = x
    · subst hk
      obtain rfl : u = v := by simpa [Tbl.get?] using h
      simp [Tbl.set, hg]
    · simp only [Tbl.get?, hk, if_false] at h
      simp [Tbl.set, hk, ih h]

/-- R117: an overrun shortens a residency; the rotation is as it was otherwise. -/
theorem markOverrun_winds (s : State) (t : Team) : Winds s (markOverrun s t) := by
  unfold markOverrun
  split
  · next n r hn hr =>
    dsimp only
    split
    · refine ⟨?_, fun _ h => h⟩
      have hget : s.par.rots.get? n = some r := by rw [rotationOf, hn] at hr; exact hr
      have hrots := Tbl.map_set_same (fun e : Nat × Rotation => (e.1, { e.2 with shorten := [] })) hget
        (w := { r with shorten := r.shorten.set t.part (s.hub.ns - (r.tick.getD s.hub.ns + r.deadline)) }) rfl
      show ((s.par.parts, (s.par.rots.set n _).map _, _), _) = _
      rw [hrots]
      rfl
    · exact .rfl' s
  · exact .rfl' s

theorem retireTeam_winds (s : State) (isl team : Nat) (t : Team) : Winds s (retireTeam s isl team t) := by
  have hheld : Winds s (forgetMembers (releaseChains (dropEndless (flushOuts (stopTeam s isl team)
      fun x => x.ref.chain.isl == isl && (x.core.map t.inSpan).getD false) isl team false) isl team) isl team) :=
    ((((stopTeam_winds ..).trans (flushOuts_winds ..)).trans (dropEndless_winds ..)).trans (releaseChains_winds ..)).trans
      (forgetMembers_winds ..)
  have hgone (u : State) (h : Winds s u) : Winds s (removeTeam (releaseAm (markOverrun u t) isl team t) isl team) :=
    ((h.trans (markOverrun_winds ..)).trans (releaseAm_winds ..)).trans (removeTeam_winds ..)
  unfold retireTeam
  dsimp only
  generalize forgetMembers _ isl team = u at hheld ⊢
  split
  · refine (hgone _ ?_).trans (renameTeam_winds ..)
    exact hheld.trans ⟨rfl, fun _ h => h⟩
  · refine hgone _ ?_
    exact hheld.trans ⟨rfl, fun _ h => h⟩

/-- R147: the end of a team is complete. -/
theorem retireEnd_winds (s : State) (t : Team) (e : EndRec) : Winds s (retireEnd s t e) :=
  (retireTeam_winds ..).after rfl rfl

theorem writeField_winds (s : State) (isl part va hi lo v : Nat) : Winds s (writeField s isl part va hi lo v) := by
  unfold writeField
  dsimp only
  split
  · exact winds_of_unreported (unreported_of_unbanked (bypassBank_unbanked ..))
  · next e _ =>
    exact winds_of_unreported (s := s) (t := report (e.note s isl part) part 1 [isl, va]) (note_unreported e s isl part)

theorem endLaunch_winds (s : State) (part : Nat) (t : TaskRec) (res : Nat × Nat × Nat) : Winds s (endLaunch s part t res) := by
  refine ⟨?_, fun _ h => h⟩
  have hrefs : (endLaunch s part t res).hub.cmds.map (·.ref) = s.hub.cmds.map (·.ref) := by
    simp only [endLaunch, List.map_map]
    refine List.map_congr_left fun c _ => ?_
    simp only [Function.comp]
    split <;> rfl
  show (_, _, (endLaunch s part t res).hub.cmds.map (·.ref), _) = _
  rw [hrefs]
  rfl

theorem closePsw_winds (s : State) (isl lcause : Nat) (t : Team) : Winds s (closePsw s isl lcause t) := by
  unfold closePsw
  split
  · unfold writePsw
    split
    · exact winds_of_unreported rfl
    · exact putVa_winds (lost := fun s => report s t.part 8 _) (fun _ => rfl) ..
  · exact .rfl' s

theorem closeEnd_winds (s : State) (t : Team) (e : EndRec) : Winds s (closeEnd s t e) := by
  unfold closeEnd closeRecord
  have hfields (u : State) (isl part va a b c : Nat) : Winds u (writeField (writeField (writeField u isl part va 224 213 a)
      isl part va 212 205 b) isl part va 63 56 c) :=
    ((writeField_winds ..).trans (writeField_winds ..)).trans (writeField_winds ..)
  dsimp only
  split
  · exact (closePsw_winds ..).trans (hfields ..)
  · exact ((closePsw_winds ..).trans (hfields ..)).trans (endLaunch_winds ..)

/-- R110: a team of the partition, as its reset ends it, with nothing of it outstanding. -/
theorem flrTeam_winds (s : State) (k : Nat × Nat) : Winds s (flrTeam s k) := by
  unfold flrTeam
  split
  · exact .rfl' s
  · dsimp only
    have hstop := stopTeam_winds s k.1 k.2
    generalize stopTeam s k.1 k.2 = u at hstop ⊢
    split
    · refine Winds.trans ?_ (removeTeam_winds ..)
      exact hstop.trans ⟨rfl, fun _ h => h⟩
    · refine Winds.trans (Winds.trans ?_ (closeEnd_winds ..)) (retireEnd_winds ..)
      exact hstop.trans ⟨rfl, fun _ h => h⟩

/-- R110: the teams of a partition have ended and its engines have abandoned their commands. -/
def flrTeams (s : State) (part : Nat) : State :=
  let s1 := (s.task.saved.filter (·.old.part = part)).foldl (fun s e =>
    putVa s e.isl part (e.old.hdr.resmap + 8) (leBytes 8 0) id) (flrEngines s part)
  ((s1.task.teams.filter (·.2.part = part)).map (·.1)).foldl flrTeam s1

theorem flrTeams_winds (s : State) (part : Nat) : Winds (flrEngines s part) (flrTeams s part) := by
  refine Winds.trans (Winds.foldl _ (fun s e => ?_) _ _) (Winds.foldl _ flrTeam_winds _ _)
  exact putVa_winds (lost := id) (fun _ => rfl) ..

theorem flrEnd_eq (s : State) (part : Nat) : flrEnd s part = { flrTeams s part with
    task := { (flrTeams s part).task with
      saved := (flrTeams s part).task.saved.filter (·.old.part ≠ part)
      queue := (flrTeams s part).task.queue.filter (·.part ≠ part) }
    par := { (flrTeams s part).par with
      faults := (flrTeams s part).par.faults.filter (·.key.part ≠ part)
      fchains := (flrTeams s part).par.fchains.drop fun k => k.1 == part } } := rfl

/-- What a reset's second step leaves: nothing of the partition that runs or waits on an island. -/
theorem flrEnd_leaves (s : State) (part : Nat) :
    (flrEnd s part).lasting = s.lasting ∧ (∀ r ∈ (flrEnd s part).eng.recs, r.ref.chain.part ≠ part) ∧
      (∀ x ∈ (flrEnd s part).task.queue, x.part ≠ part) ∧ (∀ x ∈ (flrEnd s part).task.saved, x.old.part ≠ part) ∧
      (∀ x ∈ (flrEnd s part).par.faults, x.key.part ≠ part) ∧ ∀ i, (flrEnd s part).par.fchains.get? (part, i) = none := by
  have hwinds := flrTeams_winds s part
  rw [flrEnd_eq]
  generalize flrTeams s part = u at hwinds ⊢
  refine ⟨hwinds.lasting, fun r hr => ?_, fun x hx => ?_, fun x hx => ?_, fun x hx => ?_, fun i => ?_⟩
  · obtain ⟨r', hr', href⟩ := List.mem_map.1 (hwinds.recs (List.mem_map_of_mem hr))
    rw [← href]
    simpa using (List.mem_filter.1 hr').2
  · simpa using (List.mem_filter.1 hx).2
  · simpa using (List.mem_filter.1 hx).2
  · simpa using (List.mem_filter.1 hx).2
  · exact Tbl.get?_drop_of (p := fun k : Nat × Nat => k.1 == part) (beq_self_eq_true part)

/-! ### Steps 3 and 4: packets, keys and tables -/

/-- What the zeroing of a frame leaves alone: all but memory, watches and what engines have read ahead. -/
def State.unzeroed (s : State) : State := { s.unbanked with eng := { s.eng with bufs := [] } }

theorem tenure_of_unzeroed {s t : State} (h : t.unzeroed = s.unzeroed) : t.tenure = s.tenure := by
  exact (congrArg State.tenure h :)

theorem zeroFrame_unzeroed (s : State) (isl f : Nat) : (zeroFrame s isl f).unzeroed = s.unzeroed := rfl

theorem emptyTlb_unzeroed (s : State) (isl : Nat) (p : TlbAgent → TlbEntry → Bool) :
    (emptyTlb s isl p).unzeroed = s.unzeroed := rfl

theorem foldl_zeroFrame_unzeroed (l : List (Nat × Nat)) (s : State) :
    (l.foldl (fun s f => zeroFrame s f.1 f.2) s).unzeroed = s.unzeroed := by
  refine foldl_keeps _ State.unzeroed (fun s f => ?_) _ _
  exact zeroFrame_unzeroed ..

theorem foldl_emptyTlb_unzeroed (part : Nat) (l : List Nat) (s : State) :
    (l.foldl (fun s i => emptyTlb s i fun _ e => e.part == part) s).unzeroed = s.unzeroed := by
  refine foldl_keeps _ State.unzeroed (fun s i => ?_) _ _
  exact emptyTlb_unzeroed ..

/-- R110: the tables of a partition go, and its roots; nothing else but memory changes. -/
theorem flrTables_unzeroed (s : State) (part : Nat) : (flrTables s part).unzeroed = ({ s with par := { s.par with
    tables := s.par.tables.filter (·.2 ≠ part)
    parts := s.par.parts.modify part fun p => { p with roots := [] } } } : State).unzeroed := by
  have hzero := (foldl_zeroFrame_unzeroed ((s.par.tables.filter (·.2 = part)).map (·.1)) _).trans
    (foldl_emptyTlb_unzeroed part (islandsOf s part) s)
  exact congrArg (fun u : State => { u with par := { u.par with
    tables := u.par.tables.filter (·.2 ≠ part)
    parts := u.par.parts.modify part fun p => { p with roots := [] } } }) hzero

/-- Nothing of a partition runs, waits or is registered. -/
structure Withdrawn (s : State) (part : Nat) : Prop where
  queue : ∀ x ∈ s.task.queue, x.part ≠ part
  saved : ∀ x ∈ s.task.saved, x.old.part ≠ part
  cmds : ∀ x ∈ s.hub.cmds, x.ref.part ≠ part
  chains : ∀ k, s.hub.chains.get? (part, k) = none
  fchains : ∀ i, s.par.fchains.get? (part, i) = none
  regions : ∀ k, s.hub.regions.get? (part, k) = none
  recs : ∀ x ∈ s.eng.recs, x.ref.chain.part ≠ part
  faults : ∀ x ∈ s.par.faults, x.key.part ≠ part
  txns : ∀ x ∈ s.fab.txns, x.kslot ≠ part
  tables : ∀ x ∈ s.par.tables, x.2 ≠ part
  keys : (s.fab.keys.get? part).map (·.old) = some none

/-- R110: the partition before its tables go: stopped, ended, with its packets gone and a key of its own. -/
def flrEnded (s : State) (part : Nat) : State :=
  flrEnd (flrStop (flushPackets s fun p => p.kslot == part) part) part

theorem flrSteps_eq (s : State) (part : Nat) :
    flrSteps s part = flrTables (freshKey (flrPackets (flrEnded s part) part) part) part := rfl

/-- R110: what steps 1 to 4 of a reset leave. -/
theorem flrSteps_withdrawn (s : State) (part : Nat) : Withdrawn (flrSteps s part) part := by
  obtain ⟨htenure, hcmds, hchains⟩ := flrStop_leaves (flushPackets s fun p => p.kslot == part) part
  obtain ⟨hlasting, hrecs, hqueue, hsaved, hfaults, hfchains⟩ :=
    flrEnd_leaves (flrStop (flushPackets s fun p => p.kslot == part) part) part
  rw [show flrEnd (flrStop (flushPackets s fun p => p.kslot == part) part) part = flrEnded s part from rfl] at *
  have htables := flrTables_unzeroed (freshKey (flrPackets (flrEnded s part) part) part) part
  rw [flrSteps_eq]
  generalize flrTables _ part = t at htables ⊢
  generalize flrEnded s part = u at *
  generalize flrStop _ part = v at *
  simp only [State.lasting, Prod.mk.injEq] at hlasting
  obtain ⟨hlast, hchains', hrefs, -⟩ := hlasting
  have htask : t.task = u.task := congrArg (·.task) htables
  have hhub : t.hub = u.hub := congrArg (·.hub) htables
  have hrecs' : t.eng.recs = u.eng.recs := congrArg (·.eng.recs) htables
  have hfaults' : t.par.faults = u.par.faults := congrArg (·.par.faults) htables
  have hfchains' : t.par.fchains = u.par.fchains := congrArg (·.par.fchains) htables
  have htxns : t.fab.txns = u.fab.txns.filter fun x => x.kslot != part := congrArg (·.fab.txns) htables
  have htables' : t.par.tables = u.par.tables.filter (·.2 ≠ part) := congrArg (·.par.tables) htables
  have hkeys : t.fab.keys = (freshKey (flrPackets u part) part).fab.keys := congrArg (·.fab.keys) htables
  have hregions : u.hub.regions = s.hub.regions.drop fun k => k.1 == part :=
    congrArg (·.2.2.2.2.regions) ((hlast.trans htenure).trans (stopHub_tenure (flushPackets_tenure s _) part))
  refine ⟨by rwa [htask], by rwa [htask], fun x hx => ?cmds, fun k => ?chains, fun i => ?fchains, fun k => ?regions,
    by rwa [hrecs'], by rwa [hfaults'], fun x hx => ?txns, fun x hx => ?tables, ?keys⟩
  case cmds =>
    rw [hhub] at hx
    obtain ⟨y, hy, href⟩ := List.mem_map.1 (hrefs ▸ List.mem_map_of_mem (f := CmdRec.ref) hx)
    exact href ▸ hcmds y hy
  case chains =>
    rw [hhub, hchains']
    exact hchains k
  case fchains =>
    rw [hfchains']
    exact hfchains i
  case regions =>
    rw [hhub, hregions]
    exact Tbl.get?_drop_of (p := fun k : Nat × Nat => k.1 == part) (beq_self_eq_true part)
  case txns =>
    rw [htxns] at hx
    simpa using (List.mem_filter.1 hx).2
  case tables =>
    rw [htables'] at hx
    simpa using (List.mem_filter.1 hx).2
  case keys =>
    rw [hkeys]
    simp only [freshKey, Tbl.get?_set_self, Option.map_some]

/-- R110: what steps 1 to 4 of a reset leave of partitions, rotations, frames and queue pairs. -/
theorem flrSteps_tenure (s : State) (part : Nat) :
    (flrSteps s part).tenure = ((s.par.parts.modify part fun p => { p with roots := [] }), (stopHub s part).tenure.2) := by
  obtain ⟨htenure, -, -⟩ := flrStop_leaves (flushPackets s fun p => p.kslot == part) part
  obtain ⟨hlasting, -⟩ := flrEnd_leaves (flrStop (flushPackets s fun p => p.kslot == part) part) part
  have hended : (flrEnded s part).tenure = (stopHub s part).tenure :=
    ((Prod.mk.inj hlasting).1.trans htenure).trans (stopHub_tenure (flushPackets_tenure s _) part)
  rw [flrSteps_eq, tenure_of_unzeroed (flrTables_unzeroed ..)]
  generalize flrEnded s part = u at *
  exact congrArg (fun x => (x.1.modify part fun p : Part => { p with roots := [] }, x.2)) hended

end Sys2Proof.Machine
end

section
/-! R83 to R85, R112, R113: slices and engines that pass through the lehr when a partition comes, changes or goes. -/

namespace Sys2Proof.Machine

open Sys2Proof

/-! ### Folds and tables -/

/-- A fold that meets an element attains what that element's step attains, where later steps keep it. -/
theorem foldl_attains {α β : Type} (f : α → β → α) {Inv Goal : α → Prop} {b : β}
    (hinv : ∀ a x, Inv a → Inv (f a x))
    (hgoal : ∀ a, Inv a → Goal (f a b)) (hkeep : ∀ a x, Goal a → Goal (f a x)) {l : List β} (hb : b ∈ l) {a : α}
    (ha : Inv a) : Goal (l.foldl f a) := by
  induction l generalizing a with
  | nil => exact nomatch hb
  | cons x l ih =>
    rcases List.mem_cons.1 hb with rfl | hl
    · exact List.foldlRecOn l f (hgoal a ha) fun a h x _ => hkeep a x h
    · exact ih hl (hinv a x ha)

theorem Tbl.get?_modify {κ α : Type} [DecidableEq κ] (t : Tbl κ α) (x y : κ) (f : α → α) :
    (t.modify x f).get? y = if x = y then (t.get? y).map f else t.get? y := by
  unfold Tbl.modify
  split
  next v hv =>
    rw [Tbl.get?_set]
    by_cases h : x = y
    · subst h
      simp [hv]
    · simp [h]
  next hv =>
    by_cases h : x = y
    · subst h
      simp [hv]
    · simp [h]

theorem Tbl.erase_set {κ α : Type} [DecidableEq κ] (t : Tbl κ α) (x : κ) (v : α) : (t.set x v).erase x = t.erase x := by
  induction t with
  | nil => simp [Tbl.set, Tbl.erase]
  | cons e t ih =>
    obtain ⟨k, w⟩ := e
    unfold Tbl.erase at ih ⊢
    by_cases hk : k = x
    · subst hk
      simp [Tbl.set]
    · simpa [Tbl.set, hk] using ih

theorem Tbl.erase_modify {κ α : Type} [DecidableEq κ] (t : Tbl κ α) (x : κ) (f : α → α) :
    (t.modify x f).erase x = t.erase x := by
  unfold Tbl.modify
  split
  · exact Tbl.erase_set ..
  · rfl

/-! ### Jobs of the lehr -/

/-- The lehr has a job for slices of an island, for a reason, from one partition to another. -/
def State.scrubs (s : State) (i slices reason from_ into : Nat) : Prop :=
  ∃ j ∈ s.par.jobs, (j.isl, j.slices, j.reason, j.partOut, j.partIn) = (i, slices, reason, from_, into)

theorem State.scrubs.mono {s t : State} {i slices reason from_ into : Nat} (hjobs : s.par.jobs ⊆ t.par.jobs)
    (h : s.scrubs i slices reason from_ into) : t.scrubs i slices reason from_ into :=
  h.imp fun _ hj => ⟨hjobs hj.1, hj.2⟩

theorem addJob_cases (s : State) (j : LehrJob) :
    (j.slices = 0 ∧ j.reason ≠ 6 ∧ addJob s j = s) ∨
      addJob s j = fenceSlices { s with par := { s.par with jobs := s.par.jobs ++ [j] } } j.isl j.slices := by
  unfold addJob
  split
  next h => exact .inl ⟨h.1, h.2, rfl⟩
  next => exact .inr rfl

theorem addJob_jobs_subset (s : State) (j : LehrJob) : s.par.jobs ⊆ (addJob s j).par.jobs := by
  rcases addJob_cases s j with ⟨-, -, h⟩ | h
  · rw [h]
    exact fun _ h => h
  · rw [h]
    exact List.subset_append_left ..

theorem mem_addJob (s : State) {j : LehrJob} (h : j.slices ≠ 0) : j ∈ (addJob s j).par.jobs := by
  rcases addJob_cases s j with ⟨h0, -, -⟩ | h
  · exact absurd h0 h
  · rw [h]
    exact List.mem_append_right _ (List.mem_singleton_self j)

theorem foldl_jobs_subset {β : Type} (f : State → β → State) (h : ∀ s b, s.par.jobs ⊆ (f s b).par.jobs) (l : List β)
    (s : State) : s.par.jobs ⊆ (l.foldl f s).par.jobs := by
  induction l generalizing s with
  | nil => exact fun _ hj => hj
  | cons b l ih => exact List.Subset.trans (h s b) (ih _)

/-- What giving the lehr a job leaves alone: all but its jobs and the slices that wait. -/
def State.unjobbed (s : State) : State := { s with par := { s.par with jobs := [], fencedSlices := [] } }

theorem addJob_unjobbed (s : State) (j : LehrJob) : (addJob s j).unjobbed = s.unjobbed := by
  rcases addJob_cases s j with ⟨-, -, h⟩ | h
  · rw [h]
  · rw [h]
    rfl

/-! ### Islands that a partition takes and leaves -/

/-- The tenants' records and the keys. -/
def State.tenants (s : State) : Tbl Nat Part × Tbl Nat KeySlot := (s.par.parts.erase 0, s.fab.keys)

theorem part?_of_tenants {s t : State} (h : t.tenants = s.tenants) {p : Nat} (hp : p ≠ 0) : t.part? p = s.part? p := by
  have hparts : t.par.parts.erase 0 = s.par.parts.erase 0 := congrArg (·.1) h
  unfold State.part?
  rw [← Tbl.get?_erase_ne t.par.parts 0 p hp.symm, hparts, Tbl.get?_erase_ne _ 0 p hp.symm]

theorem mem_parts_of_tenants {s t : State} (h : t.tenants = s.tenants) {e : Nat × Part} (hp : e.1 ≠ 0) :
    e ∈ t.par.parts ↔ e ∈ s.par.parts := by
  have hparts : t.par.parts.erase 0 = s.par.parts.erase 0 := congrArg (·.1) h
  have hmem := congrArg (e ∈ ·) hparts
  simpa [Tbl.erase, hp] using hmem

theorem modEngines_tenants (s : State) (isl : Nat) (f : Nat → Nat) : (modEngines s 0 isl f).tenants = s.tenants :=
  congrArg (·, s.fab.keys) (Tbl.erase_modify ..)

theorem changeChain_winds (s : State) (r : ChainRef) (f : Chain → Chain) : Winds s (changeChain s r f) := by
  unfold changeChain syncChain
  split
  · split
    · exact (putWords_winds ..).after rfl rfl
    · exact ⟨rfl, fun _ h => h⟩
  · exact .rfl' s

theorem unbindCopies_winds (s : State) (p : ChainRef → Nat → Bool) (all : Bool) : Winds s (unbindCopies s p all) := by
  refine Winds.foldl _ (fun s c => ?_) _ _
  split
  · exact releaseChain_winds ..
  · exact changeChain_winds ..

theorem tenants_of_winds {s t : State} (h : Winds s t) : t.tenants = s.tenants :=
  congrArg (fun x => (x.1.1.erase 0, x.2.2.2)) h.lasting

theorem jobs_of_winds {s t : State} (h : Winds s t) : t.par.jobs = s.par.jobs :=
  congrArg (fun x => x.1.2.2.2.1) h.lasting

theorem tenants_of_unjobbed {s t : State} (h : t.unjobbed = s.unjobbed) : t.tenants = s.tenants := by
  exact (congrArg State.tenants h :)

/-- R84: an island's copy engines pass into or out of partition 0's hands, and chains of theirs are unbound. -/
def passEngines (s : State) (isl mine : Nat) (f : Nat → Nat) : State :=
  modEngines (unbindCopies s (fun c ce => c.isl == isl && nbit mine ce) true) 0 isl f

theorem passEngines_leaves (s : State) (isl mine : Nat) (f : Nat → Nat) :
    (passEngines s isl mine f).tenants = s.tenants ∧ (passEngines s isl mine f).par.jobs = s.par.jobs :=
  have h := unbindCopies_winds s (fun c ce => c.isl == isl && nbit mine ce) true
  ⟨(modEngines_tenants ..).trans (tenants_of_winds h), (jobs_of_winds h :)⟩

theorem takeIsland_some {id : Nat} {s : State} {p : Part} (isl : Nat) (hp : s.part? id = some p) :
    takeIsland id s isl =
      let mine := p.ce.getD isl 0 &&& enginesOf s 0 isl
      let s1 := passEngines s isl mine fun m => m - (m &&& mine)
      if s.par.parts.any fun e => e.1 != 0 && e.1 != id && p.overlaps e.2 then s1
      else addJob s1 ⟨isl, p.slices, mine, 2, 0, id⟩ := by
  unfold takeIsland
  rw [hp]
  rfl

theorem takeIsland_leaves (id : Nat) (s : State) (isl : Nat) :
    (takeIsland id s isl).tenants = s.tenants ∧ s.par.jobs ⊆ (takeIsland id s isl).par.jobs := by
  cases hp : s.part? id with
  | none =>
    unfold takeIsland
    rw [hp]
    exact ⟨rfl, fun _ h => h⟩
  | some p =>
    rw [takeIsland_some isl hp]
    dsimp only
    obtain ⟨htenants, hjobs⟩ := passEngines_leaves s isl (p.ce.getD isl 0 &&& enginesOf s 0 isl)
      fun m => m - (m &&& (p.ce.getD isl 0 &&& enginesOf s 0 isl))
    split
    · exact ⟨htenants, hjobs ▸ fun _ h => h⟩
    · exact ⟨(tenants_of_unjobbed (addJob_unjobbed ..)).trans htenants, hjobs ▸ addJob_jobs_subset ..⟩

/-- R84, R121: the slices that a partition takes alone pass through the lehr. -/
theorem takeIsland_scrubs {id : Nat} {s : State} {p : Part} (isl : Nat) (hp : s.part? id = some p)
    (halone : ∀ e ∈ s.par.parts, e.1 ≠ 0 → e.1 ≠ id → p.overlaps e.2 = false) (hslices : p.slices ≠ 0) :
    (takeIsland id s isl).scrubs isl p.slices 2 0 id := by
  have hshared : (s.par.parts.any fun e => e.1 != 0 && e.1 != id && p.overlaps e.2) = false := by
    simpa [and_imp] using halone
  rw [takeIsland_some isl hp]
  simp only [hshared, Bool.false_eq_true, if_false]
  exact ⟨_, mem_addJob _ hslices, rfl⟩

theorem foldl_takeIsland_leaves (id : Nat) (l : List Nat) (s : State) :
    (l.foldl (takeIsland id) s).tenants = s.tenants ∧ s.par.jobs ⊆ (l.foldl (takeIsland id) s).par.jobs :=
  ⟨foldl_keeps _ State.tenants (fun s i => (takeIsland_leaves id s i).1) l s,
    foldl_jobs_subset _ (fun s i => (takeIsland_leaves id s i).2) l s⟩

theorem foldl_takeIsland_scrubs {id : Nat} {s : State} {p : Part} (hid : id ≠ 0) (hp : s.part? id = some p)
    (halone : ∀ e ∈ s.par.parts, e.1 ≠ 0 → e.1 ≠ id → p.overlaps e.2 = false) (hslices : p.slices ≠ 0) {l : List Nat}
    {i : Nat} (hi : i ∈ l) : (l.foldl (takeIsland id) s).scrubs i p.slices 2 0 id := by
  refine foldl_attains (takeIsland id) (Inv := fun u => u.tenants = s.tenants)
    (fun u k hu => (takeIsland_leaves id u k).1.trans hu) (fun u hu => takeIsland_scrubs i ?_ ?_ hslices)
    (fun u k => State.scrubs.mono (takeIsland_leaves id u k).2) hi rfl
  · exact (part?_of_tenants hu hid).trans hp
  · exact fun e he hzero => halone e ((mem_parts_of_tenants hu hzero).1 he) hzero

theorem leaveIsland_leaves (id : Nat) (old : Part) (mask : Nat) (s : State) (isl : Nat) :
    (leaveIsland id old mask s isl).tenants = s.tenants ∧ s.par.jobs ⊆ (leaveIsland id old mask s isl).par.jobs := by
  obtain ⟨htenants, hjobs⟩ := passEngines_leaves s isl (if mask = old.slices then old.ce.getD isl 0 else 0)
    fun m => m ||| (if mask = old.slices then old.ce.getD isl 0 else 0)
  exact ⟨(tenants_of_unjobbed (addJob_unjobbed ..)).trans htenants, hjobs ▸ addJob_jobs_subset ..⟩

theorem leaveIsland_scrubs (id : Nat) (old : Part) {mask : Nat} (s : State) (isl : Nat) (hmask : mask ≠ 0) :
    (leaveIsland id old mask s isl).scrubs isl mask 3 id 0 :=
  ⟨_, mem_addJob _ hmask, rfl⟩

theorem foldl_leaveIsland_leaves (id : Nat) (old : Part) (mask : Nat) (l : List Nat) (s : State) :
    (l.foldl (leaveIsland id old mask) s).tenants = s.tenants ∧
      s.par.jobs ⊆ (l.foldl (leaveIsland id old mask) s).par.jobs :=
  ⟨foldl_keeps _ State.tenants (fun s i => (leaveIsland_leaves id old mask s i).1) l s,
    foldl_jobs_subset _ (fun s i => (leaveIsland_leaves id old mask s i).2) l s⟩

theorem foldl_leaveIsland_scrubs (id : Nat) (old : Part) {mask : Nat} (s : State) (hmask : mask ≠ 0) {l : List Nat} {i : Nat}
    (hi : i ∈ l) : (l.foldl (leaveIsland id old mask) s).scrubs i mask 3 id 0 :=
  foldl_attains (leaveIsland id old mask) (Inv := fun _ => True) (fun _ _ h => h)
    (fun u _ => leaveIsland_scrubs id old u i hmask) (fun u k => State.scrubs.mono (leaveIsland_leaves id old mask u k).2) hi
    trivial

/-! ### Creation and change -/

/-- R84: the checks of a partition's creation. -/
def Creates (s : State) (p : Nat) (q : Part) : Prop :=
  idFree s p = true ∧ partOk s p q = true ∧
    ∀ i ∈ maskBits 24 q.islands, enginesIdle s i (q.ce.getD i 0 &&& enginesOf s 0 i) = true

theorem creates_iff (s : State) (p : Nat) (q : Part) :
    Creates s p q ↔ (!idFree s p || !partOk s p q ||
      (maskBits 24 q.islands).any fun i => !enginesIdle s i (q.ce.getD i 0 &&& enginesOf s 0 i)) = false := by
  simp [Creates, and_assoc]

theorem createPart_refused {s : State} {p : Nat} {body : Part} (h : ¬ Creates s p body.requested) :
    createPart s p body = refuse s 4 := by
  rw [creates_iff, Bool.not_eq_false] at h
  exact if_pos h

theorem createPart_created {s : State} {p : Nat} {body : Part} (h : Creates s p body.requested) :
    createPart s p body = (maskBits 24 body.requested.islands).foldl (takeIsland p)
      (freshKey { s with par := { s.par with parts := s.par.parts.set p body.requested } } p) := by
  rw [creates_iff] at h
  exact if_neg fun h' => Bool.false_ne_true (h.symm.trans h')

/-- The entries of other partitions stay when a partition's record is set. -/
theorem Tbl.mem_set {κ α : Type} [DecidableEq κ] {t : Tbl κ α} {x : κ} {v : α} {e : κ × α} (hx : e.1 ≠ x) :
    e ∈ t.set x v ↔ e ∈ t := by
  have hmem := congrArg (e ∈ ·) (Tbl.erase_set t x v)
  simpa [Tbl.erase, hx] using hmem

/-- R33, R84: what the creation of a partition leaves. -/
theorem createPart_leaves {s : State} {p : Nat} {body : Part} (hp : p ≠ 0) (h : Creates s p body.requested) :
    let u := createPart s p body
    u.part? p = some body.requested ∧
      (u.fab.keys.get? p).map (fun k => (k.cur, k.old)) = some (s.fab.nextEpoch, none) ∧
      ∀ i ∈ maskBits 24 body.requested.islands,
        (∀ e ∈ s.par.parts, e.1 ≠ 0 → e.1 ≠ p → body.requested.overlaps e.2 = false) → body.requested.slices ≠ 0 →
          u.scrubs i body.requested.slices 2 0 p := by
  intro u
  have hu : u = (maskBits 24 body.requested.islands).foldl (takeIsland p)
      (freshKey { s with par := { s.par with parts := s.par.parts.set p body.requested } } p) := createPart_created h
  generalize hs1 : freshKey { s with par := { s.par with parts := s.par.parts.set p body.requested } } p = s1 at hu
  have hset : s1.part? p = some body.requested := by subst hs1; exact Tbl.get?_set_self ..
  have hparts : s1.par.parts = s.par.parts.set p body.requested := by subst hs1; rfl
  have hkey : (s1.fab.keys.get? p).map (fun k => (k.cur, k.old)) = some (s.fab.nextEpoch, none) := by
    subst hs1
    simp [freshKey]
  obtain ⟨htenants, -⟩ := foldl_takeIsland_leaves p (maskBits 24 body.requested.islands) s1
  rw [← hu] at htenants
  have hkeys : u.fab.keys = s1.fab.keys := congrArg (·.2) htenants
  refine ⟨(part?_of_tenants htenants hp).trans hset, by rw [hkeys]; exact hkey, fun i hi halone hslices => ?_⟩
  rw [hu]
  refine foldl_takeIsland_scrubs hp hset (fun e he hzero hne => halone e ?_ hzero hne) hslices hi
  rw [hparts] at he
  exact (Tbl.mem_set hne).1 he

/-- R83, R84: a partition's record after a change, and the checks of the change. -/
def Part.changed (old body : Part) : Part := { body with roots := old.roots, rotation := old.rotation }

/-- The islands that a change gives up, and those that it takes. -/
def islandsLeft (old body : Part) : List Nat := (maskBits 24 old.islands).filter fun i => !nbit body.islands i

def islandsCome (old body : Part) : List Nat := (maskBits 24 body.islands).filter fun i => !nbit old.islands i

def Changes (s : State) (p : Nat) (old body : Part) : Prop :=
  partOk s p (old.changed body) = true ∧
    (old.rotation = none ∨ old.islands = body.islands ∧ old.slices = body.slices) ∧
    (∀ i ∈ maskBits 24 (old.islands &&& body.islands), old.ce.getD i 0 = body.ce.getD i 0) ∧
    (∀ i ∈ islandsLeft old body,
      enginesIdle s i (old.ce.getD i 0) = true ∧ ∀ e ∈ s.par.frames, e.1.1 ≠ i ∨ e.2.2 ≠ p) ∧
    ∀ i ∈ islandsCome old body, enginesIdle s i (body.ce.getD i 0 &&& enginesOf s 0 i) = true

theorem changes_iff (s : State) (p : Nat) (old body : Part) :
    Changes s p old body ↔ (!partOk s p (old.changed body) ||
      ((old.islands != body.islands || old.slices != body.slices) && old.rotation.isSome) ||
      (maskBits 24 (old.islands &&& body.islands)).any (fun i => old.ce.getD i 0 != body.ce.getD i 0) ||
      (islandsLeft old body).any (fun i => !enginesIdle s i (old.ce.getD i 0) ||
        s.par.frames.any fun e => e.1.1 == i && e.2.2 == p) ||
      (islandsCome old body).any fun i => !enginesIdle s i (body.ce.getD i 0 &&& enginesOf s 0 i)) = false := by
  have hrot : old.rotation = none ∨ old.islands = body.islands ∧ old.slices = body.slices ↔
      ((old.islands != body.islands || old.slices != body.slices) && old.rotation.isSome) = false := by
    cases old.rotation <;> simp
  have hframes (i : Nat) : (∀ e ∈ s.par.frames, e.1.1 ≠ i ∨ e.2.2 ≠ p) ↔
      (s.par.frames.any fun e => e.1.1 == i && e.2.2 == p) = false := by
    simp only [List.any_eq_false, Bool.and_eq_true, beq_iff_eq, not_and_or, ne_eq]
  simp only [Changes, hrot, hframes, Bool.or_eq_false_iff, List.any_eq_false, Bool.not_eq_false', Bool.not_eq_true', and_assoc,
    Bool.not_eq_true, Bool.not_eq_false, bne_eq_false_iff_eq]

/-- R83, R84: slices that a partition gives up and takes on an island that it keeps. -/
def keepIsland (id : Nat) (old body : Part) (s : State) (isl : Nat) : State :=
  addJob (addJob s ⟨isl, old.slices - (old.slices &&& body.slices), 0, 3, id, 0⟩)
    ⟨isl, body.slices - (old.slices &&& body.slices), 0, 2, 0, id⟩

theorem changePart_refused {s : State} {p : Nat} {old body : Part} (h : ¬ Changes s p old body) :
    changePart s p old body = refuse s 4 := by
  rw [changes_iff, Bool.not_eq_false] at h
  exact if_pos h

theorem changePart_changed {s : State} {p : Nat} {old body : Part} (h : Changes s p old body) :
    changePart s p old body =
      (maskBits 24 (old.islands &&& body.islands)).foldl (keepIsland p old body)
        ((islandsCome old body).foldl (takeIsland p) ((islandsLeft old body).foldl (leaveIsland p old old.slices)
          { s with par := { s.par with parts := s.par.parts.set p (old.changed body) } })) := by
  rw [changes_iff] at h
  exact if_neg fun h' => Bool.false_ne_true (h.symm.trans h')

theorem keepIsland_leaves (id : Nat) (old body : Part) (s : State) (isl : Nat) :
    (keepIsland id old body s isl).tenants = s.tenants ∧ s.par.jobs ⊆ (keepIsland id old body s isl).par.jobs :=
  ⟨tenants_of_unjobbed ((addJob_unjobbed ..).trans (addJob_unjobbed ..)),
    List.Subset.trans (addJob_jobs_subset ..) (addJob_jobs_subset ..)⟩

theorem foldl_keepIsland_leaves (id : Nat) (old body : Part) (l : List Nat) (s : State) :
    (l.foldl (keepIsland id old body) s).tenants = s.tenants ∧
      s.par.jobs ⊆ (l.foldl (keepIsland id old body) s).par.jobs :=
  ⟨foldl_keeps _ State.tenants (fun s i => (keepIsland_leaves id old body s i).1) l s,
    foldl_jobs_subset _ (fun s i => (keepIsland_leaves id old body s i).2) l s⟩

theorem foldl_keepIsland_scrubs (id : Nat) (old body : Part) (s : State) {l : List Nat} {i : Nat} (hi : i ∈ l) :
    let u := l.foldl (keepIsland id old body) s
    (old.slices - (old.slices &&& body.slices) ≠ 0 → u.scrubs i (old.slices - (old.slices &&& body.slices)) 3 id 0) ∧
      (body.slices - (old.slices &&& body.slices) ≠ 0 → u.scrubs i (body.slices - (old.slices &&& body.slices)) 2 0 id) := by
  have hattains {slices reason from_ into : Nat}
      (h : ∀ u, (keepIsland id old body u i).scrubs i slices reason from_ into) :
      (l.foldl (keepIsland id old body) s).scrubs i slices reason from_ into :=
    foldl_attains (keepIsland id old body) (Inv := fun _ => True) (fun _ _ h => h) (fun u _ => h u)
      (fun u k => State.scrubs.mono (keepIsland_leaves id old body u k).2) hi trivial
  exact ⟨fun hlost => hattains fun u => ⟨_, addJob_jobs_subset _ _ (mem_addJob u hlost), rfl⟩,
    fun hwon => hattains fun u => ⟨_, mem_addJob _ hwon, rfl⟩⟩

/-- R83, R84: what a change of a partition leaves. -/
theorem changePart_leaves {s : State} {p : Nat} {old body : Part} (hp : p ≠ 0) (h : Changes s p old body) :
    let u := changePart s p old body
    u.part? p = some (old.changed body) ∧
      (∀ i ∈ islandsLeft old body, old.slices ≠ 0 → u.scrubs i old.slices 3 p 0) ∧
      (∀ i ∈ islandsCome old body,
        (∀ e ∈ s.par.parts, e.1 ≠ 0 → e.1 ≠ p → (old.changed body).overlaps e.2 = false) → body.slices ≠ 0 →
          u.scrubs i body.slices 2 0 p) ∧
      ∀ i ∈ maskBits 24 (old.islands &&& body.islands),
        (old.slices - (old.slices &&& body.slices) ≠ 0 → u.scrubs i (old.slices - (old.slices &&& body.slices)) 3 p 0) ∧
        (body.slices - (old.slices &&& body.slices) ≠ 0 → u.scrubs i (body.slices - (old.slices &&& body.slices)) 2 0 p) := by
  intro u
  have hu := changePart_changed h
  generalize hs1 : ({ s with par := { s.par with parts := s.par.parts.set p (old.changed body) } } : State) = s1 at hu
  have hset : s1.part? p = some (old.changed body) := by subst hs1; exact Tbl.get?_set_self ..
  have hparts : s1.par.parts = s.par.parts.set p (old.changed body) := by subst hs1; rfl
  obtain ⟨hleft, -⟩ := foldl_leaveIsland_leaves p old old.slices (islandsLeft old body) s1
  have hleave := fun i hi hslices =>
    foldl_leaveIsland_scrubs p old (mask := old.slices) s1 hslices (l := islandsLeft old body) (i := i) hi
  generalize (islandsLeft old body).foldl (leaveIsland p old old.slices) s1 = s2 at hu hleft hleave
  obtain ⟨hcome, hcomejobs⟩ := foldl_takeIsland_leaves p (islandsCome old body) s2
  have htake (i : Nat) (hi : i ∈ islandsCome old body)
      (halone : ∀ e ∈ s.par.parts, e.1 ≠ 0 → e.1 ≠ p → (old.changed body).overlaps e.2 = false)
      (hslices : (old.changed body).slices ≠ 0) :=
    foldl_takeIsland_scrubs hp ((part?_of_tenants hleft hp).trans hset) (fun e he hzero hne =>
      halone e ((Tbl.mem_set hne).1 (hparts ▸ (mem_parts_of_tenants hleft hzero).1 he)) hzero hne) hslices hi
  generalize (islandsCome old body).foldl (takeIsland p) s2 = s3 at hu hcome hcomejobs htake
  obtain ⟨hkeep, hkeepjobs⟩ := foldl_keepIsland_leaves p old body (maskBits 24 (old.islands &&& body.islands)) s3
  rw [← hu] at hkeep hkeepjobs
  refine ⟨(part?_of_tenants (hkeep.trans (hcome.trans hleft)) hp).trans hset,
    fun i hi hslices => ((hleave i hi hslices).mono hcomejobs).mono hkeepjobs,
    fun i hi halone hslices => (htake i hi halone hslices).mono hkeepjobs, fun i hi => ?_⟩
  show (_ → (changePart s p old body).scrubs _ _ _ _ _) ∧ (_ → (changePart s p old body).scrubs _ _ _ _ _)
  rw [hu]
  exact foldl_keepIsland_scrubs p old body s3 hi

end Sys2Proof.Machine
end

section
/-! R110 to R112: what a function-level reset and a deletion leave. -/

namespace Sys2Proof.Machine

open Sys2Proof

/-! ### The slices that a partition holds -/

/-- A partition without its roots. -/
def Part.rootless (p : Part) : Part := { p with roots := [] }

/-- A rotation without what an overrun shortens (R117). -/
def Rotation.unshortened (r : Rotation) : Rotation := { r with shorten := [] }

/-- What the slices that a partition holds rest on: the partitions but for their roots, and the rotations but for what an
overrun shortens. -/
def State.tenancy (s : State) : Tbl Nat Part × Tbl Nat Rotation :=
  (s.par.parts.map fun e => (e.1, e.2.rootless), s.par.rots.map fun e => (e.1, e.2.unshortened))

theorem Tbl.get?_map_congr {κ α β : Type} [DecidableEq κ] {t u : Tbl κ α} (f : α → β)
    (h : (t.map fun e => (e.1, f e.2)) = u.map fun e => (e.1, f e.2)) (x : κ) : (t.get? x).map f = (u.get? x).map f := by
  rw [← Tbl.get?_map t (fun e => (e.1, f e.2)) (fun _ => f) (fun _ => rfl), h, Tbl.get?_map u _ (fun _ => f) (fun _ => rfl)]

theorem part?_of_tenancy {s t : State} (h : t.tenancy = s.tenancy) (p : Nat) :
    (t.part? p).map Part.rootless = (s.part? p).map Part.rootless :=
  Tbl.get?_map_congr Part.rootless (congrArg (·.1) h) p

theorem rots_of_tenancy {s t : State} (h : t.tenancy = s.tenancy) (n : Nat) :
    (t.par.rots.get? n).map Rotation.unshortened = (s.par.rots.get? n).map Rotation.unshortened :=
  Tbl.get?_map_congr Rotation.unshortened (congrArg (·.2) h) n

theorem Part.rootless_eq {p q : Part} (h : p.rootless = q.rootless) :
    p.islands = q.islands ∧ p.slices = q.slices ∧ p.rotation = q.rotation :=
  ⟨(congrArg Part.islands h :), (congrArg Part.slices h :), (congrArg Part.rotation h :)⟩

theorem Rotation.unshortened_eq {q r : Rotation} (h : q.unshortened = r.unshortened) :
    q.tick = r.tick ∧ q.late = r.late ∧ q.resident = r.resident ∧ q.incoming = r.incoming :=
  ⟨(congrArg Rotation.tick h :), (congrArg Rotation.late h :), (congrArg Rotation.resident h :),
    (congrArg Rotation.incoming h :)⟩

theorem islandsOf_of_tenancy {s t : State} (h : t.tenancy = s.tenancy) (p : Nat) : islandsOf t p = islandsOf s p := by
  have hp := part?_of_tenancy h p
  unfold islandsOf
  generalize t.part? p = a at hp ⊢
  generalize s.part? p = b at hp ⊢
  cases a <;> cases b
  · rfl
  · exact nomatch hp
  · exact nomatch hp
  · obtain ⟨hislands, -⟩ := Part.rootless_eq (Option.some.inj hp)
    simp only [hislands]

theorem holdsNow_of_tenancy {s t : State} (h : t.tenancy = s.tenancy) {p : Nat} (hp : p ≠ 0) (isl k : Nat) :
    holdsNow t p isl k = holdsNow s p isl k := by
  have hpart := part?_of_tenancy h p
  unfold holdsNow ownsSlice unformed rotationOf
  simp only [if_neg hp]
  generalize t.part? p = a at hpart ⊢
  generalize s.part? p = b at hpart ⊢
  cases a with
  | none =>
    cases b with
    | none => rfl
    | some y => exact nomatch hpart
  | some x =>
    cases b with
    | none => exact nomatch hpart
    | some y =>
      obtain ⟨hislands, hslices, hrotation⟩ := Part.rootless_eq (Option.some.inj hpart)
      simp only [Option.map_some, Option.getD_some, Option.bind_some, Part.holds, hislands, hslices, hrotation]
      cases y.rotation with
      | none => rfl
      | some n =>
        have hrots := rots_of_tenancy h n
        simp only [Option.bind_some]
        generalize t.par.rots.get? n = q at hrots ⊢
        generalize s.par.rots.get? n = r at hrots ⊢
        cases q with
        | none =>
          cases r with
          | none => rfl
          | some r => exact nomatch hrots
        | some q =>
          cases r with
          | none => exact nomatch hrots
          | some r =>
            obtain ⟨htick, hlate, hresident, hincoming⟩ := Rotation.unshortened_eq (Option.some.inj hrots)
            simp only [htick, hlate, hresident, hincoming]

theorem heldMask_of_tenancy {s t : State} (h : t.tenancy = s.tenancy) {p : Nat} (hp : p ≠ 0) (isl : Nat) :
    heldMask t p isl = heldMask s p isl := by
  unfold heldMask
  simp only [holdsNow_of_tenancy h hp]

/-! ### What the last steps leave alone -/

/-- What the last steps of a reset leave alone: all but partitions, rotations, frames, slices and queue pairs in error. -/
def State.unheld (s : State) : State := { s with
  par := { s.par with parts := [], rots := [], frames := [], jobs := [], fencedSlices := [], flr := [] }
  hub := { s.hub with qpError := [] } }

theorem unheld_of_unjobbed {s t : State} (h : t.unjobbed = s.unjobbed) : t.unheld = s.unheld := by
  exact (congrArg State.unheld h :)

theorem tenancy_of_unjobbed {s t : State} (h : t.unjobbed = s.unjobbed) : t.tenancy = s.tenancy := by
  exact (congrArg State.tenancy h :)

theorem Withdrawn.of_unheld {s t : State} {part : Nat} (h : t.unheld = s.unheld) (hs : Withdrawn s part) : Withdrawn t part := by
  have hs' : Withdrawn s.unheld part :=
    ⟨hs.queue, hs.saved, hs.cmds, hs.chains, hs.fchains, hs.regions, hs.recs, hs.faults, hs.txns, hs.tables, hs.keys⟩
  rw [← h] at hs'
  exact ⟨hs'.queue, hs'.saved, hs'.cmds, hs'.chains, hs'.fchains, hs'.regions, hs'.recs, hs'.faults, hs'.txns, hs'.tables,
    hs'.keys⟩

/-! ### Frames -/

/-- R110, R112: the frames that a reset, or a deletion, gives to be scrubbed. -/
def goesToScrub (part : Nat) (delete : Bool) (x : FrameSt × Nat) : Bool :=
  x.2 == part && (x.1 == .owned || x.1 == .scrub || (delete && x.1 == .table))

theorem flrFrames_frames (s : State) (part : Nat) (delete : Bool) (k : Nat × Nat) :
    (flrFrames s part delete).par.frames.get? k =
      (s.par.frames.get? k).map fun x => if goesToScrub part delete x then (.scrub, part) else x := by
  refine Tbl.get?_map s.par.frames _ (fun _ x => if goesToScrub part delete x then (.scrub, part) else x) (fun e => ?_) k
  show (if goesToScrub part delete e.2 = true then _ else _) = (_, if goesToScrub part delete e.2 = true then _ else _)
  split <;> rfl

theorem frames_of_tenure {s : State} {x} (h : s.tenure = x) : s.par.frames = x.2.2.1 := congrArg (·.2.2.1) h

theorem parts_of_tenure {s : State} {x} (h : s.tenure = x) : s.par.parts = x.1 := congrArg (·.1) h

theorem qpError_of_tenure {s : State} {x} (h : s.tenure = x) : s.hub.qpError = x.2.2.2.2.qpError :=
  congrArg (·.2.2.2.2.qpError) h

theorem tenancy_of_tenure {s : State} {x} (h : s.tenure = x) :
    s.tenancy = (x.1.map fun e => (e.1, e.2.rootless), x.2.1) :=
  congrArg (fun x => (x.1.map fun e => (e.1, Part.rootless e.2), x.2.1)) h

theorem flrSteps_frames (s : State) (part : Nat) : (flrSteps s part).par.frames = s.par.frames :=
  frames_of_tenure (flrSteps_tenure s part)

theorem flrSteps_part? (s : State) (part : Nat) :
    (flrSteps s part).part? part = (s.part? part).map fun p => { p with roots := [] } := by
  unfold State.part?
  rw [parts_of_tenure (flrSteps_tenure s part), Tbl.get?_modify, if_pos rfl]

theorem flrSteps_qpError (s : State) (part : Nat) : (flrSteps s part).hub.qpError = (stopHub s part).hub.qpError :=
  qpError_of_tenure (flrSteps_tenure s part)

theorem flrSteps_tenancy (s : State) (part : Nat) : (flrSteps s part).tenancy = s.tenancy := by
  rw [tenancy_of_tenure (flrSteps_tenure s part)]
  refine congrArg (·, _) ?_
  unfold Tbl.modify
  split
  next p hp => exact Tbl.map_set_same (fun e => (e.1, e.2.rootless)) hp (w := { p with roots := [] }) rfl
  next => rfl

/-! ### Function-level reset -/

/-- R110, R130: who has a reset partition's slices after the lehr: in a switch, the member that comes in. -/
def slicesInto (s : State) (part : Nat) : Nat :=
  match rotationOf s part with
  | some r => if r.tick.isSome ∧ r.resident = part then r.incoming else part
  | none => part

/-- R110: an island's slices that a partition holds wait for the lehr. -/
def scrubHeld (part into : Nat) (p : Part) (s : State) (isl : Nat) : State :=
  addJob s ⟨isl, heldMask s part isl, p.ce.getD isl 0, 4, part, into⟩

theorem flrSlices_some {s : State} {part : Nat} {p : Part} (hp : s.part? part = some p) :
    flrSlices s part = (islandsOf s part).foldl (scrubHeld part (slicesInto s part) p) s := by
  unfold flrSlices
  rw [hp]
  rfl

/-- R110: the slices that a partition holds wait for the lehr. -/
theorem flrSlices_leaves {s : State} {part : Nat} {p : Part} (hpart : part ≠ 0) (hp : s.part? part = some p) :
    (flrSlices s part).unjobbed = s.unjobbed ∧ ∀ i ∈ islandsOf s part, heldMask s part i ≠ 0 →
      ∃ j ∈ (flrSlices s part).par.jobs, (j.isl, j.slices, j.reason, j.partOut) = (i, heldMask s part i, 4, part) := by
  rw [flrSlices_some hp]
  generalize slicesInto s part = into
  refine ⟨foldl_keeps _ State.unjobbed (fun s i => addJob_unjobbed ..) _ _, fun i hi hheld => ?_⟩
  refine foldl_attains (scrubHeld part into p) (Inv := fun u => u.tenancy = s.tenancy)
    (Goal := fun u => ∃ j ∈ u.par.jobs, (j.isl, j.slices, j.reason, j.partOut) = (i, heldMask s part i, 4, part))
    (fun u k hu => (tenancy_of_unjobbed (addJob_unjobbed ..)).trans hu) (fun u hu => ?_)
    (fun u k h => h.imp fun _ hj => ⟨addJob_jobs_subset _ _ hj.1, hj.2⟩) hi rfl
  have hmask := heldMask_of_tenancy hu hpart i
  exact ⟨_, mem_addJob _ (by rw [hmask]; exact hheld), by rw [hmask]⟩

/-- R110: what a function-level reset leaves. -/
theorem flr_leaves {s : State} {part : Nat} {old : Part} (hpart : part ≠ 0) (hold : s.part? part = some old) :
    let u := flr s part
    Withdrawn u part ∧ (∀ k, s.par.frames.get? k = some (.owned, part) → u.par.frames.get? k = some (.scrub, part)) ∧
      (u.part? part).map (·.roots) = some [] ∧ (∀ k, k < 256 → (part, k) ∈ u.hub.qpError) ∧
      ∀ i ∈ islandsOf s part, heldMask s part i ≠ 0 →
        ∃ j ∈ u.par.jobs, (j.isl, j.slices, j.reason, j.partOut) = (i, heldMask s part i, 4, part) := by
  intro u
  have hu : u = flrSlices (flrFrames (flrSteps s part) part false) part := rfl
  clear_value u
  have hdrawn := flrSteps_withdrawn s part
  have htenancy := flrSteps_tenancy s part
  have hpart? := flrSteps_part? s part
  have hqp := flrSteps_qpError s part
  have hframes := flrSteps_frames s part
  generalize flrSteps s part = v at *
  rw [hold] at hpart?
  obtain ⟨hsame, hjobs⟩ := flrSlices_leaves (s := flrFrames v part false) hpart hpart?
  rw [← hu] at hsame hjobs
  have hframes' : u.par.frames = (flrFrames v part false).par.frames := congrArg (·.par.frames) hsame
  have hparts' : u.part? part = v.part? part := congrArg (·.part? part) hsame
  have hqp' : u.hub.qpError = v.hub.qpError := congrArg (·.hub.qpError) hsame
  have hdrawn' : Withdrawn (flrFrames v part false) part := Withdrawn.of_unheld (s := v) rfl hdrawn
  refine ⟨hdrawn'.of_unheld (unheld_of_unjobbed hsame), fun k hk => ?_, ?_, fun k hk => ?_, fun i hi hheld => ?_⟩
  · rw [hframes', flrFrames_frames, hframes, hk]
    simp [goesToScrub]
  · rw [hparts', hpart?]
    rfl
  · rw [hqp', hqp]
    exact mem_stopHub_qpError s hk
  · have hmask := heldMask_of_tenancy (t := flrFrames v part false) (s := s) htenancy hpart i
    have hislands := islandsOf_of_tenancy (t := flrFrames v part false) (s := s) htenancy part
    rw [hislands] at hjobs
    have hjob := hjobs i hi (by rwa [hmask])
    rwa [hmask] at hjob

/-! ### Deletion -/

/-- What a deletion's changes of rotations and slices leave alone: what the last steps of a reset do, the frames, and the
queue pairs in error. -/
def State.framed (s : State) : State × Tbl (Nat × Nat) (FrameSt × Nat) × List (Nat × Nat) :=
  (s.unheld, s.par.frames, s.hub.qpError)

theorem leaveRotation_framed (s : State) (part : Nat) : (leaveRotation s part).framed = s.framed := by
  unfold leaveRotation
  split
  · dsimp only
    split
    · refine (foldl_keeps _ State.framed (fun s p => ?_) _ _).trans ?_ <;> rfl
    · split <;> rfl
  · rfl

/-- R112: an island's slices and copy engines pass on. -/
def giveIsland (part heir : Nat) (p : Part) (s : State) (x : Nat × Nat) : State :=
  addJob (if heir = 0 then modEngines s 0 x.1 fun m => m ||| p.ce.getD x.1 0 else s)
    ⟨x.1, x.2, p.ce.getD x.1 0, 3, part, heir⟩

theorem giveIsland_leaves (part heir : Nat) (p : Part) (s : State) (x : Nat × Nat) :
    (giveIsland part heir p s x).framed = s.framed ∧ (giveIsland part heir p s x).tenants = s.tenants ∧
      s.par.jobs ⊆ (giveIsland part heir p s x).par.jobs := by
  have hgive : ∀ u : State, u.framed = s.framed → u.tenants = s.tenants → u.par.jobs = s.par.jobs →
      ∀ j, (addJob u j).framed = s.framed ∧ (addJob u j).tenants = s.tenants ∧ s.par.jobs ⊆ (addJob u j).par.jobs := by
    intro u hframed htenants hjobs j
    have hu := addJob_unjobbed u j
    have hframes : (addJob u j).framed = u.framed := (congrArg State.framed hu :)
    exact ⟨hframes.trans hframed, (tenants_of_unjobbed hu).trans htenants, hjobs ▸ addJob_jobs_subset u j⟩
  unfold giveIsland
  split
  · exact hgive (modEngines s 0 x.1 _) rfl (modEngines_tenants ..) rfl _
  · exact hgive s rfl rfl rfl _

theorem giveSlices_leaves (part heir : Nat) (p : Part) (masks : List (Nat × Nat)) (s : State) :
    let u := giveSlices part heir p masks s
    u.framed = s.framed ∧ u.tenants = s.tenants ∧ ∀ x ∈ masks, x.2 ≠ 0 → u.scrubs x.1 x.2 3 part heir := by
  have hu : giveSlices part heir p masks s = masks.foldl (giveIsland part heir p) s := rfl
  rw [hu]
  refine ⟨foldl_keeps _ State.framed (fun s x => (giveIsland_leaves part heir p s x).1) _ _,
    foldl_keeps _ State.tenants (fun s x => (giveIsland_leaves part heir p s x).2.1) _ _, fun x hx hmask => ?_⟩
  exact foldl_attains (giveIsland part heir p) (Inv := fun _ => True) (fun _ _ h => h)
    (fun u _ => ⟨_, mem_addJob _ hmask, rfl⟩)
    (fun u y => State.scrubs.mono (giveIsland_leaves part heir p u y).2.2) hx trivial

/-- R112: what the deletion of a partition leaves. -/
theorem deletePart_leaves {s : State} {part : Nat} (old : Part) (hpart : part ≠ 0) :
    let u := deletePart s part old
    Withdrawn u part ∧ (∀ k, s.par.frames.get? k = some (.owned, part) → u.par.frames.get? k = some (.scrub, part)) ∧
      u.part? part = none ∧ (∀ k, (part, k) ∉ u.hub.qpError) ∧
      (∀ k, s.par.frames.get? k = some (.table, part) → u.par.frames.get? k = some (.scrub, part)) ∧
      ∀ i ∈ islandsOf s part, heldMask s part i ≠ 0 → u.scrubs i (heldMask s part i) 3 part (heirOf s part) := by
  intro u
  have hdrawn := flrSteps_withdrawn s part
  have hframes := flrSteps_frames s part
  have hu : u = deletePart s part old := rfl
  clear_value u
  unfold deletePart at hu
  generalize flrSteps s part = v at *
  dsimp only at hu
  have hleft := leaveRotation_framed (flrFrames v part true) part
  generalize leaveRotation (flrFrames v part true) part = w at *
  obtain ⟨hframed, htenants, hgiven⟩ := giveSlices_leaves part (heirOf s part) old
    ((islandsOf s part).map fun i => (i, heldMask s part i)) { w with
      par := { w.par with parts := w.par.parts.erase part }
      hub := { w.hub with qpError := w.hub.qpError.filter (·.1 ≠ part) } }
  rw [← hu] at hframed htenants hgiven
  have hunheld : u.unheld = w.unheld := congrArg (·.1) hframed
  have hunheld' : w.unheld = v.unheld := congrArg (·.1) hleft
  have hframes' : u.par.frames = (flrFrames v part true).par.frames :=
    (congrArg (·.2.1) hframed).trans (congrArg (·.2.1) hleft)
  have hqp : u.hub.qpError = w.hub.qpError.filter (·.1 ≠ part) := congrArg (·.2.2) hframed
  refine ⟨Withdrawn.of_unheld (hunheld.trans hunheld') hdrawn, fun k hk => ?_,
    (part?_of_tenants htenants hpart).trans (Tbl.get?_erase_self ..), fun k => ?_, fun k hk => ?_, fun i hi hheld => ?_⟩
  · rw [hframes', flrFrames_frames, hframes, hk]
    simp [goesToScrub]
  · rw [hqp]
    simp
  · rw [hframes', flrFrames_frames, hframes, hk]
    simp [goesToScrub]
  · exact hgiven (i, heldMask s part i) (List.mem_map_of_mem (f := fun i => (i, heldMask s part i)) hi) hheld

end Sys2Proof.Machine
end

section
/-! R85, R88, R89, R113: frames, rotations and copy engines. -/

namespace Sys2Proof.Machine

open Sys2Proof

/-! ### Frames -/

theorem Tbl.get?_append {κ α : Type} [DecidableEq κ] (t u : Tbl κ α) (x : κ) :
    Tbl.get? (t ++ u) x = (t.get? x).or (u.get? x) := by
  induction t with
  | nil => rfl
  | cons e t ih =>
    obtain ⟨k, v⟩ := e
    by_cases hk : k = x
    · subst hk
      simp [Tbl.get?]
    · simpa [Tbl.get?, hk] using ih

/-- The entries of a list of frames of an island, all of one kind. -/
theorem Tbl.get?_map_frames (l : List Nat) (isl : Nat) (v : FrameSt × Nat) (i k : Nat) :
    Tbl.get? (l.map fun f => ((isl, f), v)) (i, k) = if i = isl ∧ k ∈ l then some v else none := by
  induction l with
  | nil => simp [Tbl.get?]
  | cons f l ih =>
    rw [List.map_cons, Tbl.get?, ih]
    by_cases hi : isl = i
    · subst hi
      by_cases hf : f = k
      · subst hf
        simp
      · simp [hf, Ne.symm hf]
    · simp [hi, Ne.symm hi]

theorem Tbl.get?_foldl_set_frames (l : List Nat) (isl : Nat) (v : FrameSt × Nat) (t : Tbl (Nat × Nat) (FrameSt × Nat))
    (i k : Nat) :
    (l.foldl (fun t f => Tbl.set t (isl, f) v) t).get? (i, k) = if i = isl ∧ k ∈ l then some v else t.get? (i, k) := by
  induction l generalizing t with
  | nil => simp
  | cons f l ih =>
    rw [List.foldl_cons, ih, Tbl.get?_set]
    by_cases hi : isl = i
    · subst hi
      by_cases hf : f = k
      · subst hf
        simp
      · simp [hf, Ne.symm hf]
    · simp [hi, Ne.symm hi]

/-- R89: the checks of a grant of frames. -/
def Grants (s : State) (isl p first count : Nat) : Prop :=
  present s isl = true ∧ holdsIsland s p isl = true ∧ (s.part? p).isSome = true ∧ first + count ≤ 0x600000 ∧
    ∀ k ∈ frameRange first count, s.par.frames.get? (isl, k) = none ∧ Config.sysFrame isl k = false

theorem grants_iff (s : State) (isl p first count : Nat) :
    Grants s isl p first count ↔ (!present s isl || !holdsIsland s p isl || (s.part? p).isNone ||
      decide (0x600000 < first + count) ||
      (frameRange first count).any fun f => (s.par.frames.get? (isl, f)).isSome || Config.sysFrame isl f) = false := by
  simp [Grants, and_assoc, Option.isSome_iff_ne_none]

theorem grantFrames_refused {s : State} {isl p first count : Nat} (table : Bool) (h : ¬ Grants s isl p first count) :
    grantFrames s isl p first count table = refuse s 5 := by
  rw [grants_iff, Bool.not_eq_false] at h
  exact if_pos h

/-- R89: frames that are granted are the partition's. -/
theorem grantFrames_frames {s : State} {isl p first count : Nat} (table : Bool) (h : Grants s isl p first count) (i k : Nat) :
    (grantFrames s isl p first count table).par.frames.get? (i, k) = if i = isl ∧ k ∈ frameRange first count then
      some (if table then .table else .owned, p) else s.par.frames.get? (i, k) := by
  have hfree := h.2.2.2.2
  rw [grants_iff] at h
  have hframes : (grantFrames s isl p first count table).par.frames = s.par.frames ++
      (frameRange first count).map fun f => ((isl, f), (if table then FrameSt.table else .owned), p) :=
    congrArg (fun u : State => u.par.frames) (if_neg fun h' => Bool.false_ne_true (h.symm.trans h'))
  rw [hframes, Tbl.get?_append, Tbl.get?_map_frames]
  split
  next hk => rw [hk.1, (hfree k hk.2).1, Option.none_or]
  next => exact Option.or_none

theorem revokeFrames_refused {s : State} {isl p first count : Nat}
    (h : ¬ ∀ k ∈ frameRange first count, revocable s isl p (mappedRuns s p isl) k = true) :
    revokeFrames s isl p first count = refuse s 5 :=
  if_pos (by simpa using h)

/-- R89: frames that are revoked pass to be scrubbed. -/
theorem revokeFrames_frames {s : State} {isl p first count : Nat}
    (h : ∀ k ∈ frameRange first count, revocable s isl p (mappedRuns s p isl) k = true) (i k : Nat) :
    (revokeFrames s isl p first count).par.frames.get? (i, k) = if i = isl ∧ k ∈ frameRange first count then
      some (.scrub, p) else s.par.frames.get? (i, k) := by
  have hframes : (revokeFrames s isl p first count).par.frames =
      (frameRange first count).foldl (fun t f => t.set (isl, f) (.scrub, p)) s.par.frames :=
    congrArg (fun u : State => u.par.frames) (if_neg (by simpa using h))
  rw [hframes, Tbl.get?_foldl_set_frames]

theorem Memory.get_of_lt_head (m : List Host.Cell) (a : Nat) (h : ∀ c ∈ m.head?, a < c.1) : Memory.get m a = 0 := by
  cases m with
  | nil => rfl
  | cons d ds =>
    obtain ⟨k, w⟩ := d
    have hlt : a < k := by simpa using h
    rw [Memory.get, if_neg (Nat.ne_of_gt hlt), if_pos hlt]

theorem Memory.get_filter (m : List Host.Cell) (p : Nat → Bool) (a : Nat) (h : Memory.wf m = true) :
    Memory.get (m.filter fun c => !p c.1) a = if p a then 0 else Memory.get m a := by
  induction m with
  | nil => simp [Memory.get]
  | cons d ds ih =>
    obtain ⟨k, w⟩ := d
    obtain ⟨-, hhead, hds⟩ := (Memory.wf_cons k w ds).1 h
    have hlow (hlt : a < k) : Memory.get ds a = 0 :=
      Memory.get_of_lt_head ds a fun c hc => Nat.lt_trans hlt (hhead c hc)
    cases hp : p k with
    | true =>
      rw [List.filter_cons_of_neg (by simp [hp]), ih hds, Memory.get]
      by_cases hk : k = a
      · subst hk
        simp [hp]
      · by_cases hlt : a < k
        · simp [hk, hlt, hlow hlt]
        · simp [hk, hlt]
    | false =>
      rw [List.filter_cons_of_pos (by simp [hp]), Memory.get, Memory.get, ih hds]
      by_cases hk : k = a
      · subst hk
        simp [hp]
      · by_cases hlt : a < k
        · simp [hk, hlt]
        · simp [hk, hlt]

/-- A byte after cells have been cleared. -/
theorem Mem.get_clear (m : Mem) (p : Nat → Bool) (a : Nat) : (m.clear p).get a = if p a then 0 else m.get a :=
  Memory.get_filter m.cells p a m.canon

/-- R89: the bytes of a frame that is zeroed, and every other byte. -/
theorem zeroFrame_byte (s : State) (isl : Nat) {f : Nat} (hf : f < 2 ^ 23) (i : Nat) {a : Nat} (ha : a < 2 ^ 39) :
    (zeroFrame s isl f).mem.byte i a = if i = isl ∧ a / 65536 = f then 0 else s.mem.byte i a := by
  have hkey : (gkey i a / 65536 == isl * 2 ^ 23 + f) = decide (i = isl ∧ a / 65536 = f) := by
    rw [beq_eq_decide, decide_eq_decide]
    unfold gkey
    omega
  have hbyte : (zeroFrame s isl f).mem.byte i a =
      if (s.mem.l2mark.clear fun k => k / 65536 == isl * 2 ^ 23 + f).get (gkey i a) = 0 then
        (s.mem.hbm.clear fun k => k / 65536 == isl * 2 ^ 23 + f).get (gkey i a)
      else (s.mem.l2.clear fun k => k / 65536 == isl * 2 ^ 23 + f).get (gkey i a) := rfl
  rw [hbyte, Mem.get_clear, Mem.get_clear, Mem.get_clear, hkey]
  by_cases hi : i = isl ∧ a / 65536 = f
  · simp [hi]
  · simp [hi, MemSt.byte]

/-- R89, R110: the state of a frame that has been zeroed: a reset's goes back to its partition. -/
theorem frameDone_frame (s : State) (isl f : Nat) : (frameDone s isl f).par.frames.get? (isl, f) =
    (s.par.flr.find? fun j => j.frames.contains (isl, f) && !j.delete).map fun j => (.owned, j.part) := by
  have hframes : (frameDone s isl f).par.frames =
      match s.par.flr.find? fun j => j.frames.contains (isl, f) && !j.delete with
      | some j => s.par.frames.set (isl, f) (.owned, j.part)
      | none => s.par.frames.erase (isl, f) := rfl
  rw [hframes]
  split
  next j hj => rw [hj, Tbl.get?_set_self, Option.map_some]
  next hj => rw [hj, Tbl.get?_erase_self, Option.map_none]

theorem frameScrubDone_gives {s : State} {isl p f count own : Nat} {table : Bool} (hocc : s.occ = .frames isl p f count table)
    (hf : f < 2 ^ 23) (hscrub : s.par.frames.get? (isl, f) = some (.scrub, own)) :
    Gives (exec .frameScrubDone s) fun u =>
      (∀ i a, a < 2 ^ 39 → u.mem.byte i a = if i = isl ∧ a / 65536 = f then 0 else s.mem.byte i a) ∧
      u.par.frames.get? (isl, f) =
        ((s.par.flr.find? fun j => j.frames.contains (isl, f) && !j.delete).map fun j => (.owned, j.part)) := by
  refine ⟨commit s (frameDone (zeroFrame s isl f) isl f), ?_, fun i a ha => zeroFrame_byte s isl hf i ha,
    frameDone_frame (zeroFrame s isl f) isl f⟩
  rw [exec_frameScrubDone, execFrameScrubDone, hocc]
  simp only [hscrub]

/-! ### Rotations -/

theorem setupRotation_refused {s : State} {n : Nat} {r : Rotation} (h : rotationOk s n r = false) :
    setupRotation s n r = refuse s 6 :=
  if_pos (by simp [h])

/-- R113: a rotation as its set-up leaves it. -/
def Rotation.setUp (s : State) (n : Nat) (r : Rotation) : Rotation :=
  { r with
    deadline := r.due
    pos := r.order.findIdx (· == holderOf s n r)
    start := ((s.par.rots.get? n).map (·.start)).getD s.hub.ns
    shorten := ((s.par.rots.get? n).map (·.shorten)).getD []
    tick := none, late := [] }

/-- R113: a partition becomes a member of a rotation. -/
def joinRotation (n : Nat) (s : State) (p : Nat) : State := s.modPart p fun x => { x with rotation := some n }

theorem setupRotation_ok {s : State} {n : Nat} {r : Rotation} (h : rotationOk s n r = true) :
    setupRotation s n r = r.order.foldl (joinRotation n) (setRot s n (r.setUp s n)) :=
  if_neg (by simp [h])

theorem joinRotation_part? (n : Nat) (s : State) (p k : Nat) :
    (joinRotation n s p).part? k = if p = k then (s.part? k).map fun x => { x with rotation := some n } else s.part? k :=
  Tbl.get?_modify ..

/-- R113: the members of a rotation exist. -/
theorem rotationOk_members {s : State} {n : Nat} {r : Rotation} (h : rotationOk s n r = true) {k : Nat} (hk : k ∈ r.order) :
    (s.part? k).isSome = true := by
  have hall : (r.order.map s.part?).all (fun p => match p, (s.part? (r.order.headD 0)) with
      | some p, some q => p.islands == q.islands && p.slices == q.slices && (p.rotation.isNone || p.rotation == some n)
      | _, _ => false) = true := by
    simp only [rotationOk, Bool.and_eq_true] at h
    exact h.1.1.1.1.1.1.2
  have hk' := List.all_eq_true.1 hall _ (List.mem_map_of_mem (f := s.part?) hk)
  cases hpart : s.part? k with
  | none => simp [hpart] at hk'
  | some p => rfl

/-- R113: what the set-up of a rotation leaves. -/
theorem setupRotation_leaves {s : State} {n : Nat} {r : Rotation} (h : rotationOk s n r = true) :
    let u := setupRotation s n r
    u.par.rots.get? n = some (r.setUp s n) ∧ ∀ k ∈ r.order, (u.part? k).map (·.rotation) = some (some n) := by
  rw [setupRotation_ok h]
  refine ⟨?_, fun k hk => ?_⟩
  · have hrots : (r.order.foldl (joinRotation n) (setRot s n (r.setUp s n))).par.rots = s.par.rots.set n (r.setUp s n) :=
      by refine foldl_keeps _ (fun u : State => u.par.rots) (fun u p => ?_) _ _; rfl
    rw [hrots, Tbl.get?_set_self]
  · refine foldl_attains (joinRotation n) (Inv := fun u => (u.part? k).isSome = true)
      (Goal := fun u => (u.part? k).map (·.rotation) = some (some n)) (fun u p hu => ?_) (fun u hu => ?_) (fun u p hu => ?_) hk
      (rotationOk_members h hk)
    · rw [joinRotation_part?]
      split
      · rwa [Option.isSome_map]
      · exact hu
    · rw [joinRotation_part?, if_pos rfl]
      obtain ⟨x, hx⟩ := Option.isSome_iff_exists.1 hu
      rw [hx]
      rfl
    · rw [joinRotation_part?]
      split
      · obtain ⟨x, hx, -⟩ := Option.map_eq_some_iff.1 hu
        rw [hx]
        rfl
      · exact hu

/-! ### Copy engines -/

theorem fenceSlices_none (s : State) (isl : Nat) : fenceSlices s isl 0 = s := by
  have hnone : maskSlices 0 = [] := by decide
  unfold fenceSlices
  rw [hnone]
  rfl

/-- R85: engines wait for the lehr; no slice does. -/
theorem addJob_engines (s : State) (isl ces src dst : Nat) :
    addJob s ⟨isl, 0, ces, 6, src, dst⟩ =
      { s with par := { s.par with jobs := s.par.jobs ++ [⟨isl, 0, ces, 6, src, dst⟩] } } :=
  (if_neg fun h => h.2 rfl).trans (fenceSlices_none ..)

end Sys2Proof.Machine
end

section
/-! The statement of the partition events. -/

namespace Sys2Proof.Machine

open Sys2Proof

/-! ### Requests through Redfish -/

theorem partition_requests {s : State} (hs : serviceUp s = true) {p : Nat} {body : Part} (hocc : s.occ = .partition p body) :
    Asked .partitionCreate s none (createPart s p body) ∧
      (∀ old, 1 ≤ p → s.part? p = some old → Asked .partitionChange s none (changePart s p old body)) ∧
      (p = 0 ∨ s.part? p = none → Asked .partitionChange s none (refuse s 4)) := by
  have hchange : exec .partitionChange s = redfish s none
      ((if p = 0 then none else s.part? p).elim (refuse s 4) fun old => changePart s p old body) := by
    rw [exec_partitionChange, execPartitionChange, hocc]
    simp only [hs, Bool.not_true, Bool.false_eq_true, if_false]
    cases (if p = 0 then none else s.part? p) <;> rfl
  refine ⟨asked_of_redfish ?_, fun old hp hold => asked_of_redfish (hchange.trans ?_),
    fun hnone => asked_of_redfish (hchange.trans ?_)⟩
  · rw [exec_partitionCreate, execPartitionCreate, hocc]
    simp only [hs, if_true]
  · rw [if_neg (Nat.ne_of_gt hp), hold, Option.elim_some]
  · rcases hnone with rfl | hnone
    · rfl
    · rw [hnone, ite_self, Option.elim_none]

theorem part_requests {s : State} (hs : serviceUp s = true) {p : Nat} (hocc : s.occ = .part p) :
    (∀ old, 1 ≤ p → s.part? p = some old →
      Asked .partitionDelete s none (deletePart s p old) ∧ Asked .functionLevelReset s (some p) (flr s p)) ∧
      (p = 0 ∨ s.part? p = none →
        Asked .partitionDelete s none (refuse s 4) ∧ Asked .functionLevelReset s (some p) (refuse s 4)) := by
  have hdelete : exec .partitionDelete s = redfish s none
      ((if p = 0 then none else s.part? p).elim (refuse s 4) fun old => deletePart s p old) := by
    rw [exec_partitionDelete, execPartitionDelete, hocc]
    simp only [hs, Bool.not_true, Bool.false_eq_true, if_false]
    cases (if p = 0 then none else s.part? p) <;> rfl
  have hreset : exec .functionLevelReset s =
      redfish s (some p) (if p = 0 ∨ (s.part? p).isNone then refuse s 4 else flr s p) := by
    rw [exec_functionLevelReset, execFunctionLevelReset, hocc]
    simp only [hs, Bool.not_true, Bool.false_eq_true, if_false]
  refine ⟨fun old hp hold => ⟨asked_of_redfish (hdelete.trans ?_), asked_of_redfish (hreset.trans ?_)⟩,
    fun hnone => ⟨asked_of_redfish (hdelete.trans ?_), asked_of_redfish (hreset.trans ?_)⟩⟩
  · rw [if_neg (Nat.ne_of_gt hp), hold, Option.elim_some]
  · rw [if_neg (by simp [hold, Nat.ne_of_gt hp])]
  · rcases hnone with rfl | hnone
    · rfl
    · rw [hnone, ite_self, Option.elim_none]
  · rw [if_pos (hnone.imp id fun h => Option.isNone_iff_eq_none.2 h)]

theorem frames_requests {s : State} (hs : serviceUp s = true) {isl p first count : Nat} {table : Bool}
    (hocc : s.occ = .frames isl p first count table) :
    Asked .frameGrant s none (grantFrames s isl p first count table) ∧
      Asked .frameRevoke s none (revokeFrames s isl p first count) := by
  constructor <;> refine asked_of_redfish ?_
  · rw [exec_frameGrant, execFrameGrant, hocc]
    simp only [hs, if_true]
  · rw [exec_frameRevoke, execFrameRevoke, hocc]
    simp only [hs, if_true]

theorem rotation_request {s : State} (hs : serviceUp s = true) {n : Nat} {r : Rotation} (hocc : s.occ = .rotation n r) :
    Asked .rotationSetup s none (setupRotation s n r) := by
  refine asked_of_redfish ?_
  rw [exec_rotationSetup, execRotationSetup, hocc]
  simp only [hs, if_true]

theorem move_request {s : State} (hs : serviceUp s = true) {isl ces src dst : Nat} (hocc : s.occ = .move isl ces src dst) :
    Asked .copyEngineMove s none
      (if moveOk s isl ces src dst then addJob s ⟨isl, 0, ces, 6, src, dst⟩ else refuse s 7) := by
  refine asked_of_redfish ?_
  rw [exec_copyEngineMove, execCopyEngineMove, hocc]
  simp only [hs, Bool.not_true, Bool.false_eq_true, if_false]

/-! ### The obligation -/

/-- Settles O51: what each request leaves, or its refusal; a reset and a deletion by what their steps withdraw (R110). -/
theorem partitionEvents : Obligations.PartitionEvents := by
  unfold Obligations.PartitionEvents
  intro s p isl first count n ces src dst f old body table r own q kept both left came alone creates changes scrubs quiet
  refine ⟨fun hp => ⟨fun h => ?_, fun h => createPart_refused h⟩,
    fun hp hold => ⟨fun h => changePart_leaves (Nat.ne_of_gt hp) h, fun h => changePart_refused h⟩,
    fun hp hold => ⟨?_, ?_⟩, ⟨fun h i k => grantFrames_frames table h i k, fun h => grantFrames_refused table h⟩,
    ⟨fun h i k => revokeFrames_frames h i k, fun h => revokeFrames_refused h⟩,
    fun hocc hf hscrub => frameScrubDone_gives hocc hf hscrub, ⟨fun h => ?_, fun h => setupRotation_refused h⟩,
    fun hs => ⟨fun hocc => ?_, fun hocc => ?_, fun hocc => frames_requests hs hocc, fun hocc => rotation_request hs hocc,
      fun hocc => ?_⟩⟩
  · obtain ⟨hpart, hkey, hscrub⟩ := createPart_leaves (Nat.ne_of_gt hp) h
    exact ⟨hpart, fun h0 => if_pos h0, fun h0 => if_pos h0, hkey, hscrub⟩
  · obtain ⟨hdrawn, hframes, hroots, hqps, hjobs⟩ := flr_leaves (Nat.ne_of_gt hp) hold
    exact ⟨⟨hdrawn.queue, hdrawn.saved, hdrawn.cmds, hdrawn.chains, hdrawn.fchains, hdrawn.regions, hdrawn.recs,
      hdrawn.faults, hdrawn.txns, hdrawn.tables, hdrawn.keys, hframes⟩, hroots, hqps, hjobs⟩
  · obtain ⟨hdrawn, hframes, hnone, hqps, htables, hjobs⟩ := deletePart_leaves old (Nat.ne_of_gt hp)
    exact ⟨⟨hdrawn.queue, hdrawn.saved, hdrawn.cmds, hdrawn.chains, hdrawn.fchains, hdrawn.regions, hdrawn.recs,
      hdrawn.faults, hdrawn.txns, hdrawn.tables, hdrawn.keys, hframes⟩, hnone, hqps, htables, hjobs⟩
  · obtain ⟨hrot, hmembers⟩ := setupRotation_leaves h
    refine ⟨?_, hmembers⟩
    rw [hrot]
    rfl
  · obtain ⟨hcreate, hchange, hnone⟩ := partition_requests hs hocc
    exact ⟨hcreate, hchange old, hnone⟩
  · obtain ⟨hsome, hnone⟩ := part_requests hs hocc
    exact ⟨hsome old, hnone⟩
  · have hmove := move_request hs hocc
    refine ⟨fun hok => ?_, fun hok => ?_⟩
    · rwa [if_pos hok, addJob_engines] at hmove
    · rwa [if_neg (by simp [hok])] at hmove

end Sys2Proof.Machine
end

section
/-! R58 to R62: the frames of hosts, and what their messages leave. -/

namespace Sys2Proof.Machine

open Sys2Proof

/-! ### Outcomes -/

theorem Occurs.gives {i : Instr} {s t : State} {P : State → Prop} (h : Occurs i s t) (hp : P (commit s t)) :
    Gives (exec i s) P := ⟨_, h, hp⟩

/-- What a write leaves depends on the memories alone. -/
theorem Wrote.of_mem {s t s' t' : State} {isl pa : Nat} {bs : List Byte} (h : Wrote s t isl pa bs) (hs : s'.mem = s.mem)
    (ht : t'.mem = t.mem) : Wrote s' t' isl pa bs := by
  obtain ⟨hbytes, hspads, haccs⟩ := h
  constructor
  · rwa [hs, ht]
  · rwa [hs, ht]
  · rwa [hs, ht]

/-! ### Frames and queue pairs -/

/-- What a frame's queue pair leaves alone. -/
def State.unpaired (s : State) : State := { s with hub := { s.hub with qps := [] } }

theorem bindQp_unpaired (s : State) (f : Frame) : (bindQp s f).unpaired = s.unpaired := by
  unfold bindQp
  split <;> rfl

/-- R58: the queue pair of a frame: as it stands, or bound to the frame's port. -/
theorem bindQp_pair (s : State) (f : Frame) : (bindQp s f).hub.qps.get? (f.part, f.qp) =
    some ((s.hub.qps.get? (f.part, f.qp)).getD ⟨f.port, [], []⟩) := by
  unfold bindQp
  cases h : s.hub.qps.get? (f.part, f.qp) with
  | some q => simp [h]
  | none => simp

theorem accessBy_bindQp (s : State) (f : Frame) (isl : Nat) (ag : TlbAgent) (part va n : Nat) (acc : Acc) (reads : Bool) :
    accessBy (bindQp s f) isl ag part va n acc reads = accessBy s isl ag part va n acc reads :=
  (congrArg (fun u : State => accessBy u isl ag part va n acc reads) (bindQp_unpaired s f) :)

theorem bindQp_mem (s : State) (f : Frame) : (bindQp s f).mem = s.mem :=
  (congrArg (fun u : State => u.mem) (bindQp_unpaired s f) :)

theorem bindQp_out (s : State) (f : Frame) : (bindQp s f).hub.out = s.hub.out :=
  (congrArg (fun u : State => u.hub.out) (bindQp_unpaired s f) :)

theorem bindQp_regions (s : State) (f : Frame) : (bindQp s f).hub.regions = s.hub.regions :=
  (congrArg (fun u : State => u.hub.regions) (bindQp_unpaired s f) :)

theorem frameTo_cases (s : State) (f : Frame) : frameTo s f = none ∨ frameTo s f = some f.part := by
  unfold frameTo
  split
  · exact .inl rfl
  · exact (ite_eq_or_eq ..).symm

/-! ### Regions -/

theorem regionOf_none {s : State} {part n off len : Nat}
    (h : ∀ x, s.hub.regions.get? (part, n) = some x → x.len < off + len) :
    regionOf s part n off len = none := by
  unfold regionOf
  rw [Option.filter_eq_none_iff]
  intro x hx
  simpa using h x hx

theorem regionOf_some {s : State} {part n off len : Nat} {rg : Region} (h : s.hub.regions.get? (part, n) = some rg)
    (hlen : off + len ≤ rg.len) : regionOf s part n off len = some rg := by
  unfold regionOf
  rw [h, Option.filter_some, if_pos (decide_eq_true hlen)]

/-- A range that lies in one page is one run. -/
theorem pageRuns_one {a k : Nat} (fuel : Nat) (hk : 0 < k) (hpage : a / 65536 = (a + k - 1) / 65536) :
    pageRuns (fuel + 1) a k = [(a, k)] := by
  have hrun : min k (65536 - a % 65536) = k := by omega
  have hrest (a : Nat) : pageRuns fuel a 0 = [] := by cases fuel <;> rfl
  rw [pageRuns, if_neg (Nat.ne_of_gt hk), hrun]
  dsimp only
  rw [Nat.sub_self, hrest]

/-! ### Writes, reads and messages -/

theorem rdmaWrite_ok {u : State} {isl part va k pa : Nat} {sl : Bool} {bs : List Byte} (rs : List (Nat × Nat))
    (h : accessBy u isl .remote part va (bs.take k).length .write false = .ok (pa, sl)) :
    rdmaWrite isl part ((va, k) :: rs) bs u = rdmaWrite isl part rs (bs.drop k) (bypassBank u isl none pa (bs.take k)) := by
  rw [rdmaWrite, writeBy, h]
  rfl

theorem rdmaWrite_error {u : State} {isl part va k : Nat} {e : XErr} {bs : List Byte} (rs : List (Nat × Nat))
    (h : accessBy u isl .remote part va (bs.take k).length .write false = .error e) :
    rdmaWrite isl part ((va, k) :: rs) bs u = (u, false) := by
  rw [rdmaWrite, writeBy, h]
  rfl

theorem noteWalk_mem (s : State) (isl part va : Nat) : (noteWalk s isl part va).mem = s.mem := by
  unfold noteWalk
  split <;> rfl

theorem noteWalks_mem (s : State) (r : Region) (part off len : Nat) : (noteWalks s r part off len).mem = s.mem := by
  refine foldl_keeps _ (fun u : State => u.mem) (fun s p => ?_) _ _
  exact noteWalk_mem s r.isl part p.1

theorem receive_mem (s : State) (part qp : Nat) (m : List Byte) : (receive s part qp m).mem = s.mem := by
  unfold receive
  split
  · rfl
  · split
    · split <;> rfl
    · rfl

/-- R60: a message that the oldest posted buffer holds is placed in it and acknowledged. -/
theorem receive_placed {s : State} {part qp k : Nat} {ks : List Nat} {q : Qp} {m : List Byte}
    (hq : s.hub.qps.get? (part, qp) = some q) (hposted : q.posted = k :: ks) (hm : m.length ≤ k) :
    receive s part qp m = sendHost { s with hub := { s.hub with
      qps := s.hub.qps.set (part, qp) { q with posted := ks, got := q.got ++ [m] } } } (.ack part qp) := by
  unfold receive
  simp only [hq, hposted, if_neg (Nat.not_lt.2 hm)]

/-- R60: a message that no posted buffer holds is answered with a receiver-not-ready NAK. -/
theorem receive_notReady {s : State} {part qp : Nat} {q : Qp} {m : List Byte} (hq : s.hub.qps.get? (part, qp) = some q)
    (hnone : q.posted = [] ∨ ∃ k ks, q.posted = k :: ks ∧ k < m.length) :
    receive s part qp m = sendHost s (.nakNotReady part qp) := by
  unfold receive
  rcases hnone with hposted | ⟨k, ks, hposted, hk⟩
  · simp only [hq, hposted]
  · simp only [hq, hposted, if_pos hk]

/-- R60: what a message that arrives leaves of a queue pair, and its answer after the messages `out`. -/
def Receives (out : List HostMsg) (part qp : Nat) (q : Qp) (m : List Byte) (t : State) : Prop :=
  (∀ k ks, q.posted = k :: ks → m.length ≤ k →
    t.hub.qps.get? (part, qp) = some { q with posted := ks, got := q.got ++ [m] } ∧ t.hub.out = out ++ [.ack part qp]) ∧
  ((q.posted = [] ∨ ∃ k ks, q.posted = k :: ks ∧ k < m.length) →
    t.hub.qps.get? (part, qp) = some q ∧ t.hub.out = out ++ [.nakNotReady part qp])

theorem receive_receives {s : State} {part qp : Nat} {q : Qp} (m : List Byte) (hq : s.hub.qps.get? (part, qp) = some q) :
    Receives s.hub.out part qp q m (receive s part qp m) := by
  refine ⟨fun k ks hposted hm => ?_, fun hnone => ?_⟩
  · rw [receive_placed hq hposted hm]
    exact ⟨Tbl.get?_set_self .., rfl⟩
  · rw [receive_notReady hq hnone]
    exact ⟨hq, rfl⟩

/-- R60: the answer to a read, in packets of at most 4,096 bytes. -/
theorem sendData_packets (part qp : Nat) {n : Nat} {bs : List Byte} (hn : bs.length < 4096 * n) (s : State) :
    (sendData part qp n bs s).mem = s.mem ∧
      ∃ cs : List (List Byte), (sendData part qp n bs s).hub.out = s.hub.out ++ cs.map (.data part qp) ∧ cs.flatten = bs ∧
        ∀ c ∈ cs, c.length ≤ 4096 := by
  induction n generalizing bs s with
  | zero => exact absurd hn (Nat.not_lt_zero _)
  | succ n ih =>
    rw [sendData]
    by_cases hlast : bs.length ≤ 4096
    · rw [if_pos hlast]
      exact ⟨rfl, [bs.take 4096], rfl, by simpa using hlast, by simp⟩
    · rw [if_neg hlast]
      obtain ⟨hmem, cs, hout, hflat, hsmall⟩ := ih (bs := bs.drop 4096) (by rw [List.length_drop]; omega)
        (sendHost s (.data part qp (bs.take 4096)))
      refine ⟨hmem, bs.take 4096 :: cs, ?_, ?_, ?_⟩
      · rw [hout, List.map_cons]
        exact List.append_assoc ..
      · rw [List.flatten_cons, hflat, List.take_append_drop]
      · exact List.forall_mem_cons.2 ⟨List.length_take_le .., hsmall⟩

/-! ### What the messages lead to -/

/-- R60: the kind of an RDMA write. -/
def writeOf (imm : Option (BitVec 32)) : Instr := if imm.isSome then .rdmaWriteWithImmediate else .rdmaWrite

section
variable {s : State} {f : Frame} {n off len size : Nat} {bs : List Byte} {imm : Option (BitVec 32)}

theorem exec_writeOf (hocc : s.occ = .rdmaWrite f n off bs imm) (hup : anchorUp s = true)
    (hreach : regionReached s f.part n = true) : exec (writeOf imm) s =
      .next (commit s ((frameTo s f).elim s fun part => applyWrite (bindQp s f) part f.qp n off bs imm)) := by
  cases imm with
  | none =>
    refine (exec_rdmaWrite s).trans ?_
    rw [execRdmaWrite, hocc]
    simp only [hup, hreach, Bool.not_true, Bool.or_self, Bool.false_eq_true, if_false]
    cases frameTo s f <;> rfl
  | some i =>
    refine (exec_rdmaWriteWithImmediate s).trans ?_
    rw [execRdmaWriteWithImmediate, hocc]
    simp only [hup, hreach, Bool.not_true, Bool.or_self, Bool.false_eq_true, if_false]
    cases frameTo s f <;> rfl

theorem exec_rdmaRead_at (hocc : s.occ = .rdmaRead f n off len) (hup : anchorUp s = true)
    (hreach : regionReached s f.part n = true) : exec .rdmaRead s =
      .next (commit s ((frameTo s f).elim s fun part => applyRead (bindQp s f) part f.qp n off len)) := by
  rw [exec_rdmaRead, execRdmaRead, hocc]
  simp only [hup, hreach, Bool.not_true, Bool.or_self, Bool.false_eq_true, if_false]
  cases frameTo s f <;> rfl

theorem exec_send_at (hocc : s.occ = .send f bs) (hup : anchorUp s = true) : exec .send s =
    .next (commit s ((frameTo s f).elim s fun part => receive (bindQp s f) part f.qp bs)) := by
  rw [exec_send, execSend, hocc]
  simp only [hup, Bool.not_true, Bool.false_eq_true, if_false]
  cases frameTo s f <;> rfl

theorem exec_send_posts (hocc : s.occ = .postRecv f size) (hup : anchorUp s = true) : exec .send s =
    .next (commit s ((frameTo s f).elim s fun part => postRecv (bindQp s f) part f.qp size)) := by
  rw [exec_send, execSend, hocc]
  simp only [hup, Bool.not_true, Bool.false_eq_true, if_false]
  cases frameTo s f <;> rfl

theorem exec_rdmaAtomicRequest_at (hocc : s.occ = .rdmaAtomic f) (hup : anchorUp s = true) : exec .rdmaAtomicRequest s =
    .next (commit s ((frameTo s f).elim s fun part => sendHost (bindQp s f) (.nakInvalid part f.qp))) := by
  rw [exec_rdmaAtomicRequest, execRdmaAtomicRequest, hocc]
  simp only [hup, Bool.not_true, Bool.false_eq_true, if_false]
  cases frameTo s f <;> rfl

end

/-- R61: a message whose range its region does not hold is refused. -/
theorem applyWrite_outside {s : State} {part qp n off : Nat} {bs : List Byte} (imm : Option (BitVec 32))
    (h : regionOf s part n off bs.length = none) : applyWrite s part qp n off bs imm = sendHost s (.nakAccess part qp) := by
  rw [applyWrite, h]

theorem applyRead_outside {s : State} {part qp n off len : Nat} (h : regionOf s part n off len = none) :
    applyRead s part qp n off len = sendHost s (.nakAccess part qp) := by
  rw [applyRead, h]

section
variable {s : State} {part qp n off : Nat} {rg : Region}

/-- R61: a write within its region. -/
theorem applyWrite_inside {bs : List Byte} (imm : Option (BitVec 32)) (h : regionOf s part n off bs.length = some rg) :
    applyWrite s part qp n off bs imm =
      let w := rdmaWrite rg.isl part (pageRuns (bs.length / 65536 + 2) (rg.va + off) bs.length) bs s
      if w.2 then imm.elim (sendHost w.1 (.ack part qp)) fun i => receive w.1 part qp (leBytes 4 i.toNat)
      else sendHost (noteWalks w.1 rg part off bs.length) (.nakAccess part qp) := by
  rw [applyWrite, h]
  dsimp only
  generalize rdmaWrite rg.isl part (pageRuns (bs.length / 65536 + 2) (rg.va + off) bs.length) bs s = w
  cases w.2 <;> cases imm <;> rfl

/-- R61: a write in one page that its access admits. -/
theorem applyWrite_page {bs : List Byte} {pa : Nat} {sl : Bool} (imm : Option (BitVec 32))
    (h : regionOf s part n off bs.length = some rg) (hpos : 0 < bs.length)
    (hpage : (rg.va + off) / 65536 = (rg.va + off + bs.length - 1) / 65536)
    (hok : accessBy s rg.isl .remote part (rg.va + off) bs.length .write false = .ok (pa, sl)) :
    applyWrite s part qp n off bs imm =
      imm.elim (sendHost (bypassBank s rg.isl none pa bs) (.ack part qp)) fun i =>
        receive (bypassBank s rg.isl none pa bs) part qp (leBytes 4 i.toNat) := by
  have hwrite : rdmaWrite rg.isl part [(rg.va + off, bs.length)] bs s = (bypassBank s rg.isl none pa bs, true) := by
    rw [← List.take_length (l := bs)] at hok
    rw [rdmaWrite_ok [] hok, List.take_length]
    rfl
  rw [applyWrite_inside imm h, pageRuns_one _ hpos hpage, hwrite]
  rfl

/-- R61, R62: a write in one page that its access refuses. -/
theorem applyWrite_page_refused {bs : List Byte} (imm : Option (BitVec 32)) (h : regionOf s part n off bs.length = some rg)
    (hpos : 0 < bs.length) (hpage : (rg.va + off) / 65536 = (rg.va + off + bs.length - 1) / 65536)
    (hbad : ∀ x, accessBy s rg.isl .remote part (rg.va + off) bs.length .write false ≠ .ok x) :
    applyWrite s part qp n off bs imm = sendHost (noteWalks s rg part off bs.length) (.nakAccess part qp) := by
  have hwrite : rdmaWrite rg.isl part [(rg.va + off, bs.length)] bs s = (s, false) := by
    rw [← List.take_length (l := bs)] at hbad
    cases he : accessBy s rg.isl .remote part (rg.va + off) (bs.take bs.length).length .write false with
    | ok x => exact absurd he (hbad x)
    | error e => exact rdmaWrite_error [] he
  rw [applyWrite_inside imm h, pageRuns_one _ hpos hpage, hwrite]
  rfl

/-- R61: what a read in one page leads to, by its access. -/
theorem applyRead_page {len : Nat} (h : regionOf s part n off len = some rg) (hpos : 0 < len)
    (hpage : (rg.va + off) / 65536 = (rg.va + off + len - 1) / 65536) :
    (∀ pa sl, accessBy s rg.isl .remote part (rg.va + off) len .read true = .ok (pa, sl) →
      applyRead s part qp n off len = sendData part qp (len / 4096 + 1) (s.mem.bytes rg.isl pa len) s) ∧
    (∀ a, accessBy s rg.isl .remote part (rg.va + off) len .read true = .error (.poison a) →
      applyRead s part qp n off len = sendHost s (.nakOper part qp)) ∧
    (∀ a p l, accessBy s rg.isl .remote part (rg.va + off) len .read true = .error (.fault a p l) →
      applyRead s part qp n off len = sendHost (noteWalks s rg part off len) (.nakAccess part qp)) := by
  have hlen (pa : Nat) : (s.mem.bytes rg.isl pa len).length = len := by simp [MemSt.bytes]
  rw [applyRead, h]
  dsimp only
  rw [pageRuns_one _ hpos hpage, rdmaRead]
  refine ⟨fun pa sl hok => ?_, fun a hbad => ?_, fun a p l hbad => ?_⟩
  · rw [hok]
    simp only [rdmaRead, Except.map, List.append_nil, hlen]
  · rw [hbad]
  · rw [hbad]

end

/-! ### What the messages give -/

/-- R61: the bytes of a message that lie in one page. -/
def OnePage (a k : Nat) : Prop := 0 < k ∧ a / 65536 = (a + k - 1) / 65536

section
variable {s : State} {f : Frame} {n off : Nat} {rg : Region}

/-- R60, R61: a write that its access admits lands, and is acknowledged or placed as its immediate. -/
theorem rdmaWrite_gives {bs : List Byte} {imm : Option (BitVec 32)} {pa : Nat} {sl : Bool}
    (h : Occurs (writeOf imm) s (applyWrite (bindQp s f) f.part f.qp n off bs imm))
    (hin : regionOf (bindQp s f) f.part n off bs.length = some rg) (hone : OnePage (rg.va + off) bs.length)
    (hok : accessBy s rg.isl .remote f.part (rg.va + off) bs.length .write false = .ok (pa, sl))
    (hpa : pa + bs.length ≤ 2 ^ 39) :
    Gives (exec (writeOf imm) s) fun t =>
      Wrote s t rg.isl pa bs ∧ (imm = none → t.hub.out = s.hub.out ++ [.ack f.part f.qp]) ∧
      ∀ i, imm = some i → ∀ q, (bindQp s f).hub.qps.get? (f.part, f.qp) = some q →
        Receives s.hub.out f.part f.qp q (leBytes 4 i.toNat) t := by
  rw [← accessBy_bindQp s f] at hok
  have hout := bindQp_out s f
  have hmem := bindQp_mem s f
  obtain ⟨hkept, -⟩ := bypassBank_kept (bindQp s f) rg.isl none pa bs hpa
  have hwrote := wrote_bypassBank (bindQp s f) rg.isl none pa bs hpa
  have hx := h.of_eq (applyWrite_page imm hin hone.1 hone.2 hok)
  generalize bypassBank (bindQp s f) rg.isl none pa bs = u at hkept hwrote hx
  rw [← hout, ← hkept.hub]
  refine hx.gives ?_
  cases imm with
  | none => exact ⟨hwrote.of_mem hmem.symm rfl, fun _ => rfl, fun i hi => nomatch hi⟩
  | some i =>
    refine ⟨hwrote.of_mem hmem.symm (receive_mem u f.part f.qp _), fun hi => absurd hi (Option.some_ne_none i),
      fun j hj q hq => ?_⟩
    obtain rfl := Option.some.inj hj
    exact receive_receives _ hq

theorem rdmaWrite_refused {bs : List Byte} {imm : Option (BitVec 32)}
    (h : Occurs (writeOf imm) s (applyWrite (bindQp s f) f.part f.qp n off bs imm))
    (hin : regionOf (bindQp s f) f.part n off bs.length = some rg) (hone : OnePage (rg.va + off) bs.length)
    (hbad : ∀ x, accessBy s rg.isl .remote f.part (rg.va + off) bs.length .write false ≠ .ok x) :
    Gives (exec (writeOf imm) s) fun t => t.mem = s.mem ∧ t.hub.out.getLast? = some (.nakAccess f.part f.qp) := by
  simp only [← accessBy_bindQp s f] at hbad
  exact (h.of_eq (applyWrite_page_refused imm hin hone.1 hone.2 hbad)).gives
    ⟨(noteWalks_mem ..).trans (bindQp_mem s f), List.getLast?_concat ..⟩

/-- R60 to R62: a read answers with its bytes, or with the NAK of what its access met. -/
theorem rdmaRead_gives {len : Nat} (h : Occurs .rdmaRead s (applyRead (bindQp s f) f.part f.qp n off len))
    (hin : regionOf (bindQp s f) f.part n off len = some rg) (hone : OnePage (rg.va + off) len) :
    (∀ pa sl, accessBy s rg.isl .remote f.part (rg.va + off) len .read true = .ok (pa, sl) → Gives (exec .rdmaRead s) fun t =>
      t.mem = s.mem ∧ ∃ cs : List (List Byte), t.hub.out = s.hub.out ++ cs.map (.data f.part f.qp) ∧
        cs.flatten = s.mem.bytes rg.isl pa len ∧ ∀ c ∈ cs, c.length ≤ 4096) ∧
    (∀ a, accessBy s rg.isl .remote f.part (rg.va + off) len .read true = .error (.poison a) →
      Gives (exec .rdmaRead s) fun t => t.mem = s.mem ∧ t.hub.out = s.hub.out ++ [.nakOper f.part f.qp]) ∧
    (∀ a p l, accessBy s rg.isl .remote f.part (rg.va + off) len .read true = .error (.fault a p l) →
      Gives (exec .rdmaRead s) fun t => t.mem = s.mem ∧ t.hub.out.getLast? = some (.nakAccess f.part f.qp)) := by
  have hout := bindQp_out s f
  have hmem := bindQp_mem s f
  obtain ⟨hread, hpoison, hfault⟩ := applyRead_page (qp := f.qp) hin hone.1 hone.2
  simp only [accessBy_bindQp] at hread hpoison hfault
  refine ⟨fun pa sl hok => ?_, fun a hbad => ?_, fun a p l hbad => ?_⟩
  · have hshort : (s.mem.bytes rg.isl pa len).length < 4096 * (len / 4096 + 1) := by
      simp only [MemSt.bytes, List.length_map, List.length_range]
      omega
    obtain ⟨hkeep, hpackets⟩ := sendData_packets f.part f.qp hshort (bindQp s f)
    rw [hout] at hpackets
    rw [hmem] at hkeep hread
    exact (h.of_eq (hread pa sl hok)).gives ⟨hkeep, hpackets⟩
  · exact (h.of_eq (hpoison a hbad)).gives ⟨hmem, congrArg (· ++ _) hout⟩
  · exact (h.of_eq (hfault a p l hbad)).gives ⟨(noteWalks_mem ..).trans hmem, List.getLast?_concat ..⟩

end

end Sys2Proof.Machine
end

section
/-! R61, R64, R94, R104, R105: registrations of chains, fault chains and regions, and the posting of fault records. -/

namespace Sys2Proof.Machine

open Sys2Proof

/-! ### A write that lands -/

theorem writeVa_lands {s : State} {isl part va pa : Nat} {bs : List Byte} {meets : Bool}
    (h : Lands s isl part va bs.length .write meets pa) :
    writeVa s isl part va bs meets = .ok (bypassBank s isl none pa bs) := by
  obtain ⟨⟨sl, hok⟩, -⟩ := h
  rw [writeVa, hok]

theorem writeVa_error {s : State} {isl part va : Nat} {bs : List Byte} {meets : Bool} {e : XErr}
    (h : access s isl part va bs.length .write meets = .error e) : writeVa s isl part va bs meets = .error e := by
  rw [writeVa, h]

theorem length_leBytes (n x : Nat) : (leBytes n x).length = n := by simp [leBytes]

/-- R64: a partition may keep a chain's descriptor at an address. -/
def ChainPlace (s : State) (part isl desc : Nat) : Prop :=
  (s.part? part).isSome = true ∧ holdsIsland s part isl = true ∧ hubReaches s isl = true ∧ desc % 512 = 0

theorem not_chainPlace_or_iff (s : State) (part isl desc : Nat) (p : Prop) : ¬ ChainPlace s part isl desc ∨ p ↔
    (s.part? part).isNone = true ∨ (!holdsIsland s part isl) = true ∨ (!hubReaches s isl) = true ∨ desc % 512 ≠ 0 ∨ p := by
  simp only [ChainPlace, not_and_or, Bool.not_eq_true, Bool.not_eq_true', Option.isSome_eq_false_iff, ne_eq, or_assoc]

/-! ### Command chains -/

theorem registerChain_refused {s : State} {part isl desc head : Nat} (chain : Nat)
    (h : ¬ ChainPlace s part isl desc ∨ 2 ^ 52 ≤ head) : registerChain s part chain isl desc head = refuse s 1 :=
  if_pos ((not_chainPlace_or_iff ..).1 h)

/-- R64: a chain that is registered: its descriptor in memory, and its record. -/
theorem registerChain_leaves {s : State} {part isl desc head pa : Nat} (chain : Nat) (hplace : ChainPlace s part isl desc)
    (hhead : head < 2 ^ 52) (hlands : Lands s isl part desc 512 .write false pa) :
    Wrote s (registerChain s part chain isl desc head) isl pa
      (leBytes 256 0 ++ leBytes 16 (head * 2 ^ 20 + 2 ^ 120) ++ leBytes 240 0) ∧
    ((registerChain s part chain isl desc head).hub.chains.get? (part, chain)).map
      (fun c => (c.home, c.desc, c.head, c.consumed, c.comp, c.halted, c.done)) = some (isl, desc, head, 0, 0, false, []) := by
  have hbytes : descriptorBytes head = leBytes 256 0 ++ leBytes 16 (head * 2 ^ 20 + 2 ^ 120) ++ leBytes 240 0 := by
    rw [descriptorBytes, Nat.mod_eq_of_lt hhead]
  have hlen : (descriptorBytes head).length = 512 := by simp [hbytes, length_leBytes]
  have hwrite := writeVa_lands (bs := descriptorBytes head) (by rwa [hlen])
  have hwrote := wrote_bypassBank s isl none pa (descriptorBytes head) (by rw [hlen]; exact hlands.2)
  have hgood : ¬ (¬ ChainPlace s part isl desc ∨ 2 ^ 52 ≤ head) := not_or.2 ⟨not_not.2 hplace, Nat.not_le.2 hhead⟩
  unfold registerChain
  rw [if_neg (mt (not_chainPlace_or_iff ..).2 hgood), hwrite, ← hbytes]
  exact ⟨hwrote.of_mem rfl rfl, by rw [Tbl.get?_set_self]; rfl⟩

/-! ### The posting of a fault record -/

theorem sendFrom_par (s : State) (isl part evqp : Nat) (bs : List Byte) : (sendFrom s isl part evqp bs).par = s.par := by
  unfold sendFrom sendEvent
  split <;> split <;> rfl

/-- What a device's write in memory leaves of the partitions' structures, and a report. -/
theorem par_of_unreported {s t : State} (h : t.unreported = s.unreported) : t.par = s.par :=
  (congrArg (fun u : State => u.par) h :)

/-- R105: a record that is posted moves WIDX on; one that is not leaves the ring. -/
theorem tryPost_fchains (s : State) (e : FaultEnt) (f : FaultChain) :
    (∀ t, tryPost s e f = .done t →
      t.par.fchains = s.par.fchains.set (e.key.part, e.key.isl) { f with widx := f.widx + 1 }) ∧
    ∀ t, tryPost s e f = .failed t → t.par = s.par := by
  unfold tryPost
  dsimp only
  split
  next ridx w _ _ =>
    split
    · exact ⟨fun t h => (nomatch h), fun t h => (nomatch h)⟩
    · split
      next x _ =>
        refine ⟨fun t h => (nomatch h), fun t h => ?_⟩
        obtain rfl := Post.failed.inj h
        exact par_of_unreported (note_unreported ..)
      next s1 h1 =>
        have hpar1 := par_of_unreported (unreported_of_unbanked (writeVa_unbanked h1))
        split
        next x _ =>
          refine ⟨fun t h => (nomatch h), fun t h => ?_⟩
          obtain rfl := Post.failed.inj h
          exact (par_of_unreported (note_unreported ..)).trans hpar1
        next s2 h2 =>
          have hpar2 := (par_of_unreported (unreported_of_unbanked (writeVa_unbanked h2))).trans hpar1
          refine ⟨fun t h => ?_, fun t h => (nomatch h)⟩
          obtain rfl := Post.done.inj h
          rw [sendFrom_par, ← hpar2]
          rfl
  all_goals
    refine ⟨fun t h => (nomatch h), fun t h => ?_⟩
    obtain rfl := Post.failed.inj h
    exact par_of_unreported (note_unreported ..)

/-- R104: the fields that a fault chain takes at its registration. -/
def FaultChain.ring (f : FaultChain) : Nat × Nat × Nat := (f.desc, f.base, f.size)

theorem nextPost_key {s : State} {isl part : Nat} {e : FaultEnt} (h : nextPost s isl part = some e) :
    e ∈ s.par.faults ∧ e.key.isl = isl ∧ e.key.part = part ∧ e.fseq = none := by
  refine ⟨List.mem_of_find?_eq_some h, ?_⟩
  simpa [and_assoc] using List.find?_some h

/-- R104, R105: records that are posted leave the ring's own fields. -/
theorem postHeld_ring (isl part n : Nat) (s : State) {r : Nat × Nat × Nat}
    (h : (s.par.fchains.get? (part, isl)).map FaultChain.ring = some r) :
    ((postHeld isl part n s).par.fchains.get? (part, isl)).map FaultChain.ring = some r := by
  induction n generalizing s with
  | zero => exact h
  | succ n ih =>
    rw [postHeld]
    split
    next e f he hf =>
      obtain ⟨hdone, hfailed⟩ := tryPost_fchains s e f
      obtain ⟨-, hisl, hpart, -⟩ := nextPost_key he
      rw [hf] at h
      split
      · rw [hf]
        exact h
      · split
        next =>
          rw [hf]
          exact h
        next t ht =>
          refine ih t ?_
          rw [hdone t ht, hisl, hpart, Tbl.get?_set_self]
          exact h
        next t ht =>
          have hpar := congrArg (fun p : PartSt => p.fchains.get? (part, isl)) (hfailed t ht)
          rw [← hf, ← hpar] at h
          exact h
    next => exact h

theorem postHeld_none {s : State} {isl part : Nat} (h : nextPost s isl part = none) (n : Nat) : postHeld isl part n s = s := by
  cases n with
  | zero => rfl
  | succ n => rw [postHeld, h]

/-! ### Fault chains -/

/-- R104: the fields of a fault chain's ring are in range. -/
def RingOk (base size : Nat) : Prop := size ≤ 10 ∧ base % 4096 = 0 ∧ base < 2 ^ 52

theorem registerFaults_fails_iff (s : State) (part isl desc base size : Nat) :
    ¬ (ChainPlace s part isl desc ∧ RingOk base size) ↔
      10 < size ∨ (s.part? part).isNone = true ∨ (!holdsIsland s part isl) = true ∨ (!hubReaches s isl) = true ∨
        desc % 512 ≠ 0 ∨ base % 4096 ≠ 0 ∨ 2 ^ 52 ≤ base := by
  rw [← not_chainPlace_or_iff, RingOk, not_and_or, not_and_or, not_and_or, Nat.not_le, Nat.not_lt]
  tauto

theorem registerFaults_refused {s : State} {part isl desc base size : Nat}
    (h : ¬ (ChainPlace s part isl desc ∧ RingOk base size)) : registerFaults s part isl desc base size = refuse s 2 :=
  if_pos ((registerFaults_fails_iff ..).1 h)

/-- R104: a fault chain as its registration's write finds it, before held records are posted. -/
def ringSet (s : State) (part isl desc base size : Nat) : State :=
  { s with par := { s.par with
    fchains := s.par.fchains.set (part, isl) ⟨desc, base, size, 0⟩
    faults := s.par.faults.map fun e => if e.key.isl = isl ∧ e.key.part = part then { e with held := none } else e } }

theorem nextPost_ringSet {s : State} {part isl : Nat} (desc base size : Nat) (h : nextPost s isl part = none) :
    nextPost (ringSet s part isl desc base size) isl part = none := by
  simp only [nextPost, List.find?_eq_none] at h ⊢
  intro e he
  obtain ⟨x, hx, rfl⟩ := List.mem_map.1 he
  have hkeep := h x hx
  split <;> exact hkeep

/-- R104: a fault chain that is registered: its ring, and its descriptor where no record is held. -/
theorem registerFaults_leaves {s : State} {part isl desc base size pa : Nat} (hplace : ChainPlace s part isl desc)
    (hring : RingOk base size) (hlands : Lands s isl part desc 512 .write false pa) :
    let t := registerFaults s part isl desc base size
    (t.par.fchains.get? (part, isl)).map FaultChain.ring = some (desc, base, size) ∧
    (nextPost s isl part = none → (t.par.fchains.get? (part, isl)).map (·.widx) = some 0 ∧
      Wrote s t isl pa (leBytes 16 (base * 2 ^ 52 + size * 2 ^ 104) ++ leBytes 496 0)) := by
  intro t
  have hlen : (leBytes 16 (base * 2 ^ 52 + size * 2 ^ 104) ++ leBytes 496 0).length = 512 := by simp [length_leBytes]
  have ht : t = registerFaults s part isl desc base size := rfl
  have hwrite := writeVa_lands (bs := leBytes 16 (base * 2 ^ 52 + size * 2 ^ 104) ++ leBytes 496 0) (by rwa [hlen])
  have hwrote := wrote_bypassBank s isl none pa (leBytes 16 (base * 2 ^ 52 + size * 2 ^ 104) ++ leBytes 496 0)
    (by rw [hlen]; exact hlands.2)
  have hkept := par_of_unreported (unreported_of_unbanked (writeVa_unbanked hwrite))
  rw [registerFaults, if_neg (mt (registerFaults_fails_iff ..).2 (not_not.2 ⟨hplace, hring⟩)), hwrite] at ht
  generalize bypassBank s isl none pa (leBytes 16 (base * 2 ^ 52 + size * 2 ^ 104) ++ leBytes 496 0) = s1 at ht hwrote hkept
  replace ht : t = postHeld isl part 256 (ringSet s1 part isl desc base size) := ht
  rw [ht]
  refine ⟨postHeld_ring isl part 256 _ ((congrArg _ (Tbl.get?_set_self ..)).trans rfl), fun hnone => ?_⟩
  rw [postHeld_none (nextPost_ringSet desc base size (by rwa [nextPost, hkept]))]
  exact ⟨(congrArg _ (Tbl.get?_set_self ..)).trans rfl, hwrote.of_mem rfl rfl⟩

/-! ### Memory regions -/

/-- R61: the checks of a memory region. -/
def RegionOk (s : State) (part n : Nat) (rg : Region) : Prop :=
  (s.part? part).isSome = true ∧ n < 1024 ∧ rg.va % 65536 = 0 ∧ rg.len % 65536 = 0 ∧ rg.len ≠ 0 ∧
    rg.va + rg.len ≤ 2 ^ 52 ∧ holdsIsland s part rg.isl = true

theorem regionOk_fails_iff (s : State) (part n : Nat) (rg : Region) : ¬ RegionOk s part n rg ↔
    (s.part? part).isNone = true ∨ 1024 ≤ n ∨ rg.va % 65536 ≠ 0 ∨ rg.len % 65536 ≠ 0 ∨ rg.len = 0 ∨
      2 ^ 52 < rg.va + rg.len ∨ (!holdsIsland s part rg.isl) = true := by
  simp only [RegionOk, not_and_or, Bool.not_eq_true, Bool.not_eq_true', Option.isSome_eq_false_iff, ne_eq, Nat.not_lt,
    Nat.not_le, not_not]

theorem registerRegion_refused {s : State} {part n : Nat} {rg : Region} (h : ¬ RegionOk s part n rg) :
    registerRegion s part n rg = refuse s 3 :=
  if_pos ((regionOk_fails_iff ..).1 h)

theorem registerRegion_ok {s : State} {part n : Nat} {rg : Region} (h : RegionOk s part n rg) :
    registerRegion s part n rg = { s with hub := { s.hub with regions := s.hub.regions.set (part, n) rg } } :=
  if_neg (mt (regionOk_fails_iff ..).2 (not_not.2 h))

/-! ### Requests through Redfish -/

theorem chain_requests {s : State} (hs : serviceUp s = true) {part chain isl desc head : Nat}
    (hocc : s.occ = .register part chain isl desc head) :
    Asked .chainRegistration s (some part) (if chain < 16 then registerChain s part chain isl desc head else refuse s 1) ∧
      Asked .serviceChainRegistration s (some part) (registerChain s part 16 isl desc head) := by
  constructor <;> refine asked_of_redfish ?_
  · rw [exec_chainRegistration, execChainRegistration, hocc]
    simp only [hs, if_true]
  · rw [exec_serviceChainRegistration, execServiceChainRegistration, hocc]
    simp only [hs, if_true]

theorem faultChain_request {s : State} (hs : serviceUp s = true) {part isl desc base size : Nat}
    (hocc : s.occ = .fchain part isl desc base size) :
    Asked .faultChainRegistration s (some part) (registerFaults s part isl desc base size) := by
  refine asked_of_redfish ?_
  rw [exec_faultChainRegistration, execFaultChainRegistration, hocc]
  simp only [hs, if_true]

theorem region_request {s : State} (hs : serviceUp s = true) {part n : Nat} {rg : Region} (hocc : s.occ = .region part n rg) :
    Asked .memoryRegionRegistration s (some part) (registerRegion s part n rg) := by
  refine asked_of_redfish ?_
  rw [exec_memoryRegionRegistration, execMemoryRegionRegistration, hocc]
  simp only [hs, if_true]

end Sys2Proof.Machine
end

section
/-! R66, R68, R69, R76: the PCP's chains: the next record of a chain, and the completion of one. -/

namespace Sys2Proof.Machine

open Sys2Proof

/-! ### The hub's accesses -/

theorem hubPut_lands {s : State} {isl part va pa : Nat} {bs : List Byte} (hreach : hubReaches s isl = true)
    (h : Lands s isl part va bs.length .write false pa) : hubPut s isl part va bs = some (bypassBank s isl none pa bs) := by
  rw [hubPut, if_pos hreach, writeVa_lands h]
  rfl

theorem hubWrite_lands {s : State} {isl part va pa : Nat} {bs : List Byte} (hreach : hubReaches s isl = true)
    (h : Lands s isl part va bs.length .write false pa) : hubWrite s isl part va bs = bypassBank s isl none pa bs := by
  rw [hubWrite, hubPut_lands hreach h]
  rfl

theorem chains_of_unreported {s t : State} (h : t.unreported = s.unreported) : t.hub.chains = s.hub.chains :=
  (congrArg (fun u : State => u.hub.chains) h :)

theorem cmds_of_unchained {s t : State} (h : t.unchained = s.unchained) : t.hub.cmds = s.hub.cmds :=
  (congrArg (fun u : State => u.hub.cmds) h :)

theorem hubReaches_bypassBank (s : State) (isl : Nat) (core : Option Nat) (pa : Nat) (bs : List Byte) (n : Nat) :
    hubReaches (bypassBank s isl core pa bs) n = hubReaches s n :=
  (congrArg (fun u : State => hubReaches u n) (bypassBank_unbanked s isl core pa bs) :)

/-! ### The halt of a chain, and COMP -/

theorem haltCmd_halted {s : State} {k : Nat × Nat} {c : CmdChain} (addr : Nat) (hc : s.hub.chains.get? k = some c) :
    ((haltCmd s k addr).hub.chains.get? k).map (·.halted) = some true := by
  unfold haltCmd
  rw [hc]
  dsimp only
  split
  next hhalted => rw [hc, Option.map_some, hhalted]
  next =>
    rw [chains_of_unreported ((hubWrite_unreported ..).trans (hubWrite_unreported ..))]
    exact congrArg (Option.map _) (Tbl.get?_set_self ..)

theorem raisePrefix_halted (n : Nat) (c : CmdChain) : (raisePrefix n c).halted = c.halted := by
  induction n generalizing c with
  | zero => rfl
  | succ n ih =>
    rw [raisePrefix]
    split
    · exact ih _
    · rfl

/-- R69: the chain after a record's completion, whether or not COMP rises. -/
theorem completeSeq_chain {s : State} {k : Nat × Nat} {c : CmdChain} (seq : Nat) (hc : s.hub.chains.get? k = some c) :
    (completeSeq s k seq).hub.chains.get? k = some (raisePrefix (c.done.length + 1) { c with done := seq :: c.done }) := by
  unfold completeSeq
  rw [hc]
  dsimp only
  generalize raisePrefix _ _ = c'
  have hset : (setCmdChain s k c').hub.chains.get? k = some c' := Tbl.get?_set_self ..
  split
  · exact hset
  · split
    · rwa [chains_of_unreported ((sendEvent_unreported ..).trans (hubWrite_unreported ..))]
    · rwa [chains_of_unreported ((noteWalk_unreported ..).trans (hubWrite_unreported ..))]

theorem completeSeq_halted {s : State} {k : Nat × Nat} {seq : Nat} (h : (s.hub.chains.get? k).map (·.halted) = some true) :
    ((completeSeq s k seq).hub.chains.get? k).map (·.halted) = some true := by
  obtain ⟨c, hc, hhalted⟩ := Option.map_eq_some_iff.1 h
  rw [completeSeq_chain seq hc, Option.map_some, raisePrefix_halted]
  exact congrArg some hhalted

theorem sendEvent_mem (s : State) (part evqp : Nat) (bs : List Byte) : (sendEvent s part evqp bs).mem = s.mem := by
  unfold sendEvent
  split <;> rfl

/-- R69: COMP stays while an earlier record is under way. -/
theorem raisePrefix_waits {c : CmdChain} {seq : Nat} (hseq : seq ≠ c.comp + 1) :
    raisePrefix 1 { c with done := [seq] } = { c with done := [seq] } := by
  rw [raisePrefix, if_neg (by simpa using hseq.symm)]

theorem raisePrefix_rises (c : CmdChain) :
    raisePrefix 1 { c with done := [c.comp + 1] } = { c with comp := c.comp + 1, done := [] } := by
  rw [raisePrefix, if_pos (by simp), raisePrefix]
  simp

theorem completeSeq_waits {s : State} {k : Nat × Nat} {c : CmdChain} {seq : Nat} (hc : s.hub.chains.get? k = some c)
    (hdone : c.done = []) (hseq : seq ≠ c.comp + 1) :
    completeSeq s k seq = setCmdChain s k { c with done := [seq] } := by
  unfold completeSeq
  rw [hc]
  dsimp only
  rw [hdone, List.length_nil, raisePrefix_waits hseq]
  exact if_pos rfl

/-- R69: a COMP that rises is written to the descriptor. -/
theorem completeSeq_rises {s : State} {k : Nat × Nat} {c : CmdChain} {pb : Nat} (hc : s.hub.chains.get? k = some c)
    (hdone : c.done = []) (hreach : hubReaches s c.home = true) (hlands : Lands s c.home k.1 (c.desc + 280) 8 .write false pb) :
    Wrote s (completeSeq s k (c.comp + 1)) c.home pb (leBytes 8 (c.comp + 1)) := by
  have hlen := length_leBytes 8 (c.comp + 1)
  have hwrite := hubWrite_lands (s := setCmdChain s k { c with comp := c.comp + 1, done := [] })
    (bs := leBytes 8 (c.comp + 1)) hreach (by rw [hlen]; exact hlands)
  refine (wrote_bypassBank (setCmdChain s k { c with comp := c.comp + 1, done := [] }) c.home none pb (leBytes 8 (c.comp + 1))
    (by rw [hlen]; exact hlands.2)).of_mem rfl ?_
  rw [← hwrite]
  unfold completeSeq
  rw [hc]
  dsimp only
  rw [hdone, List.length_nil, raisePrefix_rises, if_neg (Nat.succ_ne_self _)]
  split
  · exact sendEvent_mem ..
  · exact noteWalk_mem ..

/-! ### The next record of a chain -/

section
variable {s : State} {k : Nat × Nat} {c : CmdChain} {a : Nat}

theorem startCmd_begins {x : Nat} (hnext : nextCmd s k c = .ok a) (ha : a % 64 = 0) (hx : readVa s c.home k.1 a 64 = .ok x)
    (hfree : nbit x 55 = false ∨ c.consumed + 1 ≤ c.comp + 1) :
    ∃ r, startCmd s k c = some { s with hub := { s.hub with
        chains := s.hub.chains.set k { c with consumed := c.consumed + 1, last := a }, cmds := s.hub.cmds ++ [r] } } ∧
      (r.ref, r.addr, r.bits, r.begun) = (⟨k.1, k.2, c.reg, c.consumed + 1⟩, a, x, false) ∧ r.res = cmdEarly s k.1 k.2 x := by
  have hgo : ¬ (nbit x 55 && c.comp + 1 < c.consumed + 1) = true := by
    rcases hfree with h | h
    · simp [h]
    · simp [Nat.not_lt.2 h]
  rw [startCmd]
  simp only [hnext, ha, if_true, hx, if_neg hgo]
  exact ⟨_, rfl, rfl, rfl⟩

theorem startCmd_waits {x : Nat} (hnext : nextCmd s k c = .ok a) (ha : a % 64 = 0) (hx : readVa s c.home k.1 a 64 = .ok x)
    (hwait : nbit x 55 = true) (hlate : c.comp + 1 < c.consumed + 1) : startCmd s k c = none := by
  rw [startCmd]
  simp only [hnext, ha, if_true, hx]
  exact if_pos (by simp [hwait, hlate])

/-- R76: a record that cannot be read halts its chain. -/
theorem startCmd_halts (hc : s.hub.chains.get? k = some c) (h : nextCmd s k c = .error a ∨
      nextCmd s k c = .ok a ∧ (a % 64 ≠ 0 ∨ ∃ e, readVa s c.home k.1 a 64 = .error e)) :
    ∃ t, startCmd s k c = some t ∧ (t.hub.chains.get? k).map (·.halted) = some true ∧ t.hub.cmds = s.hub.cmds := by
  rcases h with hnext | ⟨hnext, hbad⟩
  · have hnote : (noteNext s k c).unreported = s.unreported := by
      unfold noteNext
      split <;> exact noteWalk_unreported ..
    refine ⟨haltCmd (noteNext s k c) k a, by rw [startCmd, hnext],
      haltCmd_halted a ((congrArg (·.get? k) (chains_of_unreported hnote)).trans hc), ?_⟩
    exact cmds_of_unchained ((haltCmd_unchained ..).trans (unchained_of_unreported hnote))
  · have hread : ∃ e, (if a % 64 = 0 then readVa s c.home k.1 a 64 else .error (.poison a)) = .error e := by
      rcases hbad with ha | ⟨e, he⟩
      · exact ⟨_, if_neg ha⟩
      · by_cases ha : a % 64 = 0
        · exact ⟨e, (if_pos ha).trans he⟩
        · exact ⟨_, if_neg ha⟩
    obtain ⟨e, he⟩ := hread
    refine ⟨haltAt (noteWalk s c.home k.1 a) k c (c.consumed + 1) a, by rw [startCmd, hnext]; dsimp only; rw [he], ?_, ?_⟩
    · exact completeSeq_halted (haltCmd_halted a (Tbl.get?_set_self ..))
    · refine cmds_of_unchained ((completeSeq_unchained ..).trans ((haltCmd_unchained ..).trans ?_))
      exact show (noteWalk s c.home k.1 a).unchained = s.unchained from unchained_of_unreported (noteWalk_unreported ..)

end

/-- R86: the PCP's round robin changes its own turn alone. -/
def State.turned (s : State) (turn : Nat × Nat) : State := { s with hub := { s.hub with pcpTurn := turn } }

theorem pcpServe_turned {s t : State} {part : Nat} (h : pcpServe s part = some t) : ∃ turn, t = s.turned turn := by
  unfold pcpServe at h
  dsimp only at h
  split at h <;> split at h
  · exact ⟨_, (Option.some.inj h).symm⟩
  · exact nomatch h
  · exact ⟨_, (Option.some.inj h).symm⟩
  · exact nomatch h

/-! ### PCP_TAIL_WAKE -/

theorem exec_pcpTailWake_at {s : State} {part chain : Nat} (hocc : s.occ = .chain part chain) :
    exec .pcpTailWake s = (tailWake s (part, chain)).elim (idle "PCP_TAIL_WAKE") fun t => .next (commit s t) := by
  rw [exec_pcpTailWake, execPcpTailWake, hocc]
  dsimp only
  cases tailWake s (part, chain) <;> rfl

theorem tailWake_none {s : State} {k : Nat × Nat} (h : s.hub.chains.get? k = none) : tailWake s k = none := by
  rw [tailWake, h]

theorem tailWake_unserved {s : State} {k : Nat × Nat} {c : CmdChain} (hc : s.hub.chains.get? k = some c)
    (h : chainServed s k c = false) : tailWake s k = none := by
  simp [tailWake, hc, tailOf, h]

theorem tailWake_read {s : State} {k : Nat × Nat} {c : CmdChain} {tail : Nat} (hc : s.hub.chains.get? k = some c)
    (h : chainServed s k c = true) (htail : readVa s c.home k.1 c.desc 8 = .ok tail) :
    tailWake s k = if tail < c.consumed then some (report (setCmdChain s k { c with low := c.low + 1 }) k.1 13 [k.2, tail])
      else if tail = c.consumed then none else (pcpServe s k.1).bind fun s1 => startCmd s1 k c := by
  have htailOf : tailOf s k c = some tail := by rw [tailOf, if_pos h, htail]; rfl
  rw [tailWake, hc]
  simp only [htailOf]

/-! ### The completion of a record -/

section
variable {s : State} {c : CmdRec} {res : Nat × Nat × Nat} {cc : CmdChain}

theorem exec_completion_at (hocc : s.occ = .cmd c.ref) (hfind : s.hub.cmds.find? (·.ref = c.ref) = some c) :
    (c.res = none ∨ c.ready s = false →
      exec .commandRecordCompletion s = idle "COMMAND_RECORD_COMPLETION") ∧
    (c.res = some res → c.ready s = true → Occurs .commandRecordCompletion s (completeCmd s c res)) := by
  rw [Occurs, exec_commandRecordCompletion, execCommandRecordCompletion, hocc]
  simp only [hfind]
  refine ⟨fun h => ?_, fun hres hready => ?_⟩
  · split
    · rcases h with hnone | hunready
      next res hres => exact nomatch hnone.symm.trans hres
      · exact if_neg (by simp [hunready])
    · rfl
  · simp only [hres, hready, if_true]

/-- R69: a record of an earlier registration leaves without a STATUS. -/
theorem completeCmd_stale (hc : s.hub.chains.get? (c.ref.part, c.ref.chain) = some cc) (hreg : cc.reg ≠ c.ref.reg) :
    completeCmd s c res = { s with hub := { s.hub with cmds := s.hub.cmds.filter (·.ref ≠ c.ref) } } := by
  rw [completeCmd, hc]
  exact if_pos hreg

theorem completeCmd_written {s' : State} (hc : s.hub.chains.get? (c.ref.part, c.ref.chain) = some cc) (hreg : cc.reg = c.ref.reg)
    (hput : hubPut { s with hub := { s.hub with cmds := s.hub.cmds.filter (·.ref ≠ c.ref) } } cc.home c.ref.part (c.addr + 56)
      (leBytes 8 (res.1 % 256 * 2 ^ 56 + res.2.1 % 2 ^ 24 * 2 ^ 32 + res.2.2 % 2 ^ 32)) = some s') :
    completeCmd s c res = completeSeq s' (c.ref.part, c.ref.chain) c.ref.seq := by
  rw [completeCmd, hc]
  simp only [hreg, ne_eq, not_true_eq_false, if_false]
  rw [hput]

theorem reaches_of_ready (hready : c.ready s = true) (hc : s.hub.chains.get? (c.ref.part, c.ref.chain) = some cc)
    (hreg : cc.reg = c.ref.reg) : hubReaches s cc.home = true := by
  rw [CmdRec.ready, hc] at hready
  simpa [hreg] using (Bool.and_eq_true_iff.1 hready).2

end

/-- R69: what the completion of a record leaves of its chain. -/
theorem completion_gives {s : State} {c : CmdRec} {st d i pa : Nat} {cc : CmdChain} (pb : Nat) (hocc : s.occ = .cmd c.ref)
    (hfind : s.hub.cmds.find? (·.ref = c.ref) = some c) (hres : c.res = some (st, d, i)) (hready : c.ready s = true)
    (hc : s.hub.chains.get? (c.ref.part, c.ref.chain) = some cc) (hreg : cc.reg = c.ref.reg) (hdone : cc.done = [])
    (hlands : Lands s cc.home c.ref.part (c.addr + 56) 8 .write false pa) :
    let s0 : State := { s with hub := { s.hub with cmds := s.hub.cmds.filter (·.ref ≠ c.ref) } }
    let u := bypassBank s0 cc.home none pa (leBytes 8 (st % 256 * 2 ^ 56 + d % 2 ^ 24 * 2 ^ 32 + i % 2 ^ 32))
    Gives (exec .commandRecordCompletion s) fun t =>
      t.hub.cmds = s.hub.cmds.filter (·.ref ≠ c.ref) ∧
      (c.ref.seq ≠ cc.comp + 1 → (t.hub.chains.get? (c.ref.part, c.ref.chain)).map (·.comp) = some cc.comp ∧
        ∀ j b, t.mem.byte j b = u.mem.byte j b) ∧
      (c.ref.seq = cc.comp + 1 → (t.hub.chains.get? (c.ref.part, c.ref.chain)).map (·.comp) = some (cc.comp + 1) ∧
        (Lands u cc.home c.ref.part (cc.desc + 280) 8 .write false pb →
          Wrote u t cc.home pb (leBytes 8 (cc.comp + 1)))) := by
  intro s0 u
  have hreach : hubReaches s0 cc.home = true := reaches_of_ready hready hc hreg
  have hput : hubPut s0 cc.home c.ref.part (c.addr + 56)
      (leBytes 8 (st % 256 * 2 ^ 56 + d % 2 ^ 24 * 2 ^ 32 + i % 2 ^ 32)) = some u :=
    hubPut_lands hreach (by rw [length_leBytes]; exact hlands)
  have hu := hubPut_unbanked hput
  have hreachu : hubReaches u cc.home = true := (hubReaches_bypassBank ..).trans hreach
  have hx := ((exec_completion_at hocc hfind).2 hres hready).of_eq (completeCmd_written hc hreg hput)
  clear_value u
  have hcu : u.hub.chains.get? (c.ref.part, c.ref.chain) = some cc := by
    rwa [chains_of_unreported (unreported_of_unbanked hu)]
  have hcmds : u.hub.cmds = s.hub.cmds.filter (·.ref ≠ c.ref) :=
    cmds_of_unchained (s := s0) (unchained_of_unreported (unreported_of_unbanked hu))
  have hchain := completeSeq_chain c.ref.seq hcu
  rw [hdone, List.length_nil] at hchain
  refine hx.gives ⟨(cmds_of_unchained (completeSeq_unchained ..)).trans hcmds, fun hseq => ⟨?_, fun j b => ?_⟩,
    fun hseq => ⟨?_, fun hput2 => ?_⟩⟩
  · refine (congrArg (Option.map _) hchain).trans ?_
    rw [raisePrefix_waits hseq]
    rfl
  · rw [completeSeq_waits hcu hdone hseq]
    rfl
  · refine (congrArg (Option.map _) hchain).trans ?_
    rw [hseq, raisePrefix_rises]
    rfl
  · rw [hseq]
    exact (completeSeq_rises hcu hdone hreachu hput2).of_mem rfl rfl

end Sys2Proof.Machine
end

section
/-! R72, R73, R75, R107, R135, R137: what LAUNCH, NOTIFY and RESUME leave, and how a record becomes ready. -/

namespace Sys2Proof.Machine

open Sys2Proof

/-! ### The end of a command -/

/-- The numbers of the records that the PCP has started. -/
def State.refs (s : State) : List CmdRef := s.hub.cmds.map (·.ref)

theorem refs_of_unreported {s t : State} (h : t.unreported = s.unreported) : t.refs = s.refs :=
  (congrArg State.refs h :)

/-- R70: a started record of a number has its status, with the fields that the spec states for it. -/
def Ended (ref : CmdRef) (st : Nat) (detail info : Option Nat) (t : State) : Prop :=
  ∃ r ∈ t.hub.cmds, r.ref = ref ∧ r.begun = true ∧ ∃ d i, r.res = some (st, d, i) ∧
    (∀ y, detail = some y → d = y) ∧ ∀ y, info = some y → i = y

theorem setCmd_mem {s : State} {c d : CmdRec} (h : d ∈ s.hub.cmds) (href : d.ref = c.ref) : c ∈ (setCmd s c).hub.cmds :=
  List.mem_map.2 ⟨d, h, if_pos href⟩

/-- R70: the record of a command that ends. -/
theorem mem_endCmd {s : State} {c d : CmdRec} (st : Nat) (detail info : Option Nat) (h : d ∈ s.hub.cmds)
    (href : d.ref = c.ref) :
    ∃ x y, { c with begun := true, res := some (st, x, y) } ∈ (endCmd s c st detail info).hub.cmds ∧
      (∀ z, detail = some z → x = z) ∧ ∀ z, info = some z → y = z := by
  refine ⟨_, _, setCmd_mem h href, ?_, ?_⟩ <;> rintro z rfl <;> rfl

theorem endCmd_ended {s : State} {c d : CmdRec} (st : Nat) (detail info : Option Nat) (h : d ∈ s.hub.cmds)
    (href : d.ref = c.ref) :
    Ended c.ref st detail info (endCmd s c st detail info) := by
  obtain ⟨x, y, hmem, hfields⟩ := mem_endCmd st detail info h href
  exact ⟨_, hmem, rfl, rfl, x, y, rfl, hfields⟩

/-- A command ends where the event leads to its end, from any state that still holds its record. -/
theorem Occurs.ends {i : Instr} {s u : State} {c : CmdRec} {st : Nat} {detail info : Option Nat}
    (h : Occurs i s (endCmd u c st detail info)) (href : c.ref ∈ u.refs) :
    Gives (exec i s) (Ended c.ref st detail info) := by
  obtain ⟨d, hd, heq⟩ := List.mem_map.1 href
  exact h.gives (endCmd_ended st detail info hd heq)

/-! ### Ready queues -/

theorem leaveRecord_refs (s : State) (isl part va pa st code : Nat) (why : List Nat) (origin : Option Nat) :
    (leaveRecord s isl part va pa st code why origin).refs = s.refs := by
  have hbank := refs_of_unreported (unreported_of_unbanked (bypassBank_unbanked s isl none (pa + 7) [BitVec.ofNat 8 st]))
  unfold leaveRecord
  dsimp only
  split
  · exact hbank
  · refine Eq.trans ?_ hbank
    simp only [State.refs, notRun, List.map_map]
    refine List.map_congr_left fun c _ => ?_
    dsimp only [Function.comp]
    split <;> rfl

theorem writeRecord_unreported (s : State) (isl part va : Nat) (via : Via) (off : Nat) (bs : List Byte) :
    (writeRecord s isl part va via off bs).unreported = s.unreported := by
  unfold writeRecord
  split
  · exact unreported_of_unbanked (bypassBank_unbanked ..)
  · exact putVa_unreported (lost := fun u => report u part 1 [isl, va]) (fun _ => rfl) ..

theorem makeReady_refs (s : State) (isl part va pa : Nat) (via : Via) : (makeReady s isl part va pa via).refs = s.refs := by
  unfold makeReady
  split
  · exact leaveRecord_refs ..
  · dsimp only
    split
    · exact leaveRecord_refs ..
    · split
      · exact leaveRecord_refs ..
      · exact (refs_of_unreported (writeRecord_unreported s isl part va via 8 (leBytes 8 (s.clk isl))) :)

theorem joinDecrement_refs (s : State) (isl part va pa count : Nat) : (joinDecrement s isl part va pa count).1.refs = s.refs := by
  have hbank (x : Nat) := refs_of_unreported (unreported_of_unbanked (bypassBank_unbanked s isl none pa (leBytes 8 x)))
  unfold joinDecrement
  split
  · rfl
  · dsimp only
    split
    · exact (makeReady_refs ..).trans (hbank _)
    · exact hbank _

/-- R135, R138: a sound record joins its partition's ready queue, with its time stamp in memory. -/
theorem makeReady_queues {u : State} {isl part va pa : Nat} (hva : va % 64 = 0) (hsound : u.mem.poisonedAt isl pa 64 = none)
    (hgood : recordBad (u.mem.nat isl pa 64) va part = none) (hroom : (queueOf u isl part).length < qcapOf u part)
    (hpa : pa + 16 ≤ 2 ^ 39) :
    Wrote u (makeReady u isl part va pa (.held pa)) isl (pa + 8) (leBytes 8 (u.clk isl)) ∧
      (makeReady u isl part va pa (.held pa)).task.queue = u.task.queue ++
        [⟨isl, part, .ofBits (u.mem.nat isl pa 64) va pa (u.clk isl), u.task.nextOrder, none⟩] := by
  have hfits : pa + 8 + (leBytes 8 (u.clk isl)).length ≤ 2 ^ 39 := by rw [length_leBytes]; omega
  have hwrote := wrote_bypassBank u isl none (pa + 8) (leBytes 8 (u.clk isl)) hfits
  obtain ⟨hkept, -⟩ := bypassBank_kept u isl none (pa + 8) (leBytes 8 (u.clk isl)) hfits
  have hready : makeReady u isl part va pa (.held pa) =
      enqueue (bypassBank u isl none (pa + 8) (leBytes 8 (u.clk isl))) isl part
        (.ofBits (u.mem.nat isl pa 64) va pa (u.clk isl)) := by
    unfold makeReady
    simp only [hva, hsound, hgood, if_true, if_neg (Nat.not_le.2 hroom)]
    rfl
  rw [hready, ← hkept.task]
  exact ⟨hwrote.of_mem rfl rfl, rfl⟩

/-- A write before another's range, then that range. -/
theorem Wrote.append {s u t : State} {isl pa : Nat} {xs ys : List Byte} (hys : Wrote s u isl (pa + xs.length) ys)
    (hxs : Wrote u t isl pa xs) : Wrote s t isl pa (xs ++ ys) := by
  refine ⟨fun i a ha => ?_, hxs.spads.trans hys.spads, hxs.accs.trans hys.accs⟩
  rw [hxs.bytes i a ha, hys.bytes i a ha, List.length_append]
  by_cases hi : i = isl
  · by_cases hlow : pa ≤ a ∧ a < pa + xs.length
    · rw [if_pos ⟨hi, hlow⟩, if_pos ⟨hi, by omega, by omega⟩, List.getD_append _ _ _ _ (by omega)]
    · rw [if_neg fun h => hlow h.2]
      by_cases hhigh : pa + xs.length ≤ a ∧ a < pa + xs.length + ys.length
      · rw [if_pos ⟨hi, hhigh⟩, if_pos ⟨hi, by omega, by omega⟩, List.getD_append_right _ _ _ _ (by omega), Nat.sub_add_eq]
      · rw [if_neg fun h => hhigh h.2, if_neg (by omega)]
  · simp [hi]

/-! ### LAUNCH -/

theorem exec_launch_at {s : State} {c : CmdRec} (hc : occCmd s 1 = some c) : exec .launch s =
    (if launchTurn s c then pcpServe s c.ref.part else none).elim (idle "LAUNCH") fun s1 => .next (commit s (launch s1 c)) := by
  rw [exec_launch, execLaunch, hc]
  dsimp only
  cases (if launchTurn s c then pcpServe s c.ref.part else none) <;> rfl

section
variable {s : State} {c : CmdRec}

theorem launch_malformed {b : Nat} (h : launchMal c.bits = some b) : launch s c = endCmd s c 0x11 (some b) none := by
  rw [launch]
  simp only [h]

theorem launch_unreached {st : Nat} (h : launchMal c.bits = none)
    (hbad : targetBad s c.ref.part (nbits c.bits 186 182) = some st) : launch s c = endCmd s c st none none := by
  rw [launch]
  simp only [h, hbad]

/-! A LAUNCH whose fields are good and whose island is reached goes by the translation of its record, and by its state. -/

/-- R137: a LAUNCH has begun on a record at an address. -/
def CmdRec.builds (c : CmdRec) : CmdRec := { c with begun := true, trec := some (nbits c.bits 186 182, nbits c.bits 181 130) }

/-- R137: the bytes 8 to 63 of the record that a LAUNCH writes at an address. -/
def recordTail (s : State) (c : CmdRec) (pa : Nat) : List Byte :=
  (leBytes 64 (launchBits (s.mem.nat (nbits c.bits 186 182) pa 64) c.bits c.ref.part c.addr (homeOf s c))).drop 8

variable (h : launchMal c.bits = none) (hgood : targetBad s c.ref.part (nbits c.bits 186 182) = none)
include h hgood

theorem launch_untranslated
    (hx : ∀ p q r, translate s (nbits c.bits 186 182) c.ref.part (nbits c.bits 181 130) .atomic ≠ .ok p q r) :
    ∃ u : State, u.refs = s.refs ∧ launch s c = endCmd u c 0x14 none none := by
  rw [launch]
  cases htr : translate s (nbits c.bits 186 182) c.ref.part (nbits c.bits 181 130) .atomic with
  | fault p l =>
    exact ⟨noteWalk s (nbits c.bits 186 182) c.ref.part (nbits c.bits 181 130), refs_of_unreported (noteWalk_unreported ..),
      by simp only [h, hgood]⟩
  | sealedStore => exact ⟨s, rfl, by simp only [h, hgood]⟩
  | ok p q r => exact absurd htr (hx p q r)

variable {pa : Nat} {sl lgp : Bool}
  (htr : translate s (nbits c.bits 186 182) c.ref.part (nbits c.bits 181 130) .atomic = .ok pa sl lgp)
include htr

theorem launch_poisoned (hp : s.mem.poisonedAt (nbits c.bits 186 182) pa 8 ≠ none) :
    launch s c = endCmd s c 0x17 none none := by
  rw [launch]
  simp only [h, hgood, htr, if_pos (Option.isSome_iff_ne_none.2 hp)]

variable (hp : s.mem.poisonedAt (nbits c.bits 186 182) pa 8 = none)
include hp

theorem launch_held (hheld : recordHeld (jwState (s.mem.nat (nbits c.bits 186 182) pa 8)) = true) :
    launch s c = endCmd s c 0x10 (some (jwState (s.mem.nat (nbits c.bits 186 182) pa 8))) none := by
  rw [launch]
  simp only [h, hgood, htr, hp, Option.isSome_none, Bool.false_eq_true, if_false, hheld, if_true]

/-- R137: the record is built: bytes 8 to 63 first, then its join word. -/
theorem launch_built (hfree : recordHeld (jwState (s.mem.nat (nbits c.bits 186 182) pa 8)) = false) :
    let isl := nbits c.bits 186 182
    let u := bypassBank (setCmd s c.builds) isl none (pa + 8) (recordTail s c pa)
    launch s c =
      if nbits c.bits 205 190 = 0 then
        makeReady (bypassBank u isl none pa (leBytes 8 (joinWord 2 0 0))) isl c.ref.part (nbits c.bits 181 130) pa (.held pa)
      else bypassBank u isl none pa (leBytes 8 (joinWord 1 0 (nbits c.bits 205 190))) := by
  intro isl u
  rw [launch]
  simp only [h, hgood, htr, hp, Option.isSome_none, Bool.false_eq_true, if_false, hfree]
  rfl

end

/-- R137: a record that a LAUNCH leaves waiting for its joins. -/
theorem built_waits {s u t : State} {c : CmdRec} {isl pa join : Nat} {tail : List Byte} (hc : c ∈ s.hub.cmds)
    (htail : tail.length = 56) (hpa : pa + 64 ≤ 2 ^ 39) (hu : u = bypassBank (setCmd s c.builds) isl none (pa + 8) tail)
    (ht : t = bypassBank u isl none pa (leBytes 8 (joinWord 1 0 join))) :
    Wrote s t isl pa (leBytes 8 (joinWord 1 0 join) ++ tail) ∧ ∃ r ∈ t.hub.cmds, r = c.builds := by
  have hhead : (leBytes 8 (joinWord 1 0 join)).length = 8 := length_leBytes ..
  have hwrote1 := wrote_bypassBank (setCmd s c.builds) isl none (pa + 8) tail (by omega)
  obtain ⟨hkept1, -⟩ := bypassBank_kept (setCmd s c.builds) isl none (pa + 8) tail (by omega)
  have hwrote2 := wrote_bypassBank u isl none pa (leBytes 8 (joinWord 1 0 join)) (by omega)
  obtain ⟨hkept2, -⟩ := bypassBank_kept u isl none pa (leBytes 8 (joinWord 1 0 join)) (by omega)
  rw [← hu] at hwrote1 hkept1
  rw [← ht] at hwrote2 hkept2
  refine ⟨Wrote.append (by rw [hhead]; exact hwrote1.of_mem rfl rfl) hwrote2, c.builds, ?_, rfl⟩
  rw [hkept2.hub, hkept1.hub]
  exact setCmd_mem hc rfl

theorem length_recordTail (s : State) (c : CmdRec) (pa : Nat) : (recordTail s c pa).length = 56 := by
  rw [recordTail, List.length_drop, length_leBytes]

/-! ### NOTIFY -/

/-- R73: MALFORMED in a NOTIFY. -/
def notifyMal (x : Nat) : Option Nat :=
  lowestBit [badIf (nbits x 442 391 % 8 != 0) 391, badIf (nbits x 390 375 == 0) 375, firstBit x 374 128]

theorem exec_notifyCommand_at {s : State} {c : CmdRec} (hc : occCmd s 2 = some c) : Occurs .notifyCommand s (notify s c) := by
  rw [Occurs, exec_notifyCommand, execNotifyCommand, hc]

section
variable {s : State} {c : CmdRec}

theorem notify_malformed {b : Nat} (h : notifyMal c.bits = some b) : notify s c = endCmd s c 0x11 (some b) none := by
  rw [notifyMal] at h
  rw [notify]
  simp only [h]

variable (h : notifyMal c.bits = none)
include h

theorem notify_unreached {st : Nat} (hbad : targetBad s c.ref.part (nbits c.bits 447 443) = some st) :
    notify s c = endCmd s c st none none := by
  rw [notifyMal] at h
  rw [notify]
  simp only [h, hbad]

variable (hgood : targetBad s c.ref.part (nbits c.bits 447 443) = none)
include hgood

theorem notify_untranslated
    (hx : ∀ p q r, translate s (nbits c.bits 447 443) c.ref.part (nbits c.bits 442 391) .atomic ≠ .ok p q r) :
    ∃ u : State, u.refs = s.refs ∧ notify s c = endCmd u c 0x14 none none := by
  rw [notifyMal] at h
  rw [notify]
  cases htr : translate s (nbits c.bits 447 443) c.ref.part (nbits c.bits 442 391) .atomic with
  | fault p l =>
    exact ⟨noteWalk s (nbits c.bits 447 443) c.ref.part (nbits c.bits 442 391), refs_of_unreported (noteWalk_unreported ..),
      by simp only [h, hgood]⟩
  | sealedStore => exact ⟨s, rfl, by simp only [h, hgood]⟩
  | ok p q r => exact absurd htr (hx p q r)

/-- R73, R134: the join decrement of a NOTIFY, or the poison that it meets. -/
theorem notify_decrements {pa : Nat} {sl lgp : Bool}
    (htr : translate s (nbits c.bits 447 443) c.ref.part (nbits c.bits 442 391) .atomic = .ok pa sl lgp) :
    let r := joinDecrement s (nbits c.bits 447 443) c.ref.part (nbits c.bits 442 391) pa (nbits c.bits 390 375)
    notify s c = if r.2 then endCmd r.1 c 0x00 none none else endCmd s c 0x17 none none := by
  rw [notifyMal] at h
  rw [notify]
  simp only [h, hgood, htr]

end

/-! ### RESUME -/

theorem exec_resume_at {s : State} {c : CmdRec} (hc : occCmd s 6 = some c) : Occurs .resume s (resume s c) := by
  rw [Occurs, exec_resume, execResume, hc]

section
variable {s : State} {c : CmdRec}

theorem resume_malformed {b : Nat} (h : firstBit c.bits 378 128 = some b) : resume s c = endCmd s c 0x11 (some b) none := by
  rw [resume]
  simp only [h]

variable (h : firstBit c.bits 378 128 = none)
include h

theorem resume_unreached {st : Nat} (hbad : targetBad s c.ref.part (nbits c.bits 447 443) = some st) :
    resume s c = endCmd s c st none none := by
  rw [resume]
  simp only [h, hbad]

variable (hgood : targetBad s c.ref.part (nbits c.bits 447 443) = none)
include hgood

theorem resume_unfound (hnone : s.par.faults.find? (fun e => e.key.isl = nbits c.bits 447 443 ∧ e.key.part = c.ref.part ∧
      e.fseq = some (nbits c.bits 442 379)) = none) : resume s c = endCmd s c 0x00 none (some 0) := by
  rw [resume]
  simp only [h, hgood, hnone]

/-- R75: the fault that a RESUME names is released. -/
theorem resume_releases {e : FaultEnt} (hsome : s.par.faults.find? (fun e => e.key.isl = nbits c.bits 447 443 ∧
      e.key.part = c.ref.part ∧ e.fseq = some (nbits c.bits 442 379)) = some e) :
    resume s c = endCmd (releaseFault s e) c 0x00 none (some (agentsOn s e.key)) := by
  rw [resume]
  simp only [h, hgood, hsome]

end

/-- R103: a thread that waits for no fault stays as it is where agents walk again. -/
theorem rewalk_thread {s : State} {th : Thread} {r : ThreadRec} (isl part : Nat) (hr : s.thread? th = some r)
    (hfree : r.wait.parked = none) : (rewalk s isl part).thread? th = some r := by
  have hmap := Tbl.get?_map s.core.threads _
    (fun _ r => if (match r.wait.parked with
      | some k => k.isl == isl && k.part == part && !s.par.faults.any (·.key == k)
      | none => false) then { r with wait := { r.wait with parked := none } } else r)
    (fun e => (apply_ite (fun r => (e.1, r)) ..).symm) th
  refine hmap.trans ?_
  rw [show s.core.threads.get? th = some r from hr, Option.map_some, hfree]
  rfl

theorem rewalk_recs {s : State} {k : FaultKey} (isl part : Nat) (h : ∀ y ∈ s.eng.recs, y.parked ≠ some k) :
    ∀ y ∈ (rewalk s isl part).eng.recs, y.parked ≠ some k := by
  intro y hy
  obtain ⟨x, hx, rfl⟩ := List.mem_map.1 hy
  split
  · exact (Option.some_ne_none k).symm
  · exact h x hx

/-- R103, R107: an entry is freed and its agents replay, before those without an entry walk again. -/
theorem releaseFault_frees (s : State) (e : FaultEnt) : ∃ u, releaseFault s e = rewalk u e.key.isl e.key.part ∧
    (∀ th r, s.thread? th = some r → r.wait.parked = some e.key →
      u.thread? th = some { r with wait := { r.wait with parked := none, replay := some (e.key, min (e.retry + 1) 255) } }) ∧
    ∀ y ∈ u.eng.recs, y.parked ≠ some e.key := by
  refine ⟨_, rfl, fun th r hr hparked => ?_, fun y hy => ?_⟩
  · refine (Tbl.get?_map s.core.threads _
      (fun _ r => if r.wait.parked = some e.key then
        { r with wait := { r.wait with parked := none, replay := some (e.key, min (e.retry + 1) 255) } } else r)
      (fun x => (apply_ite (fun r => (x.1, r)) ..).symm) th).trans ?_
    rw [show s.core.threads.get? th = some r from hr, Option.map_some, if_pos hparked]
  · obtain ⟨z, -, rfl⟩ := List.mem_map.1 hy
    split
    · exact (Option.some_ne_none e.key).symm
    · assumption

/-- R103, R107: what the release of an entry leaves. -/
theorem releaseFault_releases (s : State) (e : FaultEnt) :
    (∀ y ∈ (releaseFault s e).par.faults, y.order ≠ e.order) ∧
    (∀ th r, s.thread? th = some r → r.wait.parked = some e.key →
      ((releaseFault s e).thread? th).map (fun r => (r.wait.parked, r.wait.replay)) =
        some (none, some (e.key, min (e.retry + 1) 255))) ∧
    ∀ y ∈ (releaseFault s e).eng.recs, y.parked ≠ some e.key := by
  obtain ⟨u, hu, hthreads, hrecs⟩ := releaseFault_frees s e
  refine ⟨fun y hy => by simpa using (List.mem_filter.1 hy).2, fun th r hr hparked => ?_, ?_⟩ <;> rw [hu]
  · rw [rewalk_thread _ _ (hthreads th r hr hparked) rfl]
    rfl
  · exact rewalk_recs _ _ hrecs

end Sys2Proof.Machine
end

section
/-! R90, R92, R94 to R97: the tables of a page, and what MAP and UNMAP of it leave. -/

namespace Sys2Proof.Machine

open Sys2Proof

/-! ### The tables of an address -/

/-- R92: the level-1 entry of an address, below a root. -/
def entry1 (root va : Nat) : Nat := root + 8 * nbits va 51 42

/-- R92: its level-2 entry, and its level-3 entry, where the tables above them stand. -/
def entry2 (s : State) (isl root va : Nat) : Nat := (readPte s isl (entry1 root va)).pfn * 65536 + 8 * nbits va 41 29

def entry3 (s : State) (isl root va : Nat) : Nat := (readPte s isl (entry2 s isl root va)).pfn * 65536 + 8 * nbits va 28 16

/-- R90: the tables of a 64 KiB page of a partition stand. -/
structure HasTables (s : State) (part isl root va : Nat) : Prop where
  rooted : (s.part? part).bind (fun p => p.roots.get? isl) = some root
  valid1 : (readPte s isl (entry1 root va)).v = true
  table1 : (readPte s isl (entry1 root va)).l = false
  valid2 : (readPte s isl (entry2 s isl root va)).v = true
  table2 : (readPte s isl (entry2 s isl root va)).l = false

theorem takeNext_there {s : State} {isl at_ : Nat} (part : Nat) (hv : (readPte s isl at_).v = true)
    (hl : (readPte s isl at_).l = false) : takeNext s part isl at_ = some (s, (readPte s isl at_).pfn * 65536) := by
  rw [takeNext]
  exact if_pos (by simp [hv, hl])

/-- R90: a table that is missing takes the lowest free TABLE frame. -/
theorem takeNext_takes {s : State} {part isl at_ f : Nat} (hv : (readPte s isl at_).v = false)
    (hf : freeTable s part isl = some f) (hfits : at_ + 8 ≤ 2 ^ 39) :
    ∃ u, takeNext s part isl at_ = some (u, f * 65536) ∧ u.par.tables.get? (isl, f) = some part ∧
      Wrote s u isl at_ (leBytes 8 (tableEntry f)) := by
  have hlen := length_leBytes 8 (tableEntry f)
  generalize hs1 : ({ s with par := { s.par with tables := s.par.tables.set (isl, f) part } } : State) = s1
  have hmem : s1.mem = s.mem := hs1 ▸ rfl
  have htables : s1.par.tables.get? (isl, f) = some part := hs1 ▸ Tbl.get?_set_self ..
  obtain ⟨hkept, -⟩ := bypassBank_kept s1 isl none at_ (leBytes 8 (tableEntry f)) (by omega)
  refine ⟨writePte s1 isl at_ (tableEntry f), ?_, ?_,
    (wrote_bypassBank s1 isl none at_ (leBytes 8 (tableEntry f)) (by omega)).of_mem hmem.symm rfl⟩
  · rw [takeNext, takeTable, hf, ← hs1]
    exact if_neg (by simp [hv])
  · exact (congrArg (fun p : PartSt => p.tables.get? (isl, f)) hkept.par).trans htables

/-! ### One page of a MAP -/

section
variable {s : State} {part isl va pfn perm root : Nat}

theorem mapPage_unowned (h : s.par.frames.get? (isl, pfn) ≠ some (.owned, part)) :
    mapPage s part isl va pfn false perm = .error 2 := by
  rw [mapPage]
  exact if_pos (by simp [h])

/-- R95: a page whose frame is the partition's and whose tables stand goes by its level-3 entry. -/
theorem mapPage_there (howned : s.par.frames.get? (isl, pfn) = some (.owned, part)) (htables : HasTables s part isl root va) :
    mapPage s part isl va pfn false perm =
      if (readPte s isl (entry3 s isl root va)).v then .error 3
      else .ok (writePte s isl (entry3 s isl root va) (leafEntry pfn perm)) := by
  obtain ⟨hroot, hv1, hl1, hv2, hl2⟩ := htables
  have htake : (takeRoot s part isl).bind (fun x => takeNext x.1 part isl (x.2 + 8 * nbits va 51 42)) =
      some (s, (readPte s isl (entry1 root va)).pfn * 65536) := by
    rw [takeRoot, hroot, Option.bind_some]
    exact takeNext_there part hv1 hl1
  have hnext : takeNext s part isl ((readPte s isl (entry1 root va)).pfn * 65536 + 8 * nbits va 41 29) =
      some (s, (readPte s isl (entry2 s isl root va)).pfn * 65536) := takeNext_there part hv2 hl2
  rw [entry2] at hl2
  rw [mapPage]
  simp only [Bool.false_eq_true, if_false, List.range_one, List.all_cons, List.all_nil, Nat.add_zero, howned,
    beq_self_eq_true, Bool.and_true, Bool.not_true, htake, hl2, Bool.and_false, hnext]
  rfl

end

theorem mapPages_one {s : State} {part isl va pfn perm : Nat} {lg : Bool} :
    (∀ r, mapPage s part isl va pfn lg perm = .error r → mapPages part isl va pfn lg perm 1 0 s = .error (r, 0)) ∧
      ∀ t, mapPage s part isl va pfn lg perm = .ok t → mapPages part isl va pfn lg perm 1 0 s = .ok t := by
  constructor <;> intro x hx <;> rw [mapPages] <;> simp only [Nat.zero_mul, Nat.add_zero, hx]
  rfl

/-! ### MAP -/

theorem exec_map_at {s : State} {c : CmdRec} (hc : occCmd s 4 = some c) :
    exec .map s = if serviceUp s then .next (commit s (map s c)) else idle "MAP" := by
  rw [exec_map, execMap, hc]

/-- R96, R97: a command's island is present, the partition's, and reached by the hub. -/
def Reached (s : State) (part isl : Nat) : Prop :=
  present s isl = true ∧ holdsIsland s part isl = true ∧ hubReaches s isl = true

section
variable {s : State} {c : CmdRec}

theorem map_malformed {b : Nat} (h : mapMal c.bits = some b) : map s c = endCmd s c 0x11 (some b) none := by
  rw [map]
  simp only [h]

variable (h : mapMal c.bits = none)
include h

theorem map_unheld
    (hisl : present s (nbits c.bits 447 443) = false ∨ holdsIsland s c.ref.part (nbits c.bits 447 443) = false) :
    map s c = endCmd s c 0x10 (some 1) (some 0) := by
  rw [map]
  simp only [h]
  exact if_pos (by simpa using hisl)

theorem map_unreached (hpresent : present s (nbits c.bits 447 443) = true)
    (hholds : holdsIsland s c.ref.part (nbits c.bits 447 443) = true) (hfar : hubReaches s (nbits c.bits 447 443) = false) :
    map s c = endCmd s c 0x13 none none := by
  rw [map]
  simp [h, hpresent, hholds, hfar]

variable (hreach : Reached s c.ref.part (nbits c.bits 447 443))
include hreach

theorem map_scrubbing (hscrub : scrubbing s c.ref.part = true) : map s c = endCmd s c 0x10 (some 6) (some 0) := by
  obtain ⟨hpresent, hholds, hnear⟩ := hreach
  rw [map]
  simp [h, hpresent, hholds, hnear, hscrub]

variable (hscrub : scrubbing s c.ref.part = false)
include hscrub

theorem map_fails {e : Nat × Nat} (hpages : mapPages c.ref.part (nbits c.bits 447 443) (nbits c.bits 442 391)
      (nbits c.bits 390 368) (nbit c.bits 351) (nbits c.bits 350 348) (nbits c.bits 367 352) 0 s = .error e) :
    map s c = endCmd s c 0x10 (some e.1) (some e.2) := by
  obtain ⟨hpresent, hholds, hnear⟩ := hreach
  rw [map]
  simp [h, hpresent, hholds, hnear, hscrub, hpages]

theorem map_maps {t : State} (hpages : mapPages c.ref.part (nbits c.bits 447 443) (nbits c.bits 442 391)
      (nbits c.bits 390 368) (nbit c.bits 351) (nbits c.bits 350 348) (nbits c.bits 367 352) 0 s = .ok t) :
    map s c = endCmd t c 0x00 none none := by
  obtain ⟨hpresent, hholds, hnear⟩ := hreach
  rw [map]
  simp [h, hpresent, hholds, hnear, hscrub, hpages]

end

/-! ### One page of an UNMAP -/

section
variable {s : State} {part isl va root : Nat} (htables : HasTables s part isl root va)
include htables

theorem tableWalk_there : tableWalk s part isl va = some (root, entry1 root va, entry2 s isl root va) := by
  obtain ⟨hroot, hv1, hl1, -, -⟩ := htables
  rw [tableWalk, hroot]
  exact if_pos (by rw [entry1] at hv1 hl1; simp [hv1, hl1])

theorem unmapBad_there : unmapBad s part isl va false = false := by
  have hl2 := htables.table2
  rw [unmapBad, tableWalk_there htables]
  simp [hl2]

/-- R96: a page whose tables stand goes by its level-3 entry. -/
theorem unmapPage_there (ps : List (Nat × Nat)) :
    ((readPte s isl (entry3 s isl root va)).v = false → unmapPage part isl false (s, ps) va = (s, ps)) ∧
    ((readPte s isl (entry3 s isl root va)).v = true →
      tableEmpty (writePte s isl (entry3 s isl root va) 0) isl ((readPte s isl (entry2 s isl root va)).pfn * 65536)
        8192 = false →
      unmapPage part isl false (s, ps) va =
        (writePte s isl (entry3 s isl root va) 0, ps ++ [((readPte s isl (entry3 s isl root va)).pfn * 65536, 2 ^ 16)])) := by
  have hv2 := htables.valid2
  have hl2 := htables.table2
  rw [unmapPage, tableWalk_there htables]
  refine ⟨fun hv3 => ?_, fun hv3 hfull => ?_⟩
  · simp only [hv2, hl2, Bool.not_true, Bool.false_eq_true, if_false]
    exact if_pos (by rw [entry3] at hv3; simp [hv3])
  · simp only [hv2, hl2, Bool.not_true, Bool.false_eq_true, if_false]
    rw [entry3] at hv3 hfull
    simp [entry3, hv3, hfull]

end

/-! ### UNMAP -/

theorem exec_unmap_at {s : State} {c : CmdRec} (hc : occCmd s 5 = some c) :
    exec .unmap s = if serviceUp s then .next (commit s (unmap s c)) else idle "UNMAP" := by
  rw [exec_unmap, execUnmap, hc]

section
variable {s : State} {c : CmdRec}

theorem unmap_malformed {b : Nat} (h : unmapMal c.bits = some b) : unmap s c = endCmd s c 0x11 (some b) none := by
  rw [unmap]
  simp only [h]

variable (h : unmapMal c.bits = none)
include h

theorem unmap_unheld
    (hisl : present s (nbits c.bits 447 443) = false ∨ holdsIsland s c.ref.part (nbits c.bits 447 443) = false) :
    unmap s c = endCmd s c 0x10 (some 1) (some 0) := by
  rw [unmap]
  simp only [h]
  exact if_pos (by simpa using hisl)

theorem unmap_unreached (hpresent : present s (nbits c.bits 447 443) = true)
    (hholds : holdsIsland s c.ref.part (nbits c.bits 447 443) = true) (hfar : hubReaches s (nbits c.bits 447 443) = false) :
    unmap s c = endCmd s c 0x13 none none := by
  rw [unmap]
  simp [h, hpresent, hholds, hfar]

/-- R96: an UNMAP of one page whose tables stand. -/
theorem unmap_one {root : Nat} {t : State} {ps : List (Nat × Nat)} (hreach : Reached s c.ref.part (nbits c.bits 447 443))
    (hlg : nbit c.bits 351 = false) (hcount : nbits c.bits 367 352 = 1)
    (htables : HasTables s c.ref.part (nbits c.bits 447 443) root (nbits c.bits 442 391))
    (hpage : unmapPage c.ref.part (nbits c.bits 447 443) false (s, []) (nbits c.bits 442 391) = (t, ps)) :
    unmap s c = endCmd t { c with pages := some (nbits c.bits 447 443, ps) } 0x00 none (some ps.length) := by
  obtain ⟨hpresent, hholds, hnear⟩ := hreach
  have hgood := unmapBad_there htables
  rw [unmap]
  simp [h, hpresent, hholds, hnear, hlg, hcount, hgood, hpage, List.findIdx?_cons]

end

/-- R98: what an entry that is written leaves, and the record that ends behind it. -/
theorem writePte_ends {s : State} {c d : CmdRec} {isl at_ : Nat} (x st : Nat) (detail info : Option Nat) (hc : d ∈ s.hub.cmds)
    (href : d.ref = c.ref) (hfits : at_ + 8 ≤ 2 ^ 39) :
    Wrote s (endCmd (writePte s isl at_ x) c st detail info) isl at_ (leBytes 8 x) ∧
      ∃ y z, { c with begun := true, res := some (st, y, z) } ∈ (endCmd (writePte s isl at_ x) c st detail info).hub.cmds ∧
        (∀ w, detail = some w → y = w) ∧ ∀ w, info = some w → z = w := by
  have hlen := length_leBytes 8 x
  obtain ⟨hkept, -⟩ := bypassBank_kept s isl none at_ (leBytes 8 x) (by omega)
  refine ⟨(wrote_bypassBank s isl none at_ (leBytes 8 x) (by omega)).of_mem rfl rfl, mem_endCmd st detail info ?_ href⟩
  rw [writePte, hkept.hub]
  exact hc

end Sys2Proof.Machine
end

section
/-! R103 to R105: the posting of a fault record, and its retry. -/

namespace Sys2Proof.Machine

open Sys2Proof

theorem mem_setFault {s : State} {e y : FaultEnt} (h : e ∈ s.par.faults) (horder : e.order = y.order) :
    y ∈ (setFault s y).par.faults := List.mem_map.2 ⟨e, h, if_pos horder⟩

theorem occFault_mem {s : State} {e : FaultEnt} (h : occFault s = some e) : e ∈ s.par.faults := by
  unfold occFault at h
  split at h
  · exact (nextPost_key (Option.filter_eq_some_iff.1 h).1).1
  · exact nomatch h

theorem sendFrom_mem (s : State) (isl part evqp : Nat) (bs : List Byte) : (sendFrom s isl part evqp bs).mem = s.mem := by
  unfold sendFrom sendEvent
  split <;> split <;> rfl

/-- R69, R105: an event of a fault unit that the hub takes at once. -/
theorem sendFrom_out {s : State} {isl part evqp : Nat} (bs : List Byte) (hon : nbit evqp 19 = true)
    (hreach : hubReaches s isl = true) (hgood : s.hub.qpError.contains (part, evqp % 256) = false) :
    (sendFrom s isl part evqp bs).hub.out = s.hub.out ++ [.send part (evqp % 256) bs] := by
  rw [sendFrom, if_pos hreach, sendEvent, if_pos (by rw [hon, hgood]; rfl)]

/-! ### An attempt to post -/

/-- The slot of a fault ring that its next record takes. -/
def ringSlot (f : FaultChain) : Nat := f.base + 64 * (f.widx % 2 ^ (f.size + 6))

section
variable {s : State} {e : FaultEnt} {f : FaultChain} {ridx w : Nat}
  (hridx : readVa s e.key.isl e.key.part (f.desc + 256) 8 = .ok ridx)
  (hw : readVa s e.key.isl e.key.part (f.desc + 8) 8 = .ok w)
include hridx hw

theorem tryPost_full (hfull : 2 ^ (f.size + 6) ≤ f.widx - min ridx f.widx) : tryPost s e f = .full := by
  rw [tryPost]
  simp only [hridx, hw, if_pos hfull]

variable (hroom : f.widx - min ridx f.widx < 2 ^ (f.size + 6))
include hroom

theorem tryPost_failed {err : XErr} (herr : access s e.key.isl e.key.part (ringSlot f) 64 .write true = .error err) :
    tryPost s e f = .failed (err.note s e.key.isl e.key.part) := by
  have hwrite : writeVa s e.key.isl e.key.part (f.base + 64 * (f.widx % 2 ^ (f.size + 6)))
      (leBytes 64 (faultBits s e (f.widx + 1))) = .error err := writeVa_error (by rw [length_leBytes]; exact herr)
  rw [tryPost]
  simp only [hridx, hw, if_neg (Nat.not_le.2 hroom), hwrite]

/-- R105: a record that is posted, and the event that follows it. -/
theorem tryPost_done {pa pb : Nat} (hlands : Lands s e.key.isl e.key.part (ringSlot f) 64 .write true pa) :
    let u := bypassBank s e.key.isl none pa (leBytes 64 (faultBits s e (f.widx + 1)))
    Lands u e.key.isl e.key.part (f.desc + 16) 8 .write true pb →
    ∃ t, tryPost s e f = .done (sendFrom t e.key.isl e.key.part (nbits w 63 44) (leBytes 8 (f.widx + 1))) ∧
      t.mem = (bypassBank u e.key.isl none pb (leBytes 8 (f.widx + 1))).mem ∧ t.hub = s.hub ∧
      hubReaches t e.key.isl = hubReaches s e.key.isl ∧
      t.par.fchains.get? (e.key.part, e.key.isl) = some { f with widx := f.widx + 1 } ∧
      (e ∈ s.par.faults → { e with fseq := some (f.widx + 1), held := none } ∈ t.par.faults) := by
  intro u hlands2
  have hwrite : writeVa s e.key.isl e.key.part (f.base + 64 * (f.widx % 2 ^ (f.size + 6)))
      (leBytes 64 (faultBits s e (f.widx + 1))) = .ok u := writeVa_lands (by rw [length_leBytes]; exact hlands)
  have hwrite2 : writeVa u e.key.isl e.key.part (f.desc + 16) (leBytes 8 (f.widx + 1)) =
      .ok (bypassBank u e.key.isl none pb (leBytes 8 (f.widx + 1))) := writeVa_lands (by rw [length_leBytes]; exact hlands2)
  have hbank := (writeVa_unbanked hwrite2).trans (writeVa_unbanked hwrite)
  generalize hs2 : bypassBank u e.key.isl none pb (leBytes 8 (f.widx + 1)) = s2 at hwrite2 hbank
  clear_value u
  have hpost : tryPost s e f = .done (sendFrom { setFault s2 { e with fseq := some (f.widx + 1), held := none } with par :=
      { (setFault s2 { e with fseq := some (f.widx + 1), held := none }).par with
        fchains := s2.par.fchains.set (e.key.part, e.key.isl) { f with widx := f.widx + 1 } } }
      e.key.isl e.key.part (nbits w 63 44) (leBytes 8 (f.widx + 1))) := by
    rw [tryPost]
    simp only [hridx, hw, if_neg (Nat.not_le.2 hroom), hwrite, hwrite2]
    rfl
  refine ⟨_, hpost, rfl, (congrArg (fun u : State => u.hub) hbank :),
    (congrArg (fun u : State => hubReaches u e.key.isl) hbank :),
    Tbl.get?_set_self .., fun he => mem_setFault (e := e) ?_ rfl⟩
  rwa [show s2.par = s.par from (congrArg (fun u : State => u.par) hbank :)]

end

/-! ### The events -/

section
variable {s : State} {e : FaultEnt} {i : Instr} {m : String}
  (hexec : exec i s = (post s e).elim (idle m) fun t => .next (commit s t))
include hexec

theorem post_unchained (h : s.par.fchains.get? (e.key.part, e.key.isl) = none) : exec i s = .refused (.notEnabled m) := by
  rw [hexec, post, h]
  rfl

variable {f : FaultChain} (hf : s.par.fchains.get? (e.key.part, e.key.isl) = some f)
include hf

theorem post_full (h : tryPost s e f = .full) : exec i s = .refused (.notEnabled m) := by
  rw [hexec, post, hf]
  simp only [h]
  rfl

theorem post_done {t : State} (h : tryPost s e f = .done t) : Occurs i s t := by
  rw [post, hf] at hexec
  simp only [h] at hexec
  exact hexec

/-- R105: a record that is posted: the ring's slot and WIDX in memory, the entry's FSEQ, and the event. -/
theorem post_posted {ridx w pa pb : Nat} (he : e ∈ s.par.faults)
    (hridx : readVa s e.key.isl e.key.part (f.desc + 256) 8 = .ok ridx)
    (hw : readVa s e.key.isl e.key.part (f.desc + 8) 8 = .ok w)
    (hroom : f.widx - min ridx f.widx < 2 ^ (f.size + 6)) (hlands : Lands s e.key.isl e.key.part (ringSlot f) 64 .write true pa) :
    let u := bypassBank s e.key.isl none pa (leBytes 64 (faultBits s e (f.widx + 1)))
    Lands u e.key.isl e.key.part (f.desc + 16) 8 .write true pb → Gives (exec i s) fun t =>
      Wrote u t e.key.isl pb (leBytes 8 (f.widx + 1)) ∧
      t.par.fchains.get? (e.key.part, e.key.isl) = some { f with widx := f.widx + 1 } ∧
      (∃ y ∈ t.par.faults, y = { e with fseq := some (f.widx + 1), held := none }) ∧
      (nbit (nbits w 63 44) 19 = true → hubReaches s e.key.isl = true →
        s.hub.qpError.contains (e.key.part, nbits w 63 44 % 256) = false →
        t.hub.out = s.hub.out ++ [.send e.key.part (nbits w 63 44 % 256) (leBytes 8 (f.widx + 1))]) := by
  intro u hlands2
  obtain ⟨t, hdone, htmem, hhub, hreach, hchain, hfault⟩ := tryPost_done hridx hw hroom hlands hlands2
  have hwrote := wrote_bypassBank u e.key.isl none pb (leBytes 8 (f.widx + 1)) (by rw [length_leBytes]; exact hlands2.2)
  have hpar := sendFrom_par t e.key.isl e.key.part (nbits w 63 44) (leBytes 8 (f.widx + 1))
  have hout := sendFrom_out (s := t) (isl := e.key.isl) (part := e.key.part) (evqp := nbits w 63 44) (leBytes 8 (f.widx + 1))
  have hx := post_done hexec hf hdone
  rw [← sendFrom_mem t e.key.isl e.key.part (nbits w 63 44) (leBytes 8 (f.widx + 1))] at htmem
  rw [← hpar] at hchain hfault
  rw [hhub, hreach] at hout
  generalize sendFrom t e.key.isl e.key.part (nbits w 63 44) (leBytes 8 (f.widx + 1)) = t' at htmem hchain hfault hout hx
  exact hx.gives ⟨hwrote.of_mem rfl htmem, hchain, ⟨_, hfault he, rfl⟩, hout⟩

/-- R105: an attempt that fails holds the record for 65,536 core clocks. -/
theorem post_failed {t : State} (he : e ∈ s.par.faults) (h : tryPost s e f = .failed t) (ht : t.unreported = s.unreported)
    (hmem : t.mem = s.mem) : Gives (exec i s) fun t => t.mem = s.mem ∧ t.par.fchains = s.par.fchains ∧
      ∃ y ∈ t.par.faults, y = { e with held := some (s.clk e.key.isl + 65536) } := by
  have hpar := par_of_unreported ht
  rw [post, hf] at hexec
  simp only [h] at hexec
  exact Occurs.gives hexec ⟨hmem, congrArg (·.fchains) hpar, _, mem_setFault (e := e) (by rwa [hpar]) rfl, rfl⟩

end

theorem note_mem (e : XErr) (s : State) (isl part : Nat) : (e.note s isl part).mem = s.mem := by
  unfold XErr.note
  split
  · exact noteWalk_mem ..
  · rfl

theorem exec_faultRecordPost_due {s : State} {e : FaultEnt} (he : occFault s = some e) (hheld : e.held = none)
    (hdue : e.stamp + 1024 ≤ s.clk e.key.isl) :
    exec .faultRecordPost s = (post s e).elim (idle "FAULT_RECORD_POST") fun t => .next (commit s t) := by
  rw [exec_faultRecordPost, execFaultRecordPost, he]
  simp only [hheld, hdue, Option.isNone_none, and_self, if_true]
  cases post s e <;> rfl

theorem exec_faultRecordPost_early {s : State} {e : FaultEnt} (he : occFault s = some e)
    (hearly : s.clk e.key.isl < e.stamp + 1024) : exec .faultRecordPost s = idle "FAULT_RECORD_POST" := by
  rw [exec_faultRecordPost, execFaultRecordPost, he]
  simp only [Nat.not_le.2 hearly, and_false, if_false]

theorem exec_faultPostRetry_due {s : State} {e : FaultEnt} {h : Nat} (he : occFault s = some e) (hheld : e.held = some h)
    (hdue : h ≤ s.clk e.key.isl) :
    exec .faultPostRetry s = (post s e).elim (idle "FAULT_POST_RETRY") fun t => .next (commit s t) := by
  rw [exec_faultPostRetry, execFaultPostRetry, he]
  simp only [hheld, Option.map_some, Option.getD_some, hdue, decide_true, if_true]
  cases post s e <;> rfl

theorem exec_faultPostRetry_early {s : State} {e : FaultEnt} {h : Nat} (he : occFault s = some e) (hheld : e.held = some h)
    (hearly : s.clk e.key.isl < h) : exec .faultPostRetry s = idle "FAULT_POST_RETRY" := by
  rw [exec_faultPostRetry, execFaultPostRetry, he]
  simp [hheld, Nat.not_le.2 hearly]

end Sys2Proof.Machine
end

section
/-! The statement of the host events. -/

namespace Sys2Proof.Machine

open Sys2Proof

/-- Settles O50: each family of events by the lemmas on what its step leaves: RDMA, registrations, the PCP's chains, the
commands, the page tables, and the fault chains. -/
theorem hostEvents : Obligations.HostEvents := by
  unfold Obligations.HostEvents
  refine ⟨?rdma, ?registrations, ?chains, ?commands, ?tables, ?faults⟩
  case rdma =>
    intro s f n off len size pa sl bs imm rg q part key s1 accepts one writeI received
    refine ⟨frameTo_cases s f, by rw [bindQp_pair]; rfl, fun hnone => by rw [bindQp_pair, hnone]; rfl,
      fun isl va k rs u => ⟨rdmaWrite_ok rs, fun e => rdmaWrite_error rs⟩, fun hocc hup hreach => ?write,
      fun hocc hup hreach => ?read, fun hocc hup => ?send, fun hocc hup hto hq => ?post, fun hocc hup => ?atomic⟩
    case write =>
      have hexec := exec_writeOf hocc hup hreach
      refine ⟨fun hto => ?_, fun hto hlong => ?_, fun hto hrg hlen => ?_⟩ <;> rw [hto] at hexec
      · exact hexec
      · exact Occurs.of_eq hexec (applyWrite_outside imm (regionOf_none (by rwa [bindQp_regions])))
      · have hin : regionOf s1 part n off bs.length = some rg := regionOf_some (by rwa [bindQp_regions]) hlen
        refine ⟨fun hw himm => Occurs.of_eq hexec ((applyWrite_inside imm hin).trans ?_), fun hone hok hpa => ?_,
          fun hone hbad => rdmaWrite_refused hexec hin hone hbad⟩
        · rw [if_pos hw, himm]
          rfl
        · obtain ⟨t, hx, hwrote, hack, hplaced⟩ := rdmaWrite_gives hexec hin hone hok hpa
          exact ⟨t, hx, hwrote, hack, fun i hi => hplaced i hi q⟩
    case read =>
      have hexec := exec_rdmaRead_at hocc hup hreach
      refine ⟨fun hto => ?_, fun hto hlong => ?_, fun hto hrg hlen hone => ?_⟩ <;> rw [hto] at hexec
      · exact hexec
      · exact Occurs.of_eq hexec (applyRead_outside (regionOf_none (by rwa [bindQp_regions])))
      · obtain ⟨hread, hpoison, hfault⟩ := rdmaRead_gives hexec (regionOf_some (by rwa [bindQp_regions]) hlen) hone
        exact ⟨hread pa sl, hpoison, hfault⟩
    case send =>
      have hexec := exec_send_at hocc hup
      refine ⟨fun hto => ?_, fun hto => ?_⟩ <;> rw [hto] at hexec
      · exact hexec
      · refine Occurs.gives hexec ⟨(receive_mem ..).trans (bindQp_mem s f), fun hq => ?_⟩
        rw [← bindQp_out s f]
        exact receive_receives bs hq
    case post =>
      have hexec := exec_send_posts hocc hup
      rw [hto] at hexec
      refine Occurs.gives hexec ⟨(Tbl.get?_modify ..).trans ?_, bindQp_out s f⟩
      rw [if_pos rfl]
      exact congrArg (Option.map _) hq
    case atomic =>
      have hexec := exec_rdmaAtomicRequest_at hocc hup
      refine ⟨fun hto => ?_, fun hto => ?_⟩ <;> rw [hto] at hexec
      · exact hexec
      · exact Occurs.gives hexec ⟨bindQp_mem s f, congrArg (· ++ _) (bindQp_out s f), rfl⟩
  case registrations =>
    intro s part chain isl desc head base size n pa rg place ringOk regionOk
    refine ⟨fun k hplace hhead hlands => registerChain_leaves k hplace hhead hlands, fun k h => registerChain_refused k h,
      fun hplace hring hlands => registerFaults_leaves hplace hring hlands, fun h => registerFaults_refused h,
      fun h => by rw [registerRegion_ok h]; exact ⟨Tbl.get?_set_self .., rfl⟩, fun h => registerRegion_refused h,
      fun hs => ⟨fun hocc => ?_, fun hocc => faultChain_request hs hocc, fun hocc => region_request hs hocc⟩⟩
    obtain ⟨hchain, hservice⟩ := chain_requests hs hocc
    exact ⟨fun hlow => by rwa [if_pos hlow] at hchain, fun hhigh => by rwa [if_neg (Nat.not_lt.2 hhigh)] at hchain, hservice⟩
  case chains =>
    intro s s1 part chain tail a x pa pb cc c st d i k n
    refine ⟨fun hocc => ?wake, fun hocc hfind => ?completion⟩
    case wake =>
      have hexec := exec_pcpTailWake_at hocc
      refine ⟨fun hnone => by rw [hexec, tailWake_none hnone]; rfl, fun hc h => by rw [hexec, tailWake_unserved hc h]; rfl,
        fun hc h htail => ?_⟩
      rw [tailWake_read hc h htail] at hexec
      refine ⟨fun hlow => ?_, fun heq => ?_, fun hnext => ?_⟩
      · rw [if_pos hlow] at hexec
        exact Occurs.gives hexec ⟨Tbl.get?_set_self .., rfl⟩
      · rw [if_neg (by omega), if_pos heq] at hexec
        exact hexec
      · rw [if_neg (by omega), if_neg (by omega)] at hexec
        refine ⟨fun hturn => by rw [hexec, hturn]; rfl, fun hturn hcmd ha hx => ?_, fun hturn hbad => ?_⟩ <;>
          rw [hturn, Option.bind_some] at hexec <;> obtain ⟨turn, rfl⟩ := pcpServe_turned hturn
        · refine ⟨fun hfree => ?_, fun hwait hlate => ?_⟩
          · obtain ⟨r, hstart, hr, hres⟩ := startCmd_begins (s := s.turned turn) hcmd ha hx hfree
            rw [hstart] at hexec
            exact Occurs.gives hexec ⟨Tbl.get?_set_self .., rfl, r, rfl, hr, fun hearly => hres.trans hearly⟩
          · rw [startCmd_waits (s := s.turned turn) hcmd ha hx hwait hlate] at hexec
            exact hexec
        · obtain ⟨t, hstart, hhalted, hcmds⟩ := startCmd_halts (s := s.turned turn) hc hbad
          rw [hstart] at hexec
          exact Occurs.gives hexec ⟨hhalted, hcmds⟩
    case completion =>
      obtain ⟨hwaits, hoccurs⟩ := exec_completion_at (res := (st, d, i)) hocc hfind
      refine ⟨hwaits, fun hres hready hc => ⟨fun hreg => ?_, fun hreg hdone hlands => ?_⟩⟩
      · exact ((hoccurs hres hready).of_eq (completeCmd_stale hc hreg)).gives ⟨rfl, rfl, rfl⟩
      · exact completion_gives pb hocc hfind hres hready hc hreg hdone hlands
  case commands =>
    intro s s1 c b pa sl lgp e x part ends
    refine ⟨fun u isl va now hva hsound hgood hroom hpa hnow => ?ready, fun hc => ?launch, fun hc => ?notify,
      fun hc => ?resume⟩
    case ready =>
      subst hnow
      exact makeReady_queues hva hsound hgood hroom hpa
    case launch =>
      intro isl va
      have hmem := occCmd_mem hc
      have hexec := exec_launch_at hc
      refine ⟨fun hwait => ?_, fun hturn hserve => ?_⟩
      · rcases hwait with hturn | hserve
        · rw [hexec, if_neg (by simp [hturn])]
          rfl
        · rw [hexec, hserve, ite_self]
          rfl
      · rw [if_pos hturn, hserve] at hexec
        obtain ⟨turn, rfl⟩ := pcpServe_turned hserve
        have hoccurs : Occurs .launch s (launch (s.turned turn) c) := hexec
        have href : c.ref ∈ s.refs := List.mem_map_of_mem hmem
        have hends {u : State} {st : Nat} {detail info : Option Nat} (hu : launch (s.turned turn) c = endCmd u c st detail info)
            (hrefs : u.refs = s.refs) : ends .launch st detail info := (hoccurs.of_eq hu).ends (by rwa [hrefs])
        refine ⟨fun hmal => hends (launch_malformed hmal) rfl, fun hmal hbad => hends (launch_unreached hmal hbad) rfl,
          fun hmal hgood => ⟨fun hx => ?_, fun htr => ⟨fun hp => hends (launch_poisoned hmal hgood htr hp) rfl,
            fun hp => ⟨fun hheld => hends (launch_held (s := s.turned turn) hmal hgood htr hp hheld) rfl, fun hfree hpa => ?_⟩⟩⟩⟩
        · obtain ⟨u, hrefs, hu⟩ := launch_untranslated (s := s.turned turn) hmal hgood hx
          exact hends hu hrefs
        · have hbuilt := launch_built (s := s.turned turn) hmal hgood htr hp hfree
          refine ⟨fun hjoin => ?_, fun hready => hoccurs.of_eq (hbuilt.trans (if_pos hready))⟩
          obtain ⟨hwrote, hrec⟩ := built_waits (s := s.turned turn) hmem
            (length_recordTail ..) hpa rfl rfl
          exact (hoccurs.of_eq (hbuilt.trans (if_neg hjoin))).gives ⟨hwrote.of_mem rfl rfl, hrec⟩
    case notify =>
      intro isl va bad
      have hoccurs := exec_notifyCommand_at hc
      have href : c.ref ∈ s.refs := List.mem_map_of_mem (occCmd_mem hc)
      have hends {u : State} {st : Nat} {detail info : Option Nat} (hu : notify s c = endCmd u c st detail info)
          (hrefs : u.refs = s.refs) : ends .notifyCommand st detail info := (hoccurs.of_eq hu).ends (by rwa [hrefs])
      refine ⟨fun hmal => hends (notify_malformed hmal) rfl, fun hmal hbad => hends (notify_unreached hmal hbad) rfl,
        fun hmal hgood => ⟨fun hx => ?_, fun htr => ?_⟩⟩
      · obtain ⟨u, hrefs, hu⟩ := notify_untranslated hmal hgood hx
        exact hends hu hrefs
      · have hnotify := notify_decrements hmal hgood htr
        refine ⟨fun hr => ?_, fun hr => hends (hnotify.trans (if_neg fun h => Bool.false_ne_true (hr.symm.trans h))) rfl⟩
        have hdone := hnotify.trans (if_pos hr)
        exact ⟨hoccurs.of_eq hdone, hends hdone (joinDecrement_refs ..)⟩
    case resume =>
      intro isl found
      have hoccurs := exec_resume_at hc
      have href : c.ref ∈ s.refs := List.mem_map_of_mem (occCmd_mem hc)
      refine ⟨fun hmal => (hoccurs.of_eq (resume_malformed hmal)).ends href,
        fun hmal hbad => (hoccurs.of_eq (resume_unreached hmal hbad)).ends href,
        fun hmal hgood => ⟨fun hnone => ?_, fun hsome => ?_⟩⟩
      · exact (hoccurs.of_eq (resume_unfound hmal hgood hnone)).ends href
      · have hdone := hoccurs.of_eq (resume_releases hmal hgood hsome)
        exact ⟨hdone.ends href, hdone.gives (releaseFault_releases s e)⟩
  case tables =>
    intro s c b root e x part isl va pfn lg count perm ends a1 a2 a3 tables reach
    have hthere : tables → HasTables s part isl root va := fun ⟨hroot, hv1, hl1, hv2, hl2⟩ => ⟨hroot, hv1, hl1, hv2, hl2⟩
    have hends (ins : Instr) (st : Nat) (detail info : Option Nat) (hc : c ∈ s.hub.cmds)
        (h : Occurs ins s (endCmd s c st detail info)) : ends ins st detail info :=
      h.gives ⟨rfl, endCmd_ended st detail info hc rfl⟩
    refine ⟨fun f at_ hv hf hfits => takeNext_takes hv hf hfits,
      fun hdown => ⟨fun hc => (exec_map_at hc).trans (if_neg (by simp [hdown])),
        fun hc => (exec_unmap_at hc).trans (if_neg (by simp [hdown]))⟩, fun hs hc => ?map, fun hs hc => ?unmap⟩
    case map =>
      have hmem := occCmd_mem hc
      have hoccurs : Occurs .map s (map s c) := (exec_map_at hc).trans (if_pos hs)
      refine ⟨fun hmal => hends _ _ _ _ hmem (hoccurs.of_eq (map_malformed hmal)), fun hmal =>
        ⟨fun hisl => hends _ _ _ _ hmem (hoccurs.of_eq (map_unheld hmal hisl)),
          fun hpresent hholds hfar => hends _ _ _ _ hmem (hoccurs.of_eq (map_unreached hmal hpresent hholds hfar)),
          fun hreach hscrub => hends _ _ _ _ hmem (hoccurs.of_eq (map_scrubbing hmal hreach hscrub)),
          fun hreach hscrub => ?_⟩⟩
      have hfails (r : Nat × Nat) (hr : mapPages part isl va pfn lg perm count 0 s = .error r) :
          ends .map 0x10 (some r.1) (some r.2) :=
        hends _ _ _ _ hmem (hoccurs.of_eq (map_fails hmal hreach hscrub hr))
      refine ⟨hfails e, fun hlg hcount hframe => hfails (2, 0) ?_, fun hlg hcount howned htables => ?_⟩
      · rw [hcount, hlg]
        exact mapPages_one.1 2 (mapPage_unowned hframe)
      · have hpage := mapPage_there (pfn := pfn) (perm := perm) howned (hthere htables)
        refine ⟨fun hv => hfails (3, 0) ?_, fun hv hfits => ?_⟩
        · rw [hcount, hlg]
          exact mapPages_one.1 3 (hpage.trans (if_pos hv))
        · have hpages : mapPages part isl va pfn lg perm count 0 s = .ok (writePte s isl a3 (leafEntry pfn perm)) := by
            rw [hcount, hlg]
            exact mapPages_one.2 _ (hpage.trans (if_neg fun h => Bool.false_ne_true (hv.symm.trans h)))
          obtain ⟨hwrote, y, z, hr, -⟩ := writePte_ends (isl := isl) (at_ := a3) (leafEntry pfn perm) 0x00 none none hmem
            (Eq.refl c.ref) hfits
          exact (hoccurs.of_eq (map_maps hmal hreach hscrub hpages)).gives ⟨hwrote.of_mem rfl rfl, _, hr, rfl, rfl, rfl⟩
    case unmap =>
      have hmem := occCmd_mem hc
      have hoccurs : Occurs .unmap s (unmap s c) := (exec_unmap_at hc).trans (if_pos hs)
      refine ⟨fun hmal => hends _ _ _ _ hmem (hoccurs.of_eq (unmap_malformed hmal)), fun hmal =>
        ⟨fun hisl => hends _ _ _ _ hmem (hoccurs.of_eq (unmap_unheld hmal hisl)),
          fun hpresent hholds hfar => hends _ _ _ _ hmem (hoccurs.of_eq (unmap_unreached hmal hpresent hholds hfar)),
          fun hreach hlg hcount htables => ?_⟩⟩
      obtain ⟨habsent, hclears⟩ := unmapPage_there (hthere htables) []
      refine ⟨fun hv => ?_, fun hv hfits hfull => ?_⟩
      · exact (hoccurs.of_eq (unmap_one hmal hreach hlg hcount (hthere htables) (habsent hv))).gives
          ⟨rfl, endCmd_ended (d := c) 0x00 none (some 0) hmem rfl⟩
      · obtain ⟨hwrote, y, z, hr, -, hz⟩ := writePte_ends (isl := isl) (at_ := a3)
          (c := { c with pages := some (isl, [((readPte s isl a3).pfn * 65536, 2 ^ 16)]) }) 0 0x00 none (some 1) hmem rfl hfits
        refine (hoccurs.of_eq (unmap_one hmal hreach hlg hcount (hthere htables) (hclears hv hfull))).gives
          ⟨hwrote.of_mem rfl rfl, _, hr, rfl, rfl, ?_⟩
        rw [Option.map_some, hz 1 rfl]
  case faults =>
    intro s e f ridx w pa pb h err isl part n va posts he
    have hmem := occFault_mem he
    have hposts (i : Instr) (m : String) (hexec : exec i s = (post s e).elim (idle m) fun t => .next (commit s t)) : posts i := by
      refine ⟨fun hnone => ⟨m, post_unchained hexec hnone⟩, fun hf hridx hw =>
        ⟨fun hfull => ⟨m, post_full hexec hf (tryPost_full hridx hw hfull)⟩, fun hroom =>
          ⟨fun hlands => post_posted hexec hf hmem hridx hw hroom hlands, fun herr => ?_⟩⟩⟩
      exact post_failed hexec hf hmem (tryPost_failed hridx hw hroom herr) (note_unreported ..) (note_mem ..)
    exact ⟨fun hheld hdue => hposts _ _ (exec_faultRecordPost_due he hheld hdue),
      fun _ hearly => exec_faultRecordPost_early he hearly, fun hheld hdue => hposts _ _ (exec_faultPostRetry_due he hheld hdue),
      fun hheld hearly => exec_faultPostRetry_early he hheld hearly⟩

end Sys2Proof.Machine
end

section
/-! R92, R100: the outcome of the table walk of an address, entry by entry. -/

namespace Sys2Proof.Machine

open Sys2Proof

variable {s : State} {isl part va : Nat} {acc : Acc}

/-! ### The walk -/

theorem entry1_of_lt (root : Nat) (h : va < 2 ^ 52) : entry1 root va = root + 8 * (va / 2 ^ 42) := by
  rw [entry1, nbits, Nat.mod_eq_of_lt (by omega)]

theorem walk_far (h : 2 ^ 52 ≤ va) : walk s isl part va = .none 1 := by
  rw [walk]
  exact if_pos (by omega)

theorem walk_unrooted (h : ∀ p, s.part? part = some p → p.roots.get? isl = none) : walk s isl part va = .none 1 := by
  have hroot : ((s.par.parts.get? part).bind fun p => p.roots.get? isl) = none := Option.bind_eq_none_iff.2 h
  rw [walk, hroot]
  exact ite_self _

/-- R92: below a root, the walk of an address goes by the entries of its three levels. -/
theorem walk_rooted {p : Part} {root : Nat} (hp : s.part? part = some p) (hroot : p.roots.get? isl = some root)
    (hva : va < 2 ^ 52) :
    let e1 := readPte s isl (entry1 root va)
    let e2 := readPte s isl (entry2 s isl root va)
    let e3 := readPte s isl (entry3 s isl root va)
    walk s isl part va =
      if !e1.v || e1.l then .none 1
      else if !e2.v then .none 2
      else if e2.l then .leaf e2 2 (entry2 s isl root va)
      else if !e3.v || !e3.l then .none 3
      else .leaf e3 3 (entry3 s isl root va) := by
  have hbind : ((s.par.parts.get? part).bind fun p => p.roots.get? isl) = some root :=
    Option.bind_eq_some_iff.2 ⟨p, hp, hroot⟩
  rw [walk, if_neg (by omega), hbind]
  rfl

/-! ### Its outcome -/

theorem translate_none {lvl : Nat} (h : walk s isl part va = .none lvl) :
    translate s isl part va acc = .fault false lvl := by
  rw [translate, h]

theorem translate_leaf {e : Pte} {lvl at_ : Nat} (h : walk s isl part va = .leaf e lvl at_) :
    translate s isl part va acc =
      e.check acc lvl (e.pfn * 2 ^ 16 + if lvl = 2 then va % 2 ^ 29 else va % 2 ^ 16) := by
  rw [translate, h]
  simp only [nbits, pow_zero, Nat.div_one]

/-! ### Translation caches -/

/-- R100: a cache that holds no leaf for the page of an address serves nothing. -/
theorem tlbHit_none {ag : TlbAgent} (h : ∀ e ∈ s.mem.tlb.getD (isl, ag) [], e.part = part →
    e.page ≠ va / (if e.large then 2 ^ 29 else 2 ^ 16)) : tlbHit s isl ag part va = none := by
  have hfind : (s.mem.tlb.getD (isl, ag) []).find? (fun e =>
      e.part == part && e.page == va / (if e.large then 2 ^ 29 else 2 ^ 16)) = none :=
    List.find?_eq_none.2 fun e he => by simpa using h e he
  rw [tlbHit, hfind]
  exact ite_self _

theorem xlate_missed {ag : TlbAgent} (h : tlbHit s isl ag part va = none) :
    xlate s isl ag part va acc = translate s isl part va acc := by
  rw [xlate, h]

end Sys2Proof.Machine
end

section
/-! The statement of the table walk. -/

namespace Sys2Proof.Machine

open Sys2Proof

/-- Settles O25: the walk goes by the entries of its three levels, and a leaf's permission check gives the outcome. -/
theorem translation : Obligations.Translation := by
  unfold Obligations.Translation
  intro s isl part va acc
  refine ⟨fun ag hmiss => xlate_missed (tlbHit_none hmiss), fun hfar => translate_none (walk_far hfar),
    fun hnone => translate_none (walk_unrooted hnone), ?_⟩
  intro root p hp hroot hva pte e1 e2 e3 allows stores leaf
  have hwalk := walk_rooted hp hroot hva
  have he1 : readPte s isl (entry1 root va) = e1 := congrArg pte (entry1_of_lt root hva)
  have he2 : readPte s isl (entry2 s isl root va) = e2 := by rw [entry2, he1]; rfl
  have he3 : readPte s isl (entry3 s isl root va) = e3 := by rw [entry3, he2]; rfl
  rw [he1, he2, he3] at hwalk
  have hleaf (e : Pte) (lvl pa : Nat) (h : translate s isl part va acc = e.check acc lvl pa) : leaf e lvl pa := by
    simp only [leaf, stores, allows, h, Pte.check]
    cases acc <;> simp +contextual
  refine ⟨fun h1 => translate_none ?_, fun hv1 hl1 hv2 => translate_none ?_,
    fun hv1 hl1 hv2 hl2 => hleaf _ _ _ (translate_leaf (at_ := entry2 s isl root va) ?_),
    fun hv1 hl1 hv2 hl2 h3 => translate_none ?_,
    fun hv1 hl1 hv2 hl2 hv3 hl3 => hleaf _ _ _ (translate_leaf (at_ := entry3 s isl root va) ?_)⟩
  · rw [hwalk]
    exact if_pos (by simpa using h1)
  · rw [hwalk]
    simp [hv1, hl1, hv2]
  · rw [hwalk]
    simp [hv1, hl1, hv2, hl2]
  · rw [hwalk]
    simp only [hv1, hl1, hv2, hl2, Bool.not_true, Bool.or_false, Bool.false_eq_true, if_false]
    exact if_pos (by simpa using h3)
  · rw [hwalk]
    simp [hv1, hl1, hv2, hl2, hv3, hl3]

end Sys2Proof.Machine
end

section
/-! R102, R103, R181, R184: what a trap and a fault of an access leave of the thread in issue. -/

namespace Sys2Proof.Machine

open Sys2Proof

/-! ### Traps -/

theorem takeTrap_traps {u : State} {c : Issue} (cause : Cause) (tval : W64) (epc : Nat) (hr : u.thread? c.th = some c.r)
    (ht : u.team? c.th.m.isl c.th.m.team = some c.tm) (hcan : c.canTrap) :
    takeTrap u c.th cause tval epc = c.traps u cause tval epc := by
  obtain ⟨hhandler, hentry⟩ := hcan
  obtain ⟨entry, hentry⟩ := Option.isSome_iff_exists.1 hentry
  rw [takeTrap, hr, ht]
  simp only [hhandler, hentry, Bool.false_eq_true, if_false, Issue.traps, Issue.trapped, Option.getD_some]
  rfl

theorem walked_eq_noteWalk (s : State) (c : Issue) (va : Nat) : walked s c va = noteWalk s c.isl c.part va := by
  unfold walked noteWalk
  cases walkBad s c.isl c.part va <;> rfl

/-- R91: the report of a walk is the hub's alone. -/
theorem walked_eq_hub (s : State) (c : Issue) (va : Nat) : ∃ hub, walked s c va = { s with hub := hub } := by
  unfold walked
  split <;> exact ⟨_, rfl⟩

theorem walked_par (s : State) (c : Issue) (va : Nat) : (walked s c va).par = s.par := by
  obtain ⟨hub, hw⟩ := walked_eq_hub s c va
  rw [hw]

section
variable {s : State} {h : Head} {k : Kind} {srcs : List Src} {c : Issue} (hc : Clear s h k srcs c)
include hc

theorem Clear.thread_walked (va : Nat) :
    (walked s c va).thread? c.th = some c.r ∧ (walked s c va).team? c.th.m.isl c.th.m.team = some c.tm := by
  obtain ⟨hub, hw⟩ := walked_eq_hub s c va
  obtain ⟨hr, -, ht⟩ := hc.thread
  rw [hw]
  exact ⟨hr, ht⟩

theorem settle_trap (hcan : c.canTrap) (cause : Cause) (tval : W64) :
    settle s c (.trap cause tval) = c.traps s cause tval c.addr :=
  takeTrap_traps cause tval c.addr hc.thread.1 hc.thread.2.2 hcan

/-- R102, R103: a fault of a translation traps where the class has a trap entry, and else parks the thread. -/
theorem settle_unmapped (va lvl space : Nat) (p : Bool) (acc : Acc) :
    settle s c (.fault (.fault va p lvl) acc space) =
      if c.r.handler || (trapEntry c.tm c.th.m).isSome then
        takeTrap (walked s c va) c.th (if p then .permission else .translation) (w64 va) c.addr
      else park (walked s c va) c.th c.part c.core va acc p lvl := by
  obtain ⟨hr, hm, ht⟩ := hc.thread
  rw [settle, accessFault, hr, hm, ht, walked_eq_noteWalk]
  rfl

theorem settle_unmapped_traps (hcan : c.canTrap) (va lvl space : Nat) (p : Bool) (acc : Acc) :
    settle s c (.fault (.fault va p lvl) acc space) =
      c.traps (walked s c va) (if p then .permission else .translation) (w64 va) c.addr := by
  rw [settle_unmapped hc, if_pos (by rw [hcan.2, Bool.or_true])]
  obtain ⟨hr, ht⟩ := hc.thread_walked va
  exact takeTrap_traps _ _ _ hr ht hcan

theorem settle_sealed (hcan : c.canTrap) (va space : Nat) (acc : Acc) :
    settle s c (.fault (.sealed va) acc space) = c.traps s .sealedStore (w64 va) c.addr := by
  obtain ⟨hr, hm, ht⟩ := hc.thread
  rw [settle, accessFault, hr, hm, ht]
  exact takeTrap_traps _ _ _ hr ht hcan

theorem settle_poison (hcan : c.canTrap) (va space : Nat) (acc : Acc) :
    settle s c (.fault (.poison va) acc space) =
      c.traps s .uncorrectable (w64 (space * 2 ^ 56 + va % 2 ^ 52)) c.addr := by
  obtain ⟨hr, hm, ht⟩ := hc.thread
  rw [settle, accessFault, hr, hm, ht]
  exact takeTrap_traps _ _ _ hr ht hcan

end

/-! ### Parked threads -/

/-- R103: where the table has room, a fault finds the entry of its key or makes one. -/
theorem faultEntry_entered {s : State} (e : FaultEnt) (hroom : s.par.faults.length < 256) :
    ∃ x ∈ (faultEntry s e).par.faults, x.key = e.key := by
  unfold faultEntry
  split
  case h_1 x hx => exact ⟨x, List.mem_of_find?_eq_some hx, by simpa using List.find?_some hx⟩
  case h_2 =>
    have hhere := List.length_filter_le (fun x => decide (x.key.isl = e.key.isl)) s.par.faults
    have hpart := List.length_filter_le (fun x => decide (x.key.part = e.key.part))
      (s.par.faults.filter fun x => x.key.isl = e.key.isl)
    dsimp only
    rw [if_pos ⟨by omega, by omega⟩]
    exact ⟨_, List.mem_append_right _ (List.mem_singleton_self _), rfl⟩

/-- R103: a thread that parks keeps its clause and slot, and waits on the entry of its fault. -/
theorem park_parks {s : State} {th : Thread} {r : ThreadRec} (part core va : Nat) (acc : Acc) (p : Bool) (lvl : Nat)
    (hr : s.thread? th = some r) (hroom : s.par.faults.length < 256) :
    let key : FaultKey := ⟨th.m.isl, part, nbits va 51 16, p, true⟩
    let t := park s th part core va acc p lvl
    (t.thread? th).map (fun r => (r.wait.parked, r.clause, r.slot)) = some (some key, r.clause, r.slot) ∧
      t.focus = none ∧ ∃ e ∈ t.par.faults, e.key = key := by
  intro key t
  have hpark : t = park s th part core va acc p lvl := rfl
  rw [park, hr] at hpark
  dsimp only at hpark
  generalize he : (FaultEnt.mk ..) = e at hpark
  have hkey : e.key = key := he ▸ rfl
  obtain ⟨x, hx, hxkey⟩ := faultEntry_entered e hroom
  have hany : (faultEntry s e).par.faults.any (·.key == key) = true :=
    List.any_eq_true.2 ⟨x, hx, beq_iff_eq.2 (hxkey.trans hkey)⟩
  rw [hpark]
  refine ⟨(congrArg (Option.map _) (thread?_setThread_self _ th _)).trans ?_, rfl, x, hx, hxkey.trans hkey⟩
  simp [parkedOn, hany, key]

end Sys2Proof.Machine
end

section
/-! R385: the checks of an instruction that accesses memory, in their order. -/

namespace Sys2Proof.Machine

open Sys2Proof

/-- A search that answers at the same elements as another finds the element that the other finds. -/
theorem findSome?_agrees {α β γ : Type} {f : α → Option β} {g : α → Option γ} {P : β → γ → Prop} {l : List α} {b : β}
    (hnone : ∀ a ∈ l, f a = none → g a = none) (hsome : ∀ a ∈ l, f a = some b → ∃ d, g a = some d ∧ P b d)
    (h : l.findSome? f = some b) : ∃ d, l.findSome? g = some d ∧ P b d := by
  obtain ⟨l₁, a, l₂, rfl, hfound, hbefore⟩ := List.findSome?_eq_some_iff.1 h
  obtain ⟨d, hd, hbd⟩ := hsome a (by simp) hfound
  exact ⟨d, List.findSome?_eq_some_iff.2 ⟨l₁, a, l₂, rfl, hd, fun x hx => hnone x (by simp [hx]) (hbefore x hx)⟩, hbd⟩

/-- A search of a search's answers. -/
theorem findSome?_filterMap {α β γ : Type} (f : α → Option β) (g : β → Option γ) (l : List α) :
    (l.filterMap f).findSome? g = l.findSome? fun a => (f a).bind g := by
  induction l with
  | nil => rfl
  | cons a l ih => cases hf : f a <;> simp [hf, ih, List.findSome?_cons]

/-! ### Alignment, span and order -/

theorem checkSpan_ok {x : Reach} {c : Issue} (h : ∀ q, x = .peer q → c.tm.inSpan (x.core c) = true) :
    x.checkSpan c = .ok () := by
  cases x with
  | peer q => exact if_pos (h q rfl)
  | _ => rfl

theorem checkAligned_first {n v : Nat} {as : List Nat} (h : as.find? (fun a => a % n != 0) = some v) :
    checkAligned n as = .error (.trap .misaligned (w64 v)) := by
  rw [checkAligned, h]

/-- R189, R311: an offset of 32 bits is aligned as the sum that it stands for. -/
theorem checkAligned_shown {n : Nat} {as : List Nat} (x : Reach) (hn : n ∣ 2 ^ 32) (h : ∀ a ∈ as, a % n = 0) :
    checkAligned n (as.map x.shown) = .ok () := by
  have hshown (a : Nat) : x.shown a % n = a % n := by
    cases x with
    | own | peer => exact Nat.mod_mod_of_dvd a hn
    | _ => rfl
  have hfind : (as.map x.shown).find? (fun a => a % n != 0) = none := by
    simpa [hshown] using h
  rw [checkAligned, hfind]

theorem memory_ordered {s : State} {c : Issue} {rel : Bool} (k : Unit → Body) (hexec : c.exec ≠ 0) (hord : c.ordered s rel) :
    c.memory s rel k = k () := by
  obtain ⟨hfenced, hrel⟩ := hord
  rw [Issue.memory, if_neg hexec, if_neg]
  cases rel with
  | false => simp [hfenced]
  | true => simp [hfenced, hrel rfl]

/-! ### Poison -/

/-- R214, R220: no operation is outstanding, and no copy of global memory stands in an L1 or a constant cache. -/
def State.calm (s : State) : Prop := s.core.ops = [] ∧ s.mem.l1 = [] ∧ s.mem.ccache = []

theorem first_mem_wordsOf (pa n : Nat) : pa / 4 ∈ wordsOf pa n := by
  simp [wordsOf]

theorem cached_calm {s : State} (hcalm : s.calm) (isl core : Nat) (acq : Bool) (a : Access) :
    a.cached s isl core acq = false := by
  obtain ⟨-, hl1, hcc⟩ := hcalm
  have hword : (wordsOf a.addr a.size).all (fun _ => false) = false :=
    List.all_eq_false.2 ⟨_, first_mem_wordsOf .., Bool.false_ne_true⟩
  simp [Access.cached, hl1, hcc, Tbl.get?, hword]

/-- R215: where nothing is outstanding or cached, the first poisoned byte that an access reads raises its poison. -/
theorem consume_calm {s : State} {c : Issue} {acq : Bool} {poison : Nat → Body} {bad : Access → Option Nat}
    {as : List (Nat × Access)} {va : Nat} (hcalm : s.calm) (hreads : ∀ x ∈ as, x.2.kind.reads = true)
    (h : as.findSome? (fun x => (bad x.2).map fun b => x.1 + (b - x.2.addr)) = some va) :
    consume s c acq poison bad as = .error (poison va) := by
  have hops : s.core.ops = [] := hcalm.1
  obtain ⟨_, hfind, rfl⟩ := findSome?_agrees (P := Eq) (g := fun x : Nat × Access =>
    if x.2.kind.reads && !x.2.cached s c.isl c.core acq then (bad x.2).map fun b => x.1 + (b - x.2.addr) else none)
    (fun x hx hnone => by simp [hnone]) (fun x hx hsome => ⟨_, by simp [hreads x hx, cached_calm hcalm, hsome], rfl⟩) h
  have hover : (as.any fun x => (bad x.2).isSome && x.2.kind.reads && c.overwrites s x.2) = false := by
    simp [Issue.overwrites, hops]
  rw [consume, hover, hfind]
  exact if_neg Bool.false_ne_true

end Sys2Proof.Machine
end

section
/-! R92, R190, R385: where the accesses of an instruction end before they are made. -/

namespace Sys2Proof.Machine

open Sys2Proof

/-! ### Global memory -/

section
variable {s : State} {c : Issue} {sp : Space} {acc : Acc} {acq : Bool} {rs : List Req}

/-- R92: the fault of a request's page. -/
def Issue.unmapped (c : Issue) (s : State) (acc : Acc) (r : Req) : Option XErr :=
  match c.xlate s r.va acc with
  | .fault p lvl => some (.fault r.va p lvl)
  | _ => none

/-- R203: the sealed page of a request. -/
def Issue.sealedAt (c : Issue) (s : State) (acc : Acc) (r : Req) : Option XErr :=
  match c.xlate s r.va acc with
  | .sealedStore => some (.sealed r.va)
  | _ => none

/-- R92: a request's address and its access, where its page is mapped. -/
def Issue.mapped (c : Issue) (s : State) (sp : Space) (acc : Acc) (r : Req) : Option (Nat × Access) :=
  match c.xlate s r.va acc with
  | .ok pa sl _ => some (r.va, r.at_ sp pa sl)
  | _ => none

/-- R385, orders 6 to 8: faults come before sealed pages, and these before poison. -/
theorem reachGlobal_eq : reachGlobal s c sp acc acq rs =
    match rs.findSome? (c.unmapped s acc) with
    | some e => .error (.fault e acc 0)
    | none =>
      match rs.findSome? (c.sealedAt s acc) with
      | some e => .error (.fault e acc 0)
      | none => consume s c acq (fun va => .fault (.poison va) acc 0) (fun a => s.mem.poisonedAt c.isl a.addr a.size)
          (rs.filterMap (c.mapped s sp acc)) := by
  rw [reachGlobal]
  simp only [List.findSome?_map, List.filterMap_map]
  rfl

theorem reachGlobal_unmapped {e : XErr} (h : rs.findSome? (c.unmapped s acc) = some e) :
    reachGlobal s c sp acc acq rs = .error (.fault e acc 0) := by
  rw [reachGlobal_eq, h]

theorem reachGlobal_sealed {e : XErr} (hmapped : rs.findSome? (c.unmapped s acc) = none)
    (h : rs.findSome? (c.sealedAt s acc) = some e) : reachGlobal s c sp acc acq rs = .error (.fault e acc 0) := by
  rw [reachGlobal_eq, hmapped, h]

/-- R215: the address of the first poisoned byte that a request reads, where its page is mapped. -/
def Issue.poisonedBy (c : Issue) (s : State) (acc : Acc) (r : Req) : Option Nat :=
  match c.xlate s r.va acc with
  | .ok pa _ _ => (s.mem.poisonedAt c.isl pa r.size).map fun b => r.va + (b - pa)
  | _ => none

theorem reachGlobal_poisoned {va : Nat} (hcalm : s.calm) (hreads : ∀ r ∈ rs, r.kind.reads = true)
    (hmapped : rs.findSome? (c.unmapped s acc) = none) (hopen : rs.findSome? (c.sealedAt s acc) = none)
    (h : rs.findSome? (c.poisonedBy s acc) = some va) :
    reachGlobal s c sp acc acq rs = .error (.fault (.poison va) acc 0) := by
  rw [reachGlobal_eq, hmapped, hopen]
  refine consume_calm hcalm (fun x hx => ?_) ?_
  · obtain ⟨r, hr, hrx⟩ := List.mem_filterMap.1 hx
    unfold Issue.mapped at hrx
    split at hrx
    · cases hrx
      exact hreads r hr
    · exact nomatch hrx
  · rw [findSome?_filterMap, ← h]
    refine congrArg (List.findSome? · rs) (funext fun r => ?_)
    unfold Issue.mapped Issue.poisonedBy
    cases c.xlate s r.va acc <;> rfl

end

/-! ### Scratchpads -/

section
variable {s : State} {c : Issue} {core : Nat} {writes : Bool} {rs : List Req}

theorem reachSpad_outside {r : Req} (h : rs.find? (fun r => placeOf c.tm.hdr.scr r.va r.size == .outside) = some r) :
    reachSpad s c core writes rs = .error (.trap .permission (w64 (r.va % 2 ^ 32))) := by
  rw [reachSpad, h]

theorem reachSpad_window {r : Req} (hwrites : writes = true)
    (hin : rs.find? (fun r => placeOf c.tm.hdr.scr r.va r.size == .outside) = none)
    (h : rs.find? (fun r => placeOf c.tm.hdr.scr r.va r.size == .window) = some r) :
    reachSpad s c core writes rs = .error (.trap .barrierWindow (w64 r.va)) := by
  rw [reachSpad, hin, if_pos hwrites, h]

/-- R215: the offset of the first poisoned byte that a request reads in its reservation. -/
def Issue.spoiltBy (c : Issue) (s : State) (core : Nat) (r : Req) : Option Nat :=
  (s.mem.spadPoisonedAt c.isl core (c.tm.base core + r.va) r.size).map fun b => r.va + (b - (c.tm.base core + r.va))

theorem reachSpad_poisoned {off : Nat} (hcalm : s.calm) (hreads : ∀ r ∈ rs, r.kind.reads = true)
    (hreserved : ∀ r ∈ rs, placeOf c.tm.hdr.scr r.va r.size = .reserved)
    (h : rs.findSome? (c.spoiltBy s core) = some off) :
    reachSpad s c core writes rs = .error (.fault (.poison off) .read 1) := by
  have hno (p : Place) (hp : .reserved ≠ p) : rs.find? (fun r => placeOf c.tm.hdr.scr r.va r.size == p) = none :=
    List.find?_eq_none.2 fun r hr => by simpa [hreserved r hr] using hp
  rw [reachSpad, hno .outside (by decide), hno .window (by decide), ite_self]
  dsimp only
  rw [List.map_congr_left fun r hr => if_neg (by rw [hreserved r hr]; decide)]
  refine consume_calm hcalm (fun x hx => ?_) ?_
  · obtain ⟨r, hr, rfl⟩ := List.mem_map.1 hx
    exact hreads r hr
  · rw [List.findSome?_map]
    exact h

end

end Sys2Proof.Machine
end

section
/-! R385: what an instruction asks of memory, and where each of its checks ends it. -/

namespace Sys2Proof.Machine

open Sys2Proof

/-! ### Plans -/

/-- R384, R385: what an instruction asks of memory: the space and kind of its accesses, their order and alignment, the
addresses that are checked, the requests, and what it does with accesses that pass every check. -/
structure MemPlan where
  reach : Reach
  acc : Acc
  acq : Bool
  rel : Bool
  align : Nat
  at_ : State → Issue → List Nat
  rs : State → Issue → List Req
  done : State → Issue → List Access → Body

/-- R385: the meaning of an instruction that asks something of memory, in the order of its checks. -/
def MemPlan.body (q : MemPlan) (s : State) (c : Issue) : Body :=
  c.memory s q.rel fun _ => settled do
    q.reach.checkSpan c
    checkAligned q.align ((q.at_ s c).map q.reach.shown)
    let accs ← reachAll s c q.reach q.acc q.acq (q.rs s c)
    .ok (q.done s c accs)

/-- R387: what a load asks. -/
def loadPlan (h : Head) (sca : Bool) (x : Reach) (ty : Ty) (ord : Ord) (x2 : Bool) (ofs : Nat) (a b : Src) : MemPlan where
  reach := x
  acc := .read
  acq := ord == .acq
  rel := false
  align := if x2 then 16 else ty.bits / 8
  at_ s c := (c.parts sca).map fun l => x.wrap (effAddr s c sca a b ofs (ty.bits / 8) l)
  rs s c := c.asks sca x2 (ty.bits / 8) (fun l => x.wrap (effAddr s c sca a b ofs (ty.bits / 8) l)) fun _ _ => .read
  done s c accs := .done (startOp s c { c.op s h sca (resultAt sca h (valueRegs sca ty x2)) (.load ty x2) with
    accs := accs, acq := ord == .acq }) []

theorem loadBody_eq_plan (h : Head) (sca : Bool) (x : Reach) (ty : Ty) (ord : Ord) (x2 : Bool) (ofs : Nat) (a b : Src)
    (s : State) (c : Issue) : loadBody s c h sca x ty ord x2 ofs a b = (loadPlan h sca x ty ord x2 ofs a b).body s c := by
  simp only [loadBody, MemPlan.body, loadPlan, List.map_map, List.flatMap_map]
  rfl

/-- R388: what a store asks. -/
def storePlan (h : Head) (sca : Bool) (x : Reach) (ty : Ty) (ord : Ord) (x2 : Bool) (ofs : Nat) (a b : Src) : MemPlan where
  reach := x
  acc := .write
  acq := false
  rel := ord == .rel
  align := if x2 then 16 else ty.bits / 8
  at_ s c := (c.parts sca).map fun l => x.wrap (effAddr s c sca a b ofs (ty.bits / 8) l)
  rs s c := c.asks sca x2 (ty.bits / 8) (fun l => x.wrap (effAddr s c sca a b ofs (ty.bits / 8) l)) fun l k =>
    .write (storeWord s c h sca ty l k)
  done s c accs := .done (startOp s c { c.op s h sca .none .store with accs := lastWriters accs }) []

theorem storeBody_eq_plan (h : Head) (sca : Bool) (x : Reach) (ty : Ty) (ord : Ord) (x2 : Bool) (ofs : Nat) (a b : Src)
    (s : State) (c : Issue) : storeBody s c h sca x ty ord x2 ofs a b = (storePlan h sca x ty ord x2 ofs a b).body s c := by
  simp only [storeBody, MemPlan.body, storePlan, List.map_map, List.flatMap_map]
  rfl

/-- R394: the address of an atomic: an offset of its own scratchpad, or an address of 64 bits. -/
def atomAddr (s : State) (c : Issue) (sca : Bool) (x : Reach) (ty : Ty) (ofs : Nat) (a : Src) (l : Nat) : Nat :=
  if x = .own then (rd32 s c ⟨sca, 1⟩ a l).toNat + ofs * (ty.bits / 8)
  else ((rd64 s c ⟨sca, 1⟩ a l).toNat + ofs * (ty.bits / 8)) % 2 ^ 64

/-- R395: what an atomic or a reduction asks. -/
def atomPlan (h : Head) (sca : Bool) (x : Reach) (red : Bool) (ty : Ty) (ord : Ord) (op : AOp) (ofs : Nat) (a b : Src) :
    MemPlan where
  reach := x
  acc := .atomic
  acq := false
  rel := ord == .rel || ord == .acqrel
  align := ty.bits / 8
  at_ s c := (c.parts sca).map (atomAddr s c sca x ty ofs a)
  rs s c := c.asks sca false (ty.bits / 8) (atomAddr s c sca x ty ofs a) fun l _ =>
    .atomic op ty (atomB s c sca ty b l) (atomCmp s c h sca ty op l)
  done s c accs := .done (startOp s c { c.op s h sca (if red then .none else resultAt sca h (valueRegs sca ty false))
    (if red then .store else .oldVal ty) with accs := accs, acq := ord == .acq || ord == .acqrel }) []

theorem asks_single (c : Issue) (sca : Bool) (n : Nat) (at_ : Nat → Nat) (kind : Nat → Nat → AccKind) :
    c.asks sca false n at_ kind = (c.parts sca).map fun l => ⟨l, 0, at_ l, n, kind l 0⟩ := by
  rw [List.map_eq_flatMap]
  rfl

/-- R395: no atomic names a peer, so none has a span to check. -/
theorem atomBody_eq_plan (h : Head) (sca : Bool) {x : Reach} (hx : ∀ q, x ≠ .peer q) (red : Bool) (ty : Ty) (ord : Ord)
    (op : AOp) (ofs : Nat) (a b : Src) (s : State) (c : Issue) :
    atomBody s c h sca x red ty ord op ofs a b = (atomPlan h sca x red ty ord op ofs a b).body s c := by
  have hspan : x.checkSpan c = .ok () := checkSpan_ok fun q hq => absurd hq (hx q)
  simp only [atomBody, MemPlan.body, atomPlan, List.map_map, asks_single, hspan]
  rfl

/-! ### The checks of a plan -/

/-- R267, R268, R385: the instruction executes, its order allows it, and a peer that it names lies in the span. -/
structure MemPlan.Spans (q : MemPlan) (s : State) (c : Issue) : Prop where
  executes : c.exec ≠ 0
  ordered : c.ordered s q.rel
  spans : ∀ p, q.reach = .peer p → c.tm.inSpan (q.reach.core c) = true

section
variable {q : MemPlan} {s : State} {c : Issue}

theorem MemPlan.body_unspanned {p : Nat} (hexec : c.exec ≠ 0) (hord : c.ordered s q.rel) (hx : q.reach = .peer p)
    (hout : c.tm.inSpan (q.reach.core c) = false) : q.body s c = .trap .clusterSpan (w64 p) := by
  have hspan : q.reach.checkSpan c = .error (.trap .clusterSpan (w64 p)) := by
    rw [hx] at hout ⊢
    exact if_neg (by simp [hout])
  rw [MemPlan.body, memory_ordered _ hexec hord, hspan]
  rfl

theorem MemPlan.body_misaligned {v : Nat} (hspans : q.Spans s c)
    (h : ((q.at_ s c).map q.reach.shown).find? (fun a => a % q.align != 0) = some v) :
    q.body s c = .trap .misaligned (w64 v) := by
  obtain ⟨hexec, hord, hspan⟩ := hspans
  rw [MemPlan.body, memory_ordered _ hexec hord, checkSpan_ok hspan, checkAligned_first h]
  rfl

/-- R385: an instruction whose alignment passes ends where its accesses do. -/
theorem MemPlan.body_unreached {b : Body} (halign : q.align ∣ 2 ^ 32) (hspans : q.Spans s c)
    (haligned : ∀ a ∈ q.at_ s c, a % q.align = 0) (h : reachAll s c q.reach q.acc q.acq (q.rs s c) = .error b) :
    q.body s c = b := by
  obtain ⟨hexec, hord, hspan⟩ := hspans
  rw [MemPlan.body, memory_ordered _ hexec hord, checkSpan_ok hspan, checkAligned_shown q.reach halign haligned, h]
  rfl

end

theorem reachAll_local {x : Reach} (hx : x ≠ .global ∧ x ≠ .const) (s : State) (c : Issue) (acc : Acc) (acq : Bool)
    (rs : List Req) : reachAll s c x acc acq rs = reachSpad s c (x.core c) (acc != .read) rs := by
  cases x with
  | global => exact absurd rfl hx.1
  | const => exact absurd rfl hx.2
  | own | peer => rfl

theorem reachAll_global {x : Reach} (hx : ¬ (x ≠ .global ∧ x ≠ .const)) (s : State) (c : Issue) (acc : Acc) (acq : Bool)
    (rs : List Req) : ∃ sp, reachAll s c x acc acq rs = reachGlobal s c sp acc acq rs := by
  cases x with
  | global => exact ⟨.global, rfl⟩
  | const => exact ⟨.const, rfl⟩
  | own | peer => simp at hx

end Sys2Proof.Machine
end

section
/-! R91, R102, R103, R184, R189 to R192, R203, R215, R385: where an instruction that asks something of memory ends. -/

namespace Sys2Proof.Machine

open Sys2Proof

/-! ### The first request that fails -/

/-- R92: the address of a request whose page faults, and whether its permission is what fails. -/
def Issue.failsAt (c : Issue) (s : State) (acc : Acc) (r : Req) : Option (Nat × Bool) :=
  match c.xlate s r.va acc with
  | .fault p _ => some (r.va, p)
  | _ => none

/-- R203: the address of a request whose page is sealed. -/
def Issue.sealsAt (c : Issue) (s : State) (acc : Acc) (r : Req) : Option Nat :=
  match c.xlate s r.va acc with
  | .sealedStore => some r.va
  | _ => none

section
variable {s : State} {c : Issue} {acc : Acc}

theorem unmapped_none_of_failsAt {r : Req} (h : c.failsAt s acc r = none) : c.unmapped s acc r = none := by
  unfold Issue.failsAt at h
  unfold Issue.unmapped
  cases hx : c.xlate s r.va acc with
  | fault => rw [hx] at h; exact nomatch h
  | _ => rfl

theorem unmapped_of_failsAt {r : Req} {x : Nat × Bool} (h : c.failsAt s acc r = some x) :
    ∃ e, c.unmapped s acc r = some e ∧ ∃ lvl, e = .fault x.1 x.2 lvl := by
  unfold Issue.failsAt at h
  unfold Issue.unmapped
  cases hx : c.xlate s r.va acc with
  | fault p lvl => rw [hx] at h; cases h; exact ⟨_, rfl, lvl, rfl⟩
  | _ => rw [hx] at h; exact nomatch h

theorem sealedAt_eq_map (r : Req) : c.sealedAt s acc r = (c.sealsAt s acc r).map .sealed := by
  unfold Issue.sealedAt Issue.sealsAt
  cases c.xlate s r.va acc <;> rfl

variable {rs : List Req}

theorem unmapped_none (h : rs.findSome? (c.failsAt s acc) = none) : rs.findSome? (c.unmapped s acc) = none :=
  List.findSome?_eq_none_iff.2 fun r hr => unmapped_none_of_failsAt (List.findSome?_eq_none_iff.1 h r hr)

theorem unmapped_first {va : Nat} {p : Bool} (h : rs.findSome? (c.failsAt s acc) = some (va, p)) :
    ∃ lvl, rs.findSome? (c.unmapped s acc) = some (.fault va p lvl) := by
  obtain ⟨_, hfind, lvl, rfl⟩ := findSome?_agrees (P := fun x e => ∃ lvl, e = XErr.fault x.1 x.2 lvl)
    (fun _ _ => unmapped_none_of_failsAt) (fun _ _ => unmapped_of_failsAt) h
  exact ⟨lvl, hfind⟩

theorem sealedAt_first : rs.findSome? (c.sealedAt s acc) = (rs.findSome? (c.sealsAt s acc)).map .sealed := by
  rw [List.map_findSome?]
  exact congrArg (List.findSome? · rs) (funext sealedAt_eq_map)

end

/-! ### Where a plan ends -/

section
variable {i : Instr} {h : Head} {k : Kind} {srcs : List Src} {q : MemPlan} (hexec : ∀ s, exec i s = issue s h k srcs (q.body s))
  {s : State} {c : Issue} (hc : Clear s h k srcs c)
include hexec hc

theorem exec_plan : exec i s = .next (commit s (settle s c (q.body s c))) :=
  (hexec s).trans (issue_clear hc _)

theorem exec_plan_traps {cause : Cause} {tval : W64} (hcan : c.canTrap) (hb : q.body s c = .trap cause tval) :
    exec i s = .next (commit s (c.traps s cause tval c.addr)) := by
  rw [exec_plan hexec hc, hb, settle_trap hc hcan]

theorem exec_plan_sealed {va space : Nat} {acc : Acc} (hcan : c.canTrap) (hb : q.body s c = .fault (.sealed va) acc space) :
    exec i s = .next (commit s (c.traps s .sealedStore (w64 va) c.addr)) := by
  rw [exec_plan hexec hc, hb, settle_sealed hc hcan]

theorem exec_plan_poison {va space : Nat} {acc : Acc} (hcan : c.canTrap) (hb : q.body s c = .fault (.poison va) acc space) :
    exec i s = .next (commit s (c.traps s .uncorrectable (w64 (space * 2 ^ 56 + va % 2 ^ 52)) c.addr)) := by
  rw [exec_plan hexec hc, hb, settle_poison hc hcan]

/-- R102, R184: a fault of a translation, where the class has a trap entry. -/
theorem exec_plan_unmapped {va lvl space : Nat} {p : Bool} {acc : Acc} (hcan : c.canTrap)
    (hb : q.body s c = .fault (.fault va p lvl) acc space) : exec i s = .next (commit s
      (c.traps (walked s c va) (if p then .permission else .translation) (w64 va) c.addr)) := by
  rw [exec_plan hexec hc, hb, settle_unmapped_traps hc hcan]

/-- R103: a fault of a translation, where the class has none. -/
theorem exec_plan_parks {va lvl space : Nat} {p : Bool} {acc : Acc} (hhandler : c.r.handler = false)
    (hentry : trapEntry c.tm c.th.m = none) (hroom : s.par.faults.length < 256)
    (hb : q.body s c = .fault (.fault va p lvl) acc space) : Gives (exec i s) fun t =>
      let key : FaultKey := ⟨c.isl, c.part, nbits va 51 16, p, true⟩
      (t.thread? c.th).map (fun r => (r.wait.parked, r.clause, r.slot)) = some (some key, c.r.clause, c.r.slot) ∧
        t.focus = none ∧ ∃ e ∈ t.par.faults, e.key = key := by
  refine ⟨_, exec_plan hexec hc, ?_⟩
  rw [hb, settle_unmapped hc, if_neg (by simp [hhandler, hentry])]
  exact park_parks c.part c.core va acc p lvl (hc.thread_walked va).1 (by rwa [walked_par])

end

/-- R385: what an instruction does that asks something of memory, at the first of its checks that fails. -/
theorem accessTraps_of_plan {i : Instr} {h : Head} {sca : Bool} {srcs : List Src} {q : MemPlan} {reads : Bool}
    (hexec : ∀ s, exec i s = issue s h (if sca then .sca else .vec) srcs (q.body s)) (halign : q.align ∣ 2 ^ 32)
    (hreads : reads = true → ∀ s c, ∀ r ∈ q.rs s c, r.kind.reads = true) :
    AccessTraps i h sca srcs q.reach q.acc reads q.rel q.align q.at_ q.rs := by
  have hspans {s : State} {c : Issue} (hs : c.exec ≠ 0 ∧ c.ordered s q.rel ∧
      ∀ p, q.reach = .peer p → c.tm.inSpan (q.reach.core c) = true) : q.Spans s c := ⟨hs.1, hs.2.1, hs.2.2⟩
  refine ⟨?span, ?misaligned, ?outside, ?window, ?unmapped, ?sealed, ?poisoned, ?spoilt⟩
  case span =>
    intro p hx s c hc hs hcan
    obtain ⟨hex, hord, hout⟩ := hs
    exact exec_plan_traps hexec hc hcan (MemPlan.body_unspanned hex hord hx hout)
  case misaligned =>
    intro v s c hc hs hcan
    obtain ⟨hs, hfind⟩ := hs
    exact exec_plan_traps hexec hc hcan (MemPlan.body_misaligned (hspans hs) hfind)
  case outside =>
    intro r hlocal s c hc hs hcan
    obtain ⟨⟨hs, haligned⟩, hout⟩ := hs
    refine exec_plan_traps hexec hc hcan (MemPlan.body_unreached halign (hspans hs) haligned ?_)
    rw [reachAll_local hlocal]
    exact reachSpad_outside hout
  case window =>
    intro r hlocal hacc s c hc hs hcan
    obtain ⟨⟨hs, haligned⟩, hin, hwindow⟩ := hs
    refine exec_plan_traps hexec hc hcan (MemPlan.body_unreached halign (hspans hs) haligned ?_)
    rw [reachAll_local hlocal]
    exact reachSpad_window (bne_iff_ne.2 hacc) hin hwindow
  case unmapped =>
    intro va p hglobal s c hc hs hfails
    obtain ⟨hs, haligned⟩ := hs
    obtain ⟨lvl, hfault⟩ := unmapped_first hfails
    obtain ⟨sp, hreach⟩ := reachAll_global hglobal s c q.acc q.acq (q.rs s c)
    have hb := MemPlan.body_unreached halign (hspans hs) haligned (hreach.trans (reachGlobal_unmapped hfault))
    exact ⟨fun hcan => exec_plan_unmapped hexec hc hcan hb,
      fun hhandler hentry hroom => exec_plan_parks hexec hc hhandler hentry hroom hb⟩
  case sealed =>
    intro va hglobal s c hc hs hcan
    obtain ⟨⟨hs, haligned⟩, hmapped, hsealed⟩ := hs
    obtain ⟨sp, hreach⟩ := reachAll_global hglobal s c q.acc q.acq (q.rs s c)
    refine exec_plan_sealed hexec hc hcan (MemPlan.body_unreached halign (hspans hs) haligned
      (hreach.trans (reachGlobal_sealed (unmapped_none hmapped) ?_)))
    exact sealedAt_first.trans (congrArg (Option.map XErr.sealed) hsealed)
  case poisoned =>
    intro va hglobal hread s c hc hs hcan
    obtain ⟨⟨hs, haligned⟩, hmapped, hopen, hcalm, hpoison⟩ := hs
    obtain ⟨sp, hreach⟩ := reachAll_global hglobal s c q.acc q.acq (q.rs s c)
    have hsealed : (q.rs s c).findSome? (c.sealedAt s q.acc) = none :=
      sealedAt_first.trans (congrArg (Option.map XErr.sealed) hopen)
    have hb := MemPlan.body_unreached halign (hspans hs) haligned
      (hreach.trans (reachGlobal_poisoned hcalm (hreads hread s c) (unmapped_none hmapped) hsealed hpoison))
    simpa using exec_plan_poison hexec hc hcan hb
  case spoilt =>
    intro va hlocal hread s c hc hs hcan
    obtain ⟨⟨hs, haligned⟩, hcalm, hreserved, hpoison⟩ := hs
    have hplace := fun r hr => beq_iff_eq.1 (hreserved r hr)
    have hb := MemPlan.body_unreached halign (hspans hs) haligned
      ((reachAll_local hlocal ..).trans (reachSpad_poisoned hcalm (hreads hread s c) hplace hpoison))
    simpa using exec_plan_poison hexec hc hcan hb

end Sys2Proof.Machine
end

section
/-! The statement of the accesses that do not reach memory. -/

namespace Sys2Proof.Machine

open Sys2Proof

theorem bytes_dvd (ty : Ty) : ty.bits / 8 ∣ 2 ^ 32 := by cases ty <;> decide

theorem access_align_dvd (x2 : Bool) (ty : Ty) : (if x2 then 16 else ty.bits / 8) ∣ 2 ^ 32 := by
  cases x2 with
  | false => exact bytes_dvd ty
  | true => exact (by decide : 16 ∣ 2 ^ 32)

theorem asks_reads {c : Issue} {sca x2 : Bool} {n : Nat} {at_ : Nat → Nat} {kind : Nat → Nat → AccKind}
    (hkind : ∀ l k, (kind l k).reads = true) {r : Req} (hr : r ∈ c.asks sca x2 n at_ kind) : r.kind.reads = true := by
  obtain ⟨l, -, hr⟩ := List.mem_flatMap.1 hr
  split at hr <;> simp only [List.mem_cons, List.not_mem_nil, or_false] at hr
  · rcases hr with rfl | rfl <;> exact hkind l _
  · exact hr ▸ hkind l 0

theorem loadTraps {i : Instr} {h : Head} {sca : Bool} {x : Reach} {ty : Ty} {ord : Ord} {x2 : Bool} {ofs : Nat} {a b : Src}
    (hexec : ∀ s, exec i s =
      issue s h (if sca then .sca else .vec) [a, b] fun c => loadBody s c h sca x ty ord x2 ofs a b) :
    LoadTraps i h sca x ty x2 ofs a b := by
  refine accessTraps_of_plan (q := loadPlan h sca x ty ord x2 ofs a b) (fun s => ?_) (access_align_dvd x2 ty)
    fun _ s c r hr => ?_
  · rw [hexec, funext (loadBody_eq_plan h sca x ty ord x2 ofs a b s)]
  · dsimp only [loadPlan] at hr
    exact asks_reads (fun _ _ => rfl) hr

theorem storeTraps {i : Instr} {h : Head} {sca : Bool} {x : Reach} {ty : Ty} {ord : Ord} {x2 : Bool} {ofs : Nat} {a b : Src}
    (hexec : ∀ s, exec i s = issue s h (if sca then .sca else .vec) (a :: b :: dataSrcs sca h.d (valueRegs sca ty x2))
      fun c => storeBody s c h sca x ty ord x2 ofs a b) :
    StoreTraps i h sca x ty ord x2 ofs a b := by
  refine accessTraps_of_plan (q := storePlan h sca x ty ord x2 ofs a b) (fun s => ?_) (access_align_dvd x2 ty)
    fun hreads => nomatch hreads
  rw [hexec, funext (storeBody_eq_plan h sca x ty ord x2 ofs a b s)]

theorem atomTraps {i : Instr} {h : Head} {sca : Bool} {x : Reach} {red : Bool} {srcs : List Src} {ty : Ty} {ord : Ord}
    {op : AOp} {ofs : Nat} {a b : Src} (hx : ∀ q, x ≠ .peer q)
    (hexec : ∀ s, exec i s =
      issue s h (if sca then .sca else .vec) srcs fun c => atomBody s c h sca x red ty ord op ofs a b) :
    AtomTraps i h sca x srcs ty ord op ofs a b := by
  refine accessTraps_of_plan (q := atomPlan h sca x red ty ord op ofs a b) (fun s => ?_) (bytes_dvd ty)
    fun _ s c r hr => ?_
  · rw [hexec, funext (atomBody_eq_plan h sca hx red ty ord op ofs a b s)]
  · dsimp only [atomPlan] at hr
    exact asks_reads (fun _ _ => rfl) hr

/-- Settles O24: each of these instructions carries out a plan, and a plan ends at the first of its checks that fails. -/
theorem memoryTraps : Obligations.MemoryTraps := by
  unfold Obligations.MemoryTraps
  intro h ty ord x2 op q ofs a b old
  have hglobal : ∀ q, Reach.global ≠ .peer q := fun _ => Reach.noConfusion
  have hown : ∀ q, Reach.own ≠ .peer q := fun _ => Reach.noConfusion
  refine ⟨⟨?_, ?_, ?_, ?_, ?_, ?_, ?_, ?_⟩, ⟨?_, ?_, ?_, ?_, ?_, ?_⟩, ?_, ?_, ?_, ?_, ?_, ?_⟩
  · exact loadTraps fun s => exec_ldVector h ty ord x2 ofs a b s
  · exact loadTraps fun s => exec_ldScalar h ty ord x2 ofs a b s
  · exact loadTraps fun s => exec_ldsVector h ty ord x2 ofs a b s
  · exact loadTraps fun s => exec_ldsScalar h ty ord x2 ofs a b s
  · exact loadTraps fun s => exec_ldxVector h ty ord x2 q ofs a b s
  · exact loadTraps fun s => exec_ldxScalar h ty ord x2 q ofs a b s
  · exact loadTraps fun s => exec_ldcVector h ty ord x2 ofs a b s
  · exact loadTraps fun s => exec_ldcScalar h ty ord x2 ofs a b s
  · exact storeTraps fun s => exec_stVector h ty ord x2 ofs a b s
  · exact storeTraps fun s => exec_stScalar h ty ord x2 ofs a b s
  · exact storeTraps fun s => exec_stsVector h ty ord x2 ofs a b s
  · exact storeTraps fun s => exec_stsScalar h ty ord x2 ofs a b s
  · exact storeTraps fun s => exec_stxVector h ty ord x2 q ofs a b s
  · exact storeTraps fun s => exec_stxScalar h ty ord x2 q ofs a b s
  · exact atomTraps hglobal fun s => exec_atomVector h ty ord op ofs a b s
  · exact atomTraps hglobal fun s => exec_atomScalar h ty ord op ofs a b s
  · exact atomTraps hown fun s => exec_atomsVector h ty ord op ofs a b s
  · exact atomTraps hown fun s => exec_atomsScalar h ty ord op ofs a b s
  · exact atomTraps hglobal fun s => exec_redVector h ty ord op ofs a b s
  · exact atomTraps hglobal fun s => exec_redScalar h ty ord op ofs a b s

end Sys2Proof.Machine
end

section
/-! R114, R147, R500: what the steps that end an agent's work leave of tasks, ownership, members, threads and words. -/

namespace Sys2Proof.Machine

open Sys2Proof

/-! ### Steps that end work -/

/-- A step that ends work: it starts no thread, member or record, it changes no task, no accumulator word and, where no write
of a copy engine is on its way, no scratchpad, and of ownership no more than faults and what an overrun shortens. -/
structure Ebbs (s t : State) : Prop where
  winds : Winds s t
  task : t.task = s.task
  par : ({ t.par with faults := [], rots := [] } : PartSt) = { s.par with faults := [], rots := [] }
  members : t.core.members.map (·.1) ⊆ s.core.members.map (·.1)
  threads : t.core.threads.map (·.1) ⊆ s.core.threads.map (·.1)
  acc : t.mem.acc = s.mem.acc
  spads : s.eng.outs = [] → t.eng.outs = [] ∧ t.mem.spad = s.mem.spad

theorem Ebbs.rfl' (s : State) : Ebbs s s := ⟨.rfl' s, rfl, rfl, fun _ h => h, fun _ h => h, rfl, fun h => ⟨h, rfl⟩⟩

theorem Ebbs.trans {s t u : State} (h : Ebbs s t) (k : Ebbs t u) : Ebbs s u where
  winds := h.winds.trans k.winds
  task := k.task.trans h.task
  par := k.par.trans h.par
  members := List.Subset.trans k.members h.members
  threads := List.Subset.trans k.threads h.threads
  acc := k.acc.trans h.acc
  spads houts :=
    have ht := h.spads houts
    have hu := k.spads ht.1
    ⟨hu.1, hu.2.trans ht.2⟩

theorem Ebbs.foldl {β : Type} (f : State → β → State) (h : ∀ s b, Ebbs s (f s b)) (l : List β) (s : State) :
    Ebbs s (l.foldl f s) :=
  List.foldlRecOn l f (.rfl' s) fun _ hs b _ => hs.trans (h _ b)

theorem Tbl.get?_eq_none_iff {κ α : Type} [DecidableEq κ] (t : Tbl κ α) (x : κ) : t.get? x = none ↔ x ∉ t.map (·.1) := by
  induction t with
  | nil => simp [Tbl.get?]
  | cons e t ih =>
    obtain ⟨k, v⟩ := e
    by_cases h : k = x
    · simp [Tbl.get?, h]
    · simp [Tbl.get?, h, ih, Ne.symm h]

theorem Ebbs.member?_none {s t : State} (h : Ebbs s t) {m : Member} (hm : s.member? m = none) : t.member? m = none :=
  (Tbl.get?_eq_none_iff ..).2 fun hk => (Tbl.get?_eq_none_iff ..).1 hm (h.members hk)

theorem Ebbs.thread?_none {s t : State} (h : Ebbs s t) {th : Thread} (hm : s.thread? th = none) : t.thread? th = none :=
  (Tbl.get?_eq_none_iff ..).2 fun hk => (Tbl.get?_eq_none_iff ..).1 hm (h.threads hk)

theorem Ebbs.team? {s t : State} (h : Ebbs s t) (isl team : Nat) : t.team? isl team = s.team? isl team := by
  unfold State.team?
  rw [h.task]

/-- The hub's time. -/
theorem ns_of_winds {s t : State} (h : Winds s t) : t.hub.ns = s.hub.ns :=
  congrArg (fun x => x.1.2.2.2.2.ns) h.lasting

/-- The words of scratchpads and accumulators, and which threads there are. -/
def State.words (s : State) : Mem × Tbl (Nat × Nat × Nat × Nat) W32 × List Thread :=
  (s.mem.spad, s.mem.acc, s.core.threads.map (·.1))

/-- What a device's write leaves alone: all but the bytes of islands, caches, watches and messages. -/
def State.unwritten (s : State) : State × Mem × Tbl (Nat × Nat × Nat × Nat) W32 × List Thread := (s.unreported, s.words)

/-- A change of bytes, caches, watches and messages ends work. -/
theorem ebbs_of_unwritten {s t : State} (h : t.unwritten = s.unwritten) : Ebbs s t := by
  obtain ⟨hreport, hwords⟩ := Prod.mk.inj h
  simp only [State.words, Prod.mk.injEq] at hwords
  obtain ⟨hspad, hacc, hthreads⟩ := hwords
  have hmembers : t.core.members = s.core.members := (congrArg (fun u : State => u.core.members) hreport :)
  refine ⟨winds_of_unreported hreport, (congrArg State.task hreport :),
    (congrArg (fun u : State => ({ u.par with faults := [], rots := [] } : PartSt)) hreport :), ?_, ?_, hacc, fun houts => ?_⟩
  · rw [hmembers]
    exact fun _ h => h
  · rw [hthreads]
    exact fun _ h => h
  · exact ⟨(congrArg (fun u : State => u.eng.outs) hreport :).trans houts, hspad⟩

/-! ### Writes at a home bank -/

theorem wakeWatches_threads (s : State) (isl pa n : Nat) :
    (wakeWatches s isl pa n).core.threads.map (·.1) = s.core.threads.map (·.1) := by
  unfold wakeWatches
  rw [List.map_map]
  refine List.map_congr_left fun e _ => ?_
  simp only [Function.comp]
  split
  · split <;> rfl
  · rfl

theorem loseWatches_threads (s : State) (isl : Nat) (p : Nat → Bool) :
    (loseWatches s isl p).core.threads.map (·.1) = s.core.threads.map (·.1) := by
  unfold loseWatches
  rw [List.map_map]
  refine List.map_congr_left fun e _ => ?_
  simp only [Function.comp]
  split
  · split <;> rfl
  · rfl

theorem makeRoom_threads (isl : Nat) (s : State) (pa : Nat) :
    (makeRoom isl s pa).core.threads.map (·.1) = s.core.threads.map (·.1) := by
  unfold makeRoom
  split
  · rfl
  · dsimp only
    split
    · rfl
    · exact loseWatches_threads ..

theorem writeBank_words (m : MemSt) (isl pa : Nat) (core : Option Nat) (bs : List Byte) (n : Nat) :
    ((m.writeBank isl pa bs).clearOwner isl core pa n).spad = m.spad ∧
      ((m.writeBank isl pa bs).clearOwner isl core pa n).acc = m.acc := by
  have h := (m.writeBank isl pa bs).data_clearOwner isl core pa n
  unfold MemSt.writeBank at h ⊢
  rw [MemSt.data_curePoison] at h
  simp only [MemSt.data, Prod.mk.injEq] at h
  exact h.2.2.2

/-- R195: a write at a bank changes no word of a scratchpad or an accumulator, and starts no thread. -/
theorem bypassBank_words (s : State) (isl : Nat) (core : Option Nat) (pa : Nat) (bs : List Byte) :
    (bypassBank s isl core pa bs).words = s.words := by
  refine foldl_keeps _ State.words (fun s x => ?_) _ _
  obtain ⟨hkept, -⟩ := makeRoom_kept isl s x.1
  obtain ⟨hspad, hacc⟩ := writeBank_words (makeRoom isl s x.1).mem isl x.1 core x.2 x.2.length
  simp only [State.words, Prod.mk.injEq]
  exact ⟨hspad.trans hkept.spad, hacc.trans hkept.acc, (wakeWatches_threads ..).trans (makeRoom_threads isl s x.1)⟩

theorem bypassBank_unwritten (s : State) (isl : Nat) (core : Option Nat) (pa : Nat) (bs : List Byte) :
    (bypassBank s isl core pa bs).unwritten = s.unwritten :=
  Prod.ext (unreported_of_unbanked (bypassBank_unbanked ..)) (bypassBank_words s isl core pa bs)

theorem noteWalk_unwritten (s : State) (isl part va : Nat) : (noteWalk s isl part va).unwritten = s.unwritten := by
  unfold noteWalk
  split <;> rfl

theorem note_unwritten (e : XErr) (s : State) (isl part : Nat) : (e.note s isl part).unwritten = s.unwritten := by
  unfold XErr.note
  split
  · exact noteWalk_unwritten ..
  · rfl

theorem writeVa_unwritten {s t : State} {isl part va : Nat} {bs : List Byte} {meets : Bool}
    (h : writeVa s isl part va bs meets = .ok t) : t.unwritten = s.unwritten := by
  unfold writeVa at h
  split at h
  · obtain rfl := Except.ok.inj h
    exact bypassBank_unwritten ..
  · exact nomatch h

theorem putVa_unwritten {lost : State → State} (hlost : ∀ u, (lost u).unwritten = u.unwritten) (s : State)
    (isl part va : Nat) (bs : List Byte) : (putVa s isl part va bs lost).unwritten = s.unwritten := by
  unfold putVa
  split
  next t h => exact writeVa_unwritten h
  next e _ => exact (hlost _).trans (note_unwritten e s isl part)

theorem writeField_unwritten (s : State) (isl part va hi lo v : Nat) :
    (writeField s isl part va hi lo v).unwritten = s.unwritten := by
  unfold writeField
  dsimp only
  split
  · exact bypassBank_unwritten ..
  · next e _ => exact (note_unwritten e s isl part :)

theorem writePsw_unwritten (s : State) (isl : Nat) (t : Team) (psw : Nat) : (writePsw s isl t psw).unwritten = s.unwritten := by
  unfold writePsw
  split
  · rfl
  · exact putVa_unwritten (lost := fun s => report s t.part 8 [isl, psw]) (fun _ => rfl) ..

theorem closePsw_unwritten (s : State) (isl lcause : Nat) (t : Team) :
    (closePsw s isl lcause t).unwritten = s.unwritten := by
  unfold closePsw
  split
  · exact writePsw_unwritten ..
  · rfl

theorem putWords_unwritten (s : State) (r : ChainRef) (ws : List (Nat × Nat)) : (putWords s r ws).unwritten = s.unwritten := by
  refine foldl_keeps _ State.unwritten (fun s w => ?_) _ _
  exact putVa_unwritten (lost := fun s => report s r.part 4 [r.isl, r.desc]) (fun _ => rfl) ..

/-! ### Faults, chains and copies -/

theorem rewalk_threads (s : State) (isl part : Nat) :
    (rewalk s isl part).core.threads.map (·.1) = s.core.threads.map (·.1) := by
  unfold rewalk
  rw [List.map_map]
  refine List.map_congr_left fun e _ => ?_
  simp only [Function.comp, apply_ite Prod.fst, ite_self]

theorem freeFaults_ebbs (s : State) (isl part : Nat) : Ebbs s (freeFaults s isl part) := by
  have hwinds := freeFaults_winds s isl part
  unfold freeFaults at hwinds ⊢
  dsimp only at hwinds ⊢
  split at hwinds
  · next h =>
    rw [if_pos h]
    refine ⟨hwinds, rfl, rfl, fun _ h => h, fun _ hx => ?_, rfl, fun houts => ⟨houts, rfl⟩⟩
    rw [rewalk_threads] at hx
    exact hx
  · next h =>
    rw [if_neg h]
    exact .rfl' s

/-- A team whose splits and contexts have stopped, before its faults are freed. -/
def haltTeam (s : State) (isl team : Nat) : State :=
  let mine (m : Member) : Bool := m.isl == isl && m.team == team
  { s with
    focus := s.focus.filter fun t => !mine t.m
    core := { s.core with
      threads := s.core.threads.filter fun e => !mine e.1.m
      ops := s.core.ops.map fun o => if mine o.m then o.orphan s.serial else o
      members := s.core.members.map fun (m, r) =>
        if mine m then (m, { r with course := .ended, stack := [], groups := [] }) else (m, r) } }

theorem stopTeam_eq (s : State) (isl team : Nat) : stopTeam s isl team =
    (s.team? isl team).elim (haltTeam s isl team) fun t => freeFaults (haltTeam s isl team) isl t.part := by
  unfold stopTeam
  dsimp only
  split <;> next h => rw [show s.team? isl team = _ from h]; rfl

theorem haltTeam_ebbs (s : State) (isl team : Nat) : Ebbs s (haltTeam s isl team) := by
  refine ⟨⟨rfl, fun _ h => h⟩, rfl, rfl, fun _ hx => ?_, List.map_subset _ (List.filter_subset_self ..), rfl, fun h => ⟨h, rfl⟩⟩
  unfold haltTeam at hx
  rwa [List.map_map, List.map_congr_left fun e _ => ?_] at hx
  simp only [Function.comp, apply_ite Prod.fst, ite_self]

theorem stopTeam_ebbs (s : State) (isl team : Nat) : Ebbs s (stopTeam s isl team) := by
  rw [stopTeam_eq]
  cases s.team? isl team with
  | none => exact haltTeam_ebbs ..
  | some t => exact (haltTeam_ebbs ..).trans (freeFaults_ebbs ..)

/-- The members, which threads there are, and the words of accumulators. -/
def State.hands (s : State) : Tbl Member MemberRec × List Thread × Tbl (Nat × Nat × Nat × Nat) W32 :=
  (s.core.members, s.core.threads.map (·.1), s.mem.acc)

theorem spadPut_acc (m : MemSt) (isl core off : Nat) (bs : List Byte) : (m.spadPut isl core off bs).acc = m.acc := by
  have h : (m.spadPut isl core off bs).data = _ := MemSt.data_curePoison ..
  simp only [MemSt.data, Prod.mk.injEq] at h
  exact h.2.2.2.2

theorem bypassBank_hands (s : State) (isl : Nat) (core : Option Nat) (pa : Nat) (bs : List Byte) :
    (bypassBank s isl core pa bs).hands = s.hands := by
  have hmembers := congrArg (fun u : State => u.core.members) (bypassBank_unbanked s isl core pa bs)
  exact Prod.ext hmembers (congrArg (fun x => (x.2.2, x.2.1)) (bypassBank_words s isl core pa bs))

theorem performOut_hands (s : State) (x : EngWrite) : (performOut s x).hands = s.hands := by
  unfold performOut
  dsimp only
  split
  · rw [bypassBank_hands]
    rfl
  · simp only [State.hands, spadPut_acc]
    rfl

theorem flushOuts_hands (s : State) (p : EngWrite → Bool) : (flushOuts s p).hands = s.hands := by
  unfold flushOuts
  rw [foldl_keeps performOut State.hands performOut_hands]
  rfl

/-- R277: where no write of a copy engine is on its way, none performs. -/
theorem flushOuts_none {s : State} (h : s.eng.outs = []) (p : EngWrite → Bool) : flushOuts s p = s := by
  unfold flushOuts
  rw [h]
  show ({ s with eng := { s.eng with outs := [] } } : State) = s
  rw [← h]

theorem flushOuts_ebbs (s : State) (p : EngWrite → Bool) : Ebbs s (flushOuts s p) := by
  have hout := flushOuts_outside s p
  have hhands := flushOuts_hands s p
  simp only [State.outside, State.hands, Prod.mk.injEq] at hout hhands
  obtain ⟨htask, hpar, -⟩ := hout
  obtain ⟨hmembers, hthreads, hacc⟩ := hhands
  refine ⟨flushOuts_winds s p, htask, by rw [hpar], ?_, ?_, hacc, fun houts => ?_⟩
  · rw [hmembers]
    exact fun _ h => h
  · rw [hthreads]
    exact fun _ h => h
  · rw [flushOuts_none houts]
    exact ⟨houts, rfl⟩

/-- A change of the engines that starts no record and sends no write ends work. -/
theorem ebbs_of_eng {s : State} (e : EngSt) (h : e.recs.map (·.ref) ⊆ s.eng.recs.map (·.ref)) (houts : e.outs = s.eng.outs) :
    Ebbs s { s with eng := e } :=
  ⟨⟨rfl, h⟩, rfl, rfl, fun _ h => h, fun _ h => h, rfl, fun h => ⟨houts.trans h, rfl⟩⟩

theorem unbindChain_ebbs (s : State) (r : ChainRef) : Ebbs s (unbindChain s r) := by
  unfold unbindChain
  split
  · exact .rfl' s
  · refine Ebbs.trans ?_ (ebbs_of_unwritten (putWords_unwritten ..))
    exact ebbs_of_eng _ (fun _ h => h) rfl

theorem releaseChain_ebbs (s : State) (r : ChainRef) (c : Chain) : Ebbs s (releaseChain s r c) := by
  have hdrop : Ebbs s { s with eng := { s.eng with recs := s.eng.recs.filter fun x => x.ref.chain != r || x.known } } :=
    ebbs_of_eng _ (List.map_subset _ (List.filter_subset_self ..)) rfl
  unfold releaseChain
  dsimp only
  refine Ebbs.trans ?_ (freeFaults_ebbs ..)
  split
  · exact hdrop.trans (ebbs_of_eng _ (fun _ h => h) rfl)
  · exact hdrop.trans (unbindChain_ebbs ..)

theorem releaseChains_ebbs (s : State) (isl team : Nat) : Ebbs s (releaseChains s isl team) := by
  refine Ebbs.foldl _ (fun s c => ?_) _ _
  exact releaseChain_ebbs s c.1 c.2

theorem changeChain_ebbs (s : State) (r : ChainRef) (f : Chain → Chain) : Ebbs s (changeChain s r f) := by
  unfold changeChain syncChain
  split
  · next c hc =>
    have hset : Ebbs s (setChain s r (f c)) := ebbs_of_eng _ (fun _ h => h) rfl
    split
    · exact hset.trans (ebbs_of_unwritten (putWords_unwritten ..))
    · exact hset
  · exact .rfl' s

theorem unbindCopies_ebbs (s : State) (p : ChainRef → Nat → Bool) (all : Bool) : Ebbs s (unbindCopies s p all) := by
  refine Ebbs.foldl _ (fun s c => ?_) _ _
  split
  · exact releaseChain_ebbs ..
  · exact changeChain_ebbs ..

theorem rebindCopies_ebbs (s : State) (isl part : Nat) : Ebbs s (rebindCopies s isl part) := by
  refine Ebbs.foldl _ (fun s c => ?_) _ _
  exact changeChain_ebbs ..

theorem abandonCopies_ebbs (s : State) (isl part : Nat) : Ebbs s (abandonCopies s isl part) := by
  unfold abandonCopies
  dsimp only
  refine (flushOuts_ebbs ..).trans (ebbs_of_eng _ (fun _ hx => ?_) rfl)
  rwa [List.map_map, List.map_congr_left fun e _ => ?_] at hx
  simp only [Function.comp]
  split
  · split <;> rfl
  · rfl

/-! ### What a team leaves -/

theorem dropEndless_ebbs (s : State) (isl team : Nat) (normal : Bool) : Ebbs s (dropEndless s isl team normal) :=
  ⟨dropEndless_winds .., rfl, rfl, fun _ h => h, fun _ h => h, rfl, fun h => ⟨h, rfl⟩⟩

theorem forgetMembers_ebbs (s : State) (isl team : Nat) : Ebbs s (forgetMembers s isl team) :=
  ⟨forgetMembers_winds .., rfl, rfl, List.map_subset _ (List.filter_subset_self ..),
    List.map_subset _ (List.filter_subset_self ..), rfl, fun h => ⟨h, rfl⟩⟩

theorem releaseBanks_ebbs (s : State) (isl core team : Nat) : Ebbs s (releaseBanks s isl core team) := by
  unfold releaseBanks
  split
  · exact .rfl' s
  · exact ⟨⟨rfl, fun _ h => h⟩, rfl, rfl, fun _ h => h, fun _ h => h, rfl, fun h => ⟨h, rfl⟩⟩

theorem releaseAm_ebbs (s : State) (isl team : Nat) (t : Team) : Ebbs s (releaseAm s isl team t) := by
  refine Ebbs.trans ?_ (Ebbs.foldl _ (fun s i => releaseBanks_ebbs ..) _ _)
  exact ⟨⟨rfl, fun _ h => h⟩, rfl, rfl, fun _ h => h, fun _ h => h, rfl, fun h => ⟨h, rfl⟩⟩

theorem markOverrun_ebbs (s : State) (t : Team) : Ebbs s (markOverrun s t) := by
  have hwinds := markOverrun_winds s t
  unfold markOverrun at hwinds ⊢
  split at hwinds
  · dsimp only at hwinds ⊢
    split at hwinds
    · next h =>
      rw [if_pos h]
      exact ⟨hwinds, rfl, rfl, fun _ h => h, fun _ h => h, rfl, fun h => ⟨h, rfl⟩⟩
    · next h =>
      rw [if_neg h]
      exact .rfl' s
  · exact .rfl' s

/-! ### The end of a team -/

/-- What ends work does so whatever the tasks are. -/
theorem Ebbs.retask {s t : State} (h : Ebbs s t) (x : TaskSt) : Ebbs { s with task := x } { t with task := x } :=
  ⟨⟨h.winds.lasting, h.winds.recs⟩, rfl, h.par, h.members, h.threads, h.acc, h.spads⟩

/-- R147: a team that has stopped, whose copies have performed and whose chains, members and channels are gone. -/
def clearTeam (s : State) (isl team : Nat) (t : Team) : State :=
  let s0 := flushOuts (stopTeam s isl team) fun x => x.ref.chain.isl == isl && (x.core.map t.inSpan).getD false
  let s2 := forgetMembers (releaseChains (dropEndless s0 isl team false) isl team) isl team
  { s2 with fab := { s2.fab with chans := s2.fab.chans.drop fun k => k.1 == isl && k.2.1 == team } }

/-- R144, R147: a team whose end is complete is removed, or what it leaves goes on under another number. -/
def strikeTeam (s : State) (isl team : Nat) : State :=
  let u := removeTeam s isl team
  if (u.team? isl team).isSome then renameTeam u isl team (leftId u isl team) else u

theorem retireTeam_eq (s : State) (isl team : Nat) (t : Team) : retireTeam s isl team t =
    strikeTeam (releaseAm (markOverrun ((clearTeam s isl team t).setTeam isl team
      { t with gone := true, ending := some (t.ending.getD (0, 0)), preempt := none }) t) isl team t) isl team := rfl

theorem clearTeam_ebbs (s : State) (isl team : Nat) (t : Team) : Ebbs s (clearTeam s isl team t) := by
  have h : Ebbs s (forgetMembers (releaseChains (dropEndless (flushOuts (stopTeam s isl team)
      fun x => x.ref.chain.isl == isl && (x.core.map t.inSpan).getD false) isl team false) isl team) isl team) :=
    ((((stopTeam_ebbs ..).trans (flushOuts_ebbs ..)).trans (dropEndless_ebbs ..)).trans (releaseChains_ebbs ..)).trans
      (forgetMembers_ebbs ..)
  exact ⟨⟨h.winds.lasting, h.winds.recs⟩, h.task, h.par, h.members, h.threads, h.acc, h.spads⟩

theorem removeTeam_retask (s : State) (isl team : Nat) (x : TaskSt) :
    ({ removeTeam s isl team with task := x } : State) = { s with task := x } := by
  unfold removeTeam
  split
  · rfl
  · split <;> rfl

theorem renameTeam_ebbs (s : State) (isl a b : Nat) : Ebbs s { renameTeam s isl a b with task := s.task } :=
  ⟨renameTeam_winds s isl a b |> fun h => ⟨h.lasting, h.recs⟩, rfl, rfl, fun _ h => h, fun _ h => h, rfl, fun h => ⟨h, rfl⟩⟩

theorem strikeTeam_ebbs (s : State) (isl team : Nat) : Ebbs s { strikeTeam s isl team with task := s.task } := by
  unfold strikeTeam
  dsimp only
  split
  · have h := (renameTeam_ebbs (removeTeam s isl team) isl team (leftId (removeTeam s isl team) isl team)).retask s.task
    rw [removeTeam_retask] at h
    exact h
  · rw [removeTeam_retask]
    exact .rfl' s

/-! ### The teams that an end leaves -/

theorem Tbl.get?_rename {κ α : Type} [DecidableEq κ] (t : Tbl κ α) {a b x : κ} (hb : b ≠ x) :
    Tbl.get? (t.map fun e => if e.1 = a then (b, e.2) else e) x = if a = x then none else t.get? x := by
  induction t with
  | nil => simp [Tbl.get?]
  | cons e t ih =>
    obtain ⟨k, v⟩ := e
    by_cases hk : k = a
    · subst hk
      by_cases hx : k = x
      · subst hx
        simpa [Tbl.get?, hb] using ih
      · simp [Tbl.get?, hb, hx, ih]
    · by_cases hx : k = x
      · subst hx
        simp [Tbl.get?, hk, Ne.symm hk]
      · simp [Tbl.get?, hk, hx, ih]

theorem lt_leftId (s : State) (isl team : Nat) : team < leftId s isl team ∧ 4096 ≤ leftId s isl team := by
  unfold leftId
  have h : team ≤ s.task.teams.foldl (fun n e => if e.1.1 = isl ∧ e.1.2 % 4096 = team % 4096 then max n e.1.2 else n) team :=
    List.foldlRecOn _ _ (Nat.le_refl team) fun n hn e _ => by
      split
      · exact Nat.le_trans hn (Nat.le_max_left ..)
      · exact hn
  omega

theorem removeTeam_team?_ne (s : State) {isl team i k : Nat} (h : (isl, team) ≠ (i, k)) :
    (removeTeam s isl team).team? i k = s.team? i k := by
  unfold removeTeam
  split
  · rfl
  · split
    · exact Tbl.get?_erase_ne _ _ _ h
    · rfl

theorem strikeTeam_team?_self (s : State) (isl team : Nat) : (strikeTeam s isl team).team? isl team = none := by
  have hlt := lt_leftId (removeTeam s isl team) isl team
  unfold strikeTeam
  dsimp only
  split
  · exact (Tbl.get?_rename _ (by simp; omega)).trans (if_pos rfl)
  · next h => simpa using h

theorem strikeTeam_team?_ne (s : State) {isl team i k : Nat} (h : (isl, team) ≠ (i, k)) (hk : k < 4096) :
    (strikeTeam s isl team).team? i k = s.team? i k := by
  have hlt := lt_leftId (removeTeam s isl team) isl team
  unfold strikeTeam
  dsimp only
  split
  · refine ((Tbl.get?_rename _ (by simp; omega)).trans (if_neg h)).trans (removeTeam_team?_ne s h)
  · exact removeTeam_team?_ne s h

/-- R144, R147: the number of a team whose end is complete is free. -/
theorem retireTeam_team?_self (s : State) (isl team : Nat) (t : Team) : (retireTeam s isl team t).team? isl team = none := by
  rw [retireTeam_eq]
  exact strikeTeam_team?_self ..

theorem retireTeam_team?_ne (s : State) {isl team i k : Nat} (t : Team) (h : (isl, team) ≠ (i, k)) (hk : k < 4096) :
    (retireTeam s isl team t).team? i k = s.team? i k := by
  rw [retireTeam_eq, strikeTeam_team?_ne _ h hk, (releaseAm_ebbs ..).team?, (markOverrun_ebbs ..).team?,
    team?_setTeam_ne _ _ _ _ _ _ h, (clearTeam_ebbs ..).team?]

/-- The tasks but for the teams. -/
def TaskSt.teamless (x : TaskSt) : TaskSt := { x with teams := [] }

theorem strikeTeam_teamless (s : State) (isl team : Nat) : (strikeTeam s isl team).task.teamless = s.task.teamless := by
  have h : (removeTeam s isl team).task.teamless = s.task.teamless := by
    unfold removeTeam
    split
    · rfl
    · split <;> rfl
  unfold strikeTeam
  dsimp only
  split
  · exact h
  · exact h

theorem retireTeam_teamless (s : State) (isl team : Nat) (t : Team) :
    (retireTeam s isl team t).task.teamless = s.task.teamless := by
  rw [retireTeam_eq, strikeTeam_teamless, (releaseAm_ebbs ..).task, (markOverrun_ebbs ..).task]
  exact (congrArg TaskSt.teamless (clearTeam_ebbs s isl team t).task :)

/-- R147: nothing of a team is left: its number is free, and it has no member and no thread. -/
def Released (s : State) (isl team : Nat) : Prop :=
  s.team? isl team = none ∧ ∀ m, m.isl = isl → m.team = team → s.member? m = none ∧ ∀ k, s.thread? ⟨m, k⟩ = none

theorem forgetMembers_none (s : State) {isl team : Nat} {m : Member} (hisl : m.isl = isl) (hteam : m.team = team) :
    (forgetMembers s isl team).member? m = none ∧ ∀ k, (forgetMembers s isl team).thread? ⟨m, k⟩ = none :=
  have hmine : (m.isl == isl && m.team == team) = true := by simp [hisl, hteam]
  ⟨Tbl.get?_drop_of (p := fun m : Member => m.isl == isl && m.team == team) hmine,
    fun _ => Tbl.get?_drop_of (p := fun t : Thread => t.m.isl == isl && t.m.team == team) hmine⟩

theorem retireTeam_released (s : State) (isl team : Nat) (t : Team) : Released (retireTeam s isl team t) isl team := by
  refine ⟨retireTeam_team?_self .., fun m hisl hteam => ?_⟩
  rw [retireTeam_eq]
  obtain ⟨hmember, hthread⟩ : (clearTeam s isl team t).member? m = none ∧ ∀ k, (clearTeam s isl team t).thread? ⟨m, k⟩ = none :=
    forgetMembers_none _ hisl hteam
  generalize clearTeam s isl team t = u at hmember hthread ⊢
  generalize hv : u.setTeam isl team _ = v
  obtain ⟨hvm, hvt⟩ : v.member? m = none ∧ ∀ k, v.thread? ⟨m, k⟩ = none := by
    subst hv
    exact ⟨hmember, hthread⟩
  have hend := ((markOverrun_ebbs v t).trans (releaseAm_ebbs _ isl team t))
  have hstrike := strikeTeam_ebbs (releaseAm (markOverrun v t) isl team t) isl team
  exact ⟨(hstrike.member?_none (hend.member?_none hvm) :), fun k => (hstrike.thread?_none (hend.thread?_none (hvt k)) :)⟩

/-! ### The bytes that an end leaves -/

/-- No write of a copy engine is on its way, and no chain of an island is a team's. -/
def Detached (s : State) (isl team : Nat) : Prop :=
  s.eng.outs = [] ∧ ∀ x ∈ s.eng.chains, x.1.isl = isl → x.2.team ≠ team

theorem stopTeam_kept (s : State) (isl team : Nat) : (stopTeam s isl team).mem = s.mem ∧
    (stopTeam s isl team).eng.outs = s.eng.outs ∧ (stopTeam s isl team).eng.chains = s.eng.chains := by
  unfold stopTeam freeFaults
  dsimp only
  split
  · split <;> exact ⟨rfl, rfl, rfl⟩
  · exact ⟨rfl, rfl, rfl⟩

theorem releaseChains_none {s : State} {isl team : Nat} (h : ∀ x ∈ s.eng.chains, x.1.isl = isl → x.2.team ≠ team) :
    releaseChains s isl team = s := by
  unfold releaseChains
  rw [List.filter_eq_nil_iff.2 fun c hc hcond => ?_]
  · rfl
  · simp only [Bool.and_eq_true, beq_iff_eq] at hcond
    exact h c hc hcond.1.1 hcond.1.2

theorem clearTeam_data {s : State} {isl team : Nat} (t : Team) (h : Detached s isl team) :
    (clearTeam s isl team t).mem.data = s.mem.data := by
  obtain ⟨hmem, houts, hchains⟩ := stopTeam_kept s isl team
  unfold clearTeam
  dsimp only
  rw [flushOuts_none (houts.trans h.1), releaseChains_none]
  · show (stopTeam s isl team).mem.data = _
    rw [hmem]
  · show ∀ x ∈ (stopTeam s isl team).eng.chains, _
    rw [hchains]
    exact h.2

theorem releaseAm_data (s : State) (isl team : Nat) (t : Team) : (releaseAm s isl team t).mem.data = s.mem.data := by
  refine foldl_keeps _ (fun u : State => u.mem.data) (fun s i => ?_) _ _
  unfold releaseBanks
  split <;> rfl

theorem markOverrun_mem (s : State) (t : Team) : (markOverrun s t).mem = s.mem := by
  unfold markOverrun
  split
  · dsimp only
    split <;> rfl
  · rfl

theorem strikeTeam_data (s : State) (isl team : Nat) : (strikeTeam s isl team).mem.data = s.mem.data := by
  have h : (removeTeam s isl team).mem = s.mem := (congrArg State.mem (removeTeam_retask s isl team s.task) :)
  unfold strikeTeam
  dsimp only
  rw [← h]
  split <;> rfl

/-- R147: the end of a team with no copy and no chain of its own changes no byte. -/
theorem retireTeam_byte {s : State} {isl team : Nat} (t : Team) (h : Detached s isl team) (i a : Nat) :
    (retireTeam s isl team t).mem.byte i a = s.mem.byte i a := by
  refine MemSt.byte_data ?_ i a
  rw [retireTeam_eq, strikeTeam_data, releaseAm_data, markOverrun_mem]
  exact clearTeam_data t h

theorem detached_of_unwritten {s t : State} (h : t.unwritten = s.unwritten) {isl team : Nat} (hs : Detached s isl team) :
    Detached t isl team := by
  have heng : t.eng = s.eng := (congrArg (fun x => x.1.eng) h :)
  unfold Detached
  rw [heng]
  exact hs

end Sys2Proof.Machine
end

section
/-! R140 to R144: the placement of a team, and the record that ends before it is placed. -/

namespace Sys2Proof.Machine

open Sys2Proof

/-! ### TEAM_PLACEMENT -/

section
variable {s s' : State} {isl part : Nat}

theorem teamPlacement_occurs {turn : Nat × Nat} (hocc : s.occ = .place isl part) (hturn : dispatchTurn s isl part = some turn)
    (h : dispatch s isl part = some s') :
    Occurs .teamPlacement s { s' with task := { s'.task with turn := s'.task.turn.set isl turn } } := by
  unfold Occurs
  rw [exec_teamPlacement, execTeamPlacement, hocc]
  simp only [hturn, h]

theorem teamPlacement_refused (hocc : s.occ = .place isl part)
    (h : dispatchTurn s isl part = none ∨ dispatch s isl part = none) :
    exec .teamPlacement s = .refused (.notEnabled "TEAM_PLACEMENT") := by
  rw [exec_teamPlacement, execTeamPlacement, hocc]
  dsimp only
  split
  · next hturn hdisp => simp_all
  · rfl

/-- R141: the first candidate that can be placed is. -/
theorem dispatch_first {c : Cand} {cs : List Cand} (hfence : s.fab.fenced.get? isl = none)
    (hslices : dispatches s isl part = true) (hplace : placeable s isl part = c :: cs) (hc : tryCand s c = some s') :
    dispatch s isl part = some s' := by
  unfold dispatch
  rw [if_neg (by simp [hfence, hslices]), hplace]
  simp only [hc]

end

/-! ### What a start of members leaves -/

theorem startMember_task (s : State) (m : Member) (r : MemberRec) (frame : W64) (th : Option ThreadRec) :
    (startMember s m r frame th).task = s.task := by
  unfold startMember
  cases th <;> rfl

theorem startMember_thread?_self (s : State) (m : Member) (r : MemberRec) (frame : W64) (th : ThreadRec) :
    (startMember s m r frame (some th)).thread? ⟨m, 0⟩ = some th := by
  unfold startMember
  exact thread?_setThread_self ..

/-- R157: the start of a member leaves the threads of the others. -/
theorem startMember_thread?_ne (s : State) {m n : Member} (r : MemberRec) (frame : W64) (th : Option ThreadRec) (k : Nat)
    (h : n ≠ m) : (startMember s m r frame th).thread? ⟨n, k⟩ = s.thread? ⟨n, k⟩ := by
  have hfilter : Tbl.get? (s.core.threads.filter fun e => e.1.m ≠ m) ⟨n, k⟩ = s.thread? ⟨n, k⟩ := by
    have hdrop : (s.core.threads.filter fun e => e.1.m ≠ m) = Tbl.drop s.core.threads fun t => decide (t.m = m) := by
      unfold Tbl.drop
      exact List.filter_congr fun e _ => by simp
    rw [hdrop, Tbl.get?_drop, if_neg (by simpa using h)]
    rfl
  unfold startMember
  cases th with
  | none => exact hfilter
  | some t => exact (thread?_setThread_ne _ _ _ _ fun hth => h (congrArg Thread.m hth)).trans hfilter

theorem startMembers_task (s : State) (isl team : Nat) (t : Team) : (startMembers s isl team t).task = s.task := by
  unfold startMembers
  refine (foldl_keeps _ State.task (fun s k => ?_) _ _).trans (foldl_keeps _ State.task (fun s i => ?_) _ _)
  · split
    · exact startMember_task ..
    · rfl
  · dsimp only
    split
    · rfl
    · exact startMember_task ..

/-- R144, R170: every gaffer context of a team stands before its first clause. -/
theorem startMembers_gaffer (s : State) (isl team : Nat) {t : Team} {i pc : Nat} (hi : i < t.n) (hpc : t.hdr.gentry = some pc) :
    (startMembers s isl team t).thread? ⟨⟨isl, team, true, i⟩, 0⟩ = some (freshThread pc 1) := by
  unfold startMembers
  simp only [hpc]
  refine (foldl_keeps _ (fun u : State => u.thread? ⟨⟨isl, team, true, i⟩, 0⟩) (fun s k => ?_) _ _).trans ?_
  · split
    · exact startMember_thread?_ne _ _ _ _ _ (by simp)
    · rfl
  · have hstart (u : State) (x : Nat) : (startGaffer (freshDq u ⟨isl, team, true, x⟩ []) isl team t x pc).thread?
        ⟨⟨isl, team, true, i⟩, 0⟩ =
        if x = i then some (freshThread pc 1) else u.thread? ⟨⟨isl, team, true, i⟩, 0⟩ := by
      unfold startGaffer
      split
      · next h =>
        subst h
        exact startMember_thread?_self ..
      · next h => exact startMember_thread?_ne _ _ _ _ _ (by simpa using Ne.symm h)
    refine foldl_attains (Inv := fun _ => True) (Goal := fun u : State => u.thread? ⟨⟨isl, team, true, i⟩, 0⟩ = some (freshThread pc 1))
      _ (fun _ _ _ => trivial) (fun u _ => ?_) (fun u x hu => ?_) (List.mem_range.2 hi) trivial
    · exact (hstart u i).trans (if_pos rfl)
    · exact (hstart u x).trans (by rw [hu, ite_self])

/-! ### A team that is placed -/

theorem task_of_unwritten {s t : State} (h : t.unwritten = s.unwritten) : t.task = s.task :=
  (congrArg (fun x => x.1.task) h :)

theorem writePlaced_unwritten (s : State) (isl part team eprio : Nat) (t : TaskRec) :
    (writePlaced s isl part team eprio t).unwritten = s.unwritten := by
  unfold writePlaced
  dsimp only
  rw [writeField_unwritten, writeField_unwritten, writeField_unwritten]

theorem reportCosts_task (s : State) (isl part team : Nat) (es : List SafePt) :
    (reportCosts s isl part team es).task = s.task := by
  unfold reportCosts
  split <;> rfl

theorem acquireSpan_task (s : State) (isl c0 n : Nat) : (acquireSpan s isl c0 n).task = s.task := by
  refine foldl_keeps _ State.task (fun s i => ?_) _ _
  rfl

/-- R144: what a placement leaves of the tasks: a new team. -/
theorem placeTeam_task (s : State) (isl part team eprio : Nat) (t : TaskRec) (k : Kernel) (c0 : Nat) (o : List (Nat × Nat)) :
    (placeTeam s isl part team eprio t k c0 o).task =
      (s.setTeam isl team (newTeam s isl part t k c0 o)).task := by
  have htask (u : State) : (acquireSpan (clearUr u isl team) isl c0 k.hdr.cores).task = u.task := acquireSpan_task ..
  unfold placeTeam
  dsimp only
  rw [startMembers_task]
  unfold State.setTeam
  dsimp only [newTeam]
  rw [htask, reportCosts_task, task_of_unwritten (writePlaced_unwritten ..)]

theorem placeTeam_gaffer (s : State) (isl part team eprio : Nat) (t : TaskRec) {k : Kernel} (c0 : Nat) (o : List (Nat × Nat))
    {i pc : Nat} (hi : i < k.hdr.cores) (hpc : k.hdr.gentry = some pc) :
    (placeTeam s isl part team eprio t k c0 o).thread? ⟨⟨isl, team, true, i⟩, 0⟩ = some (freshThread pc 1) :=
  startMembers_gaffer _ isl team (t := newTeam s isl part t k c0 o) hi hpc

section
variable {s : State} {q : QEntry}

/-- R142 to R144: a record whose kernel can be read, with a span and a number free, is placed. -/
theorem tryReady_places {k : Kernel} {c0 team : Nat} {o : List (Nat × Nat)} (hmark : q.mark ∉ s.mem.poison)
    (hk : readKernel s q.isl q.part q.task = .ok k)
    (hspan : findSpan s q.isl q.part k.hdr (initialOn k.hdr) (fun _ => true) = some (c0, o))
    (hteam : freeTeamId s q.isl = some team) :
    tryReady s q = some (placeTeam (unqueue s q) q.isl q.part team (Cand.prio (.ready q) s) q.task k c0 o) := by
  unfold tryReady
  rw [if_neg (by simpa using hmark), hk]
  simp only [hspan, hteam]

/-- R143: a record whose kernel cannot be read ends before it is placed. -/
theorem tryReady_fails {e : HeadErr} (hmark : q.mark ∉ s.mem.poison) (hk : readKernel s q.isl q.part q.task = .error e) :
    tryReady s q = some (closeRecord (noteHead (unqueue s q) q.isl q.part e) q.isl q.part none q.task e.1 0) := by
  unfold tryReady
  rw [if_neg (by simpa using hmark), hk]

end

theorem noteHead_unwritten (s : State) (isl part : Nat) (e : HeadErr) : (noteHead s isl part e).unwritten = s.unwritten := by
  unfold noteHead
  split
  · exact noteWalk_unwritten ..
  · rfl

/-- R147: a record that no LAUNCH made is closed by its three fields. -/
theorem closeRecord_plain (s : State) (isl part : Nat) (team : Option Nat) {t : TaskRec} (status fail : Nat) (h : t.origin ≠ 1) :
    closeRecord s isl part team t status fail =
      writeField (writeField (writeField s isl part t.addr 224 213 (team.getD 0xFFF)) isl part t.addr 212 205 status)
        isl part t.addr 63 56 4 := by
  unfold closeRecord
  dsimp only
  rw [if_pos h]

theorem closeRecord_unwritten (s : State) (isl part : Nat) (team : Option Nat) {t : TaskRec} (status fail : Nat)
    (h : t.origin ≠ 1) : (closeRecord s isl part team t status fail).unwritten = s.unwritten := by
  rw [closeRecord_plain s isl part team status fail h, writeField_unwritten, writeField_unwritten, writeField_unwritten]

section
variable {s : State} {isl part : Nat} {turn : Nat × Nat} {q : QEntry} {cs : List Cand}

/-- R144: the first candidate becomes a team. -/
theorem teamPlacement_places {k : Kernel} {c0 team : Nat} {o : List (Nat × Nat)} (hocc : s.occ = .place isl part)
    (hturn : dispatchTurn s isl part = some turn) (hfence : s.fab.fenced.get? isl = none)
    (hslices : dispatches s isl part = true) (hplace : placeable s isl part = .ready q :: cs) (hisl : q.isl = isl)
    (hpart : q.part = part) (hmark : q.mark ∉ s.mem.poison) (hk : readKernel s isl part q.task = .ok k)
    (hspan : findSpan s isl part k.hdr (initialOn k.hdr) (fun _ => true) = some (c0, o))
    (hteam : freeTeamId s isl = some team) : Gives (exec .teamPlacement s) fun t =>
      t.team? isl team = some (newTeam (unqueue s q) isl part q.task k c0 o) ∧
      t.task.queue = s.task.queue.filter (·.order ≠ q.order) ∧ t.task.turn.get? isl = some turn ∧
      ∀ i pc, i < k.hdr.cores → k.hdr.gentry = some pc →
        t.thread? ⟨⟨isl, team, true, i⟩, 0⟩ = some (freshThread pc 1) := by
  subst hisl hpart
  have htry := tryReady_places hmark hk hspan hteam
  have htask := placeTeam_task (unqueue s q) q.isl q.part team (Cand.prio (.ready q) s) q.task k c0 o
  refine (teamPlacement_occurs hocc hturn (dispatch_first hfence hslices hplace htry)).gives ⟨?_, ?_, ?_, fun i pc hi hpc => ?_⟩
  · refine (congrArg (fun x : TaskSt => x.teams.get? (q.isl, team)) htask).trans ?_
    exact Tbl.get?_set_self ..
  · exact (congrArg TaskSt.queue htask :)
  · exact Tbl.get?_set_self ..
  · exact placeTeam_gaffer _ _ _ _ _ _ _ _ hi hpc

/-- R143: the first candidate ends before it is placed. -/
theorem teamPlacement_fails {e : HeadErr} (hocc : s.occ = .place isl part)
    (hturn : dispatchTurn s isl part = some turn) (hfence : s.fab.fenced.get? isl = none)
    (hslices : dispatches s isl part = true) (hplace : placeable s isl part = .ready q :: cs) (hisl : q.isl = isl)
    (hpart : q.part = part) (hmark : q.mark ∉ s.mem.poison) (hk : readKernel s isl part q.task = .error e)
    (horigin : q.task.origin ≠ 1) : Gives (exec .teamPlacement s) fun t =>
      t.task.teams = s.task.teams ∧ t.task.queue = s.task.queue.filter (·.order ≠ q.order) ∧
      t.mem = (writeField (writeField (writeField (noteHead (unqueue s q) isl part e) isl part q.task.addr 224 213 0xFFF)
        isl part q.task.addr 212 205 e.1) isl part q.task.addr 63 56 4).mem := by
  subst hisl hpart
  have htry := tryReady_fails hmark hk
  have htask := task_of_unwritten
    ((closeRecord_unwritten (noteHead (unqueue s q) q.isl q.part e) q.isl q.part none e.1 0 horigin).trans
      (noteHead_unwritten ..))
  refine (teamPlacement_occurs hocc hturn (dispatch_first hfence hslices hplace htry)).gives ⟨?_, ?_, ?_⟩
  · exact (congrArg TaskSt.teams htask :)
  · exact (congrArg TaskSt.queue htask :)
  · exact (congrArg State.mem (closeRecord_plain _ q.isl q.part none e.1 0 horigin) :)

end

end Sys2Proof.Machine
end

section
/-! R114, R116, R147: the end of a team, step by step. -/

namespace Sys2Proof.Machine

open Sys2Proof

/-! ### TEAM_END -/

section
variable {s u : State} {isl team : Nat} {t : Team}

theorem teamEnd_occurs (hocc : s.occ = .team isl team) (h : endStep s isl team = some u) : Occurs .teamEnd s u := by
  unfold Occurs
  rw [exec_teamEnd, execTeamEnd, hocc]
  simp only [h]

theorem teamEnd_refused (hocc : s.occ = .team isl team) (h : endStep s isl team = none) :
    exec .teamEnd s = .refused (.notEnabled "TEAM_END") := by
  rw [exec_teamEnd, execTeamEnd, hocc]
  simp only [h]

/-- R114, R116: a team that is not ending goes on only where it is discarded. -/
theorem endStep_running (ht : s.team? isl team = some t) (hgone : t.gone = false) (hending : t.ending = none) :
    endStep s isl team = if discardDone s isl team t then some (giveBack (closePsw s isl 0 t) isl team t) else none := by
  unfold endStep
  rw [ht]
  simp only [hgone, hending, Bool.false_eq_true, if_false]

theorem endStep_ending {st lc : Nat} (ht : s.team? isl team = some t) (hgone : t.gone = false)
    (hending : t.ending = some (st, lc)) (hnone : s.task.ends.find? (fun e => e.isl = isl ∧ e.team = team) = none) :
    endStep s isl team = if st = 0 ∧ memoryOpen (dropEndless s isl team true) isl team = true then none
      else some (beginEnd s isl team t st lc) := by
  unfold endStep
  rw [ht]
  simp only [hgone, hending, Bool.false_eq_true, if_false]
  rw [hnone]

theorem endStep_going {e : EndRec} (ht : s.team? isl team = some t) (hgone : t.gone = false) (hending : t.ending ≠ none)
    (he : s.task.ends.find? (fun e => e.isl = isl ∧ e.team = team) = some e) : endStep s isl team = endGoesOn s t e := by
  obtain ⟨x, hx⟩ := Option.ne_none_iff_exists'.1 hending
  unfold endStep
  rw [ht]
  simp only [hgone, hx, Bool.false_eq_true, if_false]
  rw [he]

end

/-! ### The beginning of an end -/

/-- R147: an end that sends no completion decrement. -/
theorem beginEnd_silent (s : State) (isl team : Nat) {t : Team} {st : Nat} (lc : Nat)
    (h : st ≠ 0 ∨ (t.task.ja0 = 0 ∧ t.task.ja1 = 0)) : beginEnd s isl team t st lc =
      { dropEndless s isl team (st == 0) with
        task := { s.task with ends := s.task.ends ++ [⟨isl, team, t.part, t.task, st, lc, [], [], none⟩] } } := by
  unfold beginEnd
  by_cases hst : st = 0
  · obtain ⟨h0, h1⟩ := h.resolve_left (not_not_intro hst)
    simp only [if_pos hst, h0, h1, List.foldl_cons, List.foldl_nil, sendTarget]
    rfl
  · simp only [if_neg hst]
    rfl

section
variable {s : State} {isl team : Nat} {t : Team}

/-- R114, R147: an end begins with its record. -/
theorem teamEnd_begins {st lc : Nat} (hocc : s.occ = .team isl team) (ht : s.team? isl team = some t) (hgone : t.gone = false)
    (hending : t.ending = some (st, lc)) (hnone : s.task.ends.find? (fun e => e.isl = isl ∧ e.team = team) = none)
    (h : st ≠ 0 ∨ (memoryOpen (dropEndless s isl team true) isl team = false ∧ t.task.ja0 = 0 ∧ t.task.ja1 = 0)) :
    Gives (exec .teamEnd s) fun u =>
      u.task.ends = s.task.ends ++ [⟨isl, team, t.part, t.task, st, lc, [], [], none⟩] ∧ u.team? isl team = some t ∧
      u.mem = s.mem ∧ u.fab = s.fab := by
  have hstep : endStep s isl team = some (beginEnd s isl team t st lc) := by
    rw [endStep_ending ht hgone hending hnone, if_neg]
    rintro ⟨hst, hopen⟩
    rcases h with hne | ⟨hclosed, -⟩
    · exact hne hst
    · simp [hclosed] at hopen
  rw [beginEnd_silent s isl team lc (h.imp_right And.right)] at hstep
  exact (teamEnd_occurs hocc hstep).gives ⟨rfl, ht, rfl, rfl⟩

/-- R147: a normal end waits for the memory operations of its team. -/
theorem teamEnd_open {st lc : Nat} (hocc : s.occ = .team isl team) (ht : s.team? isl team = some t) (hgone : t.gone = false)
    (hending : t.ending = some (st, lc)) (hnone : s.task.ends.find? (fun e => e.isl = isl ∧ e.team = team) = none)
    (hst : st = 0) (hopen : memoryOpen (dropEndless s isl team true) isl team = true) :
    exec .teamEnd s = .refused (.notEnabled "TEAM_END") :=
  teamEnd_refused hocc (by rw [endStep_ending ht hgone hending hnone, if_pos ⟨hst, hopen⟩])

end

/-! ### The close of a record -/

/-- R136, R147: TEAM, ENDST and STATE as the end of a team writes them. -/
def closeFields (s : State) (isl part addr team status : Nat) : State :=
  writeField (writeField (writeField s isl part addr 224 213 team) isl part addr 212 205 status) isl part addr 63 56 4

theorem closeFields_unwritten (s : State) (isl part addr team status : Nat) :
    (closeFields s isl part addr team status).unwritten = s.unwritten := by
  unfold closeFields
  rw [writeField_unwritten, writeField_unwritten, writeField_unwritten]

/-- R118, R147: the status word and the record of a team whose end closes. -/
def closedEnd (s : State) (t : Team) (e : EndRec) : State :=
  closeFields (closePsw s e.isl e.lcause t) e.isl t.part t.task.addr e.team e.status

theorem closedEnd_unwritten (s : State) (t : Team) (e : EndRec) : (closedEnd s t e).unwritten = s.unwritten := by
  unfold closedEnd
  rw [closeFields_unwritten, closePsw_unwritten]

theorem closeEnd_plain (s : State) {t : Team} (e : EndRec) (h : t.task.origin ≠ 1) : closeEnd s t e = closedEnd s t e :=
  closeRecord_plain _ e.isl t.part (some e.team) e.status e.fail h

theorem closeEnd_launch (s : State) {t : Team} (e : EndRec) (h : t.task.origin = 1) : closeEnd s t e =
    endLaunch (closedEnd s t e) t.part t.task
      (if e.status = 0 then (0x00, e.fail, openField (closePsw s e.isl e.lcause t) 1 32)
        else (0x03, openField (closePsw s e.isl e.lcause t) 0 24, e.status)) := by
  unfold closeEnd closeRecord
  dsimp only
  rw [if_neg (not_not_intro h)]
  rfl

theorem mem_endLaunch {s : State} {part : Nat} {t : TaskRec} {c : CmdRec} (res : Nat × Nat × Nat) (hc : c ∈ s.hub.cmds)
    (hnames : namesLaunch s part t c = true) : { c with res := some res } ∈ (endLaunch s part t res).hub.cmds :=
  List.mem_map.2 ⟨c, hc, if_pos hnames⟩

theorem namesLaunch_of_unwritten {s u : State} (h : u.unwritten = s.unwritten) (part : Nat) (t : TaskRec) (c : CmdRec) :
    namesLaunch u part t c = namesLaunch s part t c := by
  have hchains : u.hub.chains = s.hub.chains := (congrArg (fun x => x.1.hub.chains) h :)
  unfold namesLaunch
  rw [hchains]

theorem cmds_of_unwritten {s u : State} (h : u.unwritten = s.unwritten) : u.hub.cmds = s.hub.cmds :=
  (congrArg (fun x => x.1.hub.cmds) h :)

/-! ### The end in progress -/

/-- An end record that a team's end finds is the team's own. -/
theorem ends_find {l : List EndRec} {isl team : Nat} {e : EndRec} (h : l.find? (fun e => e.isl = isl ∧ e.team = team) = some e) :
    e ∈ l ∧ e.isl = isl ∧ e.team = team :=
  ⟨List.mem_of_find?_eq_some h, by simpa using List.find?_some h⟩

/-- R147: once its end is complete, nothing of a team is left, its end record among it. -/
theorem retireEnd_leaves (s : State) (t : Team) (e : EndRec) : Released (retireEnd s t e) e.isl e.team ∧
    (∀ x ∈ (retireEnd s t e).task.ends, ¬ (x.isl = e.isl ∧ x.team = e.team)) ∧
    (Detached s e.isl e.team → ∀ i a, (retireEnd s t e).mem.byte i a = s.mem.byte i a) := by
  have hends : (retireEnd s t e).task.ends = s.task.ends.filter fun x => !(x.isl == e.isl && x.team == e.team) :=
    (congrArg TaskSt.ends (retireTeam_teamless _ e.isl e.team t) :)
  refine ⟨retireTeam_released .., fun x hx => ?_, fun h i a => ?_⟩
  · rw [hends] at hx
    simpa [-not_and, not_and_or] using (List.mem_filter.1 hx).2
  · exact (retireTeam_byte t (s := { s with task := { s.task with ends := s.task.ends.filter fun x =>
      !(x.isl == e.isl && x.team == e.team) } }) h i a :)

section
variable {s : State} {isl team : Nat} {t : Team} {e : EndRec}

theorem endGoesOn_waits (hcmd : e.cmd = none) (h : e.waiting ≠ []) : endGoesOn s t e = none := by
  unfold endGoesOn
  rw [hcmd]
  exact if_neg h

theorem endGoesOn_finishes (hcmd : e.cmd = none) (h : e.waiting = []) : endGoesOn s t e = some (finishEnd s t e) := by
  unfold endGoesOn
  rw [hcmd]
  exact if_pos h

theorem endGoesOn_launch {x : CmdRef} (hcmd : e.cmd = some x) :
    endGoesOn s t e = if s.hub.cmds.any (·.ref == x) then none else some (retireEnd s t e) := by
  unfold endGoesOn
  rw [hcmd]

theorem finishEnd_plain (h : t.task.origin ≠ 1) : finishEnd s t e = retireEnd (closedEnd s t e) t e := by
  unfold finishEnd
  dsimp only
  rw [if_neg h, closeEnd_plain s e h]

theorem finishEnd_launch {c : CmdRec} (h : t.task.origin = 1) (hc : s.hub.cmds.find? (namesLaunch s t.part t.task) = some c) :
    finishEnd s t e = { closeEnd s t e with task := { (closeEnd s t e).task with
      ends := (closeEnd s t e).task.ends.map fun x =>
        if x.isl = e.isl ∧ x.team = e.team then { x with cmd := some c.ref } else x } } := by
  unfold finishEnd
  dsimp only
  rw [if_pos h, hc]

/-- R147, step 4: the end of a team that no LAUNCH made is complete with its record. -/
theorem teamEnd_finishes (hocc : s.occ = .team isl team) (ht : s.team? isl team = some t) (hgone : t.gone = false)
    (hending : t.ending ≠ none) (he : s.task.ends.find? (fun e => e.isl = isl ∧ e.team = team) = some e)
    (hcmd : e.cmd = none) (hwait : e.waiting = []) (horigin : t.task.origin ≠ 1) : Gives (exec .teamEnd s) fun u =>
      Released u isl team ∧ (∀ x ∈ u.task.ends, ¬ (x.isl = isl ∧ x.team = team)) ∧
      (Detached s isl team → ∀ i a, u.mem.byte i a =
        (closeFields (closePsw s isl e.lcause t) isl t.part t.task.addr team e.status).mem.byte i a) := by
  obtain ⟨-, rfl, rfl⟩ := ends_find he
  have hstep : endStep s e.isl e.team = some (retireEnd (closedEnd s t e) t e) := by
    rw [endStep_going ht hgone hending he, endGoesOn_finishes hcmd hwait, finishEnd_plain horigin]
  obtain ⟨hrel, hends, hbytes⟩ := retireEnd_leaves (closedEnd s t e) t e
  exact (teamEnd_occurs hocc hstep).gives
    ⟨hrel, hends, fun h => hbytes (detached_of_unwritten (closedEnd_unwritten s t e) h)⟩

/-- R69, R147, step 4: the end of a team that a LAUNCH made waits for its record, which completes with the end's status. -/
theorem teamEnd_launch {c : CmdRec} (hocc : s.occ = .team isl team) (ht : s.team? isl team = some t) (hgone : t.gone = false)
    (hending : t.ending ≠ none) (he : s.task.ends.find? (fun e => e.isl = isl ∧ e.team = team) = some e)
    (hcmd : e.cmd = none) (hwait : e.waiting = []) (horigin : t.task.origin = 1)
    (hc : s.hub.cmds.find? (namesLaunch s t.part t.task) = some c) : Gives (exec .teamEnd s) fun u =>
      u.team? isl team = some t ∧ (∃ x ∈ u.task.ends, x.isl = isl ∧ x.team = team ∧ x.cmd = some c.ref) ∧
      (∃ x ∈ u.hub.cmds, x.ref = c.ref ∧ (e.status = 0 → ∃ i, x.res = some (0x00, e.fail, i)) ∧
        (e.status ≠ 0 → ∃ d, x.res = some (0x03, d, e.status))) ∧
      u.mem = (closeFields (closePsw s isl e.lcause t) isl t.part t.task.addr team e.status).mem := by
  obtain ⟨hmem, rfl, rfl⟩ := ends_find he
  have hclosed := closedEnd_unwritten s t e
  have hlaunch := closeEnd_launch s e horigin
  generalize hres : (if e.status = 0 then (0x00, e.fail, openField (closePsw s e.isl e.lcause t) 1 32)
    else (0x03, openField (closePsw s e.isl e.lcause t) 0 24, e.status)) = res at hlaunch
  have htask : (closeEnd s t e).task = s.task := by
    rw [hlaunch]
    exact (task_of_unwritten hclosed :)
  have hstep : endStep s e.isl e.team = _ :=
    (endStep_going ht hgone hending he).trans ((endGoesOn_finishes hcmd hwait).trans (congrArg some (finishEnd_launch horigin hc)))
  refine (teamEnd_occurs hocc hstep).gives ⟨?_, ?_, ?_, ?_⟩
  · show (closeEnd s t e).task.teams.get? _ = _
    rw [htask]
    exact ht
  · refine ⟨{ e with cmd := some c.ref }, List.mem_map.2 ⟨e, ?_, if_pos ⟨rfl, rfl⟩⟩, rfl, rfl, rfl⟩
    rw [htask]
    exact hmem
  · have hcmds : { c with res := some res } ∈ (closeEnd s t e).hub.cmds := by
      rw [hlaunch]
      refine mem_endLaunch res ?_ ?_
      · rw [cmds_of_unwritten hclosed]
        exact List.mem_of_find?_eq_some hc
      · rw [namesLaunch_of_unwritten hclosed]
        exact List.find?_some hc
    refine ⟨_, hcmds, rfl, fun h => ⟨_, congrArg some (hres.symm.trans (if_pos h))⟩,
      fun h => ⟨_, congrArg some (hres.symm.trans (if_neg h))⟩⟩
  · show (closeEnd s t e).mem = _
    rw [hlaunch]
    rfl

/-- R147, R485: once its LAUNCH record has completed, so has the end. -/
theorem teamEnd_launched {x : CmdRef} (hocc : s.occ = .team isl team) (ht : s.team? isl team = some t) (hgone : t.gone = false)
    (hending : t.ending ≠ none) (he : s.task.ends.find? (fun e => e.isl = isl ∧ e.team = team) = some e)
    (hcmd : e.cmd = some x) :
    ((∃ k ∈ s.hub.cmds, k.ref = x) → exec .teamEnd s = .refused (.notEnabled "TEAM_END")) ∧
    ((∀ k ∈ s.hub.cmds, k.ref ≠ x) → Gives (exec .teamEnd s) fun u => Released u isl team ∧
      (∀ x ∈ u.task.ends, ¬ (x.isl = isl ∧ x.team = team)) ∧
      (Detached s isl team → ∀ i a, u.mem.byte i a = s.mem.byte i a)) := by
  obtain ⟨-, rfl, rfl⟩ := ends_find he
  have hstep := (endStep_going ht hgone hending he).trans (endGoesOn_launch hcmd)
  refine ⟨fun h => teamEnd_refused hocc ?_, fun h => ?_⟩
  · rw [hstep, if_pos (by simpa using h)]
  · rw [if_neg (by simpa using h)] at hstep
    exact (teamEnd_occurs hocc hstep).gives (retireEnd_leaves s t e)

/-- R114, R116: the record of a discarded team goes back to its ready queue. -/
theorem teamEnd_discards (hocc : s.occ = .team isl team) (ht : s.team? isl team = some t) (hgone : t.gone = false)
    (hending : t.ending = none) (hdone : discardDone s isl team t = true) : Gives (exec .teamEnd s) fun u =>
      u.team? isl team = none ∧ (∃ q ∈ u.task.queue, q.isl = isl ∧ q.part = t.part ∧ q.task = t.task) ∧
      u.mem = (writeField (writeField (writeField (retireTeam (closePsw s isl 0 t) isl team t) isl t.part t.task.addr 224 213 0xFFF)
        isl t.part t.task.addr 31 0 0) isl t.part t.task.addr 63 56 2).mem := by
  have hstep := endStep_running ht hgone hending
  rw [if_pos hdone] at hstep
  refine (teamEnd_occurs hocc hstep).gives ⟨?_, ?_, rfl⟩
  · have htask : (writeField (writeField (writeField (retireTeam (closePsw s isl 0 t) isl team t) isl t.part t.task.addr 224 213 0xFFF)
        isl t.part t.task.addr 31 0 0) isl t.part t.task.addr 63 56 2).task = (retireTeam (closePsw s isl 0 t) isl team t).task :=
      task_of_unwritten (by rw [writeField_unwritten, writeField_unwritten, writeField_unwritten])
    exact (congrArg (fun x : TaskSt => x.teams.get? (isl, team)) htask).trans (retireTeam_team?_self ..)
  · exact ⟨_, List.mem_append_right _ (List.mem_singleton_self _), rfl, rfl, rfl⟩

/-- R116: a team that runs on has no end. -/
theorem teamEnd_running (hocc : s.occ = .team isl team) (ht : s.team? isl team = some t) (hgone : t.gone = false)
    (hending : t.ending = none) (hdone : discardDone s isl team t = false) :
    exec .teamEnd s = .refused (.notEnabled "TEAM_END") :=
  teamEnd_refused hocc (by rw [endStep_running ht hgone hending, hdone]; rfl)

/-- R147, step 3: an end waits for its decrements. -/
theorem teamEnd_waits (hocc : s.occ = .team isl team) (ht : s.team? isl team = some t) (hgone : t.gone = false)
    (hending : t.ending ≠ none) (he : s.task.ends.find? (fun e => e.isl = isl ∧ e.team = team) = some e)
    (hcmd : e.cmd = none) (hwait : e.waiting ≠ []) : exec .teamEnd s = .refused (.notEnabled "TEAM_END") :=
  teamEnd_refused hocc ((endStep_going ht hgone hending he).trans (endGoesOn_waits hcmd hwait))

/-! ### Records and status words that land -/

/-- R147: a field of a record takes the bytes that hold it. -/
theorem wrote_writeField {part va hi lo pa : Nat} (v : Nat)
    (h : Lands s isl part (va + lo / 8) (hi / 8 + 1 - lo / 8) .write true pa) :
    Wrote s (writeField s isl part va hi lo v) isl pa (leBytes (hi / 8 + 1 - lo / 8)
      (putField (hi - 8 * (lo / 8)) (lo - 8 * (lo / 8)) v (s.mem.nat isl pa (hi / 8 + 1 - lo / 8)))) := by
  obtain ⟨⟨sl, hok⟩, hpa⟩ := h
  unfold writeField
  dsimp only
  rw [hok]
  exact wrote_bypassBank _ _ _ _ _ (by rwa [length_leBytes])

/-- A number that a device writes and that lands stands at its address. -/
theorem writeVa_word {part va n pa : Nat} (x : Nat) (h : Lands s isl part va n .write true pa) :
    writeVa s isl part va (leBytes n x) = .ok (bypassBank s isl none pa (leBytes n x)) :=
  writeVa_lands (by rwa [length_leBytes])

/-- R118: the status word of a team with a resume map. -/
theorem writePsw_lands {pa : Nat} (psw : Nat) (hmap : t.hasMap = true) (h : Lands s isl t.part t.hdr.resmap 8 .write true pa) :
    writePsw s isl t psw = bypassBank s isl none pa (leBytes 8 psw) := by
  unfold writePsw putVa
  rw [hmap, writeVa_word psw h]
  rfl

theorem wrote_writePsw {pa : Nat} (psw : Nat) (hmap : t.hasMap = true)
    (h : Lands s isl t.part t.hdr.resmap 8 .write true pa) : Wrote s (writePsw s isl t psw) isl pa (leBytes 8 psw) := by
  rw [writePsw_lands psw hmap h]
  exact wrote_bypassBank _ _ _ _ _ (by rw [length_leBytes]; exact h.2)

theorem wrote_closePsw {p : Preempt} {pa : Nat} (lc : Nat) (hp : t.preempt = some p) (hmap : t.hasMap = true)
    (h : Lands s isl t.part t.hdr.resmap 8 .write true pa) :
    Wrote s (closePsw s isl lc t) isl pa (leBytes 8 (pswOf s isl lc t p)) := by
  unfold closePsw
  rw [hp]
  exact wrote_writePsw _ hmap h

end

end Sys2Proof.Machine
end

section
/-! R125 to R128: a team that is saved, and one whose restore is done. -/

namespace Sys2Proof.Machine

open Sys2Proof

/-! ### A team that is stopped -/

/-- R114: a team that stops keeps no split and no context. -/
theorem stopTeam_thread? (s : State) {isl team : Nat} {th : Thread} (hisl : th.m.isl = isl) (hteam : th.m.team = team) :
    (stopTeam s isl team).thread? th = none := by
  have hhalt : (haltTeam s isl team).thread? th = none :=
    Tbl.get?_drop_of (p := fun t : Thread => t.m.isl == isl && t.m.team == team) (by simp [hisl, hteam])
  rw [stopTeam_eq]
  cases s.team? isl team with
  | none => exact hhalt
  | some t => exact (freeFaults_ebbs ..).thread?_none hhalt

/-- R147, R187: the status that a team ends with. -/
def Team.endsWith (t : Team) (st lc : Nat) : Nat × Nat := if t.expired then (0x20, 0) else (st, lc)

section
variable {s : State} {isl team : Nat} {t : Team}

theorem endTeam_eq (st lc : Nat) (ht : s.team? isl team = some t) (hending : t.ending = none) : endTeam s isl team st lc =
    stopTeam (s.setTeam isl team { t with ending := some (t.endsWith st lc) }) isl team := by
  unfold endTeam
  rw [ht]
  simp only [hending, Option.isSome_none, Bool.false_eq_true, if_false]
  rfl

/-- R147: a team that runs ends with its status. -/
theorem endTeam_team?_self (st lc : Nat) (ht : s.team? isl team = some t) (hending : t.ending = none) :
    (endTeam s isl team st lc).team? isl team = some { t with ending := some (t.endsWith st lc) } := by
  rw [endTeam_eq st lc ht hending, stopTeam_team?, team?_setTeam_self]

theorem endTeam_thread? (st lc : Nat) (ht : s.team? isl team = some t) (hending : t.ending = none) {th : Thread}
    (hisl : th.m.isl = isl) (hteam : th.m.team = team) : (endTeam s isl team st lc).thread? th = none := by
  rw [endTeam_eq st lc ht hending]
  exact stopTeam_thread? _ hisl hteam

theorem endTeam_teamless (s : State) (isl team st lc : Nat) : (endTeam s isl team st lc).task.teamless = s.task.teamless := by
  unfold endTeam
  split
  · split
    · rfl
    · rw [(stopTeam_ebbs ..).task]
      rfl
  · rfl

end

/-! ### Bytes written page by page -/

theorem ok_of_bind {ε α β : Type} {x : Except ε α} {f : α → Except ε β} {b : β} (h : x.bind f = .ok b) :
    ∃ a, x = .ok a ∧ f a = .ok b := by
  cases x with
  | error e => exact nomatch h
  | ok a => exact ⟨a, rfl, h⟩

theorem ok_of_map {ε α β : Type} {x : Except ε α} {f : α → β} {b : β} (h : x.map f = .ok b) : ∃ a, x = .ok a ∧ f a = b := by
  cases x with
  | error e => exact nomatch h
  | ok a => exact ⟨a, rfl, Except.ok.inj h⟩

/-- What every step of a fold that may fail keeps, one that ends well keeps. -/
theorem foldlM_keeps {ε α β γ : Type} (f : α → β → Except ε α) (g : α → γ) (h : ∀ a b c, f a b = .ok c → g c = g a)
    (l : List β) {a c : α} (hc : l.foldlM f a = .ok c) : g c = g a := by
  induction l generalizing a with
  | nil => exact congrArg g (Except.ok.inj hc).symm
  | cons b l ih =>
    rw [List.foldlM_cons] at hc
    obtain ⟨d, hd, hc⟩ := ok_of_bind hc
    exact (ih hc).trans (h a b d hd)

theorem writeLong_unwritten {s t : State} {isl part va : Nat} {bs : List Byte} (h : writeLong s isl part va bs = .ok t) :
    t.unwritten = s.unwritten := by
  unfold writeLong at h
  obtain ⟨a, hfold, rfl⟩ := ok_of_map h
  refine foldlM_keeps _ (fun a : State × List Byte => a.1.unwritten) (fun a p c hc => ?_) _ hfold
  obtain ⟨u, hw, rfl⟩ := ok_of_map hc
  exact writeVa_unwritten hw

/-- Bytes that lie in one page and land there stand at their address. -/
theorem wrote_writeLong {s : State} {isl part va pa : Nat} {bs : List Byte} (hlen : 0 < bs.length)
    (hpage : va / 65536 = (va + bs.length - 1) / 65536) (h : Lands s isl part va bs.length .write true pa) :
    ∃ u, writeLong s isl part va bs = .ok u ∧ Wrote s u isl pa bs := by
  refine ⟨bypassBank s isl none pa bs, ?_, wrote_bypassBank _ _ _ _ _ h.2⟩
  unfold writeLong
  rw [pageRuns_one _ hlen hpage, List.foldlM_cons, List.take_length, writeVa_lands h]
  rfl

/-- R126: what a resume map writes. -/
theorem writeMap_unwritten {s u : State} {isl team : Nat} {t : Team} {p : Preempt} (h : writeMap s isl team t p = .ok u) :
    u.unwritten = s.unwritten := by
  obtain ⟨s1, h1, h⟩ := ok_of_bind h
  obtain ⟨s2, h2, h⟩ := ok_of_bind h
  rw [writeLong_unwritten h, writeLong_unwritten h2]
  exact foldlM_keeps _ State.unwritten (fun _ _ _ hw => writeLong_unwritten hw) _ h1

/-! ### RESUME_MAP_WRITE -/

/-- R126: a team that may be saved runs, and its watchdog has not expired. -/
theorem saveReady_runs {s : State} {isl team : Nat} {t : Team} (h : saveReady s isl team t = true) :
    t.ending = none ∧ t.expired = false := by
  unfold saveReady at h
  simp only [Bool.and_eq_true, Bool.not_eq_true', Option.isNone_iff_eq_none] at h
  obtain ⟨⟨⟨⟨⟨⟨⟨-, hending⟩, -⟩, hexpired⟩, -⟩, -⟩, -⟩, -⟩ := h
  exact ⟨hending, hexpired⟩

section
variable {s u : State} {isl team : Nat} {t : Team} {p : Preempt}

theorem resumeMapWrite_occurs (hocc : s.occ = .team isl team) (ht : s.team? isl team = some t) (hp : t.preempt = some p)
    (hready : saveReady s isl team t = true) : Occurs .resumeMapWrite s (saveTeam s isl team t p) := by
  unfold Occurs
  rw [exec_resumeMapWrite, execResumeMapWrite, hocc]
  simp only [ht, hp, hready, if_true]

theorem resumeMapWrite_refused (hocc : s.occ = .team isl team) (ht : s.team? isl team = some t)
    (h : t.preempt = none ∨ saveReady s isl team t = false) :
    exec .resumeMapWrite s = .refused (.notEnabled "RESUME_MAP_WRITE") := by
  rw [exec_resumeMapWrite, execResumeMapWrite, hocc]
  simp only [ht]
  rcases h with hp | hready
  · simp only [hp]
    rfl
  · cases hp : t.preempt with
    | none => rfl
    | some p =>
      simp only [hready]
      rfl

/-- R126, R147: a team whose resume map is written is saved and ends. -/
theorem resumeMapWrite_saves (hocc : s.occ = .team isl team) (ht : s.team? isl team = some t) (hp : t.preempt = some p)
    (hready : saveReady s isl team t = true) (hmap : writeMap s isl team t p = .ok u) : Gives (exec .resumeMapWrite s) fun v =>
      v.team? isl team = none ∧ v.task.saved = s.task.saved ++ [⟨isl, team, t, s.clk isl, none⟩] ∧
      (Detached s isl team → ∀ i a, v.mem.byte i a = (writeField u isl t.part t.task.addr 63 56 5).mem.byte i a) := by
  have hkept := (writeField_unwritten u isl t.part t.task.addr 63 56 5).trans (writeMap_unwritten hmap)
  have hsaved : (retireTeam (writeField u isl t.part t.task.addr 63 56 5) isl team t).task.saved = s.task.saved :=
    (congrArg TaskSt.saved (retireTeam_teamless _ isl team t)).trans (congrArg TaskSt.saved (task_of_unwritten hkept) :)
  have h := resumeMapWrite_occurs hocc ht hp hready
  simp only [saveTeam, hmap] at h
  refine h.gives ⟨(retireTeam_team?_self .. :), (congrArg (· ++ _) hsaved :), fun hdet i a => ?_⟩
  exact (retireTeam_byte t (detached_of_unwritten hkept hdet) i a :)

/-- R126, R147: a team whose resume map cannot be written is lost. -/
theorem resumeMapWrite_loses {e : XErr} (hocc : s.occ = .team isl team) (ht : s.team? isl team = some t)
    (hp : t.preempt = some p) (hready : saveReady s isl team t = true) (hmap : writeMap s isl team t p = .error e) :
    Gives (exec .resumeMapWrite s) fun v => (v.team? isl team).map (·.ending) = some (some (0x21, 4)) ∧
      v.task.saved = s.task.saved ∧ ∀ th, th.m.isl = isl → th.m.team = team → v.thread? th = none := by
  obtain ⟨hending, hexpired⟩ := saveReady_runs hready
  have h := resumeMapWrite_occurs hocc ht hp hready
  simp only [saveTeam, hmap] at h
  have htask : (report (e.note s isl t.part) t.part 10 [isl, team]).task = s.task :=
    (task_of_unwritten (note_unwritten e s isl t.part) :)
  have hteam : (report (e.note s isl t.part) t.part 10 [isl, team]).team? isl team = some t :=
    (congrArg (fun x : TaskSt => x.teams.get? (isl, team)) htask).trans ht
  generalize report (e.note s isl t.part) t.part 10 [isl, team] = v at h htask hteam
  refine h.gives ⟨?_, ?_, fun th hisl htm => ?_⟩
  · show ((endTeam v isl team 0x21 4).team? isl team).map _ = _
    rw [endTeam_team?_self _ _ hteam hending, Team.endsWith, hexpired]
    rfl
  · exact (congrArg TaskSt.saved (endTeam_teamless v isl team 0x21 4)).trans (congrArg TaskSt.saved htask :)
  · exact (endTeam_thread? 0x21 4 hteam hending hisl htm :)

/-! ### RESTORE_COMPLETE -/

theorem restoreComplete_occurs (hocc : s.occ = .team isl team) (ht : s.team? isl team = some t)
    (hdone : restoreDone s isl team t = true) :
    Occurs .restoreComplete s ((closeRestore s isl t).setTeam isl team { t with restoring := false }) := by
  unfold Occurs
  rw [exec_restoreComplete, execRestoreComplete, hocc]
  simp only [ht, hdone, if_true]

theorem restoreComplete_refused (hocc : s.occ = .team isl team) (ht : s.team? isl team = some t)
    (hdone : restoreDone s isl team t = false) : exec .restoreComplete s = .refused (.notEnabled "RESTORE_COMPLETE") := by
  rw [exec_restoreComplete, execRestoreComplete, hocc]
  simp only [ht, hdone]
  rfl

/-- R128: MAPVALID is cleared, then RESTORED is set in the status word that stands. -/
theorem closeRestore_lands {pa pb x : Nat} (hpa : Lands s isl t.part (t.hdr.resmap + 8) 8 .write true pa)
    (hread : readVa (bypassBank s isl none pa (leBytes 8 0)) isl t.part t.hdr.resmap 8 = .ok x) (hmap : t.hasMap = true)
    (hpb : Lands (bypassBank s isl none pa (leBytes 8 0)) isl t.part t.hdr.resmap 8 .write true pb) :
    Wrote (bypassBank s isl none pa (leBytes 8 0)) (closeRestore s isl t) isl pb (leBytes 8 (putField 6 6 1 x)) := by
  have hput (lost : State → State) : putVa s isl t.part (t.hdr.resmap + 8) (word8 0) lost = bypassBank s isl none pa (leBytes 8 0) := by
    unfold putVa word8
    rw [writeVa_word 0 hpa]
  unfold closeRestore
  dsimp only
  rw [hput, hread]
  exact wrote_writePsw _ hmap hpb

/-- R118, R128: the restore of a team is done. -/
theorem restoreComplete_closes (hocc : s.occ = .team isl team) (ht : s.team? isl team = some t)
    (hdone : restoreDone s isl team t = true) : Gives (exec .restoreComplete s) fun u =>
      u.team? isl team = some { t with restoring := false } ∧
      ∀ pa pb x, Lands s isl t.part (t.hdr.resmap + 8) 8 .write true pa →
        readVa (bypassBank s isl none pa (leBytes 8 0)) isl t.part t.hdr.resmap 8 = .ok x → t.hasMap = true →
        Lands (bypassBank s isl none pa (leBytes 8 0)) isl t.part t.hdr.resmap 8 .write true pb →
        Wrote (bypassBank s isl none pa (leBytes 8 0)) u isl pb (leBytes 8 (putField 6 6 1 x)) :=
  (restoreComplete_occurs hocc ht hdone).gives ⟨(team?_setTeam_self .. :), fun _ _ _ hpa hread hmap hpb =>
    (closeRestore_lands hpa hread hmap hpb).of_mem rfl rfl⟩

end

end Sys2Proof.Machine
end

section
/-! R113 to R117, R129: the switch tick, DEADLINE and the overrun limit. -/

namespace Sys2Proof.Machine

open Sys2Proof

/-! ### Folds over teams -/

/-- A fold attains at one element what its other elements let it attain, and keeps it. -/
theorem foldl_reaches {α β : Type} (f : α → β → α) {Inv Goal : α → Prop} {b : β}
    (hinv : ∀ a x, x ≠ b → Inv a → Inv (f a x)) (hgoal : ∀ a, Inv a → Goal (f a b)) (hkeep : ∀ a x, Goal a → Goal (f a x))
    {l : List β} (hb : b ∈ l) {a : α} (ha : Inv a) : Goal (l.foldl f a) := by
  have hboth (a : α) (h : Inv a ∨ Goal a) : Goal (f a b) := h.elim (hgoal a) (hkeep a b)
  refine foldl_attains (Inv := fun a => Inv a ∨ Goal a) f (fun a x h => ?_) hboth hkeep hb (.inl ha)
  by_cases hx : x = b
  · subst hx
    exact .inr (hboth a h)
  · exact h.imp (hinv a x hx) (hkeep a x)

theorem modTeam_team?_self (s : State) (isl team : Nat) (f : Team → Team) :
    (s.modTeam isl team f).team? isl team = (s.team? isl team).map f := by
  unfold State.modTeam
  cases h : s.team? isl team with
  | none => exact h
  | some t => exact team?_setTeam_self ..

theorem modTeam_team?_ne (s : State) {isl team i k : Nat} (f : Team → Team) (h : (isl, team) ≠ (i, k)) :
    (s.modTeam isl team f).team? i k = s.team? i k := by
  unfold State.modTeam
  split
  · exact team?_setTeam_ne _ _ _ _ _ _ h
  · rfl

/-! ### PreemptDecision -/

section
variable {s : State} {isl team dc : Nat} {t : Team}

/-- R115: by its drain hint a team ends before DEADLINE. -/
def Team.drains (t : Team) (now dc : Nat) : Prop := t.hdr.dh ≠ 0 ∧ t.hdr.dh ≤ dc + t.elapsed now

/-- R115: a team has safe points, and none of its threads is parked. -/
def Team.reaches (t : Team) (s : State) (isl team : Nat) : Prop := t.hdr.spb ≠ 0 ∧ parkedTeam s isl team = false

theorem decide_drain (h : t.drains (s.clk isl) dc) : decide_ s isl team t dc = .drain := if_pos h

/-- R115: the decision of a team that does not drain. -/
theorem decide_undrained (h : ¬ t.drains (s.clk isl) dc) : decide_ s isl team t dc =
    if (t.hdr.spb ≠ 0 ∧ parkedTeam s isl team = false) ∧ t.hdr.spb * cpcOf s isl t + saveCost t ≤ dc then .save
    else if t.hdr.restartable = true then .discard
    else if t.hdr.spb ≠ 0 ∧ parkedTeam s isl team = false then .saveLate else .lost := by
  unfold Team.drains at h
  unfold decide_
  dsimp only
  rw [if_neg h]
  simp only [Bool.and_eq_true, bne_iff_ne, ne_eq, Bool.not_eq_true', decide_eq_true_eq]

theorem decide_save (h : ¬ t.drains (s.clk isl) dc) (hpoint : t.reaches s isl team)
    (hfits : t.hdr.spb * cpcOf s isl t + saveCost t ≤ dc) : decide_ s isl team t dc = .save :=
  (decide_undrained h).trans (if_pos ⟨hpoint, hfits⟩)

theorem decide_discard (h : ¬ t.drains (s.clk isl) dc)
    (hnot : ¬ (t.reaches s isl team ∧ t.hdr.spb * cpcOf s isl t + saveCost t ≤ dc)) (hrestart : t.hdr.restartable = true) :
    decide_ s isl team t dc = .discard :=
  (decide_undrained h).trans ((if_neg hnot).trans (if_pos hrestart))

theorem decide_saveLate (h : ¬ t.drains (s.clk isl) dc) (hpoint : t.reaches s isl team)
    (hfits : ¬ t.hdr.spb * cpcOf s isl t + saveCost t ≤ dc) (hrestart : t.hdr.restartable = false) :
    decide_ s isl team t dc = .saveLate :=
  (decide_undrained h).trans
    ((if_neg fun hsave => hfits hsave.2).trans ((if_neg (by simp [hrestart])).trans (if_pos hpoint)))

theorem decide_lost (h : ¬ t.drains (s.clk isl) dc) (hpoint : ¬ t.reaches s isl team) (hrestart : t.hdr.restartable = false) :
    decide_ s isl team t dc = .lost :=
  (decide_undrained h).trans
    ((if_neg fun hsave => hpoint hsave.1).trans ((if_neg (by simp [hrestart])).trans (if_neg hpoint)))

end

/-! ### Where a team stands in a switch -/

/-- What a switch asks of a team. -/
def Team.stage (t : Team) : Bool × Option (Nat × Nat) × Option Nat × Option Preempt := (t.gone, t.ending, t.first, t.preempt)

/-- What a switch asks of every team. -/
def State.stage (s : State) (k : Nat × Nat) : Option (Bool × Option (Nat × Nat) × Option Nat × Option Preempt) :=
  (s.team? k.1 k.2).map Team.stage

/-- What a switch asks of the teams, with ownership, the hub and the engines. -/
def State.staged (s : State) := (s.stage, s.par, s.hub, s.eng, s.fab)

theorem setTeam_stage {s : State} {isl team : Nat} {t : Team} (t' : Team) (ht : s.team? isl team = some t) (h : t'.stage = t.stage) :
    (s.setTeam isl team t').stage = s.stage := by
  funext k
  by_cases hk : (isl, team) = k
  · subst hk
    simp only [State.stage, team?_setTeam_self, ht, Option.map_some, h]
  · exact congrArg (Option.map Team.stage) (team?_setTeam_ne _ _ _ _ _ _ hk)

theorem setTeam_staged {s : State} {isl team : Nat} {t : Team} (t' : Team) (ht : s.team? isl team = some t) (h : t'.stage = t.stage) :
    (s.setTeam isl team t').staged = s.staged := Prod.ext (setTeam_stage t' ht h) rfl

theorem checkRelease_staged (s : State) (isl team g : Nat) : (checkRelease s isl team g).staged = s.staged := by
  unfold checkRelease
  split
  · rfl
  next t ht =>
    dsimp only
    split
    · exact (setTeam_staged (t.setGroup g _) ht rfl :)
    · rfl

theorem leaveGroup_staged (s : State) (isl team g : Nat) (effective : Bool) :
    (leaveGroup s isl team g effective).staged = s.staged := by
  unfold leaveGroup
  split
  · rfl
  next t ht => exact (checkRelease_staged ..).trans (setTeam_staged (t.setGroup g _) ht rfl)

theorem leaveGroups_staged (s : State) (m : Member) : (leaveGroups s m).staged = s.staged := by
  unfold leaveGroups
  split
  · rfl
  · exact foldl_keeps _ State.staged (fun s x => leaveGroup_staged ..) _ _

theorem recordUnissued_staged (s : State) (e : Member × MemberRec) : (recordUnissued s e).staged = s.staged := by
  unfold recordUnissued
  split
  · unfold keepSaved
    split <;> rfl
  · unfold recordUnstarted
    split
    · exact leaveGroups_staged ..
    · rfl

/-! ### The request of a switch tick -/

section
variable {s : State} {isl team : Nat} {t : Team}

theorem endTeam_winds (s : State) (isl team st lc : Nat) : Winds s (endTeam s isl team st lc) := by
  unfold endTeam
  split
  · split
    · exact .rfl' s
    · exact (stopTeam_winds ..).after rfl rfl
  · exact .rfl' s

/-- R114, R125: a team with its request, before its decision is carried out. -/
def askTeam (s : State) (isl team : Nat) (t : Team) (ns : Nat) (d : Decision) : State :=
  wakeTeam (s.setTeam isl team { t with preempt := some ⟨d, s.hub.ns + ns, none, false⟩ }) isl team

/-- R114, R125: a team that is to be saved, once its members that have not issued are recorded. -/
def recordTeam (s : State) (isl team : Nat) : State :=
  (((s.membersOf isl team).filter fun e => !e.2.issued && e.2.live).foldl recordUnissued s).modTeam isl team
    fun t => { t with restoring := false }

/-- R114, R129: a pre-emption request stands, and its team is lost, recorded or left to run. -/
theorem openRequest_cases (s : State) (isl team : Nat) (t : Team) (ns : Nat) (gang : Bool) : ∃ d,
    openRequest s isl team t ns gang = askTeam s isl team t ns d ∨
    openRequest s isl team t ns gang = recordTeam (askTeam s isl team t ns d) isl team ∨
    ∃ lc, openRequest s isl team t ns gang = endTeam (askTeam s isl team t ns d) isl team 0x21 lc := by
  refine ⟨(decision s isl team t (ns * stepOf s isl / 40) gang).1, ?_⟩
  unfold openRequest
  dsimp only
  cases (decision s isl team t (ns * stepOf s isl / 40) gang).1 with
  | lost => exact .inr (.inr ⟨_, rfl⟩)
  | save => exact .inr (.inl rfl)
  | saveLate => exact .inr (.inl rfl)
  | drain => exact .inl rfl
  | discard => exact .inl rfl

theorem recordTeam_staged (s : State) (isl team : Nat) : (recordTeam s isl team).staged = s.staged := by
  unfold recordTeam State.modTeam
  generalize hu : List.foldl _ s _ = u
  have hfold : u.staged = s.staged := hu ▸ foldl_keeps _ State.staged recordUnissued_staged _ _
  split
  · next t ht => exact (setTeam_staged { t with restoring := false } ht rfl).trans hfold
  · exact hfold

theorem askTeam_team?_self (s : State) (isl team : Nat) (t : Team) (ns : Nat) (d : Decision) :
    (askTeam s isl team t ns d).team? isl team = some { t with preempt := some ⟨d, s.hub.ns + ns, none, false⟩ } :=
  team?_setTeam_self s isl team _

/-- R114: a team that is asked has its request. -/
theorem openRequest_stage_self (s : State) (isl team : Nat) {t : Team} (ns : Nat) (gang : Bool) (hending : t.ending = none) :
    ∃ d e, (openRequest s isl team t ns gang).stage (isl, team) =
      some (t.gone, e, t.first, some ⟨d, s.hub.ns + ns, none, false⟩) := by
  obtain ⟨d, h | h | ⟨lc, h⟩⟩ := openRequest_cases s isl team t ns gang
  · refine ⟨d, t.ending, ?_⟩
    rw [h]
    exact congrArg (Option.map Team.stage) (askTeam_team?_self ..)
  · refine ⟨d, t.ending, ?_⟩
    have hstage := congrFun (Prod.mk.inj (recordTeam_staged (askTeam s isl team t ns d) isl team)).1 (isl, team)
    rw [h, hstage]
    exact congrArg (Option.map Team.stage) (askTeam_team?_self ..)
  · have hask := askTeam_team?_self s isl team t ns d
    rw [h, State.stage, endTeam_team?_self 0x21 lc hask hending]
    exact ⟨d, _, rfl⟩

theorem openRequest_stage_ne (s : State) {isl team : Nat} {k : Nat × Nat} (t : Team) (ns : Nat) (gang : Bool)
    (hk : (isl, team) ≠ k) : (openRequest s isl team t ns gang).stage k = s.stage k := by
  have hask (d : Decision) : (askTeam s isl team t ns d).team? k.1 k.2 = s.team? k.1 k.2 := team?_setTeam_ne s _ _ _ _ _ hk
  obtain ⟨d, h | h | ⟨lc, h⟩⟩ := openRequest_cases s isl team t ns gang
  · rw [h]
    exact congrArg (Option.map Team.stage) (hask d)
  · have hstage := congrFun (Prod.mk.inj (recordTeam_staged (askTeam s isl team t ns d) isl team)).1 k
    rw [h, hstage]
    exact congrArg (Option.map Team.stage) (hask d)
  · rw [h]
    exact congrArg (Option.map Team.stage) ((endTeam_team?_ne _ _ _ _ _ _ _ hk).trans (hask d))

theorem openRequest_winds (s : State) (isl team : Nat) (t : Team) (ns : Nat) (gang : Bool) :
    Winds s (openRequest s isl team t ns gang) := by
  have hask (d : Decision) : Winds s (askTeam s isl team t ns d) := ⟨rfl, fun _ h => h⟩
  obtain ⟨d, h | h | ⟨lc, h⟩⟩ := openRequest_cases s isl team t ns gang
  · exact h ▸ hask d
  · obtain ⟨-, hrest⟩ := Prod.mk.inj (recordTeam_staged (askTeam s isl team t ns d) isl team)
    obtain ⟨hpar, hhub, heng, hfab⟩ : _ ∧ _ ∧ _ ∧ _ := by simpa only [Prod.mk.injEq] using hrest
    rw [h]
    refine (hask d).trans ⟨?_, fun _ hx => heng ▸ hx⟩
    simp only [State.lasting, State.tenure, hpar, hhub, hfab]
  · exact h ▸ (hask d).trans (endTeam_winds ..)

/-! ### A team that meets the tick -/

theorem giveBack_winds (s : State) (isl team : Nat) (t : Team) : Winds s (giveBack s isl team t) := by
  have h := (((retireTeam_winds s isl team t).trans (writeField_winds _ isl t.part t.task.addr 224 213 0xFFF)).trans
    (writeField_winds _ isl t.part t.task.addr 31 0 0)).trans (writeField_winds _ isl t.part t.task.addr 63 56 2)
  exact ⟨h.lasting, h.recs⟩

/-- R116: the teams that a team given back leaves are those that its end leaves. -/
theorem giveBack_team? (s : State) (isl team : Nat) (t : Team) (i k : Nat) :
    (giveBack s isl team t).team? i k = (retireTeam s isl team t).team? i k := by
  have htask : (writeField (writeField (writeField (retireTeam s isl team t) isl t.part t.task.addr 224 213 0xFFF)
      isl t.part t.task.addr 31 0 0) isl t.part t.task.addr 63 56 2).task = (retireTeam s isl team t).task :=
    task_of_unwritten (by rw [writeField_unwritten, writeField_unwritten, writeField_unwritten])
  exact (congrArg (fun x : TaskSt => x.teams.get? (i, k)) htask :)

theorem meetTick_winds (ns : Nat) (gang : Bool) (s : State) (k : Nat × Nat) : Winds s (meetTick ns gang s k) := by
  unfold meetTick
  split
  · exact .rfl' s
  · split
    · exact .rfl' s
    · split
      · exact giveBack_winds ..
      · exact openRequest_winds ..

theorem meetTick_stage_ne (ns : Nat) (gang : Bool) (s : State) {j k : Nat × Nat} (h : j ≠ k) (hk : k.2 < 4096) :
    (meetTick ns gang s j).stage k = s.stage k := by
  unfold meetTick
  split
  · rfl
  · split
    · rfl
    · split
      · exact congrArg (Option.map Team.stage) ((giveBack_team? ..).trans (retireTeam_team?_ne s _ h hk))
      · exact openRequest_stage_ne s _ ns gang h

/-- R114: a team that runs and has not issued is given up, and one that has issued is asked. -/
theorem meetTick_stage_self (ns : Nat) (gang : Bool) {s : State} {k : Nat × Nat} {first : Option Nat} {p : Option Preempt}
    (h : s.stage k = some (false, none, first, p)) :
    (first = none → (meetTick ns gang s k).stage k = none) ∧
    (first ≠ none → ∃ d e, (meetTick ns gang s k).stage k = some (false, e, first, some ⟨d, s.hub.ns + ns, none, false⟩)) := by
  obtain ⟨t, ht, hstage⟩ := Option.map_eq_some_iff.1 h
  simp only [Team.stage, Prod.mk.injEq] at hstage
  obtain ⟨hgone, hending, rfl, rfl⟩ := hstage
  unfold meetTick
  rw [ht]
  simp only [hgone, hending, Option.isSome_none, Bool.or_false, Bool.false_eq_true, if_false]
  refine ⟨fun hfirst => ?_, fun hfirst => ?_⟩
  · rw [hfirst]
    exact congrArg (Option.map Team.stage) ((giveBack_team? ..).trans (retireTeam_team?_self ..))
  · rw [if_neg (by simpa using hfirst)]
    obtain ⟨d, e, hself⟩ := openRequest_stage_self s k.1 k.2 ns gang hending
    exact ⟨d, e, hgone ▸ hself⟩

end

/-! ### SWITCH_TICK -/

section
variable {s : State} {n : Nat} {r : Rotation}

theorem switchTick_occurs (hocc : s.occ = .slot n) (hr : s.par.rots.get? n = some r) (h : tickReady s r = true) :
    Occurs .switchTick s (switchTick s n r) := by
  unfold Occurs
  rw [exec_switchTick, execSwitchTick, hocc]
  simp only [hr, h, if_true]

theorem switchTick_refused (hocc : s.occ = .slot n) (hr : s.par.rots.get? n = some r) (h : tickReady s r = false) :
    exec .switchTick s = .refused (.notEnabled "SWITCH_TICK") := by
  rw [exec_switchTick, execSwitchTick, hocc]
  simp only [hr, h]
  rfl

theorem reportFenced_winds (s : State) (part : Nat) : Winds s (reportFenced s part) := by
  refine Winds.foldl _ (fun s i => ?_) _ _
  exact ⟨rfl, fun _ h => h⟩

theorem reportFenced_task (s : State) (part : Nat) : (reportFenced s part).task = s.task := by
  refine foldl_keeps _ State.task (fun s i => ?_) _ _
  rfl

/-- R114: the tick of a rotation, before its teams meet it. -/
def tickRot (s : State) (n : Nat) (r : Rotation) : State :=
  let s1 := setRot s n { r with tick := some s.hub.ns, late := slicesOf s r.resident, shorten := r.shorten.erase r.resident }
  if r.gang then reportFenced s1 r.resident else s1

theorem switchTick_eq (s : State) (n : Nat) (r : Rotation) : switchTick s n r =
    ((islandsOf s r.resident).flatMap (teamsOn s r.resident)).foldl (meetTick r.deadline r.gang) (tickRot s n r) := rfl

theorem tickRot_winds (s : State) (n : Nat) (r : Rotation) :
    Winds (setRot s n { r with tick := some s.hub.ns, late := slicesOf s r.resident, shorten := r.shorten.erase r.resident })
      (tickRot s n r) := by
  unfold tickRot
  dsimp only
  split
  · exact reportFenced_winds ..
  · exact .rfl' _

theorem tickRot_task (s : State) (n : Nat) (r : Rotation) : (tickRot s n r).task = s.task := by
  unfold tickRot
  dsimp only
  split
  · exact reportFenced_task ..
  · rfl

/-- R117: what winds up work changes of a rotation no more than what an overrun shortens. -/
theorem rots_of_winds {s t : State} (h : Winds s t) (n : Nat) :
    (t.par.rots.get? n).map Rotation.unshortened = (s.par.rots.get? n).map Rotation.unshortened :=
  Tbl.get?_map_congr Rotation.unshortened (congrArg (fun x => x.1.2.1) h.lasting) n

/-- R113, R114: the switch of a rotation begins. -/
theorem switchTick_rot (s : State) (n : Nat) (r : Rotation) :
    ((switchTick s n r).par.rots.get? n).map (fun x => (x.tick, x.late, x.resident, x.start)) =
      some (some s.hub.ns, slicesOf s r.resident, r.resident, r.start) := by
  have hwinds := (tickRot_winds s n r).trans
    (Winds.foldl _ (meetTick_winds r.deadline r.gang) ((islandsOf s r.resident).flatMap (teamsOn s r.resident)) _)
  have hrots := rots_of_winds hwinds n
  rw [show (setRot s n _).par.rots.get? n = _ from Tbl.get?_set_self .., ← switchTick_eq] at hrots
  obtain ⟨x, hx, hview⟩ := Option.map_eq_some_iff.1 (hrots.trans (Option.map_some ..))
  rw [hx]
  exact congrArg (fun x : Rotation => some (x.tick, x.late, x.resident, x.start)) hview

/-- R114: each team of the resident partition has been given up or asked. -/
theorem switchTick_stage {k : Nat × Nat} {t : Team} (hisl : k.1 ∈ islandsOf s r.resident)
    (hk : k ∈ teamsOn s r.resident k.1) (hlt : k.2 < 4096) (ht : s.team? k.1 k.2 = some t) (hgone : t.gone = false)
    (hending : t.ending = none) :
    (t.first = none → (switchTick s n r).stage k = none) ∧
    (t.first ≠ none → ∃ d e,
      (switchTick s n r).stage k = some (false, e, t.first, some ⟨d, s.hub.ns + r.deadline, none, false⟩)) := by
  have hmem := List.mem_flatMap.2 ⟨k.1, hisl, hk⟩
  have hstart : (tickRot s n r).hub.ns = s.hub.ns ∧ (tickRot s n r).stage k = some (false, none, t.first, t.preempt) := by
    refine ⟨(ns_of_winds (tickRot_winds s n r) :), ?_⟩
    unfold State.stage State.team?
    rw [tickRot_task]
    exact (congrArg (Option.map Team.stage) ht).trans (by rw [Option.map_some, Team.stage, hgone, hending])
  have hns (u : State) (j : Nat × Nat) : (meetTick r.deadline r.gang u j).hub.ns = u.hub.ns := ns_of_winds (meetTick_winds ..)
  have hinv (u : State) (j : Nat × Nat) (hj : j ≠ k)
      (h : u.hub.ns = s.hub.ns ∧ u.stage k = some (false, none, t.first, t.preempt)) :
      (meetTick r.deadline r.gang u j).hub.ns = s.hub.ns ∧
        (meetTick r.deadline r.gang u j).stage k = some (false, none, t.first, t.preempt) :=
    ⟨(hns u j).trans h.1, (meetTick_stage_ne _ _ u hj hlt).trans h.2⟩
  rw [switchTick_eq]
  refine ⟨fun hfirst => ?_, fun hfirst => ?_⟩
  · refine foldl_reaches (Goal := fun u : State => u.stage k = none) _ hinv
      (fun u h => (meetTick_stage_self _ _ h.2).1 hfirst) (fun u j h => ?_) hmem hstart
    by_cases hj : j = k
    · subst hj
      have hnone : u.team? j.1 j.2 = none := Option.map_eq_none_iff.1 h
      rw [meetTick, hnone]
      exact h
    · exact (meetTick_stage_ne _ _ u hj hlt).trans h
  · refine (foldl_reaches (Goal := fun u : State => u.hub.ns = s.hub.ns ∧ ∃ d e,
      u.stage k = some (false, e, t.first, some ⟨d, s.hub.ns + r.deadline, none, false⟩)) _ hinv
      (fun u h => ⟨(hns u k).trans h.1, ?_⟩) (fun u j h => ⟨(hns u j).trans h.1, ?_⟩) hmem hstart).2
    · exact h.1 ▸ (meetTick_stage_self r.deadline r.gang h.2).2 hfirst
    · obtain ⟨hu, d, e, hstage⟩ := h
      by_cases hj : j = k
      · subst hj
        cases e with
        | none => exact hu ▸ (meetTick_stage_self r.deadline r.gang hstage).2 hfirst
        | some e =>
          obtain ⟨x, hx, hview⟩ := Option.map_eq_some_iff.1 hstage
          have hending : x.ending = some e := (congrArg (fun y => y.2.1) hview :)
          refine ⟨d, some e, ?_⟩
          rw [meetTick, hx]
          simpa [hending] using hstage
      · exact ⟨d, e, (meetTick_stage_ne _ _ u hj hlt).trans hstage⟩

/-- R114, R117: a team of the resident partition that has not issued is gone, and one that has issued has its request. -/
theorem switchTick_teams {k : Nat × Nat} {t : Team} (hisl : k.1 ∈ islandsOf s r.resident)
    (hk : k ∈ teamsOn s r.resident k.1) (hlt : k.2 < 4096) (ht : s.team? k.1 k.2 = some t) (hgone : t.gone = false)
    (hending : t.ending = none) :
    (t.first = none → (switchTick s n r).team? k.1 k.2 = none) ∧
    (t.first ≠ none → ∃ d, ((switchTick s n r).team? k.1 k.2).map (·.preempt) =
      some (some ⟨d, s.hub.ns + r.deadline, none, false⟩)) := by
  obtain ⟨hgiven, hasked⟩ := switchTick_stage (n := n) hisl hk hlt ht hgone hending
  refine ⟨fun hfirst => Option.map_eq_none_iff.1 (hgiven hfirst), fun hfirst => ?_⟩
  obtain ⟨d, x, hstage⟩ := hasked hfirst
  obtain ⟨u, hu, hview⟩ := Option.map_eq_some_iff.1 hstage
  exact ⟨d, Option.map_eq_some_iff.2 ⟨u, hu, congrArg (fun y => y.2.2.2) hview⟩⟩

end

/-! ### DEADLINE_EXPIRY and OVERRUN_LIMIT -/

/-- R117: a team still running is lost. -/
def stopRunning (lc : Nat) (s : State) (k : Nat × Nat) : State :=
  if ((s.team? k.1 k.2).map (·.running)).getD false then endTeam s k.1 k.2 0x21 lc else s

/-- A team has ended with a status and keeps no thread. -/
def Stopped (s : State) (k : Nat × Nat) (e : Nat × Nat) : Prop :=
  (s.team? k.1 k.2).map (·.ending) = some (some e) ∧ ∀ th, th.m.isl = k.1 → th.m.team = k.2 → s.thread? th = none

theorem loseGang_eq : loseGang = stopRunning 3 := by
  funext s k
  unfold loseGang stopRunning
  cases s.team? k.1 k.2 with
  | none => rfl
  | some t => rfl

theorem overrunTeams_eq (s : State) (isl : Nat) (r : Rotation) :
    overrunTeams s isl r = (teamsOn s r.resident isl).foldl (stopRunning 1) s := rfl

theorem running_facts {t : Team} (h : t.running = true) : t.preempt ≠ none ∧ t.ending = none := by
  unfold Team.running at h
  simp only [Bool.and_eq_true, Option.isNone_iff_eq_none] at h
  obtain ⟨⟨hpreempt, hending⟩, -⟩ := h
  exact ⟨Option.isSome_iff_ne_none.1 hpreempt, hending⟩

theorem endTeam_thread?_none {s : State} {th : Thread} (isl team st lc : Nat) (h : s.thread? th = none) :
    (endTeam s isl team st lc).thread? th = none := by
  unfold endTeam
  split
  · split
    · exact h
    · exact (stopTeam_ebbs ..).thread?_none h
  · exact h

theorem stopRunning_team?_ne (lc : Nat) (s : State) {j k : Nat × Nat} (h : j ≠ k) :
    (stopRunning lc s j).team? k.1 k.2 = s.team? k.1 k.2 := by
  unfold stopRunning
  split
  · exact endTeam_team?_ne _ _ _ _ _ _ _ h
  · rfl

theorem stopRunning_thread?_none {s : State} {th : Thread} (lc : Nat) (j : Nat × Nat) (h : s.thread? th = none) :
    (stopRunning lc s j).thread? th = none := by
  unfold stopRunning
  split
  · exact endTeam_thread?_none _ _ _ _ h
  · exact h

/-- R117, R147: every team that runs ends, with the status of its watchdog where that has expired. -/
theorem foldl_stopRunning {s : State} {k : Nat × Nat} {t : Team} {l : List (Nat × Nat)} (lc : Nat) (hk : k ∈ l)
    (ht : s.team? k.1 k.2 = some t) (hrun : t.running = true) :
    Stopped (l.foldl (stopRunning lc) s) k (t.endsWith 0x21 lc) := by
  obtain ⟨-, hending⟩ := running_facts hrun
  refine foldl_reaches (Inv := fun u : State => u.team? k.1 k.2 = some t)
    (Goal := fun u : State => Stopped u k (t.endsWith 0x21 lc)) _ (fun u j hj h => ?_) (fun u h => ?_)
    (fun u j h => ?_) hk ht
  · exact (stopRunning_team?_ne lc u hj).trans h
  · have hstep : stopRunning lc u k = endTeam u k.1 k.2 0x21 lc := if_pos (by rw [h]; exact hrun)
    rw [hstep]
    exact ⟨congrArg (Option.map Team.ending) (endTeam_team?_self 0x21 lc h hending),
      fun th hisl hteam => endTeam_thread? 0x21 lc h hending hisl hteam⟩
  · obtain ⟨hteam, hthreads⟩ := h
    refine ⟨?_, fun th hisl htm => stopRunning_thread?_none lc j (hthreads th hisl htm)⟩
    by_cases hj : j = k
    · subst hj
      obtain ⟨x, hx, hend⟩ := Option.map_eq_some_iff.1 hteam
      have hstep : stopRunning lc u j = u := if_neg (by simp [hx, Team.running, hend])
      rw [hstep]
      exact hteam
    · rw [stopRunning_team?_ne lc u hj]
      exact hteam

/-! ### Copies that are abandoned -/

/-- R114: the copies of a partition on an island run again from their first bytes. -/
def CopiesAfresh (s : State) (isl part : Nat) : Prop :=
  ∀ e ∈ s.eng.recs, ∀ ce, e.eng = .copy ce → e.ref.chain.isl = isl → e.ref.chain.part = part →
    e.step = 0 ∧ e.lays = none ∧ e.parked = none

theorem abandonCopies_afresh (s : State) (isl part : Nat) : CopiesAfresh (abandonCopies s isl part) isl part := by
  intro e he ce heng hisl hpart
  obtain ⟨x, -, rfl⟩ := List.mem_map.1 he
  cases hx : x.eng with
  | matrix c => simp [hx] at heng
  | copy c =>
    simp only [hx] at hisl hpart ⊢
    by_cases hmine : x.ref.chain.isl = isl ∧ x.ref.chain.part = part
    · rw [if_pos hmine]
      exact ⟨rfl, rfl, rfl⟩
    · rw [if_neg hmine] at hisl hpart
      exact absurd ⟨hisl, hpart⟩ hmine

theorem rewalk_afresh {s : State} {i p : Nat} (isl part : Nat) (h : CopiesAfresh s i p) :
    CopiesAfresh (rewalk s isl part) i p := by
  intro e he ce heng hisl hpart
  obtain ⟨x, hx, rfl⟩ := List.mem_map.1 he
  revert heng hisl hpart
  split
  · intro heng hisl hpart
    obtain ⟨hstep, hlays, -⟩ := h x hx ce heng hisl hpart
    exact ⟨hstep, hlays, rfl⟩
  · exact h x hx ce

theorem freeFaults_afresh {s : State} {i p : Nat} (isl part : Nat) (h : CopiesAfresh s i p) :
    CopiesAfresh (freeFaults s isl part) i p := by
  unfold freeFaults
  dsimp only
  split
  · exact rewalk_afresh _ _ h
  · exact h

theorem stopTeam_afresh {s : State} {i p : Nat} (isl team : Nat) (h : CopiesAfresh s i p) :
    CopiesAfresh (stopTeam s isl team) i p := by
  rw [stopTeam_eq]
  cases s.team? isl team with
  | none => exact h
  | some t => exact freeFaults_afresh (s := haltTeam s isl team) _ _ h

theorem stopRunning_afresh {s : State} {i p : Nat} (lc : Nat) (k : Nat × Nat) (h : CopiesAfresh s i p) :
    CopiesAfresh (stopRunning lc s k) i p := by
  unfold stopRunning endTeam
  split
  · split
    · split
      · exact h
      · exact stopTeam_afresh _ _ h
    · exact h
  · exact h

theorem setOvr_eng (s : State) (k : Nat × Nat) : (setOvr s k).eng = s.eng := by
  unfold setOvr State.modTeam
  split <;> rfl

/-- R117: OVR marks a team that still runs. -/
theorem foldl_setOvr {s : State} {k : Nat × Nat} {t : Team} {l : List (Nat × Nat)} (hk : k ∈ l)
    (ht : s.team? k.1 k.2 = some t) (hrun : t.running = true) :
    ((l.foldl setOvr s).team? k.1 k.2).map (·.preempt.map (·.ovr)) = some (some true) := by
  obtain ⟨p, hp⟩ := Option.ne_none_iff_exists'.1 (running_facts hrun).1
  refine foldl_reaches (Inv := fun u : State => u.team? k.1 k.2 = some t)
    (Goal := fun u : State => (u.team? k.1 k.2).map (·.preempt.map (·.ovr)) = some (some true)) _
    (fun u j hj h => ?_) (fun u h => ?_) (fun u j h => ?_) hk ht
  · exact (modTeam_team?_ne u _ hj).trans h
  · rw [setOvr, modTeam_team?_self, h]
    simp [hrun, hp]
  · by_cases hj : j = k
    · subst hj
      obtain ⟨x, hx, hovr⟩ := Option.map_eq_some_iff.1 h
      obtain ⟨q, hq, -⟩ := Option.map_eq_some_iff.1 hovr
      rw [setOvr, modTeam_team?_self, hx]
      by_cases hxrun : x.running = true
      · simp [hxrun, hq]
      · simpa [hxrun] using hovr
    · rw [setOvr, modTeam_team?_ne u _ hj]
      exact h

section
variable {s : State} {isl n : Nat} {r : Rotation}

theorem deadlineExpiry_occurs (hocc : s.occ = .islandIn isl n) (hr : s.par.rots.get? n = some r)
    (h : deadlineDue s isl r = true) : Occurs .deadlineExpiry s (deadline s isl r) := by
  unfold Occurs
  rw [exec_deadlineExpiry, execDeadlineExpiry, hocc]
  simp only [hr, h, if_true]

theorem deadlineExpiry_refused (hocc : s.occ = .islandIn isl n) (hr : s.par.rots.get? n = some r)
    (h : deadlineDue s isl r = false) : exec .deadlineExpiry s = .refused (.notEnabled "DEADLINE_EXPIRY") := by
  rw [exec_deadlineExpiry, execDeadlineExpiry, hocc]
  simp only [hr, h]
  rfl

/-- The teams of a partition on an island that still run. -/
def lateTeams (s : State) (part isl : Nat) : List (Nat × Nat) :=
  (teamsOn s part isl).filter fun k => ((s.team? k.1 k.2).map (·.running)).getD false

/-- R114: what DEADLINE leaves of copies and faults, before its teams. -/
def deadlineCopies (s : State) (isl part : Nat) : State := freeFaults (abandonCopies s isl part) isl part

theorem deadline_gang (h : r.gang = true) : deadline s isl r =
    if (lateTeams s r.resident isl).isEmpty then deadlineCopies s isl r.resident
    else report ((lateTeams s r.resident isl).foldl (stopRunning 3) (deadlineCopies s isl r.resident)) 0 9 [isl] := by
  rw [← loseGang_eq]
  unfold deadline
  dsimp only
  rw [if_pos h]
  rfl

theorem deadline_single (h : r.gang = false) :
    deadline s isl r = (lateTeams s r.resident isl).foldl setOvr (deadlineCopies s isl r.resident) := by
  unfold deadline
  dsimp only
  rw [h]
  rfl

/-- R114: no copy of the resident partition has work behind it. -/
theorem deadline_afresh (s : State) (isl : Nat) (r : Rotation) : CopiesAfresh (deadline s isl r) isl r.resident := by
  have hcopies : CopiesAfresh (deadlineCopies s isl r.resident) isl r.resident :=
    freeFaults_afresh _ _ (abandonCopies_afresh s isl r.resident)
  cases hgang : r.gang with
  | false =>
    rw [deadline_single hgang]
    unfold CopiesAfresh
    rw [foldl_keeps setOvr State.eng setOvr_eng]
    exact hcopies
  | true =>
    rw [deadline_gang hgang]
    split
    · exact hcopies
    · show CopiesAfresh ((lateTeams s r.resident isl).foldl (stopRunning 3) _) _ _
      exact List.foldlRecOn (motive := fun u : State => CopiesAfresh u isl r.resident) _ _ hcopies
        fun u hu j _ => stopRunning_afresh 3 j hu

theorem mem_lateTeams {k : Nat × Nat} {t : Team} {part : Nat} (hk : k ∈ teamsOn s part isl)
    (ht : s.team? k.1 k.2 = some t) (hrun : t.running = true) : k ∈ lateTeams s part isl :=
  List.mem_filter.2 ⟨hk, by rw [ht]; exact hrun⟩

theorem deadlineCopies_team? (s : State) (isl part i k : Nat) : (deadlineCopies s isl part).team? i k = s.team? i k :=
  ((abandonCopies_ebbs s isl part).trans (freeFaults_ebbs ..)).team? i k

/-- R117: at DEADLINE a team that still runs has overrun. -/
theorem deadline_marks {k : Nat × Nat} {t : Team} (hgang : r.gang = false) (hk : k ∈ teamsOn s r.resident isl)
    (ht : s.team? k.1 k.2 = some t) (hrun : t.running = true) :
    ((deadline s isl r).team? k.1 k.2).map (·.preempt.map (·.ovr)) = some (some true) := by
  rw [deadline_single hgang]
  exact foldl_setOvr (mem_lateTeams hk ht hrun) ((deadlineCopies_team? ..).trans ht) hrun

/-- R129: at a gang rotation's DEADLINE a team that still runs is lost. -/
theorem deadline_loses {k : Nat × Nat} {t : Team} (hgang : r.gang = true) (hk : k ∈ teamsOn s r.resident isl)
    (ht : s.team? k.1 k.2 = some t) (hrun : t.running = true) : Stopped (deadline s isl r) k (t.endsWith 0x21 3) := by
  have hmem := mem_lateTeams hk ht hrun
  have hstopped : Stopped ((lateTeams s r.resident isl).foldl (stopRunning 3) (deadlineCopies s isl r.resident)) k
      (t.endsWith 0x21 3) := foldl_stopRunning 3 hmem ((deadlineCopies_team? ..).trans ht) hrun
  rw [deadline_gang hgang, if_neg (by simpa using List.ne_nil_of_mem hmem)]
  exact hstopped

theorem overrunLimit_occurs {k : Nat × Nat} {t : Team} (hocc : s.occ = .islandIn isl n) (hr : s.par.rots.get? n = some r)
    (hpast : deadlinePast s r 16 = true) (hk : k ∈ teamsOn s r.resident isl) (ht : s.team? k.1 k.2 = some t)
    (hrun : t.running = true) : Occurs .overrunLimit s (overrunTeams s isl r) := by
  have hany : ((teamsOn s r.resident isl).any fun k => ((s.team? k.1 k.2).map (·.running)).getD false) = true :=
    List.any_eq_true.2 ⟨k, hk, by rw [ht]; exact hrun⟩
  unfold Occurs
  rw [exec_overrunLimit, execOverrunLimit, hocc]
  simp only [hr, hpast, hany, Bool.and_self, if_true]

/-- R117: at the overrun limit a team that still runs is lost. -/
theorem overrunTeams_stops {k : Nat × Nat} {t : Team} (hk : k ∈ teamsOn s r.resident isl)
    (ht : s.team? k.1 k.2 = some t) (hrun : t.running = true) :
    Stopped (overrunTeams s isl r) k (t.endsWith 0x21 1) := by
  rw [overrunTeams_eq]
  exact foldl_stopRunning 1 hk ht hrun

theorem overrunLimit_refused (hocc : s.occ = .islandIn isl n) (hr : s.par.rots.get? n = some r)
    (h : deadlinePast s r 16 = false ∨
      ∀ x ∈ teamsOn s r.resident isl, ∀ y, s.team? x.1 x.2 = some y → y.running = false) :
    exec .overrunLimit s = .refused (.notEnabled "OVERRUN_LIMIT") := by
  rw [exec_overrunLimit, execOverrunLimit, hocc]
  simp only [hr]
  rw [if_neg]
  · rfl
  · rintro hboth
    obtain ⟨hpast, hany⟩ := Bool.and_eq_true_iff.1 hboth
    rcases h with hnot | hnone
    · simp [hnot] at hpast
    · obtain ⟨k, hk, hrun⟩ := List.any_eq_true.1 hany
      cases ht : s.team? k.1 k.2 with
      | none => simp [ht] at hrun
      | some t => simp [ht, hnone k hk t ht] at hrun

end

end Sys2Proof.Machine
end

section
/-! R119, R120: what the lehr's write-back, clearing and tokens leave. -/

namespace Sys2Proof.Machine

open Sys2Proof

/-! ### Write-back -/

/-- The cells of a memory are the addresses that hold a nonzero byte. -/
theorem Memory.mem_keys_iff (m : List Host.Cell) (a : Nat) (h : Memory.wf m = true) :
    a ∈ m.map (·.1) ↔ Memory.get m a ≠ 0 := by
  induction m with
  | nil => simp [Memory.get]
  | cons d ds ih =>
    obtain ⟨k, w⟩ := d
    obtain ⟨hw, hhead, hds⟩ := (Memory.wf_cons k w ds).1 h
    have hrest := ih hds
    simp only [List.map_cons, List.mem_cons, Memory.get]
    by_cases hk : k = a
    · simpa [hk] using hw
    · rw [if_neg hk, or_iff_right (Ne.symm hk), hrest]
      by_cases hlt : a < k
      · rw [if_pos hlt, Memory.get_of_lt_head ds a fun c hc => Nat.lt_trans hlt (hhead c hc)]
      · rw [if_neg hlt]

theorem Mem.get_foldl_put (f : Nat → Byte) (l : List Nat) (m : Mem) (a : Nat) :
    (l.foldl (fun m k => m.put k (f k)) m).get a = if a ∈ l then f a else m.get a := by
  induction l generalizing m with
  | nil => simp
  | cons k l ih =>
    rw [List.foldl_cons, ih, Mem.get_put]
    by_cases hl : a ∈ l
    · simp [hl]
    · by_cases hk : a = k
      · simp [hk]
      · simp [hl, hk]

/-- R197: marked bytes of the island cache that go to HBM and lose their marks read as before. -/
theorem MemSt.byte_writtenBack (m : MemSt) (mine : Nat → Bool) (i x : Nat) :
    ({ m with
      hbm := ((m.l2mark.cells.map (·.1)).filter mine).foldl (fun (h : Mem) k => h.put k (m.l2.get k)) m.hbm
      l2 := m.l2.clear mine, l2mark := m.l2mark.clear mine } : MemSt).byte i x = m.byte i x := by
  have hkey : gkey i x ∈ (m.l2mark.cells.map (·.1)).filter mine ↔ m.l2mark.get (gkey i x) ≠ 0 ∧ mine (gkey i x) = true := by
    rw [List.mem_filter, Memory.mem_keys_iff _ _ m.l2mark.canon]
    rfl
  simp only [MemSt.byte, Mem.get_clear, Mem.get_foldl_put, hkey]
  by_cases hmine : mine (gkey i x) = true
  · by_cases hmark : m.l2mark.get (gkey i x) = 0 <;> simp [hmine, hmark]
  · simp [hmine]

/-- R119, R214: the memory of an island once the poison of its lines has gone to HBM. -/
theorem writeBack_mem (s : State) (isl : Nat) (p : Nat → Bool) : ∃ m : MemSt, m.data = s.mem.data ∧
    let mine (k : Nat) : Bool := k / 2 ^ 39 == isl && p (k % 2 ^ 39)
    (writeBack s isl p).mem = { m with
      hbm := ((m.l2mark.cells.map (·.1)).filter mine).foldl (fun (h : Mem) k => h.put k (m.l2.get k)) m.hbm
      l2 := m.l2.clear mine, l2mark := m.l2mark.clear mine } :=
  ⟨_, foldl_keeps _ MemSt.data (fun m sec => m.data_evictPoison isl sec) _ _, rfl⟩

/-- R119, step 2: a write-back changes no byte. -/
theorem writeBack_byte (s : State) (isl : Nat) (p : Nat → Bool) (i x : Nat) :
    (writeBack s isl p).mem.byte i x = s.mem.byte i x := by
  obtain ⟨m, hdata, hmem⟩ := writeBack_mem s isl p
  rw [hmem, MemSt.byte_writtenBack]
  exact MemSt.byte_data hdata i x

theorem writeBack_ebbs (s : State) (isl : Nat) (p : Nat → Bool) : Ebbs s (writeBack s isl p) := by
  obtain ⟨m, hdata, hmem⟩ := writeBack_mem s isl p
  simp only [MemSt.data, Prod.mk.injEq] at hdata
  obtain ⟨-, -, -, hspad, hacc⟩ := hdata
  refine ⟨⟨rfl, fun _ h => h⟩, rfl, rfl, fun _ h => h, fun _ h => h, ?_, fun h => ⟨h, ?_⟩⟩
  · rw [hmem]
    exact hacc
  · rw [hmem]
    exact hspad

/-! ### Clearing -/

theorem clearEngines_ebbs (s : State) (isl mask : Nat) : Ebbs s (clearEngines s isl mask) :=
  (flushOuts_ebbs s _).trans ⟨⟨rfl, fun _ h => h⟩, rfl, rfl, fun _ h => h, fun _ h => h, rfl, fun h => ⟨h, rfl⟩⟩

theorem loseWatches_ebbs (s : State) (isl : Nat) (p : Nat → Bool) : Ebbs s (loseWatches s isl p) := by
  refine ⟨⟨rfl, fun _ h => h⟩, rfl, rfl, fun _ h => h, ?_, rfl, fun h => ⟨h, rfl⟩⟩
  rw [loseWatches_threads]
  exact fun _ h => h

theorem clearMatrix_ebbs (s : State) (isl mask : Nat) : Ebbs s (clearMatrix s isl mask) := by
  refine ⟨⟨rfl, ?_⟩, rfl, rfl, fun _ h => h, fun _ h => h, rfl, fun h => ⟨h, rfl⟩⟩
  exact List.map_subset _ (List.filter_subset_self ..)

theorem clearChannels_ebbs (s : State) (isl : Nat) (part : Nat → Bool) : Ebbs s (clearChannels s isl part) :=
  ⟨⟨rfl, fun _ h => h⟩, rfl, rfl, fun _ h => h, fun _ h => h, rfl, fun h => ⟨h, rfl⟩⟩

/-- R119, step 2: slices of an island before their members and cores are cleared. -/
def beforeScrub (s : State) (j : LehrJob) : State :=
  let s1 := clearEngines s j.isl j.cemask
  let home (pa : Nat) : Bool := nbit j.slices (homeSlice s1 j.isl pa)
  writeBack (loseWatches s1 j.isl home) j.isl home

/-- R119, steps 1 to 3, and R121, class 11. -/
def scrubbed (s : State) (j : LehrJob) : State :=
  let s1 := scrubSlices (clearEngines s j.isl j.cemask) j.isl j.slices
  if j.reason = 1 then s1 else clearChannels s1 j.isl (channelPart j)

theorem beforeScrub_ebbs (s : State) (j : LehrJob) : Ebbs s (beforeScrub s j) := by
  have h := clearEngines_ebbs s j.isl j.cemask
  unfold beforeScrub
  dsimp only
  generalize clearEngines s j.isl j.cemask = u at h ⊢
  exact (h.trans (loseWatches_ebbs u j.isl _)).trans (writeBack_ebbs _ j.isl _)

theorem scrubSlices_outside (s : State) (isl mask : Nat) : (scrubSlices s isl mask).outside = s.outside := by
  have hmatrix (u : State) : (clearMatrix u isl mask).outside = u.outside := rfl
  have hcores (u : State) : (clearCores u isl mask).outside = u.outside := rfl
  have hmembers (u : State) : (clearMembers u isl mask).outside = u.outside := rfl
  have hback (u : State) (p : Nat → Bool) : (writeBack u isl p).outside = u.outside := rfl
  have hwatches (u : State) (p : Nat → Bool) : (loseWatches u isl p).outside = u.outside := rfl
  unfold scrubSlices
  dsimp only
  rw [hmatrix, hcores, hmembers, hback, hwatches]

theorem clearEngines_kept (s : State) (isl mask : Nat) :
    (clearEngines s isl mask).outside = s.outside ∧ (clearEngines s isl mask).core.members = s.core.members :=
  ⟨flushOuts_outside s _, congrArg Prod.fst (flushOuts_hands s _)⟩

/-- The cores are cleared after the members and before the matrix engines. -/
theorem scrubbed_ebbs (s : State) (j : LehrJob) :
    Ebbs (clearCores (clearMembers (beforeScrub s j) j.isl j.slices) j.isl j.slices) (scrubbed s j) := by
  have hscrub : scrubSlices (clearEngines s j.isl j.cemask) j.isl j.slices =
      clearMatrix (clearCores (clearMembers (beforeScrub s j) j.isl j.slices) j.isl j.slices) j.isl j.slices := rfl
  unfold scrubbed
  dsimp only
  rw [hscrub]
  generalize clearCores (clearMembers (beforeScrub s j) j.isl j.slices) j.isl j.slices = u
  split
  · exact clearMatrix_ebbs u j.isl j.slices
  · exact (clearMatrix_ebbs u j.isl j.slices).trans (clearChannels_ebbs _ j.isl _)

theorem scrubbed_outside (s : State) (j : LehrJob) : (scrubbed s j).par = s.par ∧ (scrubbed s j).hub = s.hub := by
  have h := (scrubSlices_outside _ j.isl j.slices).trans (clearEngines_kept s j.isl j.cemask).1
  simp only [State.outside, Prod.mk.injEq] at h
  obtain ⟨-, hpar, -, hhub⟩ := h
  unfold scrubbed
  dsimp only
  generalize scrubSlices (clearEngines s j.isl j.cemask) j.isl j.slices = u at hpar hhub ⊢
  split
  · exact ⟨hpar, hhub⟩
  · exact ⟨hpar, hhub⟩

theorem clearCores_core (s : State) (isl mask : Nat) : (clearCores s isl mask).core = s.core := rfl

theorem clearMembers_member?_none {s : State} {m : Member} {x : MemberRec} {isl mask : Nat} (hm : s.member? m = some x)
    (hisl : m.isl = isl) (hcore : inSlices mask x.core = true) : (clearMembers s isl mask).member? m = none := by
  unfold clearMembers
  dsimp only [State.member?]
  rw [Tbl.get?_drop, if_pos]
  rw [show s.core.members.get? m = some x from hm]
  simp [hisl, hcore]

/-- R121, class 2: no member of a scrubbed slice is left. -/
theorem scrubbed_member? {s : State} {j : LehrJob} {m : Member} {x : MemberRec} (hm : s.member? m = some x)
    (hisl : m.isl = j.isl) (hcore : inSlices j.slices x.core = true) : (scrubbed s j).member? m = none := by
  have hbefore : (beforeScrub s j).member? m = some x := by
    have hmembers : (beforeScrub s j).core.members = s.core.members := (clearEngines_kept s j.isl j.cemask).2
    unfold State.member?
    rw [hmembers]
    exact hm
  refine (scrubbed_ebbs s j).member?_none ?_
  unfold State.member?
  rw [clearCores_core]
  exact clearMembers_member?_none hbefore hisl hcore

/-- R121, class 5: the accumulators of scrubbed slices are cleared. -/
theorem scrubbed_acc (s : State) {j : LehrJob} {c : Nat} (x w : Nat) (hc : inSlices j.slices c = true) :
    (scrubbed s j).mem.acc.get? (j.isl, c, x, w) = none := by
  rw [(scrubbed_ebbs s j).acc]
  exact Tbl.get?_drop_of (p := fun k : Nat × Nat × Nat × Nat => k.1 == j.isl && inSlices j.slices k.2.1) (by simp [hc])

theorem skey_div {isl c o : Nat} (hc : c < 96) (ho : o < 2 ^ 19) :
    skey isl c o / 2 ^ 19 / 96 = isl ∧ skey isl c o / 2 ^ 19 % 96 = c := by
  unfold skey
  omega

/-- R121, class 4: the scratchpads of scrubbed slices are cleared. -/
theorem scrubbed_spad {s : State} {j : LehrJob} {c o : Nat} (houts : s.eng.outs = []) (hc : c < 96) (ho : o < 2 ^ 19)
    (hin : inSlices j.slices c = true) : (scrubbed s j).eng.outs = [] ∧ (scrubbed s j).mem.spad.get (skey j.isl c o) = 0 := by
  obtain ⟨hbefore, -⟩ := (beforeScrub_ebbs s j).spads houts
  obtain ⟨hscrubbed, hspad⟩ := (scrubbed_ebbs s j).spads hbefore
  obtain ⟨hisl, hcore⟩ := skey_div (isl := j.isl) hc ho
  refine ⟨hscrubbed, ?_⟩
  rw [hspad]
  refine (Mem.get_clear _ (fun k => k / 2 ^ 19 / 96 == j.isl && inSlices j.slices (k / 2 ^ 19 % 96)) _).trans (if_pos ?_)
  rw [hisl, hcore, hin]
  simp

/-! ### Tokens of slices -/

theorem foldl_writeToken_ne {j : LehrJob} {l : List Nat} {k : Nat} (s : State) (h : k ∉ l) :
    (l.foldl (writeToken j) s).par.scrub.get? (j.isl, k) = s.par.scrub.get? (j.isl, k) ∧
    (l.foldl (writeToken j) s).par.tokens.get? (j.isl, k) = s.par.tokens.get? (j.isl, k) := by
  induction l generalizing s with
  | nil => exact ⟨rfl, rfl⟩
  | cons x l ih =>
    obtain ⟨hx, hl⟩ := not_or.1 (mt List.mem_cons.2 h)
    have hne : (j.isl, x) ≠ (j.isl, k) := fun he => hx (Prod.mk.inj he).2.symm
    obtain ⟨hscrub, htokens⟩ := ih (writeToken j s x) hl
    exact ⟨hscrub.trans (Tbl.get?_set_ne _ _ _ _ hne), htokens.trans (Tbl.get?_set_ne _ _ _ _ hne)⟩

/-- R119, R120: each slice of an event is counted once and has its token. -/
theorem foldl_writeToken_mem {j : LehrJob} {l : List Nat} {k : Nat} (s : State) (hnodup : l.Nodup) (h : k ∈ l) :
    (l.foldl (writeToken j) s).par.scrub.get? (j.isl, k) = some (s.par.scrub.getD (j.isl, k) 0 + 1) ∧
    ∃ u, (l.foldl (writeToken j) s).par.tokens.get? (j.isl, k) = some (makeToken u j k (s.par.scrub.getD (j.isl, k) 0 + 1)) := by
  induction l generalizing s with
  | nil => exact nomatch h
  | cons x l ih =>
    obtain ⟨hx, hl⟩ := List.nodup_cons.1 hnodup
    by_cases hk : k = x
    · subst hk
      obtain ⟨hscrub, htokens⟩ := foldl_writeToken_ne (j := j) (writeToken j s k) hx
      exact ⟨hscrub.trans (Tbl.get?_set_self ..), s, htokens.trans (Tbl.get?_set_self ..)⟩
    · have hne : (j.isl, x) ≠ (j.isl, k) := fun he => hk (Prod.mk.inj he).2.symm
      have hcount : (writeToken j s x).par.scrub.getD (j.isl, k) 0 = s.par.scrub.getD (j.isl, k) 0 :=
        Tbl.getD_set_ne _ _ _ _ _ hne
      have hrest := ih (writeToken j s x) hl (List.mem_of_ne_of_mem hk h)
      rwa [hcount] at hrest

/-- What tokens leave of ownership. -/
theorem foldl_writeToken_kept (j : LehrJob) (l : List Nat) (s : State) :
    ({ l.foldl (writeToken j) s with par := s.par } : State) = s ∧
    ({ (l.foldl (writeToken j) s).par with scrub := s.par.scrub, tokens := s.par.tokens } : PartSt) = s.par := by
  induction l generalizing s with
  | nil => exact ⟨rfl, rfl⟩
  | cons k l ih =>
    obtain ⟨hstate, hpar⟩ := ih (writeToken j s k)
    exact ⟨(congrArg (fun u : State => ({ u with par := s.par } : State)) hstate :),
      (congrArg (fun p : PartSt => ({ p with scrub := s.par.scrub, tokens := s.par.tokens } : PartSt)) hpar :)⟩

end Sys2Proof.Machine
end

section
/-! R113, R114, R119: what an event of the lehr leaves. -/

namespace Sys2Proof.Machine

open Sys2Proof

/-! ### Slices that are handed over -/

/-- R119: the slices of a rotation that an event leaves to be handed over. -/
def Rotation.lateAfter (r : Rotation) (j : LehrJob) : List (Nat × Nat) :=
  r.late.filter fun x => !(x.1 == j.isl && nbit j.slices x.2)

/-- R113, R114: a rotation after an event of its switch: the last of all starts the incoming member's quantum. -/
def Rotation.handed (r : Rotation) (j : LehrJob) (ns : Nat) : Rotation :=
  if r.lateAfter j = [] then { r with late := [], tick := none, pos := r.nextPos, start := ns } else { r with late := r.lateAfter j }

theorem handOver_none {s : State} {j : LehrJob} (h : rotationFor s j = none) : handOver s j = s := by
  unfold handOver
  rw [h]

/-- R113, R114: slices of a rotation are handed over once the copy engines that pass with them have been bound anew. -/
theorem handOver_some {s : State} {j : LehrJob} {n : Nat} {r : Rotation} (h : rotationFor s j = some (n, r)) :
    ∃ u, Ebbs s u ∧ handOver s j = setRot u n (r.handed j s.hub.ns) := by
  unfold handOver
  rw [h]
  dsimp only
  generalize hu : (if (r.late.filter fun x => !(x.1 == j.isl && nbit j.slices x.2)).any fun x => x.1 == j.isl then s
    else _) = u
  have hebbs : Ebbs s u := by
    subst hu
    split
    · exact .rfl' s
    · exact ((abandonCopies_ebbs ..).trans (unbindCopies_ebbs ..)).trans (rebindCopies_ebbs ..)
  refine ⟨u, hebbs, ?_⟩
  rw [← ns_of_winds hebbs.winds]
  unfold Rotation.handed Rotation.lateAfter
  split <;> rfl

/-- What ends work but for the rotations. -/
theorem handOver_ebbs (s : State) (j : LehrJob) :
    ∃ u, Ebbs s u ∧ ({ handOver s j with par := { (handOver s j).par with rots := [] } } : State) =
      { u with par := { u.par with rots := [] } } := by
  cases h : rotationFor s j with
  | none => exact ⟨s, .rfl' s, by rw [handOver_none h]⟩
  | some e =>
    obtain ⟨n, r⟩ := e
    obtain ⟨u, hebbs, hu⟩ := handOver_some h
    exact ⟨u, hebbs, by rw [hu]; rfl⟩

/-- R114: slices that are handed over change neither jobs nor tokens. -/
theorem handOver_par (s : State) (j : LehrJob) : (handOver s j).par.jobs = s.par.jobs ∧
    (handOver s j).par.scrub = s.par.scrub ∧ (handOver s j).par.tokens = s.par.tokens := by
  obtain ⟨u, hebbs, hu⟩ := handOver_ebbs s j
  have hpar : ({ (handOver s j).par with faults := [], rots := [] } : PartSt) = { s.par with faults := [], rots := [] } :=
    (congrArg (fun x : State => ({ x.par with faults := [] } : PartSt)) hu).trans hebbs.par
  exact ⟨(congrArg PartSt.jobs hpar :), (congrArg PartSt.scrub hpar :), (congrArg PartSt.tokens hpar :)⟩

theorem rotationFor_of_rots {s t : State} (h : t.par.rots = s.par.rots) (j : LehrJob) :
    rotationFor t j = rotationFor s j := by
  unfold rotationFor
  rw [h]

/-! ### The stages of an event -/

/-- R119, steps 1 to 6: the slices are scrubbed, the tokens of those whose check held are written, and the event leaves the queue. -/
def tokened (s : State) (j : LehrJob) (bad : Nat) : State :=
  dropJob (((maskSlices j.slices).filter (!nbit bad ·)).foldl (writeToken j) (scrubbed s j)) j

/-- R119: the slices of an event take teams again, but for those whose check failed. -/
def resettled (s : State) (j : LehrJob) (bad : Nat) : State :=
  let s1 := unfenceSlices s j.isl j.slices j.reason
  let fail := j.slices &&& bad
  releaseTokens (if fail = 0 then s1 else report (deadenSlices s1 j.isl fail) 0 11 [j.isl, fail]) j.isl

theorem lehrDone_slices (s : State) {j : LehrJob} (bad : Nat) (h : j.reason ≠ 6) :
    lehrDone s j bad = resettled (handOver (tokened s j bad) j) j bad := by
  unfold lehrDone
  rw [if_neg h]
  rfl

theorem lehrDone_engines (s : State) {j : LehrJob} (bad : Nat) (h : j.reason = 6) :
    lehrDone s j bad = lehrEngines s j bad := if_pos h

section
variable {s : State} {j : LehrJob} {bad : Nat}

theorem lehrEvent_occurs (hocc : s.occ = .lehr j bad) (h : (queuedJobOk s j || switchJobOk s j) = true) :
    Occurs .lehrEvent s (lehrDone s j bad) := by
  unfold Occurs
  rw [exec_lehrEvent, execLehrEvent, hocc]
  simp only [h, if_true]

theorem lehrEvent_refused (hocc : s.occ = .lehr j bad) (h : (queuedJobOk s j || switchJobOk s j) = false) :
    exec .lehrEvent s = .refused (.notEnabled "LEHR_EVENT") := by
  rw [exec_lehrEvent, execLehrEvent, hocc]
  simp only [h]
  rfl

/-! ### What the tokens leave -/

theorem tokened_kept (s : State) (j : LehrJob) (bad : Nat) : (tokened s j bad).core = (scrubbed s j).core ∧
    (tokened s j bad).mem = (scrubbed s j).mem ∧ (tokened s j bad).eng = (scrubbed s j).eng ∧
    (tokened s j bad).hub = s.hub ∧ (tokened s j bad).par.rots = s.par.rots ∧
    (tokened s j bad).par.jobs = s.par.jobs.erase j := by
  obtain ⟨hpar, hhub⟩ := scrubbed_outside s j
  obtain ⟨hstate, hkept⟩ := foldl_writeToken_kept j ((maskSlices j.slices).filter (!nbit bad ·)) (scrubbed s j)
  unfold tokened
  generalize ((maskSlices j.slices).filter (!nbit bad ·)).foldl (writeToken j) (scrubbed s j) = u at hstate hkept ⊢
  have hrots : u.par.rots = s.par.rots := (congrArg PartSt.rots hkept).trans (congrArg PartSt.rots hpar)
  have hjobs : u.par.jobs = s.par.jobs := (congrArg PartSt.jobs hkept).trans (congrArg PartSt.jobs hpar)
  exact ⟨(congrArg State.core hstate :), (congrArg State.mem hstate :), (congrArg State.eng hstate :),
    (congrArg State.hub hstate).trans hhub, hrots, congrArg (·.erase j) hjobs⟩

theorem maskSlices_filter_nodup (mask : Nat) (p : Nat → Bool) : ((maskSlices mask).filter p).Nodup :=
  (List.nodup_range.filter _).filter _

/-- R119, R120: a slice whose check held is counted and has its token. -/
theorem tokened_good {k : Nat} (hk : k ∈ maskSlices j.slices) (hgood : nbit bad k = false) :
    (tokened s j bad).par.scrub.get? (j.isl, k) = some (s.par.scrub.getD (j.isl, k) 0 + 1) ∧
    ∃ u, (tokened s j bad).par.tokens.get? (j.isl, k) = some (makeToken u j k (s.par.scrub.getD (j.isl, k) 0 + 1)) := by
  have h := foldl_writeToken_mem (j := j) (scrubbed s j) (maskSlices_filter_nodup j.slices (!nbit bad ·))
    (List.mem_filter.2 ⟨hk, by simp [hgood]⟩)
  rw [(scrubbed_outside s j).1] at h
  exact h

/-- R119: a slice whose check failed has no token. -/
theorem tokened_bad {k : Nat} (hbad : nbit bad k = true) :
    (tokened s j bad).par.scrub.get? (j.isl, k) = s.par.scrub.get? (j.isl, k) ∧
    (tokened s j bad).par.tokens.get? (j.isl, k) = s.par.tokens.get? (j.isl, k) := by
  have hk : k ∉ (maskSlices j.slices).filter (!nbit bad ·) := fun h => by simpa [hbad] using (List.mem_filter.1 h).2
  have h := foldl_writeToken_ne (j := j) (scrubbed s j) hk
  rw [(scrubbed_outside s j).1] at h
  exact h

/-! ### What the end of an event leaves -/

theorem resettled_kept (s : State) (j : LehrJob) (bad : Nat) : (resettled s j bad).core = s.core ∧ (resettled s j bad).mem = s.mem ∧
    (resettled s j bad).par.jobs = s.par.jobs ∧ (resettled s j bad).par.scrub = s.par.scrub ∧
    (resettled s j bad).par.tokens = s.par.tokens ∧ (resettled s j bad).par.rots = s.par.rots := by
  unfold resettled
  dsimp only
  split <;> exact ⟨rfl, rfl, rfl, rfl, rfl, rfl⟩

/-- R119: no slice of an event waits any more for its token. -/
theorem resettled_unfenced (s : State) (j : LehrJob) (bad : Nat) {k : Nat} (hk : k ∈ maskSlices j.slices) :
    (j.isl, k) ∉ (resettled s j bad).par.fencedSlices := by
  have hfenced : (resettled s j bad).par.fencedSlices =
      s.par.fencedSlices.filter fun x => !(x.1 == j.isl && nbit j.slices x.2) := by
    unfold resettled
    dsimp only
    split <;> rfl
  have hbit := (List.mem_filter.1 hk).2
  rw [hfenced]
  intro h
  have hkeep := (List.mem_filter.1 h).2
  simp_all

theorem mem_deadenSlices (s : State) (isl : Nat) {mask k : Nat} (hk : k ∈ maskSlices mask) :
    (isl, k) ∈ (deadenSlices s isl mask).par.deadSlices := by
  refine foldl_attains (Inv := fun _ => True) (Goal := fun l : List (Nat × Nat) => (isl, k) ∈ l) _ (fun _ _ _ => trivial)
    (fun l _ => ?_) (fun l x h => ?_) hk trivial
  · split
    · next h => simpa using h
    · exact List.mem_append_right _ (List.mem_singleton_self _)
  · split
    · exact h
    · exact List.mem_append_left _ h

/-- R119: a slice whose check failed stays out of use. -/
theorem resettled_dead (s : State) {j : LehrJob} {bad k : Nat} (hk : k ∈ maskSlices j.slices) (hbad : nbit bad k = true) :
    (j.isl, k) ∈ (resettled s j bad).par.deadSlices := by
  obtain ⟨hrange, hbit⟩ := List.mem_filter.1 hk
  have hfail : nbit (j.slices &&& bad) k = true := by simp_all
  have hne : j.slices &&& bad ≠ 0 := fun h => by simp [h] at hfail
  have hmem : k ∈ maskSlices (j.slices &&& bad) := List.mem_filter.2 ⟨hrange, hfail⟩
  unfold resettled
  dsimp only
  rw [if_neg hne]
  exact (mem_deadenSlices (unfenceSlices s j.isl j.slices j.reason) j.isl hmem :)

/-! ### An event of slices -/

/-- R119: an event's slices are counted, have their tokens and take teams again, but for those whose check failed. -/
theorem lehrDone_slice (hreason : j.reason ≠ 6) {k : Nat} (hk : k ∈ maskSlices j.slices) :
    (j.isl, k) ∉ (lehrDone s j bad).par.fencedSlices ∧
    (nbit bad k = false → (lehrDone s j bad).par.scrub.get? (j.isl, k) = some (s.par.scrub.getD (j.isl, k) 0 + 1) ∧
      ∃ u, (lehrDone s j bad).par.tokens.get? (j.isl, k) = some (makeToken u j k (s.par.scrub.getD (j.isl, k) 0 + 1))) ∧
    (nbit bad k = true → (j.isl, k) ∈ (lehrDone s j bad).par.deadSlices ∧
      (lehrDone s j bad).par.scrub.get? (j.isl, k) = s.par.scrub.get? (j.isl, k) ∧
      (lehrDone s j bad).par.tokens.get? (j.isl, k) = s.par.tokens.get? (j.isl, k)) := by
  obtain ⟨-, -, -, hscrub, htokens, -⟩ := resettled_kept (handOver (tokened s j bad) j) j bad
  obtain ⟨-, hscrub', htokens'⟩ := handOver_par (tokened s j bad) j
  rw [lehrDone_slices s bad hreason, hscrub, htokens, hscrub', htokens']
  exact ⟨resettled_unfenced _ j bad hk, tokened_good hk, fun hbad => ⟨resettled_dead _ hk hbad, tokened_bad hbad⟩⟩

/-- R120, R121: what the token of a slice names; after a warm reset, the partitions are the slice's own. -/
theorem makeToken_names (u : State) (j : LehrJob) (k n : Nat) :
    ((makeToken u j k n).seq, (makeToken u j k n).reason, (makeToken u j k n).slice, (makeToken u j k n).slicemask,
      (makeToken u j k n).cemask, (makeToken u j k n).classes) = (n, j.reason, k, j.slices, j.cemask, classesOf j.reason) ∧
    (j.reason ≠ 5 → ((makeToken u j k n).partIn, (makeToken u j k n).partOut) = (j.partIn, j.partOut)) :=
  ⟨rfl, fun h => by simp only [makeToken, tokenPart, if_neg h]⟩

/-- R119: the event has left the queue. -/
theorem lehrDone_jobs (hreason : j.reason ≠ 6) : (lehrDone s j bad).par.jobs = s.par.jobs.erase j := by
  obtain ⟨-, -, hjobs, -⟩ := resettled_kept (handOver (tokened s j bad) j) j bad
  obtain ⟨-, -, -, -, -, htokened⟩ := tokened_kept s j bad
  rw [lehrDone_slices s bad hreason, hjobs, (handOver_par ..).1, htokened]

/-- R121: nothing of the members, accumulators and scratchpads of an event's slices is left. -/
theorem lehrDone_cleared (hreason : j.reason ≠ 6) :
    (∀ m x, s.member? m = some x → m.isl = j.isl → inSlices j.slices x.core = true → (lehrDone s j bad).member? m = none) ∧
    (∀ c x w, inSlices j.slices c = true → (lehrDone s j bad).mem.acc.get? (j.isl, c, x, w) = none) ∧
    (s.eng.outs = [] → ∀ c o, c < 96 → o < 2 ^ 19 → inSlices j.slices c = true →
      (lehrDone s j bad).mem.spad.get (skey j.isl c o) = 0) := by
  obtain ⟨hcore, hmem, -⟩ := resettled_kept (handOver (tokened s j bad) j) j bad
  obtain ⟨hcore', hmem', heng, -⟩ := tokened_kept s j bad
  obtain ⟨u, hebbs, hu⟩ := handOver_ebbs (tokened s j bad) j
  have hucore : (lehrDone s j bad).core = u.core := by
    rw [lehrDone_slices s bad hreason, hcore]
    exact (congrArg State.core hu :)
  have humem : (lehrDone s j bad).mem = u.mem := by
    rw [lehrDone_slices s bad hreason, hmem]
    exact (congrArg State.mem hu :)
  refine ⟨fun m x hm hisl hin => ?_, fun c x w hin => ?_, fun houts c o hc ho hin => ?_⟩
  · unfold State.member?
    rw [hucore]
    refine hebbs.member?_none ?_
    unfold State.member?
    rw [hcore']
    exact scrubbed_member? hm hisl hin
  · rw [humem, hebbs.acc, hmem']
    exact scrubbed_acc s x w hin
  · obtain ⟨hnone, hspad⟩ := scrubbed_spad houts hc ho hin
    rw [humem, (hebbs.spads (heng ▸ hnone)).2, hmem']
    exact hspad

/-- R113, R114: the rotation whose switch the event serves. -/
theorem lehrDone_rot (hreason : j.reason ≠ 6) {n : Nat} {r : Rotation} (hrot : rotationFor s j = some (n, r)) :
    (lehrDone s j bad).par.rots.get? n = some (r.handed j s.hub.ns) := by
  obtain ⟨-, -, -, -, -, hrots⟩ := resettled_kept (handOver (tokened s j bad) j) j bad
  obtain ⟨-, -, -, hhub, hrots', -⟩ := tokened_kept s j bad
  obtain ⟨u, -, hu⟩ := handOver_some ((rotationFor_of_rots hrots' j).trans hrot)
  rw [lehrDone_slices s bad hreason, hrots, hu, hhub]
  exact Tbl.get?_set_self ..

/-! ### An event of engines -/

/-- R119: the engines of an event are cleared, and it leaves the queue. -/
def enginesCleared (s : State) (j : LehrJob) : State := dropJob (clearEngines s j.isl j.cemask) j

theorem enginesCleared_par (s : State) (j : LehrJob) :
    (enginesCleared s j).par = { s.par with jobs := s.par.jobs.erase j } := by
  have h := (clearEngines_kept s j.isl j.cemask).1
  simp only [State.outside, Prod.mk.injEq] at h
  obtain ⟨-, hpar, -⟩ := h
  exact congrArg (fun p : PartSt => { p with jobs := p.jobs.erase j }) hpar

/-- R85: engines that have passed, with the chains of the others. -/
theorem moveEngines_par (s : State) (j : LehrJob) : (moveEngines s j).par.jobs = s.par.jobs ∧
    (moveEngines s j).par.scrub = s.par.scrub ∧
    (moveEngines s j).par.parts = (s.par.parts.modify j.partOut fun p =>
      { p with ce := p.ce.set j.isl (p.ce.getD j.isl 0 - (p.ce.getD j.isl 0 &&& j.cemask)) }).modify j.partIn fun p =>
      { p with ce := p.ce.set j.isl (p.ce.getD j.isl 0 ||| j.cemask) } := by
  have hebbs := unbindCopies_ebbs s (fun c ce => c.isl == j.isl && nbit j.cemask ce) true
  unfold moveEngines
  dsimp only
  generalize unbindCopies s _ true = u at hebbs ⊢
  have hparts : u.par.parts = s.par.parts := (congrArg PartSt.parts hebbs.par :)
  rw [← hparts]
  exact ⟨(congrArg PartSt.jobs hebbs.par :), (congrArg PartSt.scrub hebbs.par :), rfl⟩

theorem lehrEngines_good (s : State) (j : LehrJob) :
    lehrEngines s j 0 = moveEngines (writeToken j (enginesCleared s j) 15) j := rfl

theorem lehrEngines_bad (s : State) (j : LehrJob) (h : bad ≠ 0) :
    lehrEngines s j bad = report (enginesCleared s j) 0 11 [j.isl, 0] := if_neg h

/-- R85, R119: engines whose check held pass to their new owner. -/
theorem lehrDone_moves (hreason : j.reason = 6) : (lehrDone s j 0).par.jobs = s.par.jobs.erase j ∧
    (lehrDone s j 0).par.scrub.get? (j.isl, 15) = some (s.par.scrub.getD (j.isl, 15) 0 + 1) ∧
    ∀ a b, s.part? j.partOut = some a → s.part? j.partIn = some b → j.partOut ≠ j.partIn →
      ((lehrDone s j 0).part? j.partOut).map (·.ce.getD j.isl 0) =
        some (a.ce.getD j.isl 0 - (a.ce.getD j.isl 0 &&& j.cemask)) ∧
      ((lehrDone s j 0).part? j.partIn).map (·.ce.getD j.isl 0) = some (b.ce.getD j.isl 0 ||| j.cemask) := by
  obtain ⟨hjobs, hscrub, hparts⟩ := moveEngines_par (writeToken j (enginesCleared s j) 15) j
  have hpar := enginesCleared_par s j
  have hcount : (enginesCleared s j).par.scrub.getD (j.isl, 15) 0 = s.par.scrub.getD (j.isl, 15) 0 := by rw [hpar]
  have hold : (writeToken j (enginesCleared s j) 15).par.parts = s.par.parts := (congrArg PartSt.parts hpar :)
  rw [lehrDone_engines s 0 hreason, lehrEngines_good]
  refine ⟨hjobs.trans (congrArg PartSt.jobs hpar :), ?_, fun a b ha hb hne => ?_⟩
  · rw [hscrub, ← hcount]
    exact Tbl.get?_set_self ..
  · have ha' : s.par.parts.get? j.partOut = some a := ha
    have hb' : s.par.parts.get? j.partIn = some b := hb
    unfold State.part?
    rw [hparts, hold]
    simp [Tbl.get?_modify, ha', hb', hne, Ne.symm hne]

/-- R119: engines whose check failed stay with their old owner (log entry 47). -/
theorem lehrDone_stays (hreason : j.reason = 6) (hbad : bad ≠ 0) : (lehrDone s j bad).par.jobs = s.par.jobs.erase j ∧
    (lehrDone s j bad).par.parts = s.par.parts ∧ (lehrDone s j bad).par.tokens = s.par.tokens := by
  have hpar : (lehrDone s j bad).par = { s.par with jobs := s.par.jobs.erase j } := by
    rw [lehrDone_engines s bad hreason, lehrEngines_bad s j hbad]
    exact enginesCleared_par s j
  rw [hpar]
  exact ⟨rfl, rfl, rfl⟩

end

end Sys2Proof.Machine
end

section
/-! R114 to R147: the events of teams, rotations and the lehr take place when they are due. -/

namespace Sys2Proof.Machine

open Sys2Proof

/-- Settles O45, family by family: placement (R140 to R144), the end of a team (R147), its save and its restore (R125 to R128),
the switch of a rotation (R113 to R117, R129), and the events of the lehr (R119 to R121). -/
theorem teamEvents : Obligations.TeamEvents := by
  unfold Obligations.TeamEvents
  refine ⟨?_, ?_, ?_, ?_, ?_⟩
  · intro s s' isl part team c0 turn c cs q k o e hocc
    refine ⟨teamPlacement_occurs hocc, teamPlacement_refused hocc, dispatch_first,
      fun hturn hfence hslices hplace hisl hpart hmark => ⟨fun hk hspan hteam => ?_, fun hk horigin => ?_⟩⟩
    · obtain ⟨t, ht, hteam', hqueue, hturn', hgaffer⟩ :=
        teamPlacement_places hocc hturn hfence hslices hplace hisl hpart hmark hk hspan hteam
      exact ⟨t, ht, by rw [hteam']; rfl, by rw [hteam']; rfl, hqueue, hturn', fun i pc hi hpc => by rw [hgaffer i pc hi hpc]; rfl⟩
    · obtain ⟨t, ht, hteams, hqueue, hmem⟩ :=
        teamPlacement_fails hocc hturn hfence hslices hplace hisl hpart hmark hk horigin
      exact ⟨t, ht, hteams, hqueue, fun i a => by rw [hmem]⟩
  · intro s isl team t e st lc c now released calm
    refine ⟨fun _ => ⟨retireTeam_released .., retireTeam_byte t⟩, fun part va hi lo v pa => wrote_writeField v,
      fun p pa => wrote_closePsw lc, fun hocc ht hgone => ⟨fun hending hnone => ⟨?_, ?_⟩,
        fun hending he => ⟨?_, fun hcmd hwait => ⟨fun horigin => ?_, fun horigin hc => ?_⟩, fun x => ?_⟩, fun hending hdone => ?_, ?_⟩⟩
    · exact teamEnd_begins hocc ht hgone hending hnone
    · exact teamEnd_open hocc ht hgone hending hnone
    · exact teamEnd_waits hocc ht hgone hending he
    · obtain ⟨u, hu, hrel, hends, hbytes⟩ := teamEnd_finishes hocc ht hgone hending he hcmd hwait horigin
      exact ⟨u, hu, hrel, hends, hbytes⟩
    · obtain ⟨u, hu, hteam, hend, hcmds, hmem⟩ := teamEnd_launch hocc ht hgone hending he hcmd hwait horigin hc
      exact ⟨u, hu, hteam, hend, hcmds, fun i a => by rw [hmem]; rfl⟩
    · exact teamEnd_launched hocc ht hgone hending he
    · obtain ⟨u, hu, hteam, hqueue, hmem⟩ := teamEnd_discards hocc ht hgone hending hdone
      exact ⟨u, hu, hteam, hqueue, fun i a => by rw [hmem]⟩
    · exact teamEnd_running hocc ht hgone
  · intro s isl team t p hocc ht
    refine ⟨fun hp hready => ⟨fun u hmap => ?_, fun e hmap => ?_⟩, resumeMapWrite_refused hocc ht,
      fun va bs pa => wrote_writeLong, restoreComplete_closes hocc ht, restoreComplete_refused hocc ht⟩
    · obtain ⟨v, hv, hteam, hsaved, hbytes⟩ := resumeMapWrite_saves hocc ht hp hready hmap
      exact ⟨v, hv, hteam, hsaved, fun houts hchains => hbytes ⟨houts, hchains⟩⟩
    · exact resumeMapWrite_loses hocc ht hp hready hmap
  · intro s isl n dc r k t
    refine ⟨⟨decide_drain, decide_save, decide_discard, decide_saveLate, decide_lost⟩, fun hr => ⟨fun hocc hready => ?_,
      fun hocc => switchTick_refused hocc hr, fun hocc hdue => ?_, fun hocc => deadlineExpiry_refused hocc hr,
      fun hocc hpast hk ht hrun => ?_, fun hocc => overrunLimit_refused hocc hr⟩⟩
    · exact (switchTick_occurs hocc hr hready).gives ⟨switchTick_rot s n r, switchTick_teams⟩
    · exact (deadlineExpiry_occurs hocc hr hdue).gives ⟨deadline_afresh s isl r, fun hk ht hrun =>
        ⟨fun hgang => deadline_marks hgang hk ht hrun, fun hgang => deadline_loses hgang hk ht hrun⟩⟩
    · exact (overrunLimit_occurs hocc hr hpast hk ht hrun).gives (overrunTeams_stops hk ht hrun)
  · intro s j bad n r a b hocc
    refine ⟨fun p => writeBack_byte s j.isl p, lehrEvent_refused hocc, fun hok => ⟨fun hreason => ?_, fun hreason hbad => ?_,
      fun hreason hbad => ?_⟩⟩
    · obtain ⟨hmembers, hacc, hspad⟩ := lehrDone_cleared (s := s) (bad := bad) hreason
      refine (lehrEvent_occurs hocc hok).gives ⟨lehrDone_jobs hreason, fun k hk => ?_, hmembers, hacc, hspad, fun hrot =>
        ⟨fun hlate => (lehrDone_rot hreason hrot).trans (congrArg some (if_neg hlate)),
          fun hlate => (lehrDone_rot hreason hrot).trans (congrArg some (if_pos hlate))⟩⟩
      obtain ⟨hfenced, hgood, hdead⟩ := lehrDone_slice (s := s) (bad := bad) hreason hk
      refine ⟨hfenced, fun hbit => ?_, hdead⟩
      obtain ⟨hscrub, u, htoken⟩ := hgood hbit
      obtain ⟨hnames, hparts⟩ := makeToken_names u j k (s.par.scrub.getD (j.isl, k) 0 + 1)
      exact ⟨hscrub, (congrArg (Option.map _) htoken).trans (congrArg some hnames), fun hother =>
        (congrArg (Option.map _) htoken).trans (congrArg some (hparts hother))⟩
    · subst hbad
      obtain ⟨hjobs, hscrub, hparts⟩ := lehrDone_moves (s := s) hreason
      exact (lehrEvent_occurs hocc hok).gives ⟨hjobs, hscrub, hparts a b⟩
    · exact (lehrEvent_occurs hocc hok).gives (lehrDone_stays hreason hbad)

end Sys2Proof.Machine
end

section
/-! R134: what a join decrement makes of a join word. -/

namespace Sys2Proof.Machine

open Sys2Proof

/-- R132: the fields of a join word, as remainders and quotients of its 64 bits. -/
theorem joinWord_fields {w : Nat} (hw : w < 2 ^ 64) :
    jwState w = w / 2 ^ 56 ∧ jwLate w = w / 2 ^ 40 % 2 ^ 16 ∧ jwCnt w = w % 2 ^ 32 := by
  have hst : w / 2 ^ 56 < 2 ^ 8 := by omega
  refine ⟨Nat.mod_eq_of_lt hst, rfl, ?_⟩
  exact congrArg (· % 2 ^ 32) (Nat.div_one w)

/-- R132: fields within their widths stand in the word as they are. -/
theorem joinWord_of_lt {st late cnt : Nat} (hst : st < 256) (hlate : late < 2 ^ 16) (hcnt : cnt < 2 ^ 32) :
    joinWord st late cnt = st * 2 ^ 56 + late * 2 ^ 40 + cnt := by
  rw [joinWord, Nat.mod_eq_of_lt hst, Nat.mod_eq_of_lt hlate, Nat.mod_eq_of_lt hcnt]

theorem satAdd16_lt (a b : Nat) : satAdd16 a b < 2 ^ 16 := by
  unfold satAdd16
  omega

theorem satAdd16_zero {a : Nat} (ha : a < 2 ^ 16) : satAdd16 a 0 = a := by
  unfold satAdd16
  omega

/-- R134: a word that counts, WAITING or a COUNTER, with a positive count. -/
def JoinLive (w : Nat) : Prop := (jwState w = 1 ∨ jwState w = 7) ∧ 0 < jwCnt w

section
variable {w count : Nat}

theorem decremented_live (h : JoinLive w) : decremented w count =
    (joinWord (if jwState w == 1 && jwCnt w - count == 0 then 2 else jwState w) (satAdd16 (jwLate w) (count - jwCnt w))
      (jwCnt w - count), jwState w == 1 && jwCnt w - count == 0) := if_pos h

theorem decremented_above (h : JoinLive w) (hcount : count < jwCnt w) :
    decremented w count = (joinWord (jwState w) (satAdd16 (jwLate w) 0) (jwCnt w - count), false) := by
  have hleft : jwCnt w - count ≠ 0 := Nat.sub_ne_zero_of_lt hcount
  have hover : count - jwCnt w = 0 := Nat.sub_eq_zero_of_le hcount.le
  simp [decremented_live h, hleft, hover]

theorem decremented_through (h : JoinLive w) (hcount : jwCnt w ≤ count) : decremented w count =
    (joinWord (if jwState w = 1 then 2 else 7) (satAdd16 (jwLate w) (count - jwCnt w)) 0, jwState w == 1) := by
  have hleft : jwCnt w - count = 0 := Nat.sub_eq_zero_of_le hcount
  rw [decremented_live h, hleft]
  obtain ⟨hst | hst, -⟩ := h
  · rw [hst]
    rfl
  · rw [hst]
    rfl

theorem decremented_idle (h : ¬ JoinLive w) :
    decremented w count = (joinWord (jwState w) (satAdd16 (jwLate w) count) (jwCnt w), false) := if_neg h

end

/-- Settles O41, by the three cases of R134: a count above the decrement, one that it uses up, and a word that does not
count. -/
theorem joinDecrements : Obligations.JoinDecrements := by
  unfold Obligations.JoinDecrements
  intro w count hw st late cnt word live
  obtain ⟨hst, hlate, hcnt⟩ : jwState w = st ∧ jwLate w = late ∧ jwCnt w = cnt := joinWord_fields hw
  have hlive : JoinLive w ↔ live := by rw [JoinLive, hst, hcnt]
  have hstlt : st < 256 := Nat.div_lt_of_lt_mul hw
  have hlatelt : late < 2 ^ 16 := Nat.mod_lt _ (by decide)
  have hcntlt : cnt < 2 ^ 32 := Nat.mod_lt _ (by decide)
  refine ⟨fun h hcount => ?_, fun h hcount => ?_, fun h => ?_⟩
  · rw [decremented_above (hlive.2 h) (hcnt ▸ hcount), hst, hlate, hcnt, satAdd16_zero hlatelt,
      joinWord_of_lt hstlt hlatelt (by omega)]
  · rw [decremented_through (hlive.2 h) (hcnt ▸ hcount), hst, hlate, hcnt,
      joinWord_of_lt (by split <;> decide) (satAdd16_lt ..) (by decide)]
    rfl
  · rw [decremented_idle (mt hlive.1 h), hst, hlate, hcnt, joinWord_of_lt hstlt (satAdd16_lt ..) hcntlt]
    rfl

end Sys2Proof.Machine
end

section
/-! R149, R161, R185, R231, R276, R354, R400, R444: completions, ends of waits, the watchdog and cairn probes, when they are
due and when they are not. -/

namespace Sys2Proof.Machine

open Sys2Proof

/-! ### The shape of the events -/

/-- What these events share: each concerns something that there may be, and takes place where that is due. -/
def dueEvent {α : Type} (s : State) (m : String) (x : Option α) (due : α → Bool) (f : α → State) : Out :=
  match x with
  | some a => if due a then .next (commit s (f a)) else idle m
  | none => idle m

section
variable {α : Type} {s : State} {m : String} {x : Option α} {a : α} {due : α → Bool} {f : α → State}

theorem dueEvent_occurs (hx : x = some a) (h : due a = true) : dueEvent s m x due f = .next (commit s (f a)) := by
  subst hx
  exact if_pos h

theorem dueEvent_refused (h : ∀ a, x = some a → due a = false) : dueEvent s m x due f = .refused (.notEnabled m) := by
  cases x with
  | none => rfl
  | some a => exact if_neg (by simp [h a rfl])

end

/-! ### Events of an operation -/

section
variable {s : State} {id : Nat} {o : Op}

theorem opEvent_at (m : String) (p : Op → Bool) (f : Op → State) (hocc : s.occ = .op id) :
    opEvent s m p f = dueEvent s m (s.op? id) p f := by
  have hop : occOp s = s.op? id := by rw [occOp, hocc]
  rw [opEvent, hop]
  cases s.op? id <;> rfl

theorem exec_variableLatencyCompletion_at (hocc : s.occ = .op id) : exec .variableLatencyCompletion s =
    dueEvent s "VARIABLE_LATENCY_COMPLETION" (s.op? id) (·.ready s) (complete s) := opEvent_at _ _ _ hocc

/-- R161: an operation completes when it is ready, and then only. -/
theorem completion_due (hocc : s.occ = .op id) (ho : s.op? id = some o) :
    (o.ready s = true → Occurs .variableLatencyCompletion s (complete s o)) ∧
    (o.ready s = false → exec .variableLatencyCompletion s = .refused (.notEnabled "VARIABLE_LATENCY_COMPLETION")) := by
  rw [Occurs, exec_variableLatencyCompletion_at hocc]
  exact ⟨dueEvent_occurs ho, fun h => dueEvent_refused (by simpa [ho] using h)⟩

theorem mwaitExpired_eq {d : Option Nat} {nowatch : Bool} (hact : o.act = .mwait d nowatch) :
    mwaitExpired s o = d.any fun x => decide (x ≤ s.clk o.m.isl) := by
  rw [mwaitExpired, hact]
  cases d <;> rfl

theorem mwaitExpired_other (hact : ∀ x w, o.act ≠ .mwait x w) : mwaitExpired s o = false := by
  unfold mwaitExpired
  split
  next d w h => exact absurd h (hact _ _)
  next => rfl

/-- R400: the timeout of an MWAIT takes place once its clock has come. -/
theorem mwaitTimeout_occurs {x : Nat} {nowatch : Bool} (hocc : s.occ = .op id) (ho : s.op? id = some o)
    (hact : o.act = .mwait (some x) nowatch) (hdue : x ≤ s.clk o.m.isl) :
    Occurs .mwaitTimeout s (returnMwait s o nowatch true) := by
  have hexpired : mwaitExpired s o = true := by simpa [mwaitExpired_eq hact] using hdue
  rw [Occurs, exec_mwaitTimeout, execMwaitTimeout, opEvent_at _ _ _ hocc, dueEvent_occurs ho hexpired]
  simp only [hact]

theorem mwaitTimeout_refused (hocc : s.occ = .op id) (ho : s.op? id = some o) (h : mwaitExpired s o = false) :
    exec .mwaitTimeout s = .refused (.notEnabled "MWAIT_TIMEOUT") := by
  rw [exec_mwaitTimeout, execMwaitTimeout, opEvent_at _ _ _ hocc]
  exact dueEvent_refused (by simpa [ho] using h)

/-- R276, R400: an MWAIT may return for no reason at any time. -/
theorem mwaitReturnNoReason_occurs {d : Option Nat} {nowatch : Bool} (hocc : s.occ = .op id) (ho : s.op? id = some o)
    (hact : o.act = .mwait d nowatch) :
    Occurs .mwaitReturnNoReason s (returnMwait s o nowatch (d.any fun x => decide (x ≤ s.clk o.m.isl))) := by
  rw [Occurs, exec_mwaitReturnNoReason, execMwaitReturnNoReason, opEvent_at _ _ _ hocc,
    dueEvent_occurs ho (by simp only [hact])]
  simp only [hact, mwaitExpired_eq hact]

theorem mwaitReturnNoReason_refused (hocc : s.occ = .op id) (ho : s.op? id = some o) (hact : ∀ x w, o.act ≠ .mwait x w) :
    exec .mwaitReturnNoReason s = .refused (.notEnabled "MWAIT_RETURN_NO_REASON") := by
  rw [exec_mwaitReturnNoReason, execMwaitReturnNoReason, opEvent_at _ _ _ hocc]
  refine dueEvent_refused fun a ha => ?_
  obtain rfl := Option.some.inj (ho.symm.trans ha)
  split
  next x w h => exact absurd h (hact x w)
  next => rfl

end

/-! ### Cairn probes -/

section
variable {s : State} {id : Nat} {o : Op} {ref : RecRef} {e : EngRec} {q : Queue}

theorem exec_cairnProbe_op (hocc : s.occ = .op id) (ho : s.op? id = some o) : exec .cairnProbe s =
    dueEvent s "CAIRN_PROBE" (o.blockedOn s) (fun q => inOrder s o && probeDue s o.m.isl o.since q) (probeOp s o) := by
  rw [exec_cairnProbe, execCairnProbe, hocc]
  simp only [ho, Option.bind_some]
  cases o.blockedOn s <;> rfl

theorem exec_cairnProbe_rec (hocc : s.occ = .engine ref) (he : s.rec? ref = some e) : exec .cairnProbe s =
    dueEvent s "CAIRN_PROBE" (e.blockedOn s) (probeDue s ref.chain.isl e.since) (probeRec s e) := by
  rw [exec_cairnProbe, execCairnProbe, hocc]
  simp only [he, Option.bind_some]
  cases e.blockedOn s <;> rfl

/-- R149: a blocked operation's probe takes place in its turn and when it is due, and then only. -/
theorem cairnProbe_op_due (hocc : s.occ = .op id) (ho : s.op? id = some o) :
    (inOrder s o = true → o.blockedOn s = some q → probeDue s o.m.isl o.since q = true →
      Occurs .cairnProbe s (probeOp s o q)) ∧
    ((inOrder s o = false ∨ o.blockedOn s = none ∨ (o.blockedOn s = some q ∧ probeDue s o.m.isl o.since q = false)) →
      exec .cairnProbe s = .refused (.notEnabled "CAIRN_PROBE")) := by
  rw [Occurs, exec_cairnProbe_op hocc ho]
  refine ⟨fun hturn hq hdue => dueEvent_occurs hq (by simp only [hturn, hdue, Bool.and_self]), ?_⟩
  rintro (hturn | hnone | ⟨hq, hdue⟩)
  · exact dueEvent_refused fun _ _ => by simp [hturn]
  · exact dueEvent_refused fun _ h => by simp [hnone] at h
  · exact dueEvent_refused fun p h => by simp [Option.some.inj (h.symm.trans hq), hdue]

/-- R231: the probe of a blocked copy engine takes place when it is due, and then only. -/
theorem cairnProbe_rec_due (hocc : s.occ = .engine ref) (he : s.rec? ref = some e) :
    (e.blockedOn s = some q → probeDue s ref.chain.isl e.since q = true → Occurs .cairnProbe s (probeRec s e q)) ∧
    ((e.blockedOn s = none ∨ (e.blockedOn s = some q ∧ probeDue s ref.chain.isl e.since q = false)) →
      exec .cairnProbe s = .refused (.notEnabled "CAIRN_PROBE")) := by
  rw [Occurs, exec_cairnProbe_rec hocc he]
  refine ⟨fun hq hdue => dueEvent_occurs hq hdue, ?_⟩
  rintro (hnone | ⟨hq, hdue⟩)
  · exact dueEvent_refused fun _ h => by simp [hnone] at h
  · exact dueEvent_refused fun p h => Option.some.inj (hq.symm.trans h) ▸ hdue

end

/-! ### Events of a thread -/

section
variable {s : State} {th : Thread} {r : ThreadRec} {n : Nat}

theorem occThread_at (hocc : s.occ = .thread th) (hr : s.thread? th = some r) : occThread s = some (th, r) := by
  rw [occThread, hocc]
  simp only [hr, Option.map_some]

theorem exec_yieldExpiry_at (hocc : s.occ = .thread th) (hr : s.thread? th = some r) : exec .yieldExpiry s =
    dueEvent s "YIELD_EXPIRY" r.wait.yielded (fun n => decide (n ≤ s.clk th.m.isl)) fun _ =>
      s.setThread th { r with wait := { r.wait with yielded := none } } := by
  rw [exec_yieldExpiry, execYieldExpiry, occThread_at hocc hr]
  dsimp only
  cases r.wait.yielded <;> simp only [dueEvent, decide_eq_true_eq]

theorem exec_sleepExpiry_at (hocc : s.occ = .thread th) (hr : s.thread? th = some r) : exec .sleepExpiry s =
    dueEvent s "SLEEP_EXPIRY" r.wait.asleep (fun n => decide (n ≤ s.clk th.m.isl)) fun _ =>
      s.setThread th { r with wait := { r.wait with asleep := none } } := by
  rw [exec_sleepExpiry, execSleepExpiry, occThread_at hocc hr]
  dsimp only
  cases r.wait.asleep <;> simp only [dueEvent, decide_eq_true_eq]

/-- R354: a YIELD ends once its clock has come, and then only. -/
theorem yieldExpiry_due (hocc : s.occ = .thread th) (hr : s.thread? th = some r) :
    (r.wait.yielded = some n → n ≤ s.clk th.m.isl →
      Occurs .yieldExpiry s (s.setThread th { r with wait := { r.wait with yielded := none } })) ∧
    ((∀ x, r.wait.yielded = some x → s.clk th.m.isl < x) →
      exec .yieldExpiry s = .refused (.notEnabled "YIELD_EXPIRY")) := by
  rw [Occurs, exec_yieldExpiry_at hocc hr]
  exact ⟨fun hn hdue => dueEvent_occurs hn (decide_eq_true hdue),
    fun h => dueEvent_refused fun x hx => decide_eq_false (h x hx).not_ge⟩

/-- R444: a SLEEP ends once its clock has come, and then only. -/
theorem sleepExpiry_due (hocc : s.occ = .thread th) (hr : s.thread? th = some r) :
    (r.wait.asleep = some n → n ≤ s.clk th.m.isl →
      Occurs .sleepExpiry s (s.setThread th { r with wait := { r.wait with asleep := none } })) ∧
    ((∀ x, r.wait.asleep = some x → s.clk th.m.isl < x) →
      exec .sleepExpiry s = .refused (.notEnabled "SLEEP_EXPIRY")) := by
  rw [Occurs, exec_sleepExpiry_at hocc hr]
  exact ⟨fun hn hdue => dueEvent_occurs hn (decide_eq_true hdue),
    fun h => dueEvent_refused fun x hx => decide_eq_false (h x hx).not_ge⟩

end

/-! ### The watchdog -/

section
variable {s : State} {isl team : Nat} {t : Team}

theorem exec_watchdogExpiry_at (hocc : s.occ = .team isl team) : exec .watchdogExpiry s =
    dueEvent s "WATCHDOG_EXPIRY" (s.team? isl team) Team.expired fun _ => endTeam s isl team 0x20 0 := by
  rw [exec_watchdogExpiry, execWatchdogExpiry, hocc]
  dsimp only
  cases s.team? isl team <;> rfl

theorem Team.expired_eq (hending : t.ending = none) (hfirst : t.first ≠ none) :
    t.expired = decide (t.hdr.wdog ≤ t.wdog) := by
  simp [Team.expired, hending, Option.isSome_iff_ne_none.2 hfirst]

/-- R185: a watchdog that has counted its budget ends its team with WATCHDOG, and all its threads stop. -/
theorem watchdogExpiry_ends (hocc : s.occ = .team isl team) (ht : s.team? isl team = some t) (hending : t.ending = none)
    (hexpired : t.expired = true) : Gives (exec .watchdogExpiry s) fun u =>
      (u.team? isl team).map (·.ending) = some (some (0x20, 0)) ∧
      ∀ th, th.m.isl = isl → th.m.team = team → u.thread? th = none := by
  have hoccurs : Occurs .watchdogExpiry s (endTeam s isl team 0x20 0) :=
    (exec_watchdogExpiry_at hocc).trans (dueEvent_occurs ht hexpired)
  refine hoccurs.gives ⟨?_, fun th hisl hteam => endTeam_thread? 0x20 0 ht hending hisl hteam⟩
  show ((endTeam s isl team 0x20 0).team? isl team).map _ = _
  rw [endTeam_team?_self 0x20 0 ht hending, Team.endsWith, if_pos hexpired]
  rfl

theorem watchdogExpiry_refused (hocc : s.occ = .team isl team) (ht : s.team? isl team = some t)
    (hexpired : t.expired = false) : exec .watchdogExpiry s = .refused (.notEnabled "WATCHDOG_EXPIRY") := by
  rw [exec_watchdogExpiry_at hocc]
  exact dueEvent_refused (by simpa [ht] using hexpired)

end

/-- Settles O43, by what the event names: an operation, a record of an engine, a thread, or a team. -/
theorem executionEvents : Obligations.ExecutionEvents := by
  unfold Obligations.ExecutionEvents
  intro s th r o id n isl team nowatch d tm q ref e
  refine ⟨fun hocc ho => ?_, fun hocc he => cairnProbe_rec_due hocc he, fun hocc hr => ?_,
    fun hocc ht hending hfirst => ?_⟩
  · obtain ⟨hcompletes, hunready⟩ := completion_due hocc ho
    obtain ⟨hprobe, hunprobed⟩ := cairnProbe_op_due hocc ho
    refine ⟨hcompletes, hunready, fun hact => ⟨mwaitReturnNoReason_occurs hocc ho hact, ?_, fun hearly => ?_⟩,
      fun hother => ⟨mwaitTimeout_refused hocc ho (mwaitExpired_other hother), mwaitReturnNoReason_refused hocc ho hother⟩,
      hprobe, hunprobed⟩
    · rintro ⟨x, rfl, hdue⟩
      exact mwaitTimeout_occurs hocc ho hact hdue
    · refine mwaitTimeout_refused hocc ho ?_
      rw [mwaitExpired_eq hact, Option.any_eq_false]
      exact fun x hx => by simpa using hearly x hx
  · obtain ⟨hyield, hyielding⟩ := yieldExpiry_due hocc hr
    obtain ⟨hsleep, hsleeping⟩ := sleepExpiry_due hocc hr
    exact ⟨hyield, hyielding, hsleep, hsleeping⟩
  · have hexpired := Team.expired_eq hending hfirst
    exact ⟨fun hdue => watchdogExpiry_ends hocc ht hending (hexpired.trans (decide_eq_true hdue)),
      fun hearly => watchdogExpiry_refused hocc ht (hexpired.trans (decide_eq_false hearly.not_ge))⟩

end Sys2Proof.Machine
end

section
/-! R153, R159, R297, R298: the start of a clause. -/

namespace Sys2Proof.Machine

open Sys2Proof

/-! ### Fetch -/

/-- R199: a fetch leaves all but the memories as it was. -/
theorem fetchWord_leaves {s u : State} {isl part core va w : Nat} (h : fetchWord s isl part core va = .ok (u, w)) :
    ∃ mem, u = { s with mem := mem } := by
  unfold fetchWord at h
  split at h
  · exact nomatch h
  · dsimp only at h
    split at h
    · exact nomatch h
    · obtain ⟨rfl, -⟩ := Prod.mk.inj (Except.ok.inj h)
      exact ⟨_, rfl⟩

theorem fetchWords_leaves {isl part core : Nat} (n : Nat) {va : Nat} {s u : State} {ws : List W64}
    (h : fetchWords isl part core n va s = .ok (u, ws)) : ∃ mem, u = { s with mem := mem } := by
  induction n generalizing va s ws with
  | zero =>
    obtain ⟨rfl, -⟩ := Prod.mk.inj (Except.ok.inj h)
    exact ⟨_, rfl⟩
  | succ n ih =>
    unfold fetchWords at h
    split at h
    · exact nomatch h
    · next hfirst =>
      obtain ⟨mem, rfl⟩ := fetchWord_leaves hfirst
      split at h
      · exact nomatch h
      · next hrest =>
        obtain ⟨rfl, -⟩ := Prod.mk.inj (Except.ok.inj h)
        obtain ⟨mem', rfl⟩ := ih hrest
        exact ⟨mem', rfl⟩

/-! ### The start -/

/-- R153, R160: a thread that takes its clause stands at its first slot and is in issue; its member has issued, and no register
changes. -/
theorem takeClause_takes (s : State) (th : Thread) (r : ThreadRec) (mr : MemberRec) (tm : Team) (cl : Clause) :
    let t := takeClause s th r mr tm cl
    (t.thread? th).map (fun x => (x.clause, x.slot, x.latches, x.pc, x.mask, x.sb)) =
      some (some cl, 0, zeroLatches, r.pc, r.mask, r.sb) ∧
    t.focus = some th ∧ (t.member? th.m).map (·.issued) = some true ∧
    t.core.vreg = s.core.vreg ∧ t.core.sreg = s.core.sreg ∧ t.core.pred = s.core.pred := by
  dsimp only [takeClause]
  split <;> exact ⟨congrArg (Option.map _) (thread?_setThread_self _ th _), rfl,
    congrArg (Option.map _) (member?_setMember_self _ th.m _), rfl, rfl, rfl⟩

section
variable {s t : State} {th : Thread}

theorem clauseStart_occurs (hocc : s.occ = .thread th) (h : clauseStart s th = some t) : Occurs .clauseStart s t := by
  rw [Occurs, exec_clauseStart, execClauseStart, hocc]
  dsimp only
  rw [h]

theorem clauseStart_refused (hocc : s.occ = .thread th) (h : clauseStart s th = none) :
    exec .clauseStart s = .refused (.notEnabled "CLAUSE_START") := by
  rw [exec_clauseStart, execClauseStart, hocc]
  dsimp only
  rw [h]
  rfl

end

section
variable {s : State} {th : Thread} {r : ThreadRec} {mr : MemberRec} {tm : Team}

/-- R298: before a clause that passes its checks and whose words are fetched, the wait mask decides. -/
theorem enterClause_good {s1 s2 : State} {hdr : Nat} {ws : List W64}
    (hgood : clauseCheck s th.m.isl tm.part mr.core tm.hdr r.pc (if th.m.gaffer then .gaffer else .strand) = .good)
    (hfirst : fetchWord s th.m.isl tm.part mr.core r.pc = .ok (s1, hdr))
    (hrest : fetchWords th.m.isl tm.part mr.core (hdr / 2 ^ 56 % 16 + 1) (r.pc + 8) s1 = .ok (s2, ws)) :
    enterClause s th r mr tm =
      if waitsFor s2 th r hdr then none else some (takeClause s2 th r mr tm ⟨r.pc, w64 hdr, ws⟩) := by
  have hwords : fetchWords th.m.isl tm.part mr.core (nbits hdr 59 56 + 1) (r.pc + 8) s1 = .ok (s2, ws) := hrest
  simp only [enterClause, hgood, hfirst, hwords]

/-- R297: before a word that is no clause, the thread traps. -/
theorem enterClause_bad
    (hbad : clauseCheck s th.m.isl tm.part mr.core tm.hdr r.pc (if th.m.gaffer then .gaffer else .strand) = .bad) :
    enterClause s th r mr tm = some (takeTrap s th .illegalClause (w64 r.pc) r.pc) := by
  simp only [enterClause, hbad]

end

/-- Settles O42: a thread that may start enters its clause, which passes its checks or does not. -/
theorem clauseStarts : Obligations.ClauseStarts := by
  unfold Obligations.ClauseStarts
  intro s0 th r mr tm s cls hocc hr hmr htm heligible hport hlongest
  have henters : clauseStart s0 th = enterClause s th r mr tm := by
    simp only [clauseStart, s, hr, hmr, htm, heligible, hport, hlongest, Bool.and_self, if_true]
  refine ⟨fun s1 s2 hdr ws hgood hfirst hrest => ?_,
    fun hbad => clauseStart_occurs hocc (henters.trans (enterClause_bad hbad))⟩
  have hgoes := henters.trans (enterClause_good hgood hfirst hrest)
  refine ⟨fun hfree => ?_, fun hwaits => clauseStart_refused hocc (hgoes.trans (if_pos hwaits))⟩
  obtain ⟨mem, hfetched⟩ := fetchWord_leaves hfirst
  obtain ⟨mem', hfetched'⟩ := fetchWords_leaves _ hrest
  have hcore : s2.core = s.core := by rw [hfetched', hfetched]
  obtain ⟨hthread, hfocus, hissued, hvreg, hsreg, hpred⟩ := takeClause_takes s2 th r mr tm ⟨r.pc, w64 hdr, ws⟩
  refine ⟨_, clauseStart_occurs hocc (hgoes.trans (if_neg (by simp [hfree]))), hthread, hfocus, hissued, ?_, ?_, ?_⟩
  · exact hvreg.trans (congrArg CoreSt.vreg hcore)
  · exact hsreg.trans (congrArg CoreSt.sreg hcore)
  · exact hpred.trans (congrArg CoreSt.pred hcore)

end Sys2Proof.Machine
end

section
/-! R175, R402 to R404: arrivals at a group, and the instructions of the barrier unit. -/

namespace Sys2Proof.Machine

open Sys2Proof

/-! ### Instructions that wait for their order -/

section
variable {i : Instr} {h : Head} {srcs : List Src} {rel : Bool} {body : State → Issue → Body}
  (hi : ∀ s, exec i s = issue s h .sca srcs fun c => c.memory s rel fun _ => body s c)
include hi

/-- R384: an instruction that starts one operation once its order allows it. -/
theorem acts_of_started {p : State → Issue → Prop} {u : State → Issue → State} {o : State → Issue → Op}
    (hb : ∀ s c, Clear s h .sca srcs c → p s c → body s c = .done (startOp (u s c) c (o s c)) [])
    (hu : ∀ s c, (u s c).core.threads = s.core.threads) :
    Acts i h .sca srcs rel p fun s c => c.starts s (u s c) (o s c) := by
  intro s c hc hp
  rw [hi]
  refine ⟨fun hexec => op_passes hc hp (if_pos hexec), fun hexec hord hps => op_started hc hp ?_ ?_⟩
  · exact (congrArg (fun t => Tbl.get? t c.th) (hu s c)).trans hc.thread.1
  · exact (memory_ordered _ hexec hord).trans (hb s c hc hps)

/-- R384: an instruction that traps once its order allows it. -/
theorem traps_of_ordered {p : State → Issue → Prop} {cause : Cause} {tval : State → Issue → W64}
    (hb : ∀ s c, p s c → body s c = .trap cause (tval s c)) :
    Traps i h .sca srcs (fun s c => c.exec ≠ 0 ∧ c.ordered s rel ∧ p s c) cause tval := by
  rintro s c hc ⟨hexec, hord, hps⟩ hcan
  rw [hi, issue_clear hc, memory_ordered _ hexec hord, hb s c hps, settle_trap hc hcan]

end

/-! ### Groups -/

theorem Team.group_setGroup (t : Team) {g : Nat} (x : Group) (hg : g < t.groups.length) (j : Nat) :
    (t.setGroup g x).group j = if j = g then x else t.group j := by
  rcases eq_or_ne j g with rfl | hj
  · simp [Team.group, Team.setGroup, hg]
  · simp [Team.group, Team.setGroup, hj, Ne.symm hj]

theorem Team.setGroup_setGroup (t : Team) (g : Nat) (x y : Group) : (t.setGroup g x).setGroup g y = t.setGroup g y := by
  simp [Team.setGroup]

theorem setTeam_setTeam (s : State) (isl team : Nat) (t u : Team) :
    (s.setTeam isl team t).setTeam isl team u = s.setTeam isl team u := by
  simp only [State.setTeam, Tbl.set_set]

/-- R176: the memberships of a strand once those of a group have taken effect. -/
def MemberRec.joined (mr : MemberRec) (g : Nat) : MemberRec :=
  { mr with groups := mr.groups.map fun y => if y.1 = g then (g, true) else y }

theorem startReadyAttached_member? (s : State) (isl team g : Nat) (m : Member) :
    (startReadyAttached s isl team g).member? m =
      (s.member? m).map fun mr => if m.isl = isl ∧ m.team = team then mr.joined g else mr := by
  refine Tbl.get?_map s.core.members _ (fun m mr => if m.isl = isl ∧ m.team = team then mr.joined g else mr) (fun e => ?_) m
  dsimp only
  split <;> rfl

/-- R175: whether an arrival is the last that a group waits for. -/
abbrev Group.lastArrives (x : Group) : Prop := x.memb ≤ x.arr + 1

/-- R175: a group after an arrival. -/
def Group.arrived (x : Group) : Group :=
  if x.lastArrives then ⟨x.memb + x.pend, 0, 0, (x.phase + 1) % 2 ^ 32⟩ else { x with arr := x.arr + 1 }

/-- R175: an arrival changes its group, and, where it is the last, memberships that were pending. -/
theorem arrive_eq {s : State} {isl team g : Nat} {t : Team} (ht : s.team? isl team = some t) (hg : g < t.groups.length) :
    arrive s isl team g =
      (if (t.group g).lastArrives then
        startReadyAttached (s.setTeam isl team (t.setGroup g (t.group g).arrived)) isl team g
      else s.setTeam isl team (t.setGroup g (t.group g).arrived), (t.group g).phase) := by
  simp only [arrive, ht, checkRelease, team?_setTeam_self, setTeam_setTeam, Team.group_setGroup t _ hg, if_true,
    Group.arrived, Team.setGroup_setGroup]
  by_cases hlast : (t.group g).lastArrives
  · simp only [hlast, Nat.le_add_left, and_self, if_true]
  · have hlast' : ¬ (t.group g).memb ≤ (t.group g).arr + 1 := hlast
    simp only [hlast', and_false, if_false]

/-- R175: what an arrival changes and what it leaves. -/
theorem arrive_leaves (s : State) (isl team g : Nat) :
    let u := (arrive s isl team g).1
    u.core.threads = s.core.threads ∧ u.core.ops = s.core.ops ∧ u.mem = s.mem ∧ u.core.sreg = s.core.sreg := by
  dsimp only
  unfold arrive
  split
  · exact ⟨rfl, rfl, rfl, rfl⟩
  · dsimp only
    unfold checkRelease
    split
    · exact ⟨rfl, rfl, rfl, rfl⟩
    · dsimp only
      split <;> exact ⟨rfl, rfl, rfl, rfl⟩

section
variable {s : State} {isl team g : Nat} {t : Team} (ht : s.team? isl team = some t) (hg : g < t.groups.length)
include ht hg

theorem arrive_team? : (arrive s isl team g).1.team? isl team = some (t.setGroup g (t.group g).arrived) := by
  rw [arrive_eq ht hg]
  dsimp only
  split
  · exact team?_setTeam_self ..
  · exact team?_setTeam_self ..

theorem arrive_member? (m : Member) : (arrive s isl team g).1.member? m =
    (s.member? m).map fun mr => if (t.group g).lastArrives ∧ m.isl = isl ∧ m.team = team then mr.joined g else mr := by
  rw [arrive_eq ht hg]
  dsimp only
  split
  next hlast =>
    simp only [hlast, true_and]
    exact startReadyAttached_member? (s.setTeam isl team (t.setGroup g (t.group g).arrived)) isl team g m
  next hlast =>
    simp only [hlast, false_and, if_false, Option.map_id']
    rfl

end

/-! ### The checks of a group -/

section
variable {c : Issue} {g : Nat} {member : Bool}

theorem checkGroup_ok (h : c.inGroup g member) : checkGroup c g member = .ok () := by
  obtain ⟨hg, hmember⟩ := h
  rw [checkGroup, if_neg (by omega), if_neg (by cases member <;> simp_all)]

theorem checkGroup_lacks (h : c.tm.groups.length ≤ g) :
    checkGroup c g member = .error (.trap .group (w64 (g + 1 * 2 ^ 32))) := if_pos h

theorem checkGroup_outside (h : g < c.tm.groups.length ∧ c.mr.groups.contains (g, true) = false) :
    checkGroup c g true = .error (.trap .group (w64 (g + 2 * 2 ^ 32))) := by
  rw [checkGroup, if_neg (by omega), if_pos (by rw [h.2]; rfl)]
  rfl

end

/-! ### The instructions -/

section
variable (h : Head) (a b : Src)

/-- R402: the group that an operand names. -/
abbrev groupAt (s : State) (c : Issue) : Nat := (rd32 s c (uS 1) a 0).toNat

/-- R404: the count, or R403 the phase, that an operand gives. -/
abbrev countAt (s : State) (c : Issue) : Nat := (rd32 s c (uS 2) b 0).toNat

/-- R403: the operation that waits on a phase of a group. -/
def barWaitOp (s : State) (c : Issue) (phase : Nat) : Op :=
  { c.op s h true .none (.barwait (groupAt a s c) phase) with acq := true }

/-- R403: where an instruction has arrived, the phase it goes on with is the group's. -/
theorem Clear.arrive_phase {s : State} {h : Head} {k : Kind} {srcs : List Src} {c : Issue} {g : Nat}
    (hc : Clear s h k srcs c) (hg : g < c.tm.groups.length) : (arrive s c.isl c.team g).2 = (c.tm.group g).phase := by
  rw [arrive_eq hc.thread.2.2 hg]

theorem bararr_acts : Acts (.bararr h a) h .sca [a] true (fun s c => c.inGroup (groupAt a s c) true)
    fun s c => c.starts s (arrive s c.isl c.team (groupAt a s c)).1
      (c.returns s h (w64 (c.tm.group (groupAt a s c)).phase)) := by
  refine acts_of_started (exec_bararr h a) (fun s c hc hg => ?_) fun s c => (arrive_leaves ..).1
  dsimp only
  rw [checkGroup_ok hg, ← hc.arrive_phase hg.1]
  rfl

theorem barwait_acts : Acts (.barwait h a b) h .sca [a, b] false (fun s c => c.inGroup (groupAt a s c) true)
    fun s c => c.starts s s (barWaitOp h a s c (countAt b s c)) := by
  refine acts_of_started (exec_barwait h a b) (fun s c _ hg => ?_) fun _ _ => rfl
  dsimp only
  rw [checkGroup_ok hg]
  rfl

theorem barsync_acts : Acts (.barsync h a) h .sca [a] true (fun s c => c.inGroup (groupAt a s c) true)
    fun s c => c.starts s (arrive s c.isl c.team (groupAt a s c)).1
      (barWaitOp h a s c (c.tm.group (groupAt a s c)).phase) := by
  refine acts_of_started (exec_barsync h a) (fun s c hc hg => ?_) fun s c => (arrive_leaves ..).1
  dsimp only
  rw [checkGroup_ok hg, ← hc.arrive_phase hg.1]
  rfl

/-- R404: BARINIT once its group has been checked. -/
theorem barinit_acts : Acts (.barinit h a b) h .sca [a, b] false
    (fun s c => c.inGroup (groupAt a s c) false ∧ (c.tm.group (groupAt a s c)).arr = 0 ∧ 1 ≤ countAt b s c ∧
      countAt b s c ≤ 2048)
    fun s c => c.starts s (s.setTeam c.isl c.team (c.tm.setGroup (groupAt a s c)
      { c.tm.group (groupAt a s c) with memb := countAt b s c })) (c.plain s h) := by
  refine acts_of_started (exec_barinit h a b) (fun s c _ ⟨hg, harr, hone, hmax⟩ => ?_) fun _ _ => rfl
  dsimp only
  rw [checkGroup_ok hg]
  have hnone : ¬ 1 ≤ (c.tm.group (groupAt a s c)).arr := by omega
  have hcount : ¬ (countAt b s c = 0 ∨ 2048 < countAt b s c) := by omega
  exact congrArg settled ((if_neg hnone).trans (if_neg hcount))

/-- R404: BARINIT of a group in which strands have arrived. -/
theorem barinit_arrived : Traps (.barinit h a b) h .sca [a, b] (fun s c => c.exec ≠ 0 ∧ c.ordered s false ∧
    groupAt a s c < c.tm.groups.length ∧ 1 ≤ (c.tm.group (groupAt a s c)).arr) .group
    fun s c => w64 (groupAt a s c + 3 * 2 ^ 32) := by
  refine traps_of_ordered (exec_barinit h a b) fun s c ⟨hg, harr⟩ => ?_
  dsimp only
  rw [checkGroup_ok (member := false) ⟨hg, nofun⟩]
  exact congrArg settled (if_pos harr)

/-- R404: BARINIT with a count out of range. -/
theorem barinit_miscounted : Traps (.barinit h a b) h .sca [a, b] (fun s c => c.exec ≠ 0 ∧ c.ordered s false ∧
    groupAt a s c < c.tm.groups.length ∧ (c.tm.group (groupAt a s c)).arr = 0 ∧
    (countAt b s c = 0 ∨ 2048 < countAt b s c)) .group fun s c => w64 (groupAt a s c + 4 * 2 ^ 32) := by
  refine traps_of_ordered (exec_barinit h a b) fun s c ⟨hg, harr, hcount⟩ => ?_
  have hnone : ¬ 1 ≤ (c.tm.group (groupAt a s c)).arr := by omega
  dsimp only
  rw [checkGroup_ok (member := false) ⟨hg, nofun⟩]
  exact congrArg settled ((if_neg hnone).trans (if_pos hcount))

/-- R402: an instruction of the barrier unit whose group fails its check. -/
theorem traps_of_checkGroup {i : Instr} {srcs : List Src} {rel member : Bool} {k : State → Issue → Unit → Except Body Body}
    {p : State → Issue → Prop} {reason : Nat}
    (hi : ∀ s, exec i s = issue s h .sca srcs fun c => c.memory s rel fun _ =>
      settled (checkGroup c (groupAt a s c) member >>= k s c))
    (hp : ∀ s c, p s c →
      checkGroup c (groupAt a s c) member = .error (.trap .group (w64 (groupAt a s c + reason * 2 ^ 32)))) :
    Traps i h .sca srcs (fun s c => c.exec ≠ 0 ∧ c.ordered s rel ∧ p s c) .group
      fun s c => w64 (groupAt a s c + reason * 2 ^ 32) :=
  traps_of_ordered hi fun s c hps => by rw [hp s c hps]; rfl

end

/-- Settles O32: an arrival, and each instruction where it acts and where it traps. -/
theorem barriers : Obligations.Barriers := by
  unfold Obligations.Barriers
  refine ⟨fun s isl team g t ht hg => ?_, fun h a b => ?_⟩
  · have hgroup (j : Nat) : ((arrive s isl team g).1.team? isl team).map (·.group j) =
        some (if j = g then (t.group g).arrived else t.group j) := by
      rw [arrive_team? ht hg, Option.map_some, Team.group_setGroup t _ hg]
    obtain ⟨hthreads, hops, hmem, hsreg⟩ := arrive_leaves s isl team g
    refine ⟨by rw [arrive_eq ht hg], ?_, fun j hj => ?_, arrive_member? ht hg, hthreads, hops, hmem, hsreg⟩
    · rw [hgroup, if_pos rfl]
      rfl
    · rw [hgroup, if_neg hj]
  · exact ⟨bararr_acts h a, barwait_acts h a b, barsync_acts h a, barinit_acts h a b,
      traps_of_checkGroup h a (exec_bararr h a) fun _ _ => checkGroup_lacks,
      traps_of_checkGroup h a (exec_barwait h a b) fun _ _ => checkGroup_lacks,
      traps_of_checkGroup h a (exec_barsync h a) fun _ _ => checkGroup_lacks,
      traps_of_checkGroup h a (exec_barinit h a b) fun _ _ => checkGroup_lacks,
      traps_of_checkGroup h a (exec_bararr h a) fun _ _ => checkGroup_outside,
      traps_of_checkGroup h a (exec_barwait h a b) fun _ _ => checkGroup_outside,
      traps_of_checkGroup h a (exec_barsync h a) fun _ _ => checkGroup_outside,
      barinit_arrived h a b, barinit_miscounted h a b⟩

end Sys2Proof.Machine
end

section
/-! R161, R300, R307: how the result of an operation lands, and what its completion leaves. -/

namespace Sys2Proof.Machine

open Sys2Proof

/-! ### Vector registers in a row -/

/-- R307: the lanes of a mask in `w` registers from `d`. -/
def writeFrom (s : State) (m : Member) (d : Nat) (mask : W32) (vals : Nat → List W32) (w : Nat) : State :=
  (List.range w).foldl (fun s n => writeV s m (d + n) mask (vals n)) s

section
variable (s : State) (m : Member) (d : Nat) (mask : W32) (vals : Nat → List W32) (w : Nat)

theorem writeFrom_succ : writeFrom s m d mask vals (w + 1) = writeV (writeFrom s m d mask vals w) m (d + w) mask (vals w) := by
  simp only [writeFrom, List.range_succ, List.foldl_append, List.foldl_cons, List.foldl_nil]

theorem writeFrom_shape : ∃ vr ps, writeFrom s m d mask vals w =
    { s with core := { s.core with vreg := vr }, mem := { s.mem with poison := ps } } := by
  induction w with
  | zero => exact ⟨_, _, rfl⟩
  | succ w ih =>
    obtain ⟨vr, ps, h⟩ := ih
    obtain ⟨vr', ps', h'⟩ := writeV_shape (writeFrom s m d mask vals w) m (d + w) mask (vals w)
    exact ⟨vr', ps', by rw [writeFrom_succ, h', h]⟩

theorem writeFrom_ne {m' : Member} {i : Nat} (h : m' ≠ m ∨ i < d ∨ d + w ≤ i) :
    (writeFrom s m d mask vals w).core.vreg.getD (m', i) [] = s.core.vreg.getD (m', i) [] := by
  induction w with
  | zero => rfl
  | succ w ih =>
    rw [writeFrom_succ, writeV_ne _ _ _ _ _ _ _ (h.imp_right (by omega)), ih (h.imp_right (by omega))]

theorem writeFrom_lane {i l : Nat} (hi : i < w) (hl : l < 32) : vlane (writeFrom s m d mask vals w) m (d + i) l =
    if mask.getLsbD l then lane32 (vals i) l else vlane s m (d + i) l := by
  induction w with
  | zero => exact absurd hi (Nat.not_lt_zero i)
  | succ w ih =>
    rw [writeFrom_succ]
    rcases eq_or_ne i w with rfl | hne
    · rw [writeV_lane _ _ _ _ _ _ hl]
      congr 1
      rw [vlane, writeFrom_ne _ _ _ _ _ _ (.inr (.inr le_rfl)), vlane]
    · rw [vlane, writeV_ne _ _ _ _ _ _ _ (.inr (by omega)), ← vlane, ih (by omega)]

end

/-! ### Landing -/

/-- R300: where no fixed-latency write has overtaken it, a result lands in every lane that the operation still takes. -/
theorem landing_uncovered {o : Op} (h : o.covered = []) (s : State) (i : Nat) : o.landing s i = o.lanes := by
  refine BitVec.eq_of_getLsbD_eq fun l hl => ?_
  have hover : (o.covered.getD i 0).getLsbD l = false := by simp [h, Tbl.getD, Tbl.get?]
  simp only [Op.landing, BitVec.getLsbD_and, maskOf_getLsbD _ _ hl, hover, Bool.not_false, Bool.true_or, Bool.and_true]

section
variable {o : Op} {vals : List W64} {fl d w : Nat}

/-- R307: the word of a computed result in a register. -/
theorem wordV_value (hact : o.act = .value vals fl) (hk : o.k = false) (hdst : o.dst = .vec d w)
    {i l : Nat} (hi : i < w) (hl : o.lanes.getLsbD l = true) :
    o.wordV (d + i) l = some (BitVec.setWidth 32 (lane64 vals (32 * (i / 2) + l) >>> (32 * (i % 2)))) := by
  have hcovers : o.coversV (d + i) = true := by simp [Op.coversV, hdst, hk, hi]
  simp only [Op.wordV, hdst, hcovers, hl, Bool.and_self, if_true, Op.val?, hact, Option.map_some, Nat.add_sub_cancel_left]

/-- R307: a computed vector result lands in the registers of its destination. -/
theorem land_vec (hk : o.k = false) (hcovered : o.covered = []) (hdst : o.dst = .vec d w) (s : State) :
    land s o = writeFrom s o.m d o.lanes (fun n => lanesOf fun l => (o.wordV (d + n) l).getD 0) w := by
  simp only [land, hk, hdst, Bool.false_eq_true, if_false, landV, landing_uncovered hcovered, writeFrom]

/-- R307: a computed scalar result lands in its register. -/
theorem land_sca (hact : o.act = .value vals fl) (hk : o.k = false) (hcovered : o.covered = []) (hdst : o.dst = .sca d 1)
    (hlanes : o.lanes ≠ 0) (s : State) : land s o = writeS s o.m d (lane64 vals 0) := by
  have hword : o.wordS d = some (lane64 vals 0) := by
    simpa [Op.wordS, Op.coversS, hdst, hk, Op.val?, hact] using hlanes
  simp only [land, hk, hdst, Bool.false_eq_true, if_false, landS, List.range_one, List.foldl_cons, List.foldl_nil,
    Nat.add_zero, hword, landing_uncovered hcovered, hlanes]

end

/-! ### Retirement -/

/-- R161: a scoreboard of a live path falls by one. -/
theorem lowerSb_live {s : State} {m : Member} {n : Nat} {r : ThreadRec} (sb : Nat) (hr : s.thread? ⟨m, n⟩ = some r) :
    lowerSb s m n sb =
      if sb = 7 then s else s.setThread ⟨m, n⟩ { r with sb := r.sb.set sb (r.sb.getD sb 0 - 1) } := by
  simp only [lowerSb, State.modPath, hr]

/-- R161: an operation that is no longer outstanding. -/
def dropOp (s : State) (o : Op) : State := { s with core := { s.core with ops := s.core.ops.filter (·.id ≠ o.id) } }

theorem retire_single {s : State} {o : Op} {n sb : Nat} {r : ThreadRec} (hholders : o.holders = [(n, sb)])
    (hr : s.thread? ⟨o.m, n⟩ = some r) : retire s o =
      if sb = 7 then dropOp s o else (dropOp s o).setThread ⟨o.m, n⟩ { r with sb := r.sb.set sb (r.sb.getD sb 0 - 1) } := by
  rw [← lowerSb_live sb (s := dropOp s o) hr]
  simp only [retire, hholders, List.foldl_cons, List.foldl_nil]
  rfl

/-- The registers, predicates and decision queues. -/
def CoreSt.held (c : CoreSt) := (c.vreg, c.sreg, c.pred, c.dq)

theorem modPath_held (s : State) (m : Member) (n : Nat) (f : ThreadRec → ThreadRec) :
    (s.modPath m n f).core.held = s.core.held := by
  unfold State.modPath
  split
  · rfl
  · split <;> rfl

theorem retire_held (s : State) (o : Op) : (retire s o).core.held = s.core.held := by
  refine foldl_keeps _ (fun s : State => s.core.held) (fun s x => ?_) _ _
  unfold lowerSb
  split
  · rfl
  · exact modPath_held ..

theorem acquireOp_core (s : State) (o : Op) : (acquireOp s o).core = s.core := by
  unfold acquireOp
  split <;> rfl

theorem orFlags_held (s : State) (m : Member) (fl : Nat) : (orFlags s m fl).core.held = s.core.held := by
  obtain ⟨ms, h⟩ := orFlags_shape s m fl
  rw [h]
  rfl

theorem finishOp_held (s : State) (o : Op) : (finishOp s o).core.held = (land s o).core.held := by
  unfold finishOp
  dsimp only
  rw [retire_held, acquireOp_core, orFlags_held]

theorem finishOp_op?_self (s : State) (o : Op) : (finishOp s o).op? o.id = none := retire_op?_self ..

theorem op?_id {s : State} {id : Nat} {o : Op} (h : s.op? id = some o) : o.id = id := by
  simpa using List.find?_some h

/-- R161: what the retirement of an operation of one path leaves: its scoreboard falls, and nothing else changes. -/
theorem retire_single_leaves {s : State} {o : Op} {n sb : Nat} {r : ThreadRec} (hholders : o.holders = [(n, sb)])
    (hr : s.thread? ⟨o.m, n⟩ = some r) :
    (∀ m, (retire s o).member? m = s.member? m) ∧ Quiet s (retire s o) ∧ (retire s o).thread? ⟨o.m, n⟩ =
      some (if sb = 7 then r else { r with sb := r.sb.set sb (r.sb.getD sb 0 - 1) }) := by
  have hquiet : Quiet s (dropOp s o) := quiet_of s _ s.mem.poison s.focus s.free
  rw [retire_single hholders hr]
  split
  · exact ⟨fun _ => rfl, hquiet, hr⟩
  · exact ⟨fun _ => rfl, hquiet.of_eq rfl rfl rfl rfl rfl rfl rfl, thread?_setThread_self ..⟩

theorem Quiet.trans {s t u : State} (h : Quiet s t) (h' : Quiet t u) : Quiet s u := by
  obtain ⟨⟨hbytes, hspads, haccs, hkept⟩, hunit, htask, heng, hpar, hfab, hhub⟩ := h
  obtain ⟨⟨hbytes', hspads', haccs', hkept'⟩, hunit', htask', heng', hpar', hfab', hhub'⟩ := h'
  exact ⟨⟨fun i a => (hbytes' i a).trans (hbytes i a), fun k => (hspads' k).trans (hspads k),
    fun k => (haccs' k).trans (haccs k), hkept'.trans hkept⟩, hunit'.trans hunit, htask'.trans htask, heng'.trans heng,
    hpar'.trans hpar, hfab'.trans hfab, hhub'.trans hhub⟩

/-! ### A computed result -/

/-- Settles O27: the result lands, its flags are set, and its operation retires. -/
theorem resultLands : Obligations.ResultLands := by
  unfold Obligations.ResultLands
  intro s id o d w n sb fl vals r hocc ho hready hact hdst hk hcovered hacq hholders hr
  obtain rfl := op?_id ho
  refine ((completion_due hocc ho).1 hready).gives ?_
  have hcomplete : complete s o = retire (orFlags (land s o) o.m fl) o := by
    simp only [complete, hact, finishOp, acquireOp, hacq, Bool.false_eq_true, if_false]
  have hland := land_vec hk hcovered hdst s
  obtain ⟨vr, ps, hshape⟩ := writeFrom_shape s o.m d o.lanes (fun n => lanesOf fun l => (o.wordV (d + n) l).getD 0) w
  obtain ⟨ms, hflags⟩ := orFlags_shape (land s o) o.m fl
  have hland' := hland.trans hshape
  have hr' : (orFlags (land s o) o.m fl).thread? ⟨o.m, n⟩ = some r := by rw [hflags, hland']; exact hr
  obtain ⟨hmembers, hquiet, hthread⟩ := retire_single_leaves hholders hr'
  have hheld := (retire_held (orFlags (land s o) o.m fl) o).trans (orFlags_held ..)
  simp only [CoreSt.held, Prod.mk.injEq] at hheld
  obtain ⟨hvreg, hsreg, hpred, -⟩ := hheld
  rw [hcomplete]
  refine ⟨fun i l hi hl => ?_, fun m i hother => ?_, ?_, ?_, ⟨?_, fun m hm => ?_⟩, ?_, retire_op?_self _ o, hthread⟩
  · rw [vlane, commit_core, hvreg, hland, ← vlane, writeFrom_lane _ _ _ _ _ _ hi hl, lane32_lanesOf _ l hl]
    split
    next hlane => rw [wordV_value hact hk hdst hi hlane, Option.getD_some]
    next => rfl
  · rw [commit_core, hvreg, hland, writeFrom_ne _ _ _ _ _ _ hother]
  · rw [commit_core, hsreg, hland']
  · rw [commit_core, hpred, hland']
  · rw [member?_commit, hmembers, orFlags_member, if_pos rfl, hland']
    rfl
  · rw [member?_commit, hmembers, orFlags_member, if_neg hm, hland']
    rfl
  · have hwritten : Quiet s (orFlags (land s o) o.m fl) := by
      rw [hflags, hland']
      exact quiet_of s _ ps s.focus s.free
    exact (hwritten.trans hquiet).of_eq rfl (hwritten.trans hquiet).unit.symm rfl rfl rfl rfl rfl

end Sys2Proof.Machine
end

section
/-! R171, R172, R439: decision queues. -/

namespace Sys2Proof.Machine

open Sys2Proof

/-! ### Queues -/

theorem dqOf_setDq (s : State) (g m : Member) (q : List W64) : dqOf (setDq s g q) m = if m = g then q else dqOf s m := by
  show (s.core.dq.set g q).getD m [] = _
  rw [Tbl.getD_set]
  exact if_congr eq_comm rfl rfl

theorem dqOf_of_held {s t : State} (h : t.core.held = s.core.held) (m : Member) : dqOf t m = dqOf s m := by
  simp only [CoreSt.held, Prod.mk.injEq] at h
  rw [dqOf, h.2.2.2, dqOf]

/-- R171: where an operation has no destination, nothing lands. -/
theorem land_none {o : Op} (hdst : o.dst = .none) (s : State) : land s o = s := by
  simp only [land, hdst, ite_self]

/-- R171: a push enters the queue of its context, behind the entries there. -/
theorem pushdq_completes {s : State} {id : Nat} {o : Op} {v : W64} (hocc : s.occ = .op id) (ho : s.op? id = some o)
    (hact : o.act = .pushdq v) (hdone : o.allDone = true) (hdst : o.dst = .none) (hturn : pushTurn s o = true)
    (hroom : (dqOf s o.m).length < 64) : Gives (exec .variableLatencyCompletion s) fun t =>
      dqOf t o.m = dqOf s o.m ++ [v] ∧ (∀ m, m ≠ o.m → dqOf t m = dqOf s m) ∧ t.op? id = none := by
  obtain rfl := op?_id ho
  have hready : o.ready s = true := by simp [Op.ready, hdone, hact, hturn, hroom]
  have hcomplete : complete s o = finishOp (setDq s o.m (dqOf s o.m ++ [v])) o := by simp only [complete, hact]
  have hqueue (m : Member) : dqOf (complete s o) m = if m = o.m then dqOf s o.m ++ [v] else dqOf s m := by
    rw [hcomplete, dqOf_of_held (finishOp_held ..), land_none hdst, dqOf_setDq]
  refine ((completion_due hocc ho).1 hready).gives ⟨?_, fun m hm => ?_, ?_⟩
  · exact (hqueue o.m).trans (if_pos rfl)
  · exact (hqueue m).trans (if_neg hm)
  · rw [hcomplete]
    exact finishOp_op?_self ..

/-- R213: the poison of a result is memory's alone. -/
theorem poisonResult_core (s : State) (o : Op) : (poisonResult s o).core = s.core := by
  unfold poisonResult
  split
  · split <;> rfl
  · rfl

theorem completePop_core (s : State) (o : Op) (pr : Nat) :
    (completePop s o pr).core = (finishWith (popEffect s o pr).1 o (popEffect s o pr).2).core := by
  unfold completePop
  dsimp only
  split
  · exact poisonResult_core ..
  · rfl

/-- R439: a pop takes the oldest entry. -/
theorem popEffect_cons {s : State} {o : Op} {v : W64} {q : List W64} (pr : Nat) (hq : dqOf s (o.queue s) = v :: q) :
    popEffect s o pr = (writeP (setDq (dropHead s (o.queue s)) (o.queue s) q) o.m pr o.lanes 0xFFFFFFFF, v) := by
  simp only [popEffect, hq]

/-- R439: a pop takes the oldest entry of its queue into its register, and sets its predicate in the popping lanes. -/
theorem popdq_completes {s : State} {id pr d : Nat} {o : Op} {v : W64} {q : List W64} (hocc : s.occ = .op id)
    (ho : s.op? id = some o) (hact : o.act = .popdq pr) (hdone : o.allDone = true) (hk : o.k = false) (hlanes : o.lanes ≠ 0)
    (hcovered : o.covered = []) (hdst : o.dst = .sca d 1) (hpr : pr < 7) (hq : dqOf s (o.queue s) = v :: q)
    (hlive : ∀ tm, s.team? o.m.isl o.m.team = some tm → tm.ending = none) :
    Gives (exec .variableLatencyCompletion s) fun t =>
      dqOf t (o.queue s) = q ∧ t.core.sreg.getD (o.m, d) 0 = v ∧ t.op? id = none ∧
      (∀ l, l < 32 → (t.core.pred.getD (o.m, pr) 0).getLsbD l =
        (o.lanes.getLsbD l || (s.core.pred.getD (o.m, pr) 0).getLsbD l)) := by
  obtain rfl := op?_id ho
  have hrunning : ((s.team? o.m.isl o.m.team).any (·.ending.isSome)) = false := by
    cases htm : s.team? o.m.isl o.m.team with
    | none => rfl
    | some tm => simp [hlive tm htm]
  have hready : o.ready s = true := by simp [Op.ready, hdone, hact, hrunning, hq]
  generalize hpopped : writeP (setDq (dropHead s (o.queue s)) (o.queue s) q) o.m pr o.lanes 0xFFFFFFFF = u
  have hcore : (complete s o).core = (finishOp u { o with act := .value [v] 0 }).core := by
    simp only [complete, hact]
    rw [completePop_core, popEffect_cons pr hq, hpopped, finishWith]
  have hheld : (complete s o).core.held = (writeS u o.m d v).core.held := by
    rw [hcore, finishOp_held, land_sca (o := { o with act := .value [v] 0 }) rfl hk hcovered hdst hlanes]
    rfl
  have hop : (complete s o).op? o.id = none := by
    rw [State.op?, hcore]
    exact finishOp_op?_self u { o with act := .value [v] 0 }
  simp only [CoreSt.held, Prod.mk.injEq] at hheld
  obtain ⟨-, hsreg, hpred, hdq⟩ := hheld
  obtain ⟨pred, ps, hshape⟩ := writeP_shape (setDq (dropHead s (o.queue s)) (o.queue s) q) o.m pr o.lanes 0xFFFFFFFF
  refine ((completion_due hocc ho).1 hready).gives ⟨?_, ?_, hop, fun l hl => ?_⟩
  · rw [dqOf, commit_core, hdq, writeS_core_dq, ← hpopped, hshape]
    exact (dqOf_setDq ..).trans (if_pos rfl)
  · rw [commit_core, hsreg]
    exact Tbl.getD_set_self ..
  · rw [commit_core, hpred, writeS_core_pred, ← hpopped, writeP_lane _ _ _ _ _ hpr.ne]
    have hones : (0xFFFFFFFF : W32).getLsbD l = true := by
      show (BitVec.allOnes 32).getLsbD l = true
      rw [BitVec.getLsbD_allOnes, decide_eq_true hl]
    rw [hones]
    show (if o.lanes.getLsbD l = true then true else (s.core.pred.getD (o.m, pr) 0).getLsbD l) = _
    cases o.lanes.getLsbD l <;> rfl

/-- Settles O34: the issue of each instruction, and the completions of a push and of a pop. -/
theorem decisionQueues : Obligations.DecisionQueues := by
  unfold Obligations.DecisionQueues
  intro h a pr
  refine ⟨acts_of_started (exec_pushdq h a) (fun _ _ _ _ => rfl) fun _ _ => rfl,
    acts_of_started (exec_popdq h pr) (fun _ _ _ _ => rfl) fun _ _ => rfl, ?_, ?_, ?_⟩
  · intro s c hc hp
    rw [exec_dqstat, execDqstat]
    by_cases hexec : c.exec = 0
    · exact (op_passes hc hp (if_pos hexec)).trans (congrArg Host.Outcome.next (if_pos hexec).symm)
    · exact (op_started hc hp hc.thread.1 (if_neg hexec)).trans (congrArg Host.Outcome.next (if_neg hexec).symm)
  · intro s id o v hocc ho hact hdone hdst hturn hroom
    exact pushdq_completes hocc ho hact hdone hdst hturn hroom
  · intro s id o v q d hocc ho hact hdone hk hlanes hcovered hdst hpr hq hlive
    exact popdq_completes hocc ho hact hdone hk hlanes hcovered hdst hpr hq hlive

end Sys2Proof.Machine
end

section
/-! R182, R302, R442: the return from a trap handler. -/

namespace Sys2Proof.Machine

open Sys2Proof

/-! ### The end of a clause -/

/-- R160, R353: the record of a thread that goes on to the clause at an address. -/
def ThreadRec.before (r : ThreadRec) (pc : Nat) : ThreadRec :=
  { r with mask := r.mask &&& ~~~r.exited, exited := 0, clause := none, slot := 0, latches := zeroLatches, pc := pc }

/-- R160: a clause that has left nothing to its end, and some lanes of which go on, ends. -/
theorem endClause_live {s : State} {th : Thread} {r : ThreadRec} (pc : Nat) (hr : s.thread? th = some r)
    (hends : r.ends = []) (hlive : r.mask &&& ~~~r.exited ≠ 0) :
    endClause s th pc = { s.setThread th (r.before pc) with focus := none } := by
  have hgone : ¬ (r.mask &&& ~~~r.exited = 0 ∧ (!th.m.gaffer) = true) := fun h => hlive h.1
  simp only [endClause, hr, if_neg hgone, runEnds, thread?_setThread_self, hends, List.foldl_nil, setThread_setThread]
  simp only [ThreadRec.before, hends]
  rfl

/-! ### What a handler's clause leaves to its end -/

section
variable {s : State} {th : Thread} {r : ThreadRec} (hr : s.thread? th = some r)
include hr

theorem endAct_yield (n : Nat) : endAct th s (.yield n) =
    s.setThread th { r with wait := { r.wait with yielded := some (s.clk th.m.isl + 16 * n) } } := by
  simp only [endAct, hr, endReady, Bool.not_true, Bool.false_eq_true, if_false]

theorem endAct_sleep {n : Nat} {tm : Team} (htm : s.team? th.m.isl th.m.team = some tm) (hpreempt : tm.preempt = none)
    (hn : 0 < n) : endAct th s (.sleep n) =
      s.setThread th { r with wait := { r.wait with asleep := some (s.clk th.m.isl + n) } } := by
  have hsleeps : ¬ (tm.preempt.isSome = true ∨ n = 0) := by simp [hpreempt, hn.ne']
  simp only [endAct, hr, endReady, htm, Bool.not_true, Bool.false_eq_true, if_false, if_neg hsleeps]

/-- R153: a thread that nothing keeps from issuing keeps its port. -/
theorem leavePort_eligible (hyielded : r.wait.yielded = none) (hasleep : r.wait.asleep = none) : leavePort s th = s := by
  simp [leavePort, hr, hyielded, hasleep]

/-- R354, R444: a thread that waits gives its port up. -/
theorem leavePort_waiting (hwaits : (r.wait.asleep.isSome || r.wait.yielded.isSome) = true) :
    leavePort s th = s.setThread th { r with wait := { r.wait with portless := true } } := by
  simp only [leavePort, hr, hwaits, if_true]

end

/-! ### Where a return leads -/

/-- R182: the record of a thread that goes on in its shadowed clause. -/
def Issue.resumed (c : Issue) (sh : Shadow) (cl : Clause) (i : Nat) (w : Wait) : ThreadRec :=
  { c.r with
    pc := cl.addr, mask := sh.mask, exited := sh.exited, latches := sh.latches, clause := some cl, slot := i,
    ends := sh.ends, handler := false, shadow := none, wait := w }

/-- R182: the slot of the shadowed clause that a return leads to, if any. -/
def Issue.target (c : Issue) (sh : Shadow) : Option (Clause × Nat) :=
  if c.r.epcSet then none else sh.clause.bind fun cl => (cl.slotAt c.r.epc.toNat).map fun i => (cl, i)

theorem slotAt_slot {cl : Clause} {i : Nat} (hi : i ≤ nbits cl.hdr.toNat 59 56) :
    cl.slotAt (cl.addr + 8 + 8 * i) = some i := by
  have hslot : (cl.addr + 8 + 8 * i - cl.addr) / 8 = i + 1 := by omega
  rw [Clause.slotAt, if_pos ⟨by omega, by omega, by omega⟩, hslot]
  rfl

section
variable {c : Issue} {sh : Shadow}

theorem target_slot {cl : Clause} {i : Nat} (hset : c.r.epcSet = false) (hcl : sh.clause = some cl)
    (hi : i ≤ nbits cl.hdr.toNat 59 56) (hepc : c.r.epc.toNat = cl.addr + 8 + 8 * i) : c.target sh = some (cl, i) := by
  simp only [Issue.target, hset, hcl, hepc, slotAt_slot hi, Bool.false_eq_true, if_false, Option.bind_some, Option.map_some]

theorem target_away (h : c.r.epcSet = true ∨ ∀ cl, sh.clause = some cl → cl.slotAt c.r.epc.toNat = none) :
    c.target sh = none := by
  unfold Issue.target
  split
  · rfl
  next hset =>
    cases hcl : sh.clause with
    | none => rfl
    | some cl => simp [h.resolve_left hset cl hcl]

end

section
variable {s : State} {c : Issue} {sh : Shadow} {cl : Clause} {i : Nat}

theorem resumeAt_none (h : c.handlerEnds = []) (hyielded : c.r.wait.yielded = none) (hasleep : c.r.wait.asleep = none) :
    resumeAt s c sh cl i = s.setThread c.th (c.resumed sh cl i c.r.wait) := by
  rw [resumeAt, h]
  exact leavePort_eligible (thread?_setThread_self ..) hyielded hasleep

theorem resumeAt_yield {n : Nat} (h : c.handlerEnds = [.yield n]) : resumeAt s c sh cl i = s.setThread c.th
    (c.resumed sh cl i { c.r.wait with yielded := some (s.clk c.isl + 16 * n), portless := true }) := by
  rw [resumeAt, h, List.foldl_cons, List.foldl_nil, endAct_yield (thread?_setThread_self ..), setThread_setThread,
    leavePort_waiting (thread?_setThread_self ..) (by simp), setThread_setThread]
  rfl

theorem resumeAt_sleep {n : Nat} (h : c.handlerEnds = [.sleep n]) (hn : 0 < n)
    (htm : s.team? c.th.m.isl c.th.m.team = some c.tm) (hpreempt : c.tm.preempt = none) :
    resumeAt s c sh cl i = s.setThread c.th
      (c.resumed sh cl i { c.r.wait with asleep := some (s.clk c.isl + n), portless := true }) := by
  rw [resumeAt, h, List.foldl_cons, List.foldl_nil, endAct_sleep (thread?_setThread_self ..) htm hpreempt hn,
    setThread_setThread, leavePort_waiting (thread?_setThread_self ..) (by simp), setThread_setThread]
  rfl

/-- R182: a return to a clause that is not the shadowed one. -/
theorem leaveTo_live (pc : Nat) (h : c.handlerEnds ++ sh.ends = []) (hlive : sh.mask &&& ~~~sh.exited ≠ 0) :
    leaveTo s c sh pc = { s.setThread c.th { c.r with
      mask := sh.mask &&& ~~~sh.exited, exited := 0, handler := false, shadow := none, ends := [], clause := none,
      slot := 0, latches := zeroLatches, pc := pc } with focus := none } := by
  have hmask : (sh.mask &&& ~~~sh.exited) &&& ~~~(0 : W32) = sh.mask &&& ~~~sh.exited := BitVec.and_allOnes
  rw [leaveTo, h, endClause_live pc (thread?_setThread_self ..) rfl (by rwa [hmask]), setThread_setThread]
  simp only [ThreadRec.before, hmask]

end

/-! ### RTE -/

section
variable {s : State} {h : Head} {c : Issue} (hc : Clear s h .scaX [] c)
include hc

/-- R302: RTE where it does not execute. -/
theorem rte_passes (hexec : c.exec = 0) (hp : Plain c) (hfall : c.fallsThrough = true → c.checkFall s = .good) :
    exec (.rte h) s = .next (c.passes s) := by
  have hgood : (if c.fallsThrough then c.checkFall s else .good) = ClauseRes.good := by
    split
    next hft => exact hfall hft
    next => rfl
  rw [exec_rte, execRte]
  refine op_passes hc hp ((if_pos hexec).trans ?_)
  rw [hgood]
  rfl

/-- R182: RTE outside a handler. -/
theorem rte_outside (hexec : c.exec ≠ 0) (hhandler : c.r.handler = false) (hentry : (trapEntry c.tm c.th.m).isSome = true) :
    exec (.rte h) s =
      .next (commit s (c.traps s .illegalOpcode (w64 (c.cl.words.getD c.r.slot 0).toNat) c.addr)) := by
  rw [exec_rte, execRte, issue_clear hc, if_neg hexec]
  simp only [hhandler]
  rw [settle_trap hc ⟨hhandler, hentry⟩]

section
variable {sh : Shadow} (hexec : c.exec ≠ 0) (hhandler : c.r.handler = true) (hshadow : c.r.shadow = some sh)
include hexec hhandler hshadow

/-- R353: RTE waits for what its clause has left to its end. -/
theorem rte_stalls (hwaits : ∃ e ∈ c.handlerEnds, endReady s c.th e = false) : exec (.rte h) s =
    .next (commit s { s.setThread c.th { c.r with wait := { c.r.wait with stalled := true } } with focus := none }) := by
  have hready : c.handlerEnds.all (endReady s c.th) = false := List.all_eq_false.2 (by simpa using hwaits)
  rw [exec_rte, execRte, issue_clear hc, if_neg hexec]
  simp only [hhandler, hshadow, hready, Bool.not_false, if_true, settle, stallThread, hc.thread.1]

section
variable (hready : c.handlerEnds.all (endReady s c.th) = true)
include hready

theorem rte_resumes {cl : Clause} {i : Nat} (ht : c.target sh = some (cl, i)) :
    exec (.rte h) s = .next (commit s (resumeAt s c sh cl i)) := by
  rw [Issue.target] at ht
  rw [exec_rte, execRte, issue_clear hc, if_neg hexec]
  simp only [hhandler, hshadow, hready, Bool.not_true, Bool.false_eq_true, if_false, ht, settle]

theorem rte_leaves (ht : c.target sh = none) : exec (.rte h) s = .next (commit s (settle s c
    ((clauseCheck s c.isl c.part c.core c.tm.hdr c.r.epc.toNat c.cls).trap c.r.epc.toNat
      (.jump (leaveTo s c sh c.r.epc.toNat))))) := by
  rw [Issue.target] at ht
  rw [exec_rte, execRte, issue_clear hc, if_neg hexec]
  simp only [hhandler, hshadow, hready, Bool.not_true, Bool.false_eq_true, if_false, ht]

end
end

/-- R183: a trap in a handler ends the team with its cause. -/
theorem settle_trap_handler (hhandler : c.r.handler = true) (cause : Cause) (tval : W64) :
    settle s c (.trap cause tval) = endTeam s c.isl c.team cause.code 0 := by
  simp only [settle, takeTrap, hc.thread.1, hc.thread.2.2, hhandler, if_true]

end

/-- Settles O17: each outcome of RTE, by where EPC leads. -/
theorem returnFromTrap : Obligations.ReturnFromTrap := by
  unfold Obligations.ReturnFromTrap
  intro h s c hc
  refine ⟨rte_passes hc, fun sh hexec hhandler hshadow => ?_, rte_outside hc⟩
  refine ⟨fun cl i hset hcl hi hepc => ?_, fun haway hgood hlive hends => ?_, fun haway hbad hends hending => ?_,
    rte_stalls hc hexec hhandler hshadow⟩
  · have hresumes (hready : c.handlerEnds.all (endReady s c.th) = true) :=
      rte_resumes hc hexec hhandler hshadow hready (target_slot hset hcl hi hepc)
    refine ⟨fun ⟨hyielded, hasleep⟩ hends => ?_, fun n _ hends => ?_, fun n _ hends hn hpreempt => ?_⟩
    · rw [hresumes (by rw [hends]; rfl), resumeAt_none hends hyielded hasleep]
      rfl
    · rw [hresumes (by rw [hends]; rfl), resumeAt_yield hends]
      rfl
    · rw [hresumes (by rw [hends]; rfl), resumeAt_sleep hends hn hc.thread.2.2 hpreempt]
      rfl
  · have hnone : c.handlerEnds = [] := (List.append_eq_nil_iff.1 hends).1
    rw [rte_leaves hc hexec hhandler hshadow (by rw [hnone]; rfl) (target_away haway), hgood]
    exact congrArg (fun t => Host.Outcome.next (commit s t)) (leaveTo_live _ hends hlive)
  · have hends' : (endTeam s c.isl c.team 3 0).team? c.isl c.team = some { c.tm with ending := some (c.tm.endsWith 3 0) } :=
      endTeam_team?_self 3 0 hc.thread.2.2 hending
    refine ⟨_, rte_leaves hc hexec hhandler hshadow (by rw [hends]; rfl) (target_away haway), ?_⟩
    rw [hbad, ClauseRes.trap, settle_trap_handler hc hhandler]
    refine (congrArg (Option.map _) hends').trans ?_
    simp only [Option.map_some, Team.endsWith, hc.running, Bool.false_eq_true, if_false]

end Sys2Proof.Machine
end

section
/-! R297, R349, R350: the groups of lanes that a transfer divides, and the lowest address that is no clause. -/

namespace Sys2Proof.Machine

open Sys2Proof

/-! ### Groups of lanes -/

/-- R349: one lane joins the group of its address. -/
def groupStep (addr : Nat → Nat) (gs : List (Nat × W32)) (l : Nat) : List (Nat × W32) :=
  if gs.any (·.1 = addr l) then gs.map fun g => if g.1 = addr l then (g.1, g.2 ||| (1#32 <<< l)) else g
  else gs ++ [(addr l, 1#32 <<< l)]

theorem groupLanes_eq (act : W32) (addr : Nat → Nat) : groupLanes act addr = (lanesIn act).foldl (groupStep addr) [] := rfl

theorem mem_groupStep (addr : Nat → Nat) (gs : List (Nat × W32)) (l x : Nat) :
    x ∈ (groupStep addr gs l).map (·.1) ↔ x ∈ gs.map (·.1) ∨ x = addr l := by
  unfold groupStep
  split
  next hany =>
    have hsame : (gs.map fun g => if g.1 = addr l then (g.1, g.2 ||| (1#32 <<< l)) else g).map (·.1) = gs.map (·.1) := by
      rw [List.map_map]
      refine List.map_congr_left fun g _ => ?_
      simp only [Function.comp]
      split <;> rfl
    have hmem : addr l ∈ gs.map (·.1) := by simpa using hany
    rw [hsame]
    exact ⟨.inl, fun h => h.elim id fun heq => heq ▸ hmem⟩
  next => simp

/-- R349: the addresses of the groups are those that active lanes go to. -/
theorem mem_groupLanes (act : W32) (addr : Nat → Nat) (x : Nat) :
    x ∈ (groupLanes act addr).map (·.1) ↔ x ∈ (lanesIn act).map addr := by
  have hfold (ls : List Nat) (gs : List (Nat × W32)) :
      x ∈ (ls.foldl (groupStep addr) gs).map (·.1) ↔ x ∈ gs.map (·.1) ∨ x ∈ ls.map addr := by
    induction ls generalizing gs with
    | nil => simp
    | cons l ls ih => rw [List.foldl_cons, ih, mem_groupStep, List.map_cons, List.mem_cons, or_assoc]
  rw [groupLanes_eq, hfold, List.map_nil]
  exact ⟨fun h => h.resolve_left (List.not_mem_nil), .inr⟩

/-- A group at `x`, and one at `y` where it has lanes. -/
def twoGroups (x y : Nat) (a b : W32) : List (Nat × W32) := (x, a) :: if b = 0#32 then [] else [(y, b)]

/-- A lane as a mask. -/
theorem getLsbD_lane {l : Nat} (hl : l < 32) (k : Nat) : (1#32 <<< l).getLsbD k = decide (k = l) := by
  simp only [BitVec.getLsbD_shiftLeft, BitVec.getLsbD_one]
  by_cases h : k = l
  · subst h; simp [hl]
  · simp only [h, decide_false]
    by_cases hk : k < l
    · simp [hk]
    · have : k - l ≠ 0 := by omega
      simp [this]

theorem or_lane_ne_zero {l : Nat} (hl : l < 32) (b : W32) : b ||| (1#32 <<< l) ≠ 0#32 := fun h => by
  have hbit := congrArg (BitVec.getLsbD · l) h
  simp [getLsbD_lane hl] at hbit

section
variable {addr : Nat → Nat} {x y l : Nat} (a b : W32) (hne : x ≠ y)
include hne

theorem groupStep_first (h : addr l = x) : groupStep addr (twoGroups x y a b) l = twoGroups x y (a ||| (1#32 <<< l)) b := by
  subst h
  by_cases hb : b = 0#32 <;> simp [groupStep, twoGroups, hb, hne.symm]

theorem groupStep_second (hl : l < 32) (h : addr l = y) :
    groupStep addr (twoGroups x y a b) l = twoGroups x y a (b ||| (1#32 <<< l)) := by
  subst h
  have hlane := or_lane_ne_zero hl b
  have htwo : twoGroups x (addr l) a (b ||| (1#32 <<< l)) = [(x, a), (addr l, b ||| (1#32 <<< l))] := by
    rw [twoGroups, if_neg hlane]
  rw [htwo]
  by_cases hb : b = 0#32 <;> simp [groupStep, twoGroups, hb, hne]

end

/-- A mask with the lanes of a list that meet a condition. -/
def withLanes (p : Nat → Bool) (ls : List Nat) (a : W32) : W32 :=
  ls.foldl (fun a l => if p l then a ||| (1#32 <<< l) else a) a

theorem withLanes_getLsbD (p : Nat → Bool) {ls : List Nat} (hls : ∀ l ∈ ls, l < 32) (a : W32) (k : Nat) :
    (withLanes p ls a).getLsbD k = (a.getLsbD k || (decide (k ∈ ls) && p k)) := by
  induction ls generalizing a with
  | nil => simp [withLanes]
  | cons l ls ih =>
    have hlane := getLsbD_lane (hls l List.mem_cons_self)
    have hstep : withLanes p (l :: ls) a = withLanes p ls (if p l then a ||| (1#32 <<< l) else a) := rfl
    rw [hstep, ih fun n hn => hls n (List.mem_cons_of_mem l hn)]
    by_cases hk : k = l
    · subst hk
      by_cases hp : p k = true <;> simp [hp, hlane]
    · by_cases hp : p l = true <;> simp [hp, hk, hlane]

/-- Lanes that go to two addresses join their groups. -/
theorem foldl_groupStep {addr : Nat → Nat} {x y : Nat} {m : W32} (hne : x ≠ y) {ls : List Nat} (hls : ∀ l ∈ ls, l < 32)
    (haddr : ∀ l ∈ ls, addr l = if m.getLsbD l then x else y) (a b : W32) :
    ls.foldl (groupStep addr) (twoGroups x y a b) =
      twoGroups x y (withLanes m.getLsbD ls a) (withLanes (fun l => !m.getLsbD l) ls b) := by
  induction ls generalizing a b with
  | nil => rfl
  | cons l ls ih =>
    have hrest := ih (fun n hn => hls n (List.mem_cons_of_mem l hn)) fun n hn => haddr n (List.mem_cons_of_mem l hn)
    have hl := haddr l List.mem_cons_self
    simp only [List.foldl_cons, withLanes]
    by_cases hm : m.getLsbD l = true
    · rw [groupStep_first a b hne (hl.trans (if_pos hm)), hrest]
      simp [withLanes, hm]
    · rw [groupStep_second a b hne (hls l List.mem_cons_self) (hl.trans (if_neg hm)), hrest]
      simp [withLanes, hm]

/-- The lowest lane of a mask comes first of its lanes. -/
theorem lanesIn_eq_cons {act : W32} (h : act.getLsbD (lowLane act) = true) :
    ∃ ls, lanesIn act = lowLane act :: ls := by
  unfold lowLane at h ⊢
  cases hls : lanesIn act with
  | nil =>
    rw [hls] at h
    have hmem : 0 ∈ lanesIn act := (mem_lanesIn act 0).2 ⟨by omega, h⟩
    rw [hls] at hmem
    exact absurd hmem List.not_mem_nil
  | cons l ls => exact ⟨ls, rfl⟩

/-- R349: active lanes that go to two addresses are two groups, that of the lowest lane first. -/
theorem groupLanes_two {act m : W32} {addr : Nat → Nat} {x y : Nat} (hne : x ≠ y) (hlow : m.getLsbD (lowLane act) = true)
    (hin : m &&& ~~~act = 0) (hrest : act &&& ~~~m ≠ 0#32) (haddr : ∀ l ∈ lanesIn act, addr l = if m.getLsbD l then x else y) :
    groupLanes act addr = [(x, m), (y, act &&& ~~~m)] := by
  have hsub (k : Nat) (hk : m.getLsbD k = true) : act.getLsbD k = true := by
    have hbit := congrArg (BitVec.getLsbD · k) hin
    have hlt : k < 32 := BitVec.lt_of_getLsbD hk
    simpa [hk, hlt] using hbit
  obtain ⟨ls, hls⟩ := lanesIn_eq_cons (hsub _ hlow)
  have hmem (k : Nat) : (k = lowLane act ∨ k ∈ ls) ↔ act.getLsbD k = true := by
    rw [← List.mem_cons, ← hls, mem_lanesIn]
    exact ⟨And.right, fun h => ⟨BitVec.lt_of_getLsbD h, h⟩⟩
  have hlow32 : lowLane act < 32 := BitVec.lt_of_getLsbD hlow
  have hlanes (l : Nat) (hl : l ∈ ls) : l ∈ lanesIn act := hls ▸ List.mem_cons_of_mem _ hl
  have hlanes32 (l : Nat) (hl : l ∈ ls) : l < 32 := ((mem_lanesIn act l).1 (hlanes l hl)).1
  have hfirst : groupStep addr [] (lowLane act) = twoGroups x y (1#32 <<< lowLane act) 0#32 := by
    have hx : addr (lowLane act) = x := (haddr _ (hls ▸ List.mem_cons_self)).trans (if_pos hlow)
    simp [groupStep, twoGroups, hx]
  have ham : withLanes m.getLsbD ls (1#32 <<< lowLane act) = m := by
    refine BitVec.eq_of_getLsbD_eq fun k hk => ?_
    rw [withLanes_getLsbD _ hlanes32, getLsbD_lane hlow32]
    by_cases hkl : k = lowLane act
    · simp [hkl, hlow]
    · by_cases hm : m.getLsbD k = true
      · simp [hm, ((hmem k).2 (hsub k hm)).resolve_left hkl]
      · simp [hm, hkl]
  have hbm : withLanes (fun l => !m.getLsbD l) ls 0#32 = act &&& ~~~m := by
    refine BitVec.eq_of_getLsbD_eq fun k hk => ?_
    rw [withLanes_getLsbD _ hlanes32, BitVec.getLsbD_and, BitVec.getLsbD_not, BitVec.getLsbD_zero, Bool.false_or,
      decide_eq_true hk, Bool.true_and]
    by_cases hkl : k = lowLane act
    · simp [hkl, hlow]
    · have hact : decide (k ∈ ls) = act.getLsbD k := by
        rw [Bool.eq_iff_iff, decide_eq_true_eq, ← hmem k]
        exact ⟨.inr, fun h => h.resolve_left hkl⟩
      rw [hact]
  rw [groupLanes_eq, hls, List.foldl_cons, hfirst, foldl_groupStep hne hlanes32 fun l hl => haddr l (hlanes l hl), ham, hbm,
    twoGroups, if_neg hrest]

/-! ### The lowest address that fails -/

/-- R297: the check of an address that an instruction goes to. -/
abbrev Issue.checks (c : Issue) (s : State) (a : Nat) : ClauseRes := clauseCheck s c.isl c.part c.core c.tm.hdr a c.cls

/-- R350: one address is checked, where it is lower than the lowest that has failed. -/
def badStep (s : State) (c : Issue) (b : Option (Nat × ClauseRes)) (a : Nat) : Option (Nat × ClauseRes) :=
  match b with
  | some (x, _) =>
    if x ≤ a then b
    else
      match c.checks s a with
      | .good => b
      | r => some (a, r)
  | none =>
    match c.checks s a with
    | .good => none
    | r => some (a, r)

theorem firstBad_eq (s : State) (c : Issue) (as : List Nat) : firstBad s c as = as.foldl (badStep s c) none := rfl

section
variable {s : State} {c : Issue} {a : Nat}

theorem badStep_good (h : c.checks s a = .good) (b : Option (Nat × ClauseRes)) : badStep s c b a = b := by
  unfold badStep
  rw [h]
  split
  · exact ite_self _
  · rfl

theorem badStep_none (h : c.checks s a = .bad) : badStep s c none a = some (a, .bad) := by
  unfold badStep
  rw [h]

theorem badStep_some (h : c.checks s a = .bad) (x : Nat) (r : ClauseRes) :
    badStep s c (some (x, r)) a = if x ≤ a then some (x, r) else some (a, .bad) := by
  unfold badStep
  rw [h]

theorem firstBad_good {as : List Nat} (h : ∀ a ∈ as, c.checks s a = .good) : firstBad s c as = none := by
  rw [firstBad_eq]
  induction as with
  | nil => rfl
  | cons a as ih =>
    rw [List.foldl_cons, badStep_good (h a List.mem_cons_self)]
    exact ih fun a ha => h a (List.mem_cons_of_mem _ ha)

/-- R297, R350: of addresses that pass or fail their check, the lowest that fails is found. -/
theorem firstBad_lowest {as : List Nat} {v : Nat} (hchecks : ∀ a ∈ as, c.checks s a = .good ∨ c.checks s a = .bad)
    (hmem : v ∈ as) (hbad : c.checks s v = .bad) (hlowest : ∀ a ∈ as, c.checks s a = .bad → v ≤ a) :
    firstBad s c as = some (v, .bad) := by
  have hfold (as : List Nat) (b : Option (Nat × ClauseRes))
      (hchecks : ∀ a ∈ as, c.checks s a = .good ∨ c.checks s a = .bad) (hlowest : ∀ a ∈ as, c.checks s a = .bad → v ≤ a)
      (hb : b = some (v, .bad) ∨ (v ∈ as ∧ (b = none ∨ ∃ x, b = some (x, .bad) ∧ v < x))) :
      as.foldl (badStep s c) b = some (v, .bad) := by
    induction as generalizing b with
    | nil => exact hb.resolve_right fun h => List.not_mem_nil h.1
    | cons a as ih =>
      rw [List.foldl_cons]
      refine ih _ (fun k hk => hchecks k (List.mem_cons_of_mem _ hk)) (fun k hk => hlowest k (List.mem_cons_of_mem _ hk)) ?_
      rcases hchecks a List.mem_cons_self with hgood | hfails
      · have hne : v ≠ a := fun h => by rw [← h, hbad] at hgood; exact nomatch hgood
        rw [badStep_good hgood]
        exact hb.imp_right fun h => ⟨(List.mem_cons.1 h.1).resolve_left hne, h.2⟩
      · have hle := hlowest a List.mem_cons_self hfails
        rcases hb with rfl | ⟨hv, rfl | ⟨x, rfl, hx⟩⟩
        · exact .inl ((badStep_some hfails v _).trans (if_pos hle))
        · rw [badStep_none hfails]
          rcases List.mem_cons.1 hv with rfl | hv
          · exact .inl rfl
          · rcases hle.eq_or_lt with rfl | hlt
            · exact .inl rfl
            · exact .inr ⟨hv, .inr ⟨a, rfl, hlt⟩⟩
        · rw [badStep_some hfails]
          rcases List.mem_cons.1 hv with rfl | hv
          · exact .inl (if_neg (by omega))
          · rcases hle.eq_or_lt with rfl | hlt
            · exact .inl (if_neg (by omega))
            · refine .inr ⟨hv, .inr ?_⟩
              split
              · exact ⟨x, rfl, hx⟩
              · exact ⟨a, rfl, hlt⟩
  exact hfold as none hchecks hlowest (.inr ⟨hmem, .inl rfl⟩)

end

end Sys2Proof.Machine
end

section
/-! R163, R165, R187, R348 to R350, R352: transfers that divide a split. -/

namespace Sys2Proof.Machine

open Sys2Proof

/-! ### What paths leave alone -/

/-- What the merging and the division of the paths of strands leave alone. -/
def State.pathless (s : State) : State :=
  { s with focus := none, core := { s.core with threads := [], ops := [], members := [] } }

theorem mergeAt_pathless (n : Nat) (s : State) (th : Thread) : (mergeAt n s th).pathless = s.pathless := by
  induction n generalizing s with
  | zero => rfl
  | succ n ih =>
    unfold mergeAt
    split
    · rfl
    · split
      · rfl
      · rw [ih]
        rfl

theorem mergePaths_pathless (s : State) (m : Member) : (mergePaths s m).pathless = s.pathless := by
  unfold mergePaths
  split
  · rfl
  · exact foldl_keeps _ State.pathless (fun s (e : Thread × ThreadRec) => mergeAt_pathless 4 s e.1) _ _

/-- R187: the merges that are due in a bay change paths alone. -/
theorem mergeBay_pathless (s : State) (isl core bay : Nat) : (mergeBay s isl core bay).pathless = s.pathless :=
  foldl_keeps _ State.pathless mergePaths_pathless _ _

/-- What stands outside the paths has not changed where the rest is the same. -/
theorem pathless_kept {s t : State} (h : t.pathless = s.pathless) :
    t.core.vreg = s.core.vreg ∧ t.core.sreg = s.core.sreg ∧ t.core.pred = s.core.pred ∧ Quiet s t := by
  have hmem : t.mem = s.mem := (congrArg State.mem h :)
  refine ⟨(congrArg (·.core.vreg) h :), (congrArg (·.core.sreg) h :), (congrArg (·.core.pred) h :), ?_⟩
  exact (quiet_of s s.core s.mem.poison s.focus s.free).of_eq hmem (congrArg State.unit h :) (congrArg State.task h :)
    (congrArg State.eng h :) (congrArg State.par h :) (congrArg State.fab h :) (congrArg State.hub h :)

/-! ### The second group -/

/-- R352: where JOIN holds a group. -/
def heldAt (hold : Option Nat) (x : Nat) : Option Nat := if hold = some x then hold else none

/-- R163, R165: what becomes of a further group: a split where there is room, else a pushed path. -/
structure Divided (s u : State) (c : Issue) (mr : MemberRec) (room : Prop) (path : ThreadRec) : Prop where
  others : u.pathless = s.pathless
  live : room → u.thread? ⟨c.th.m, mr.nextSplit⟩ = some path
  pushed : ¬ room → (u.member? c.th.m).bind (·.stack.head?) = some (mr.nextSplit, path)

section
variable {s : State} {c : Issue} {mr : MemberRec} (hold : Option Nat) (g : Nat × W32)
  (hmr : s.member? c.th.m = some mr)
include hmr

/-- R163: the strand has fewer than four splits and the bay's pool an entry. -/
abbrev Issue.room (c : Issue) (s : State) : Prop := liveSplits s c.th.m < 4 ∧ 0 < freePool s c.isl c.core c.mr.bay

theorem divideOne_divides (h : c.room s ∨ mr.stack.length ≠ 32) :
    ∃ u, divideOne c.th c.r c.isl c.core c.mr.bay hold s g = .ok u ∧
      Divided s u c mr (c.room s) (newPath c.r g.1 g.2 (heldAt hold g.1)) := by
  unfold divideOne
  rw [hmr]
  dsimp only
  by_cases hroom : c.room s
  · rw [if_pos hroom]
    exact ⟨_, rfl, rfl, fun _ => thread?_setThread_self .., absurd hroom⟩
  · rw [if_neg hroom, if_neg (h.resolve_left hroom)]
    exact ⟨_, rfl, rfl, fun h => absurd h hroom,
      fun _ => congrArg (Option.bind · fun r : MemberRec => r.stack.head?) (member?_setMember_self ..)⟩

/-- R165: a full stack takes no further group. -/
theorem divideOne_overflows (hroom : ¬ c.room s) (hfull : mr.stack.length = 32) :
    divideOne c.th c.r c.isl c.core c.mr.bay hold s g = .error g.2 := by
  simp only [divideOne, hmr, if_neg hroom, if_pos hfull]

end

/-- R163: the record of a split whose first group stays in it. -/
def Issue.firstPath (c : Issue) (x : Nat) (m : W32) (hold : Option Nat) : ThreadRec :=
  { c.r with mask := m, exited := 0, wait := { c.r.wait with join := heldAt hold x } }

/-- R163, R164: a split has divided in two: its first path stays in it, the second is a split where there is room, else it is
pushed. -/
structure TwoPaths (s t : State) (c : Issue) (mr : MemberRec) (room : Prop) (first second : ThreadRec) : Prop where
  others : t.pathless = s.pathless
  first : t.thread? c.th = some first
  live : room → mr.nextSplit ≠ c.th.split → t.thread? ⟨c.th.m, mr.nextSplit⟩ = some second
  pushed : ¬ room → (t.member? c.th.m).bind (·.stack.head?) = some (mr.nextSplit, second)

section
variable {s : State} {c : Issue} {mr : MemberRec} (hold : Option Nat) (x y : Nat) (m rest : W32)
  (hmr : (mergeBay s c.isl c.core c.mr.bay).member? c.th.m = some mr)
include hmr

theorem divide_divides (h : c.room (mergeBay s c.isl c.core c.mr.bay) ∨ mr.stack.length ≠ 32) :
    ∃ t, divide s c [(x, m), (y, rest)] hold = .ok t ∧ TwoPaths s t c mr (c.room (mergeBay s c.isl c.core c.mr.bay))
      (c.firstPath x m hold) (newPath c.r y rest (heldAt hold y)) := by
  obtain ⟨u, hu, hothers, hlive, hpushed⟩ := divideOne_divides hold (y, rest) hmr h
  refine ⟨u.setThread c.th (c.firstPath x m hold), ?_, hothers.trans (mergeBay_pathless ..), thread?_setThread_self ..,
    fun hroom hne => ?_, hpushed⟩
  · simp only [divide, List.isEmpty_cons, Bool.false_eq_true, if_false, List.foldlM_cons, List.foldlM_nil, bind_pure, hu]
    rfl
  · exact (thread?_setThread_ne _ _ _ _ fun h => hne (congrArg Thread.split h)).trans (hlive hroom)

theorem divide_overflows (hroom : ¬ c.room (mergeBay s c.isl c.core c.mr.bay)) (hfull : mr.stack.length = 32) :
    divide s c [(x, m), (y, rest)] hold = .error rest := by
  simp only [divide, List.isEmpty_cons, Bool.false_eq_true, if_false, List.foldlM_cons, List.foldlM_nil, bind_pure,
    divideOne_overflows hold (y, rest) hmr hroom hfull]

end

/-! ### The link -/

/-- R348: a link changes vector registers, the marks of overtaken operations, and poison. -/
theorem putLink_shape (s : State) {c : Issue} (hgaffer : c.gaffer = false) (link : Option Head) (taken : W32) :
    ∃ vr os ps, putLink s c link taken =
      { s with core := { s.core with vreg := vr, ops := os }, mem := { s.mem with poison := ps } } := by
  cases link with
  | none => exact ⟨_, _, _, rfl⟩
  | some g =>
    simp only [putLink, hgaffer, Bool.false_eq_true, if_false]
    exact putV_shape ..

theorem putLink_leaves (s : State) {c : Issue} (hgaffer : c.gaffer = false) (link : Option Head) (taken : W32) :
    let u := putLink s c link taken
    (∀ th, u.thread? th = s.thread? th) ∧ (∀ m, u.member? m = s.member? m) ∧ u.core.sreg = s.core.sreg ∧
      u.core.pred = s.core.pred ∧ Quiet s u := by
  obtain ⟨vr, os, ps, hshape⟩ := putLink_shape s hgaffer link taken
  dsimp only
  rw [hshape]
  exact ⟨fun _ => rfl, fun _ => rfl, rfl, rfl, quiet_of s _ ps s.focus s.free⟩

theorem putLink_ne (s : State) {c : Issue} (hgaffer : c.gaffer = false) {link : Option Head} (taken : W32) {k : Member}
    {j : Nat} (h : ∀ g, link = some g → g.k = true ∨ k ≠ c.th.m ∨ j ≠ g.d) :
    (putLink s c link taken).core.vreg.getD (k, j) [] = s.core.vreg.getD (k, j) [] := by
  cases link with
  | none => rfl
  | some g =>
    simp only [putLink, hgaffer, Bool.false_eq_true, if_false]
    exact putV_ne _ _ _ _ _ _ _ ((h g rfl).imp_right fun h => h.imp_right fun h => ⟨h, nofun⟩)

theorem putLink_lane (s : State) {c : Issue} (hgaffer : c.gaffer = false) {g : Head} (hk : g.k = false) {l : Nat}
    (hl : l < 32) : vlane (putLink s c (some g) c.exec) c.th.m g.d l =
      if c.exec.getLsbD l then w32 (c.fall - c.tm.hdr.code) else vlane s c.th.m g.d l := by
  have hvals : List.replicate 32 (w64 (c.fall - c.tm.hdr.code)) = lanesOf fun _ => w64 (c.fall - c.tm.hdr.code) := by
    simp [lanesOf]
  have hword : BitVec.setWidth 32 (w64 (c.fall - c.tm.hdr.code)) = w32 (c.fall - c.tm.hdr.code) :=
    BitVec.setWidth_ofNat_of_le (by decide) _
  simp only [putLink, hgaffer, Bool.false_eq_true, if_false]
  rw [hvals, putV_low s c g 1 _ hk l hl, hword]

/-! ### Transfers -/

/-- R352: the address at which a transfer holds a group: JOIN's target. -/
def joinHold (join : Bool) (goal : Nat) : Option Nat := if join then some goal else none

section
variable {s : State} {c : Issue} {join : Bool} {link : Option Head} {target : Nat → Nat}
  (hgaffer : c.gaffer = false) (hhandler : c.r.handler = false)
include hgaffer hhandler

theorem heads_eq : (fun l => if c.exec.getLsbD l then target l else c.fall) = c.heads false target := by
  funext l
  simp only [Issue.heads, hgaffer, hhandler, Bool.or_self, Bool.false_eq_true, if_false]

/-- R350: a transfer to an address that is no clause. -/
theorem transfer_bad {v : Nat}
    (h : firstBad s c ((groupLanes c.active (c.heads false target)).map (·.1)) = some (v, .bad)) :
    transfer s c ⟨false, join, link⟩ target = .trap .illegalClause (w64 v) := by
  simp only [transfer, hgaffer, hhandler, Bool.or_self, Bool.false_eq_true, if_false, heads_eq hgaffer hhandler, h]
  rfl

section
variable (hgood : firstBad s c ((groupLanes c.active (c.heads false target)).map (·.1)) = none)
include hgood

theorem transfer_overflows {mask : W32} (h : divide s c (groupLanes c.active (c.heads false target))
    (joinHold join (target c.low)) = .error mask) :
    transfer s c ⟨false, join, link⟩ target = .trap .splitOverflow (mask.setWidth 64) := by
  simp only [transfer, hgaffer, hhandler, Bool.or_self, Bool.false_eq_true, if_false, heads_eq hgaffer hhandler, hgood,
    Bool.not_false, Bool.and_true]
  rw [joinHold] at h
  rw [h]

theorem transfer_divides {u : State} (h : divide s c (groupLanes c.active (c.heads false target))
    (joinHold join (target c.low)) = .ok u) : transfer s c ⟨false, join, link⟩ target =
      .goto (putLink u c link c.exec) [] (((groupLanes c.active (c.heads false target)).map (·.1)).headD c.fall) := by
  simp only [transfer, hgaffer, hhandler, Bool.or_self, Bool.false_eq_true, if_false, heads_eq hgaffer hhandler, hgood,
    Bool.not_false, Bool.and_true]
  rw [joinHold] at h
  rw [h]

end
end

/-! ### The paths of a divided split -/

/-- Where a path stands: its address and mask, its clause, and where JOIN holds it. -/
def ThreadRec.path (r : ThreadRec) : Nat × W32 × Option Clause × Option Nat := (r.pc, r.mask, r.clause, r.wait.join)

/-- R352: a path that stands before the clause at an address, held there where JOIN's target is that address. -/
def standsAt (join : Bool) (goal x : Nat) (m : W32) : Nat × W32 × Option Clause × Option Nat :=
  (x, m, none, if join ∧ x = goal then some x else none)

theorem heldAt_join (join : Bool) (goal x : Nat) :
    heldAt (joinHold join goal) x = if join ∧ x = goal then some x else none := by
  cases join with
  | false => rfl
  | true =>
    by_cases h : x = goal
    · subst h; simp [heldAt, joinHold]
    · simp [heldAt, joinHold, h, Ne.symm h]

theorem newPath_path (r : ThreadRec) (join : Bool) (goal x : Nat) (m : W32) :
    (newPath r x m (heldAt (joinHold join goal) x)).path = standsAt join goal x m := by
  rw [heldAt_join]
  rfl

/-- R160: the record of a thread after the last slot of its clause. -/
def ThreadRec.done (r : ThreadRec) (latch : List W64) : ThreadRec :=
  { r with
    latches := r.latches.set (r.slot % 8) latch, slot := r.slot + 1,
    wait := { r.wait with replay := none, portless := false } }

/-- R348: a transfer of a thread, some lanes of which go on, ends its clause. -/
theorem finishSlot_goes {s : State} {th : Thread} {r : ThreadRec} (latch : List W64) (pc : Nat) (hr : s.thread? th = some r)
    (hends : r.ends = []) (hlive : r.mask &&& ~~~r.exited ≠ 0) :
    finishSlot s th latch true pc = { s.setThread th ((r.done latch).before pc) with focus := none } := by
  have hend := endClause_live pc (thread?_setThread_self s th (r.done latch)) hends hlive
  rw [setThread_setThread] at hend
  rw [finishSlot, hr]
  exact hend

theorem firstPath_path (c : Issue) (join : Bool) (goal x : Nat) (m : W32) :
    (((c.firstPath x m (joinHold join goal)).done []).before x).path = standsAt join goal x m := by
  have hmask : m &&& ~~~(0 : W32) = m := BitVec.and_allOnes
  show (x, m &&& ~~~(0 : W32), none, heldAt (joinHold join goal) x) = _
  rw [heldAt_join, hmask]
  rfl

/-! ### Transfers that divide -/

section
variable {i : Instr} {h : Head} {srcs : List Src} {s : State} {c : Issue} {join : Bool} {link : Option Head}
  {target : Nat → Nat} (hi : exec i s = .next (commit s (settle s c (transfer s c ⟨false, join, link⟩ target))))
  (hc : Clear s h .vecX srcs c) (hgaffer : c.gaffer = false) (hhandler : c.r.handler = false)
include hi hc hgaffer hhandler

/-- R350: the lowest address that is no clause raises ILLEGAL_CLAUSE. -/
theorem branch_traps {v : Nat} (hcan : c.canTrap)
    (hchecks : ∀ l ∈ lanesIn c.active,
      c.checks s (c.heads false target l) = .good ∨ c.checks s (c.heads false target l) = .bad)
    (hv : v ∈ (lanesIn c.active).map (c.heads false target)) (hbad : c.checks s v = .bad)
    (hlowest : ∀ l ∈ lanesIn c.active, c.checks s (c.heads false target l) = .bad → v ≤ c.heads false target l) :
    exec i s = .next (commit s (c.traps s .illegalClause (w64 v) c.addr)) := by
  have hfirst : firstBad s c ((groupLanes c.active (c.heads false target)).map (·.1)) = some (v, .bad) := by
    have hgoal (a : Nat) (ha : a ∈ (groupLanes c.active (c.heads false target)).map (·.1)) :=
      List.mem_map.1 ((mem_groupLanes ..).1 ha)
    refine firstBad_lowest (fun a ha => ?_) ((mem_groupLanes ..).2 hv) hbad fun a ha => ?_
    · obtain ⟨l, hl, rfl⟩ := hgoal a ha
      exact hchecks l hl
    · obtain ⟨l, hl, rfl⟩ := hgoal a ha
      exact hlowest l hl
  rw [hi, transfer_bad hgaffer hhandler hfirst, settle_trap hc hcan]

section
variable {x y : Nat} {m : W32} {mr0 : MemberRec}
  (hgroups : groupLanes c.active (c.heads false target) = [(x, m), (y, c.active &&& ~~~m)])
  (hx : c.checks s x = .good) (hy : c.checks s y = .good)
  (hmr0 : (mergeBay s c.isl c.core c.mr.bay).member? c.th.m = some mr0)
include hgroups hx hy hmr0

omit hi hc hgaffer hhandler hmr0 in
theorem groups_good : firstBad s c ((groupLanes c.active (c.heads false target)).map (·.1)) = none := by
  rw [hgroups]
  exact firstBad_good (by simp [hx, hy])

/-- R165: a group for which there is no room raises SPLIT_OVERFLOW on a full stack. -/
theorem branch_overflows (hroom : ¬ c.room (mergeBay s c.isl c.core c.mr.bay)) (hfull : mr0.stack.length = 32)
    (hcan : c.canTrap) :
    exec i s = .next (commit s (c.traps s .splitOverflow ((c.active &&& ~~~m).setWidth 64) c.addr)) := by
  have hdivide := divide_overflows (joinHold join (target c.low)) x y m (c.active &&& ~~~m) hmr0 hroom hfull
  rw [hi, transfer_overflows hgaffer hhandler (groups_good hgroups hx hy) (hgroups ▸ hdivide), settle_trap hc hcan]

omit hc in
/-- R163, R348, R352: two groups are two paths: one stays, and one becomes a split or is pushed. -/
theorem branch_divides (hends : c.r.ends = []) (hm : m ≠ 0)
    (hroom : c.room (mergeBay s c.isl c.core c.mr.bay) ∨ mr0.stack.length ≠ 32) : Gives (exec i s) fun t =>
      (t.thread? c.th).map ThreadRec.path = some (standsAt join (target c.low) x m) ∧
      (c.room (mergeBay s c.isl c.core c.mr.bay) → mr0.nextSplit ≠ c.th.split →
        (t.thread? ⟨c.th.m, mr0.nextSplit⟩).map ThreadRec.path =
          some (standsAt join (target c.low) y (c.active &&& ~~~m))) ∧
      (¬ c.room (mergeBay s c.isl c.core c.mr.bay) →
        ((t.member? c.th.m).bind (·.stack.head?)).map (fun e => e.2.path) =
          some (standsAt join (target c.low) y (c.active &&& ~~~m))) ∧
      (∀ g, link = some g → g.k = false → ∀ l, l < 32 → vlane t c.th.m g.d l =
        if c.exec.getLsbD l then w32 (c.fall - c.tm.hdr.code) else vlane s c.th.m g.d l) ∧
      (∀ k j, (∀ g, link = some g → g.k = true ∨ k ≠ c.th.m ∨ j ≠ g.d) →
        t.core.vreg.getD (k, j) [] = s.core.vreg.getD (k, j) []) ∧
      t.core.sreg = s.core.sreg ∧ t.core.pred = s.core.pred ∧ Quiet s t := by
  obtain ⟨u, hdivide, hothers, hfirst, hlive, hpushed⟩ :=
    divide_divides (joinHold join (target c.low)) x y m (c.active &&& ~~~m) hmr0 hroom
  obtain ⟨hthreads, hmembers, hsreg', hpred', hlinked⟩ := putLink_leaves u hgaffer link c.exec
  obtain ⟨hvreg, hsreg, hpred, hquiet⟩ := pathless_kept hothers
  have hmask : m &&& ~~~(0 : W32) = m := BitVec.and_allOnes
  have hexec : exec i s = .next (commit s { (putLink u c link c.exec).setThread c.th
      (((c.firstPath x m (joinHold join (target c.low))).done []).before x) with focus := none }) := by
    rw [hi, transfer_divides hgaffer hhandler (groups_good hgroups hx hy) (hgroups ▸ hdivide), hgroups]
    exact congrArg (fun t => Host.Outcome.next (commit s t))
      (finishSlot_goes [] x ((hthreads c.th).trans hfirst) hends (by rw [Issue.firstPath, hmask]; exact hm))
  refine ⟨_, hexec, ?_, fun hr hne => ?_, fun hr => ?_, fun g hg hk l hl => ?_, fun k j hkj => ?_,
    hsreg'.trans hsreg, hpred'.trans hpred,
    (hquiet.trans hlinked).of_eq rfl (hquiet.trans hlinked).unit.symm rfl rfl rfl rfl rfl⟩
  · exact (congrArg (Option.map _) (thread?_setThread_self ..)).trans (congrArg some (firstPath_path ..))
  · have hpath := (thread?_setThread_ne _ _ _ (((c.firstPath x m (joinHold join (target c.low))).done []).before x)
      fun h => hne (congrArg Thread.split h)).trans ((hthreads _).trans (hlive hr hne))
    exact (congrArg (Option.map ThreadRec.path) hpath).trans (congrArg some (newPath_path ..))
  · have hpath := (congrArg (Option.bind · fun r : MemberRec => r.stack.head?) (hmembers c.th.m)).trans (hpushed hr)
    exact (congrArg (Option.map fun e : Nat × ThreadRec => e.2.path) hpath).trans (congrArg some (newPath_path ..))
  · subst hg
    have hlane := putLink_lane u hgaffer hk hl
    rw [vlane, vlane, hvreg] at hlane
    exact hlane
  · exact (putLink_ne u hgaffer c.exec hkj).trans (by rw [hvreg])

end
end

/-- Settles O13: a transfer to several addresses traps at the lowest that is no clause, overflows, or divides. -/
theorem branchDivides : Obligations.BranchDivides := by
  unfold Obligations.BranchDivides
  intro h w a divides offset indirect
  have key (i : Instr) (srcs : List Src) (join : Bool) (link : Option Head) (goal : State → Issue → Nat → Nat)
      (target : State → Issue → Nat → Nat)
      (hi : ∀ s, exec i s = issue s h .vecX srcs fun c => transfer s c ⟨false, join, link⟩ (goal s c))
      (hgoal : ∀ s c, c.gaffer = false → goal s c = target s c) : divides i srcs join link target := by
    intro s c hc hp hlast hgaffer hhandler
    have hexec : exec i s = .next (commit s (settle s c (transfer s c ⟨false, join, link⟩ (target s c)))) := by
      rw [hi, issue_clear hc, hgoal s c hgaffer]
    refine ⟨fun v hcan hchecks hv hbad hlowest => branch_traps hexec hc hgaffer hhandler hcan hchecks hv hbad hlowest,
      fun x y m mr0 hne hlow hin hrest haddr hx hy => ?_⟩
    intro _ _ _ _ _ hmr0
    have hgroups := groupLanes_two hne hlow hin hrest haddr
    have hm : m ≠ 0 := fun h => by simp [h] at hlow
    exact ⟨branch_overflows hexec hc hgaffer hhandler hgroups hx hy hmr0,
      branch_divides hexec hgaffer hhandler hgroups hx hy hmr0 (hp.ends.none hlast) hm⟩
  have hindirect (s : State) (c : Issue) (hgaffer : c.gaffer = false) : indirectTarget s c a = indirect s c := by
    funext l
    rw [indirectTarget, hgaffer]
    rfl
  exact ⟨key _ _ _ _ _ _ (exec_br h w) fun _ _ _ => rfl, key _ _ _ _ _ _ (exec_brx h a) hindirect,
    key _ _ _ _ _ _ (exec_call h w) fun _ _ _ => rfl, key _ _ _ _ _ _ (exec_callx h a) hindirect,
    key _ _ _ _ _ _ (exec_ret h a) hindirect, key _ _ _ _ _ _ (exec_join h w) fun _ _ _ => rfl⟩

end Sys2Proof.Machine
end

section
/-! R199, R396: the copies that cache control drops. -/

namespace Sys2Proof.Machine

open Sys2Proof

/-! ### Tables from which entries have left -/

theorem Tbl.getD_drop {κ α : Type} [DecidableEq κ] (t : Tbl κ α) (p : κ → Bool) (x : κ) (d : α) :
    (t.drop p).getD x d = if p x then d else t.getD x d := by
  rw [Tbl.getD, Tbl.get?_drop]
  split <;> rfl

section
variable {κ α : Type} [DecidableEq κ] {t : Tbl κ α} {p : κ × α → Bool} {x : κ} {v : α}

theorem Tbl.get?_filter_of_kept (h : t.get? x = some v) (hp : p (x, v) = true) : Tbl.get? (t.filter p) x = some v := by
  induction t with
  | nil => exact nomatch h
  | cons e t ih =>
    obtain ⟨k, u⟩ := e
    by_cases hk : k = x
    · subst hk
      obtain rfl : u = v := by simpa [Tbl.get?] using h
      simp [hp, Tbl.get?]
    · have hrest : Tbl.get? (t.filter p) x = some v := ih (by simpa [Tbl.get?, hk] using h)
      cases hpu : p (k, u) with
      | true => simpa [hpu, Tbl.get?, hk] using hrest
      | false => simpa [hpu] using hrest

theorem Tbl.get?_filter_none (h : t.get? x = none) : Tbl.get? (t.filter p) x = none :=
  (Tbl.get?_eq_none_iff ..).2 fun hx => (Tbl.get?_eq_none_iff ..).1 h (List.map_subset _ (List.filter_subset_self ..) hx)

theorem Tbl.of_get?_filter (h : Tbl.get? (t.filter p) x = some v) : p (x, v) = true :=
  (List.mem_filter.1 (Tbl.mem_of_get? h)).2

end

/-! ### Dropped words -/

/-- R396: from one L1 to another, the words that meet a condition leave, and no other word changes. -/
structure Drops (gone : Nat × Nat × Nat → L1Word → Prop) (l1 l1' : Tbl (Nat × Nat × Nat) L1Word) : Prop where
  kept : ∀ k x, l1.get? k = some x → ¬ gone k x → l1'.get? k = some x
  absent : ∀ k, l1.get? k = none → l1'.get? k = none
  left : ∀ k x, l1'.get? k = some x → ¬ gone k x

theorem Drops.nothing {gone : Nat × Nat × Nat → L1Word → Prop} (h : ∀ k x, ¬ gone k x)
    (l1 : Tbl (Nat × Nat × Nat) L1Word) : Drops gone l1 l1 :=
  ⟨fun _ _ hx _ => hx, fun _ hx => hx, fun k x _ => h k x⟩

theorem Drops.filter {gone : Nat × Nat × Nat → L1Word → Prop} {p : (Nat × Nat × Nat) × L1Word → Bool}
    (h : ∀ k x, p (k, x) = true ↔ ¬ gone k x) (l1 : Tbl (Nat × Nat × Nat) L1Word) : Drops gone l1 (l1.filter p) :=
  ⟨fun k x hx hgone => Tbl.get?_filter_of_kept hx ((h k x).2 hgone), fun _ hx => Tbl.get?_filter_none hx,
    fun k x hx => (h k x).1 (Tbl.of_get?_filter hx)⟩

/-! ### The instructions -/

/-- A state whose cores hold other copies of global memory and of clauses. -/
def State.recached (s : State) (l1 : Tbl (Nat × Nat × Nat) L1Word) (ic : Tbl (Nat × Nat × Nat) (List Byte)) : State :=
  { s with mem := { s.mem with l1 := l1, icache := ic } }

/-- R396: the L1 words once CCTL.L1INV has dropped those of the line that an address leads to, where it leads to one. -/
def Issue.invalidated (c : Issue) (s : State) (va : Nat) : Tbl (Nat × Nat × Nat) L1Word :=
  match c.lineOf s va with
  | none => s.mem.l1
  | some pa => (dropLine s c.isl c.core (pa / 256)).mem.l1

theorem Issue.invalidated_drops (c : Issue) (s : State) (va : Nat) :
    Drops (fun k x => k.1 = c.isl ∧ k.2.1 = c.core ∧ x.owned = false ∧
      (c.lineOf s va).map (· / 256) = some (k.2.2 / 64)) s.mem.l1 (c.invalidated s va) := by
  unfold Issue.invalidated
  cases c.lineOf s va with
  | none => exact .nothing (fun _ _ ⟨_, _, _, hline⟩ => nomatch hline) _
  | some pa =>
    refine .filter (fun k x => ?_) _
    simp only [Bool.or_eq_true, bne_iff_ne, Option.map_some, Option.some.injEq, not_and, @eq_comm _ (pa / 256),
      ← Bool.not_eq_true]
    tauto

theorem acquire_drops (c : Issue) (m : MemSt) :
    Drops (fun k x => k.1 = c.isl ∧ k.2.1 = c.core ∧ x.owned = false ∧ x.sealed = false) m.l1
      (m.acquire c.isl c.core).l1 := by
  refine .filter (fun k x => ?_) _
  simp only [Bool.or_eq_true, bne_iff_ne, not_and, ← Bool.not_eq_true]
  tauto

theorem dropICache_get? (s : State) (isl : Nat) (p : Nat → Bool) (i core x : Nat) :
    (dropICache s isl p).mem.icache.get? (i, core, x) =
      if i = isl ∧ p core = true then none else s.mem.icache.get? (i, core, x) := by
  simp only [dropICache, Tbl.get?_drop, Bool.and_eq_true, beq_iff_eq]

/-- R396: CCTL.L1INV starts one operation, whether its address leads to a line or not. -/
theorem exec_cctlL1inv_recached (h : Head) (a : Src) (s : State) : exec (.cctlL1inv h a) s =
    issue s h .sca [a] fun c => c.memory s false fun _ =>
      plainOp s (s.recached (c.invalidated s (rd64 s c (uS 1) a 0).toNat) s.mem.icache) c h := by
  rw [exec_cctlL1inv, execCctlL1inv]
  congr 1
  funext c
  unfold Issue.invalidated
  cases c.lineOf s (rd64 s c (uS 1) a 0).toNat <;> rfl

/-- Settles O28: each instruction starts its operation over the caches that it leaves. -/
theorem cacheControl : Obligations.CacheControl := by
  unfold Obligations.CacheControl
  intro h a cctl
  have key (i : Instr) (srcs : List Src) (emptied : State → Issue → Nat → Bool)
      (gone : State → Issue → Nat × Nat × Nat → L1Word → Prop) (l1 : State → Issue → Tbl (Nat × Nat × Nat) L1Word)
      (ic : State → Issue → Tbl (Nat × Nat × Nat) (List Byte))
      (hi : ∀ s, exec i s = issue s h .sca srcs fun c => c.memory s false fun _ =>
        plainOp s (s.recached (l1 s c) (ic s c)) c h)
      (hl1 : ∀ s c, Drops (gone s c) s.mem.l1 (l1 s c))
      (hic : ∀ s c isl core x, (ic s c).get? (isl, core, x) =
        if isl = c.isl ∧ emptied s c core = true then none else s.mem.icache.get? (isl, core, x)) :
      cctl i srcs emptied gone := by
    intro s c hc hp
    obtain ⟨hpasses, hstarts⟩ :=
      acts_of_started hi (p := fun _ _ => True) (fun _ _ _ _ => rfl) (fun _ _ => rfl) s c hc hp
    obtain ⟨hkept, habsent, hleft⟩ := hl1 s c
    exact ⟨hpasses, fun hexec hord => ⟨_, _, hstarts hexec hord trivial, hic s c, hkept, habsent, hleft⟩⟩
  have hsame (s : State) (c : Issue) : Drops (fun _ _ => False) s.mem.l1 s.mem.l1 := .nothing (fun _ _ h => h) _
  exact ⟨key _ _ _ _ _ _ (exec_cctlIinv h) hsame fun s c => dropICache_get? s c.isl (· == c.core),
    key _ _ _ _ _ _ (exec_cctlIinvp h) hsame fun s c => dropICache_get? s c.isl (partCore s c.part),
    key _ _ _ _ _ _ (exec_cctlL1inv_recached h a) (fun s c => c.invalidated_drops s _) fun _ _ _ _ _ => by simp,
    key _ _ _ _ _ (fun s _ => s.mem.icache) (exec_cctlL1all h) (fun s c => acquire_drops c s.mem) fun _ _ _ _ _ => by simp⟩

end Sys2Proof.Machine
end

section
/-! R203, R206, R397: SEAL and UNSEAL. -/

namespace Sys2Proof.Machine

open Sys2Proof

/-! ### What a write at a bank leaves of threads -/

/-- A thread's record, its watch apart. -/
def ThreadRec.unwatched (r : ThreadRec) : ThreadRec := { r with watch := none }

/-- The records of threads, their watches apart. -/
def unwatched (ts : Tbl Thread ThreadRec) : Tbl Thread ThreadRec := ts.map fun e => (e.1, e.2.unwatched)

theorem unwatched_map {f : Thread × ThreadRec → Thread × ThreadRec}
    (hf : ∀ e, ((f e).1, (f e).2.unwatched) = (e.1, e.2.unwatched)) (ts : Tbl Thread ThreadRec) : unwatched (ts.map f) = unwatched ts :=
  (List.map_map ..).trans (List.map_congr_left fun e _ => hf e)

theorem wakeWatches_unwatched (s : State) (isl pa n : Nat) :
    unwatched (wakeWatches s isl pa n).core.threads = unwatched s.core.threads := by
  refine unwatched_map (fun e => ?_) _
  dsimp only
  split
  · split <;> rfl
  · rfl

theorem loseWatches_unwatched (s : State) (isl : Nat) (p : Nat → Bool) :
    unwatched (loseWatches s isl p).core.threads = unwatched s.core.threads := by
  refine unwatched_map (fun e => ?_) _
  dsimp only
  split
  · split <;> rfl
  · rfl

theorem makeRoom_unwatched (isl : Nat) (s : State) (pa : Nat) :
    unwatched (makeRoom isl s pa).core.threads = unwatched s.core.threads := by
  unfold makeRoom
  split
  · rfl
  · dsimp only
    split
    · rfl
    · exact loseWatches_unwatched ..

/-- R195: a write at a bank changes no thread but for its watch. -/
theorem bypassBank_unwatched (s : State) (isl : Nat) (core : Option Nat) (pa : Nat) (bs : List Byte) :
    unwatched (bypassBank s isl core pa bs).core.threads = unwatched s.core.threads := by
  refine foldl_keeps _ (fun s : State => unwatched s.core.threads) (fun s x => ?_) _ _
  exact (wakeWatches_unwatched ..).trans (makeRoom_unwatched isl s x.1)

theorem thread?_of_unwatched {s t : State} (h : unwatched t.core.threads = unwatched s.core.threads) {th : Thread}
    {r : ThreadRec} (hr : s.thread? th = some r) :
    t.thread? th = some { r with watch := (t.thread? th).bind (·.watch) } := by
  have hth : (t.thread? th).map ThreadRec.unwatched = (s.thread? th).map ThreadRec.unwatched :=
    Tbl.get?_map_congr ThreadRec.unwatched h th
  rw [hr] at hth
  obtain ⟨r', hr', heq⟩ := Option.map_eq_some_iff.1 hth
  rw [hr']
  exact congrArg (fun x : ThreadRec => some { x with watch := r'.watch }) heq

/-! ### Operations over a changed record -/

section
variable {s : State} {c : Issue}

theorem startOp_eq {o : Op} (hs : s.thread? c.th = some c.r) :
    startOp s c o = if c.sbsel = 7 then withOp s o else (withOp s o).setThread c.th c.raised := by
  have hr : (withOp s o).thread? c.th = some c.r := hs
  have hstart : startOp s c o = raiseSb (withOp s o) c.th c.sbsel := rfl
  rw [hstart, raiseSb, hr, Issue.raised]
  dsimp only
  split <;> rfl

/-- R161: an operation starts over a state in which the record of the issuing thread is the issue's. -/
theorem settle_started (u : State) {o : Op} (hs : s.thread? c.th = some c.r) (hends : c.NothingDue c.r)
    (hlive : c.active ≠ 0) : settle u c (.done (startOp s c o) []) = c.advance (withOp s o) c.raised [] := by
  by_cases hsb : c.sbsel = 7
  · rw [startOp_eq hs, if_pos hsb, Issue.raised, if_pos hsb]
    exact settle_done _ _ _ _ _ hs hends hlive
  · rw [startOp_eq hs, if_neg hsb, settle_done _ _ _ _ _ (thread?_setThread_self ..)]
    · simp only [Issue.advance, setThread_setThread, State.setThread_focus]
    · rw [Issue.raised, if_neg hsb]
      exact ⟨hends.none, hends.attached⟩
    · rw [Issue.raised, if_neg hsb]
      exact hlive

end

/-! ### The range -/

/-- R397: the address that SEAL and UNSEAL name. -/
abbrev sealStart (a : Src) (s : State) (c : Issue) : Nat := (rd64 s c (uS 1) a 0).toNat

/-- R397: the end of the range that they name. -/
abbrev sealStop (a b : Src) (s : State) (c : Issue) : Nat := sealStart a s c + (rd32 s c (uS 2) b 0).toNat * 65536

/-- R203, R206: the state once SL is set or cleared in leaves. -/
abbrev sealedState (on : Bool) (s : State) (c : Issue) (ls : List (Nat × Nat × Nat)) : State :=
  markSealed (ls.foldl (setSl c.isl on) s) c.isl on (ls.map (·.2))

/-- R397: what the operation of SEAL or UNSEAL does over some pages. -/
abbrev sealAct (on : Bool) (pages : List (Nat × Nat)) : OpAct := if on then .seal pages false else .unseal pages false

theorem sealedState_unwatched (on : Bool) (s : State) (c : Issue) (ls : List (Nat × Nat × Nat)) :
    unwatched (sealedState on s c ls).core.threads = unwatched s.core.threads :=
  foldl_keeps (setSl c.isl on) (fun s : State => unwatched s.core.threads)
    (fun s leaf => bypassBank_unwatched s c.isl none leaf.1 _) ls s

section
variable {h : Head} {on : Bool} {a b : Src} {s : State} {c : Issue} (hexec : c.exec ≠ 0) (hord : c.ordered s on)
include hexec hord

theorem sealBody_misaligned (ha : sealStart a s c % 65536 ≠ 0) :
    sealBody s c h on a b = .trap .misaligned (w64 (sealStart a s c)) :=
  (memory_ordered _ hexec hord).trans (if_pos ha)

theorem sealBody_split {p : Nat} (ha : sealStart a s c % 65536 = 0)
    (hp : splitLarge s c.isl c.part (sealStart a s c) (sealStop a b s c) = some p) :
    sealBody s c h on a b = .trap .permission (w64 p) := by
  rw [sealBody, memory_ordered _ hexec hord]
  dsimp only
  rw [if_neg (not_not_intro ha), hp]

/-- R397: a range that passes its checks waits for another SEAL or UNSEAL of its pages, or its leaves are changed. -/
theorem sealBody_checked {ls : List (Nat × Nat × Nat)} (ha : sealStart a s c % 65536 = 0)
    (hwhole : splitLarge s c.isl c.part (sealStart a s c) (sealStop a b s c) = none)
    (hls : sealLeaves s c.isl c.part (sealStop a b s c) ((sealStop a b s c - sealStart a s c) / 65536)
      (sealStart a s c) = .ok ls) : sealBody s c h on a b =
    if sealBusy s c.isl (ls.map (·.2)) then .stall
    else .done (startOp (sealedState on s c ls) c (c.op s h true .none (sealAct on (ls.map (·.2))))) [] := by
  rw [sealBody, memory_ordered _ hexec hord]
  dsimp only
  rw [if_neg (not_not_intro ha), hwhole]
  dsimp only
  rw [hls]

end

/-- The issue, where the write of a leaf has woken a watch of its thread. -/
abbrev Issue.rewatched (c : Issue) (t : State) : Issue :=
  { c with r := { c.r with watch := (t.thread? c.th).bind (·.watch) } }

theorem settle_stall {s : State} {h : Head} {k : Kind} {srcs : List Src} {c : Issue} (hc : Clear s h k srcs c) :
    settle s c .stall = { s.setThread c.th { c.r with wait := { c.r.wait with stalled := true } } with focus := none } := by
  rw [settle, stallThread, hc.thread.1]

/-- Settles O29: the checks in their order, and the operation over the leaves that are set or cleared. -/
theorem sealing : Obligations.Sealing := by
  unfold Obligations.Sealing
  intro h a b va stop pages whole
  have key (i : Instr) (on : Bool) (act : List (Nat × Nat) → Bool → OpAct)
      (hi : ∀ s, exec i s = issue s h .sca [a, b] fun c => sealBody s c h on a b)
      (hact : ∀ ps, act ps false = sealAct on ps) : whole i on act := by
    refine ⟨fun ls s c hc hp => ⟨fun hexec => ?_, fun hexec hord ⟨ha, hwhole, hls, hfree⟩ => ?_⟩,
      fun ls s c hc hexec hord ha hwhole hls hbusy => ?_, fun s c hc ⟨hexec, hord, ha⟩ hcan => ?_,
      fun p s c hc ⟨hexec, hord, ha, hsplit⟩ hcan => ?_⟩
    · rw [hi]
      exact op_passes hc hp (if_pos hexec)
    · rw [hi, issue_clear hc, sealBody_checked hexec hord ha hwhole hls, if_neg (by simp [hfree]), ← hact]
      have hthread := thread?_of_unwatched (sealedState_unwatched on s c ls) hc.thread.1
      exact congrArg (fun t => Host.Outcome.next (commit s t)) (settle_started (c := c.rewatched (sealedState on s c ls)) s
        hthread ⟨hp.ends.none, hp.ends.attached⟩ hp.live)
    · rw [hi, issue_clear hc, sealBody_checked hexec hord ha hwhole hls, if_pos hbusy, settle_stall hc]
    · rw [hi, issue_clear hc, sealBody_misaligned hexec hord ha, settle_trap hc hcan]
    · rw [hi, issue_clear hc, sealBody_split hexec hord ha hsplit, settle_trap hc hcan]
  exact ⟨key _ _ _ (exec_seal h a b) fun _ => rfl, key _ _ _ (exec_unseal h a b) fun _ => rfl⟩

end Sys2Proof.Machine
end

section
/-! R208, R427: the banks of an accumulator that an allocation takes. -/

namespace Sys2Proof.Machine

open Sys2Proof

/-- R208: a run of `n` banks from `f` that no allocation of the core meets. -/
def FreeRun (s : State) (isl core n f : Nat) : Prop :=
  f + n ≤ 128 ∧ ∀ a ∈ s.mem.am, a.isl = isl → a.core = core → f + n ≤ a.first ∨ a.first + a.count ≤ f

/-- The key of a word or band names one of `n` banks of a core from `f`. -/
def inBanks (isl core f n : Nat) (k : Nat × Nat × Nat × Nat) : Bool :=
  k.1 == isl && k.2.1 == core && (decide (f ≤ k.2.2.1) && decide (k.2.2.1 < f + n))

section
variable (s : State) (isl core team n : Nat)

/-- R208: the test by which a run is sought. -/
theorem freeRun_iff (f : Nat) : FreeRun s isl core n f ↔ f < 129 - n ∧
    (s.mem.am.all fun a => a.isl != isl || a.core != core || f + n ≤ a.first || a.first + a.count ≤ f) = true := by
  simp only [FreeRun, List.all_eq_true, Bool.or_eq_true, bne_iff_ne, decide_eq_true_eq, ne_eq]
  refine and_congr (by omega) (forall₂_congr fun a _ => ?_)
  tauto

theorem amRun_eq_none (hfull : ∀ f, ¬ FreeRun s isl core n f) : amRun s isl core n = none := by
  refine List.find?_eq_none.2 fun f hf htest => hfull f ?_
  exact (freeRun_iff s isl core n f).2 ⟨List.mem_range.1 hf, htest⟩

theorem amRun_eq_lowest {f : Nat} (hfree : FreeRun s isl core n f) (hlowest : ∀ f', f' < f → ¬ FreeRun s isl core n f') :
    amRun s isl core n = some f := by
  obtain ⟨hlt, htest⟩ := (freeRun_iff s isl core n f).1 hfree
  refine List.find?_range_eq_some.2 ⟨htest, List.mem_range.2 hlt, fun f' hf' => ?_⟩
  rw [Bool.not_eq_true', Bool.eq_false_iff]
  exact fun htest' => hlowest f' hf' ((freeRun_iff s isl core n f').2 ⟨by omega, htest'⟩)

/-- R208: a team that has no allocation on a core, pending or not, holds none. -/
theorem amOf_of_none (hnone : ∀ a ∈ s.mem.am, ¬ (a.isl = isl ∧ a.core = core ∧ a.team = team)) :
    amOf s isl core team = none := by
  refine List.find?_eq_none.2 fun a ha htest => ?_
  simp only [Bool.and_eq_true, beq_iff_eq] at htest
  obtain ⟨⟨⟨hisl, hcore⟩, hteam⟩, -⟩ := htest
  exact hnone a ha ⟨hisl, hcore, hteam⟩

/-- The test by which AMALLOC finds an allocation of the team, pending or not. -/
theorem anyOfTeam_iff : (s.mem.am.any fun a => a.isl == isl && a.core == core && a.team == team) = true ↔
    ∃ a ∈ s.mem.am, a.isl = isl ∧ a.core = core ∧ a.team = team := by
  simp [and_assoc]

theorem not_anyOfTeam (hnone : ∀ a ∈ s.mem.am, ¬ (a.isl = isl ∧ a.core = core ∧ a.team = team)) :
    ¬ (s.mem.am.any fun a => a.isl == isl && a.core == core && a.team == team) = true := by
  rw [anyOfTeam_iff]
  exact fun ⟨a, ha, hmine⟩ => hnone a ha hmine

end

section
variable {s : State} {isl core team n : Nat}

/-! ### What AMALLOC answers -/

theorem amAlloc_miscounted (hcount : n = 0 ∨ 128 < n) : amAlloc s isl core team n = (s, amFail 0) := if_pos hcount

section
variable (hlow : 1 ≤ n) (hhigh : n ≤ 128)
include hlow hhigh

theorem amAlloc_held {a : AmAlloc} (ha : amOf s isl core team = some a) : amAlloc s isl core team n = (s, amFail 2) := by
  rw [amAlloc, if_neg (by omega), if_pos (by rw [ha]; rfl)]

theorem amAlloc_pending (hof : amOf s isl core team = none)
    (hsome : ∃ a ∈ s.mem.am, a.isl = isl ∧ a.core = core ∧ a.team = team) :
    amAlloc s isl core team n = (s, amFail 3) := by
  rw [amAlloc, if_neg (by omega), if_neg (by simp [hof]), if_pos ((anyOfTeam_iff ..).2 hsome)]

section
variable (hnone : ∀ a ∈ s.mem.am, ¬ (a.isl = isl ∧ a.core = core ∧ a.team = team))
include hnone

/-- A team without an allocation gets the answer of the search for a run. -/
theorem amAlloc_full (hfull : ∀ f, ¬ FreeRun s isl core n f) : amAlloc s isl core team n = (s, amFail 1) := by
  rw [amAlloc, if_neg (by omega), if_neg (by simp [amOf_of_none s isl core team hnone]),
    if_neg (not_anyOfTeam s isl core team hnone), amRun_eq_none s isl core n hfull]

/-- R208, R427: the allocation joins the others, and its banks hold no word, grant or poison. -/
theorem amAlloc_takes {f : Nat} (hfree : FreeRun s isl core n f) (hlowest : ∀ f', f' < f → ¬ FreeRun s isl core n f') :
    ∃ poison, amAlloc s isl core team n =
      ({ s with mem := { s.mem with
          am := s.mem.am ++ [⟨isl, core, team, f, n, false⟩]
          acc := s.mem.acc.drop (inBanks isl core f n)
          grants := s.mem.grants.drop (inBanks isl core f n)
          poison := poison } }, w64 (n * 256 + f)) := by
  rw [amAlloc, if_neg (by omega), if_neg (by simp [amOf_of_none s isl core team hnone]),
    if_neg (not_anyOfTeam s isl core team hnone), amRun_eq_lowest s isl core n hfree hlowest]
  exact ⟨_, rfl⟩

end

end

end

theorem inBanks_own (isl core f n bank w : Nat) :
    inBanks isl core f n (isl, core, bank, w) = true ↔ f ≤ bank ∧ bank < f + n := by
  simp [inBanks]

theorem inBanks_other {isl core i k : Nat} (hother : (i, k) ≠ (isl, core)) (f n bank w : Nat) :
    inBanks isl core f n (i, k, bank, w) = false := by
  rw [Bool.eq_false_iff]
  intro h
  simp only [inBanks, Bool.and_eq_true, beq_iff_eq] at h
  obtain ⟨⟨hisl, hcore⟩, -⟩ := h
  exact hother (Prod.ext hisl hcore)

/-- Settles O37: each reason for which AMALLOC fails, and the run that it takes. -/
theorem accumulatorAllocation : Obligations.AccumulatorAllocation := by
  unfold Obligations.AccumulatorAllocation
  intro s isl core team n r free none_
  refine ⟨amAlloc_miscounted, fun hlow hhigh ⟨a, ha⟩ => amAlloc_held hlow hhigh ha,
    fun hlow hhigh hof hsome => amAlloc_pending hlow hhigh hof (by simpa [none_] using hsome),
    fun hlow hhigh hnone hfull => amAlloc_full hlow hhigh hnone hfull, fun f hlow hhigh hnone hfree hlowest => ?_⟩
  obtain ⟨poison, htakes⟩ := amAlloc_takes hlow hhigh hnone hfree hlowest
  rw [show r = _ from htakes]
  refine ⟨rfl, ?_, fun bank w => ?_, fun bank band hfirst hlast => ?_, fun i k bank w hother => ?_, rfl, fun _ _ => rfl⟩
  · have hof : s.mem.am.find? _ = none := amOf_of_none s isl core team hnone
    simp [amOf, List.find?_append, hof]
  · simp only [accWord, Tbl.getD_drop, inBanks_own]
  · exact Tbl.get?_drop_of ((inBanks_own ..).2 ⟨hfirst, hlast⟩)
  · simp only [accWord, Tbl.getD_drop, inBanks_other hother, Bool.false_eq_true, if_false]

end Sys2Proof.Machine
end

section
/-! R197, R213, R214, R276: eviction from the island cache, and memory errors. -/

namespace Sys2Proof.Machine

open Sys2Proof

/-! ### Eviction -/

/-- R197: the byte of a key goes to HBM, if it is marked. -/
def MemSt.evictByte (m : MemSt) (k : Nat) : MemSt :=
  if m.l2mark.get k = 0 then m
  else { m with hbm := m.hbm.put k (m.l2.get k), l2 := m.l2.put k 0, l2mark := m.l2mark.put k 0 }

/-- R197: a line's poison leaves the island cache, and then its bytes. -/
theorem MemSt.evict_eq (m : MemSt) (isl line : Nat) : m.evict isl line =
    ((List.range 256).map fun i => gkey isl (line * 256 + i)).foldl MemSt.evictByte
      ((List.range 4).foldl (fun m i => m.evictPoison isl (line * 4 + i)) m) := by
  rw [List.foldl_map]
  rfl

theorem MemSt.evictByte_mark (m : MemSt) (k x : Nat) :
    (m.evictByte k).l2mark.get x = if x = k then 0 else m.l2mark.get x := by
  unfold MemSt.evictByte
  split
  next hk => split <;> simp_all
  next => rw [Mem.get_put]

theorem MemSt.foldl_evictByte_mark (ks : List Nat) (m : MemSt) (x : Nat) :
    (ks.foldl MemSt.evictByte m).l2mark.get x = if x ∈ ks then 0 else m.l2mark.get x := by
  induction ks generalizing m with
  | nil => rfl
  | cons k ks ih =>
    rw [List.foldl_cons, ih, evictByte_mark]
    by_cases hx : x ∈ ks
    · simp [hx]
    · simp [hx]

/-- R197: no byte of a line that has left the island cache is marked. -/
theorem MemSt.evict_mark (m : MemSt) (isl line : Nat) {i : Nat} (hi : i < 256) :
    (m.evict isl line).l2mark.get (gkey isl (line * 256 + i)) = 0 := by
  rw [evict_eq, foldl_evictByte_mark, if_pos]
  exact List.mem_map_of_mem (List.mem_range.2 hi)

/-- R197: a byte without a mark stands in HBM. -/
theorem MemSt.byte_unmarked {m : MemSt} {isl pa : Nat} (h : m.l2mark.get (gkey isl pa) = 0) :
    m.byte isl pa = m.hbm.get (gkey isl pa) := if_pos h

/-- R276: a thread's record once the watches on some lines are lost. -/
def ThreadRec.losing (r : ThreadRec) (isl : Nat) (p : Nat → Bool) : ThreadRec :=
  match r.watch with
  | some w => if w.isl = isl ∧ p (w.line * 256) then { r with watch := some { w with hit := true } } else r
  | none => r

theorem loseWatches_thread? (s : State) (isl : Nat) (p : Nat → Bool) (th : Thread) :
    (loseWatches s isl p).thread? th = (s.thread? th).map fun r => r.losing isl p := by
  refine Tbl.get?_map s.core.threads _ (fun _ r => r.losing isl p) (fun e => ?_) th
  obtain ⟨k, r⟩ := e
  unfold ThreadRec.losing
  dsimp only
  cases r.watch with
  | none => rfl
  | some w =>
    dsimp only
    split <;> rfl

theorem ThreadRec.losing_watch {r : ThreadRec} {isl : Nat} {p : Nat → Bool} {w : Watch} (hw : r.watch = some w)
    (hisl : w.isl = isl) (hp : p (w.line * 256) = true) : (r.losing isl p).watch = some { w with hit := true } := by
  rw [losing, hw]
  dsimp only
  rw [if_pos ⟨hisl, hp⟩]

theorem loseWatches_mem (s : State) (isl : Nat) (p : Nat → Bool) : (loseWatches s isl p).mem = s.mem := rfl

theorem evictLine_mem (s : State) (isl line : Nat) : (evictLine s isl line).mem = s.mem.evict isl line := by
  rw [evictLine, loseWatches_mem]

theorem evictLine_thread? (s : State) (isl line : Nat) (th : Thread) :
    (evictLine s isl line).thread? th = (s.thread? th).map fun r => r.losing isl fun a => a / 256 == line := by
  rw [evictLine, loseWatches_thread?]
  simp only [State.thread?]

theorem lineEviction_occurs {s : State} {isl line : Nat} (hocc : s.occ = .line isl line) :
    Occurs .lineEviction s (evictLine s isl line) := by
  rw [Occurs, exec_lineEviction, execLineEviction, hocc]

/-! ### Poison -/

theorem mem_poisonLoc (s : State) (l x : Loc) : x ∈ (poisonLoc s l).mem.poison ↔ x = l ∨ x ∈ s.mem.poison := by
  unfold poisonLoc
  split
  next h =>
    have hl : l ∈ s.mem.poison := List.contains_iff_mem.1 h
    exact ⟨.inr, fun hx => hx.elim (fun he => he ▸ hl) id⟩
  next => exact List.mem_cons

theorem poisonLoc_byte (s : State) (l : Loc) (i pa : Nat) : (poisonLoc s l).mem.byte i pa = s.mem.byte i pa := by
  unfold poisonLoc
  split <;> rfl

/-! ### Errors in cached copies -/

section
variable (s : State) (isl core sec : Nat)

/-- R214: an error in an L1 sector poisons it where the core owns a word of it. -/
theorem cachedError_l1 : cachedError s isl core sec 0 =
    dropL1 (if l1Owned s isl core sec then poisonLoc s (.global isl sec) else s) isl core sec := rfl

theorem cachedError_byte (kind i pa : Nat) : (cachedError s isl core sec kind).mem.byte i pa = s.mem.byte i pa := by
  unfold cachedError
  split
  · cases l1Owned s isl core sec with
    | true => exact poisonLoc_byte ..
    | false => rfl
  all_goals rfl

theorem cachedError_l1_dropped {w : Nat} (hw : w / 16 = sec) :
    (cachedError s isl core sec 0).mem.l1.get? (isl, core, w) = none := by
  simp [cachedError_l1, dropL1, Tbl.get?_drop, hw]

theorem cachedError_l1_owned (hown : l1Owned s isl core sec = true) :
    Loc.global isl sec ∈ (cachedError s isl core sec 0).mem.poison := by
  rw [cachedError_l1, if_pos hown]
  exact (mem_poisonLoc ..).2 (.inl rfl)

theorem cachedError_l1_clean (hown : l1Owned s isl core sec = false) :
    (cachedError s isl core sec 0).mem.poison = s.mem.poison := by
  rw [cachedError_l1, if_neg (by simp [hown])]
  rfl

end

/-! ### Reports -/

section
variable {s : State} {l : Loc} {isl core sec kind : Nat}

theorem eccError_occurs (hocc : s.occ = .loc l) (hused : checkedUse s l = false) :
    Occurs .uncorrectableEccError s (report (poisonLoc s l) 0 6 l.report) := by
  rw [Occurs, exec_uncorrectableEccError, execUncorrectableEccError, hocc]
  exact if_neg (by simp [hused])

theorem eccError_refused (hocc : s.occ = .loc l) (hused : checkedUse s l = true) :
    exec .uncorrectableEccError s = .refused (.notEnabled "UNCORRECTABLE_ECC_ERROR") := by
  rw [exec_uncorrectableEccError, execUncorrectableEccError, hocc]
  exact if_pos hused

theorem cachedError_occurs (hocc : s.occ = .cached isl core sec kind)
    (hfree : kind ≠ 0 ∨ l1Owned s isl core sec = false ∨ checkedUse s (.global isl sec) = false) :
    Occurs .uncorrectableEccError s
      (report (cachedError s isl core sec kind) 0 6 [cachedCode kind, isl, core, sec * 64]) := by
  rw [Occurs, exec_uncorrectableEccError, execUncorrectableEccError, hocc]
  refine if_neg fun ⟨hkind, hown, hused⟩ => ?_
  simp [hkind, hown, hused] at hfree

theorem cachedError_refused (hocc : s.occ = .cached isl core sec kind) (hkind : kind = 0)
    (hown : l1Owned s isl core sec = true) (hused : checkedUse s (.global isl sec) = true) :
    exec .uncorrectableEccError s = .refused (.notEnabled "UNCORRECTABLE_ECC_ERROR") := by
  rw [exec_uncorrectableEccError, execUncorrectableEccError, hocc]
  exact if_pos ⟨hkind, hown, hused⟩

end

theorem correctedEccError_occurs {s : State} {k : Nat} (hocc : s.occ = .count k) : Occurs .correctedEccError s
    { s with hub := { s.hub with corrected := s.hub.corrected.set k (s.hub.corrected.getD k 0 + 1) } } := by
  rw [Occurs, exec_correctedEccError, execCorrectedEccError, hocc]

/-- Settles O53: the line that leaves, and each kind of error. -/
theorem memoryEvents : Obligations.MemoryEvents := by
  unfold Obligations.MemoryEvents
  intro s isl line k l core sec kind
  refine ⟨fun hocc _ => ?_, ⟨mem_poisonLoc s l, poisonLoc_byte s l⟩,
    fun hocc => ⟨eccError_occurs hocc, eccError_refused hocc⟩,
    ⟨cachedError_byte s isl core sec kind, ?_, ?_, ?_⟩,
    fun hocc => ⟨cachedError_occurs hocc, cachedError_refused hocc⟩, correctedEccError_occurs⟩
  · obtain ⟨hbytes, -, -⟩ := s.mem.evict_same isl line
    refine (lineEviction_occurs hocc).gives ?_
    rw [commit_mem, evictLine_mem]
    refine ⟨fun i pa _ => hbytes i pa, fun i hi => ?_, fun th r w hr hw hisl hline => ?_,
      rfl, rfl⟩
    · have hmark := s.mem.evict_mark isl line hi
      exact ⟨hmark, (MemSt.byte_unmarked hmark).symm.trans (hbytes isl _)⟩
    · rw [thread?_commit, evictLine_thread?, hr, Option.map_some, Option.map_some,
        ThreadRec.losing_watch hw hisl (by simp [hline])]
  · rintro rfl
    exact ⟨fun w hw => cachedError_l1_dropped s isl core sec hw, cachedError_l1_owned s isl core sec,
      cachedError_l1_clean s isl core sec⟩
  · rintro rfl
    exact Tbl.get?_erase_self ..
  · rintro rfl
    exact Tbl.get?_erase_self ..

end Sys2Proof.Machine
end

section
/-! A COPY whose follow-on is due (R231): the release of its writes belongs to the step that copies its last element, so
none of them stands in the engine's queue after that step. -/

namespace Sys2Proof.Machine

open Sys2Proof

/-! ### The release of a record -/

/-- The writes in the queue and the bound chains, which a write that performs leaves alone. -/
def State.queued (s : State) : List EngWrite × Tbl ChainRef Chain := (s.eng.outs, s.eng.chains)

theorem performOut_queued (s : State) (x : EngWrite) : (performOut s x).queued = s.queued := by
  unfold performOut
  dsimp only
  split
  · exact (congrArg State.queued (bypassBank_unbanked ..) :)
  · rfl

/-- R226: the release of a record takes its writes from the queue, and those of no other. -/
theorem releaseRec_queued (s : State) (r : EngRec) :
    (releaseRec s r).queued = (s.eng.outs.filter fun x => !(x.ref == r.ref), s.eng.chains) :=
  foldl_keeps performOut State.queued performOut_queued _ _

theorem releaseRec_chains (s : State) (r : EngRec) : (releaseRec s r).eng.chains = s.eng.chains :=
  congrArg Prod.snd (releaseRec_queued s r)

theorem releaseRec_outs (s : State) (r : EngRec) : ∀ o ∈ (releaseRec s r).eng.outs, o.ref ≠ r.ref := by
  have houts : (releaseRec s r).eng.outs = s.eng.outs.filter fun x => !(x.ref == r.ref) :=
    congrArg Prod.fst (releaseRec_queued s r)
  rw [houts]
  intro o ho hsame
  simp [hsame] at ho

/-! ### The follow-on -/

section
variable {s : State} {r : EngRec}

theorem followChain_unbound (h : s.eng.chains = []) : followChain s r = none := by
  rw [followChain, h]
  rfl

/-- R231: where no chain is bound, a follow-on ends its copy with NOCHAIN, after the release of the copy's writes. -/
theorem follow_noChain (force : Bool) (hfollow : nbits r.bits 303 252 ≠ 0) (hchains : s.eng.chains = []) :
    follow s r force = some (doneRec (releaseRec s r) { r with turn := none } 0x0D 0) := by
  have hnone : followChain (releaseRec s r) r = none := followChain_unbound ((releaseRec_chains s r).trans hchains)
  simp only [follow, if_neg hfollow, hnone]

end

/-! ### The last element of a copy -/

section
variable {s : State} {ref : RecRef} {r : EngRec} {ce sl dl y : Nat} {ss ds : Side} {w : EngWrite}

/-- R228: COPY carries out its record, where no follow-on of it is blocked. -/
theorem copy_occurs (hrec : occRec s = some r) (heng : r.eng = .copy ce) (hop : recOp r.bits = 1)
    (hfree : waitsFollow s r = false) : Occurs .copy s (runCopy s r) := by
  rw [Occurs, exec_copy, execCopy, hrec]
  simp only [heng, hop, hfree, and_self, if_true]

/-- A copy that has elements left waits for no follow-on. -/
theorem waitsFollow_of_lt (hlays : r.lays = some (sl, dl)) (hlt : r.step < layCount sl) : waitsFollow s r = false := by
  simp [waitsFollow, hlays, hlt.ne]

/-- R265: an event that does one element of a copy takes up the first that is not done. -/
theorem takeSome_next {count : Nat} (hocc : s.occ = .engineSome ref 1) {k : Nat} (hlt : k < count) :
    takeSome s ((List.range count).drop k) = [k] := by
  rw [takeSome, hocc]
  simp [List.drop_eq_getElem_cons, hlt]

/-- The state and the record of a copy whose element has been copied, before what follows the last one. -/
def afterElement (s : State) (r : EngRec) (w : EngWrite) : State × EngRec :=
  ({ s with eng := { s.eng with outs := (pushOut s.eng.outs.reverse w).reverse } },
    { r with step := r.step + 1, since := s.clk r.ref.chain.isl })

section
variable (hocc : s.occ = .engineSome ref 1) (hlays : r.lays = some (sl, dl)) (hlast : r.step + 1 = layCount sl)
  (hss : copySide s r (nbits r.bits 251 250) = some ss) (hds : copySide s r (nbits r.bits 249 248) = some ds)
  (hread : copyRead s (engineView s r.ref.chain.isl r.eng) r ss (nbits r.bits 511 460) sl r.step = .ok y)
  (hwrite : copyWrite s r ds (nbits r.bits 459 408) dl r.step (convElement r.bits y) = .ok w)
include hocc hlays hlast hss hds hread hwrite

/-- R228 to R231: the step that copies the last element puts its write in the queue and turns to the follow-on. -/
theorem runCopy_last : let u := afterElement s r w
    runCopy s r = (follow u.1 u.2 false).getD (awaitTurn u.1 u.2) := by
  have hstep : r.step < layCount sl := by omega
  simp only [runCopy, hlays, copyRun, hss, hds, takeSome_next hocc hstep, copyElements, hread, hwrite]
  simp [hlast, hstep.ne, afterElement, ← hlays]

/-- R231: after the step that copies the last element of a record with FOLLOW, no write of the record is in the queue. -/
theorem copy_last_outs (hrec : occRec s = some r) (heng : r.eng = .copy ce) (hop : recOp r.bits = 1)
    (hfollow : nbits r.bits 303 252 ≠ 0) (hchains : s.eng.chains = []) :
    Gives (exec .copy s) fun t => ∀ o ∈ t.eng.outs, o.ref ≠ r.ref := by
  have hfree : waitsFollow s r = false := waitsFollow_of_lt hlays (by omega)
  have hdue := follow_noChain (s := (afterElement s r w).1) (r := (afterElement s r w).2) false hfollow hchains
  refine ⟨_, copy_occurs hrec heng hop hfree, ?_⟩
  rw [runCopy_last hocc hlays hlast hss hds hread hwrite, hdue]
  exact releaseRec_outs (afterElement s r w).1 (afterElement s r w).2

end

end

/-! ### A copy at its last element -/

/-- A sealed layout of two elements of 4 bytes. -/
def pairLayout : Nat :=
  let x := 2 ^ 472 + 2 * 2 ^ 446 + 2 ^ 416 + 2 ^ 400 + 2 ^ 384 + 2 * 2 ^ 368
  x + crc32c (leBytes 60 x) * 2 ^ 480

/-- A COPY from address 0x400 to address 0x500 of global memory whose layouts have been read and whose first element is
copied; FOLLOW = 0x600. -/
def halfCopied : EngRec :=
  { ref := ⟨⟨0, 0, 0⟩, 1⟩, eng := .copy 0, team := 0, addr := 0, pa := 0, known := true
    bits := 2 ^ 56 + 0x400 * 2 ^ 460 + 0x500 * 2 ^ 408 + 0x300 * 2 ^ 356 + 0x300 * 2 ^ 304 + 0x600 * 2 ^ 252
    res := none, step := 1, parked := none, replay := none, lastAcc := (0, 0), follow := false, since := 0, turn := none
    lays := some (pairLayout, pairLayout) }

/-- The leaf of a large page at physical address 0 that may be read and written. -/
def openPage : Pte := { v := true, l := true, pfn := 0, sl := false, x := false, w := true, r := true }

/-- The event names the last element of that copy; the engine's translation cache holds the page of both its sides, and no
chain is bound. -/
def lastElement : State :=
  { State.reset with
    occ := .engineSome halfCopied.ref 1
    mem := { State.resetMem with tlb := [((0, .copy 0), [⟨0, 0, true, openPage⟩])] }
    eng := { State.resetEng with recs := [halfCopied] } }

/-- The write of the last element. -/
def lastWrite : EngWrite := ⟨halfCopied.ref, halfCopied.eng, none, 0x504, [0, 0, 0, 0]⟩

theorem lastElement_named : occRec lastElement = some halfCopied := by decide +kernel

theorem lastElement_read : copyRead lastElement (engineView lastElement 0 (.copy 0)) halfCopied .global
    (nbits halfCopied.bits 511 460) pairLayout 1 = .ok 0 := by decide +kernel

theorem lastElement_write : copyWrite lastElement halfCopied .global (nbits halfCopied.bits 459 408) pairLayout 1
    (convElement halfCopied.bits 0) = .ok lastWrite := by decide +kernel

/-- Refutes O44: of every element copied it says that the element's write stands in the queue after the step, also of the
last one of a COPY with FOLLOW; but that step releases the copy's writes (R231), as it does from `lastElement`. -/
theorem not_engineEvents : ¬ Obligations.EngineEvents := by
  unfold Obligations.EngineEvents
  rintro ⟨-, hcopy, -, -⟩
  have hlast : halfCopied.step + 1 = layCount pairLayout := by decide +kernel
  have hss : copySide lastElement halfCopied (nbits halfCopied.bits 251 250) = some .global := by decide +kernel
  have hds : copySide lastElement halfCopied (nbits halfCopied.bits 249 248) = some .global := by decide +kernel
  have hop : recOp halfCopied.bits = 1 := by decide +kernel
  have hfollow : nbits halfCopied.bits 303 252 ≠ 0 := by decide +kernel
  obtain ⟨hrecord, -⟩ := hcopy lastElement halfCopied.ref halfCopied 0 0 pairLayout pairLayout .global .global
  obtain ⟨-, helement⟩ := hrecord lastElement_named rfl rfl hop
  obtain ⟨hjoins, -⟩ := helement rfl rfl (by omega) hss hds
  obtain ⟨t, ht, ⟨o, ho, href, -⟩, -⟩ := hjoins 0 lastWrite lastElement_read lastElement_write
  obtain ⟨t', ht', hgone⟩ := copy_last_outs rfl rfl hlast hss hds lastElement_read lastElement_write
    lastElement_named rfl hop hfollow rfl
  obtain rfl : t' = t := Host.Outcome.next.inj (ht'.symm.trans ht)
  exact hgone o ho href

end Sys2Proof.Machine
end

section
/-! R247, R248, R250: the rounding of a magnitude to a floating-point format. -/

namespace Sys2Proof

open Sys2Proof.Machine

/-! ### Magnitudes -/

theorem magnitude_mul_two_pow (m k : Nat) (e : Int) : magnitude (m * 2 ^ k) e = magnitude m (e + k) := by
  unfold magnitude
  rw [zpow_add₀ two_ne_zero, zpow_natCast]
  push_cast
  ring

theorem magnitude_two_pow (k : Nat) (e : Int) : magnitude (2 ^ k) e = 2 ^ (k + e) := by
  rw [← one_mul (2 ^ k), magnitude_mul_two_pow, add_comm e]
  simp [magnitude]

theorem magnitude_le_iff {m n : Nat} {e : Int} : magnitude m e ≤ magnitude n e ↔ m ≤ n := by
  have hpos : (0 : ℚ) < 2 ^ e := by positivity
  simp [magnitude, mul_le_mul_iff_left₀ hpos]

theorem magnitude_lt_iff {m n : Nat} {e : Int} : magnitude m e < magnitude n e ↔ m < n := by
  simpa using (magnitude_le_iff (m := n) (n := m) (e := e)).not

/-- The places of the leading bit of a nonzero magnitude. -/
theorem magnitude_log2 {m : Nat} (hm : m ≠ 0) (e : Int) :
    (2 : ℚ) ^ (m.log2 + e) ≤ magnitude m e ∧ magnitude m e < 2 ^ (m.log2 + e + 1) := by
  have hlow : magnitude (2 ^ m.log2) e ≤ magnitude m e := magnitude_le_iff.2 (Nat.log2_self_le hm)
  have hhigh : magnitude m e < magnitude (2 ^ (m.log2 + 1)) e := magnitude_lt_iff.2 Nat.lt_log2_self
  rw [magnitude_two_pow] at hlow hhigh
  exact ⟨hlow, by rwa [Nat.cast_succ, add_right_comm] at hhigh⟩

/-! ### What a mode picks -/

/-- R247: seen from an exact magnitude `v` of that sign, the mode prefers `w` over every other magnitude `u`; `even` says
whether the significand of `w` is even. -/
def Rnd.Picks (rnd : Rnd) (neg : Bool) (even : Prop) (v w u : ℚ) : Prop :=
  match rnd with
  | .rne => |w - v| ≤ |u - v| ∧ (|u - v| = |w - v| → u ≠ w → even)
  | .rmm => |w - v| ≤ |u - v| ∧ (|u - v| = |w - v| → u ≤ w)
  | .rtz => w ≤ v ∧ (u ≤ v → u ≤ w)
  | .rdn => if neg then v ≤ w ∧ (v ≤ u → w ≤ u) else w ≤ v ∧ (u ≤ v → u ≤ w)
  | .rup => if neg then w ≤ v ∧ (u ≤ v → u ≤ w) else v ≤ w ∧ (v ≤ u → w ≤ u)

/-- Every mode keeps a magnitude that needs no rounding. -/
theorem Rnd.picks_self (rnd : Rnd) (neg : Bool) (even : Prop) (v u : ℚ) : rnd.Picks neg even v v u := by
  cases rnd with
  | rne =>
    refine ⟨by simp, fun htie hne => absurd ?_ hne⟩
    simpa [sub_eq_zero] using htie
  | rmm =>
    refine ⟨by simp, fun htie => le_of_eq ?_⟩
    simpa [sub_eq_zero] using htie
  | rtz => exact ⟨le_rfl, id⟩
  | rdn => cases neg <;> exact ⟨le_rfl, id⟩
  | rup => cases neg <;> exact ⟨le_rfl, id⟩

section
variable {lo hi v u : ℚ} (hlo : lo < v) (hhi : v < hi) (hgap : u ≤ lo ∨ hi ≤ u)
include hlo hhi hgap

/-- Of a magnitude between two neighbours, the lower one is the greatest below it. -/
theorem lower_of_gap : lo ≤ v ∧ (u ≤ v → u ≤ lo) :=
  ⟨hlo.le, fun hu => hgap.resolve_right (hu.trans_lt hhi).not_ge⟩

theorem upper_of_gap : v ≤ hi ∧ (v ≤ u → hi ≤ u) :=
  ⟨hhi.le, fun hu => hgap.resolve_left (hlo.trans_le hu).not_ge⟩

/-- A lower neighbour no farther than the upper one is the nearest, and only the upper one can tie with it. -/
theorem nearest_lower (hnear : v - lo ≤ hi - v) :
    |lo - v| ≤ |u - v| ∧ (|u - v| = |lo - v| → u = lo ∨ u = hi ∧ v - lo = hi - v) := by
  rw [abs_of_neg (sub_neg.2 hlo)]
  rcases hgap with hu | hu
  · rw [abs_of_neg (by linarith)]
    exact ⟨by linarith, fun htie => .inl (by linarith)⟩
  · rw [abs_of_pos (by linarith)]
    exact ⟨by linarith, fun htie => .inr ⟨by linarith, by linarith⟩⟩

theorem nearest_upper (hnear : hi - v ≤ v - lo) :
    |hi - v| ≤ |u - v| ∧ (|u - v| = |hi - v| → u = hi ∨ u = lo ∧ v - lo = hi - v) := by
  rw [abs_of_pos (sub_pos.2 hhi)]
  rcases hgap with hu | hu
  · rw [abs_of_neg (by linarith)]
    exact ⟨by linarith, fun htie => .inr ⟨by linarith, by linarith⟩⟩
  · rw [abs_of_pos (by linarith)]
    exact ⟨by linarith, fun htie => .inl (by linarith)⟩

/-- Between two neighbours `lo = n` and `hi = n + 1` of a unit of which `v` has `rem` of `2 * half` parts above `lo`,
`Rnd.up` says which of the two the mode picks. -/
theorem Rnd.picks_up (rnd : Rnd) (neg : Bool) {n rem half : Nat} (hrem : rem ≠ 0)
    (hlt : rem < half → v - lo < hi - v) (heq : rem = half → v - lo = hi - v) (hgt : half < rem → hi - v < v - lo) :
    rnd.Picks neg ((n + (rnd.up neg n rem half).toNat) % 2 = 0) v (if rnd.up neg n rem half then hi else lo) u := by
  cases rnd with
  | rne =>
    rcases lt_trichotomy rem half with h | h | h
    · have hup : Rnd.rne.up neg n rem half = false := by simp [Rnd.up, h.le, h.ne]
      obtain ⟨hle, htie⟩ := nearest_lower hlo hhi hgap (hlt h).le
      simpa [hup] using ⟨hle, fun ht hne => absurd ((htie ht).resolve_left hne).2 (hlt h).ne⟩
    · rcases Nat.mod_two_eq_zero_or_one n with hn | hn
      · have hup : Rnd.rne.up neg n rem half = false := by simp [Rnd.up, h, hn]
        obtain ⟨hle, -⟩ := nearest_lower hlo hhi hgap (heq h).le
        simpa [hup] using ⟨hle, fun _ _ => hn⟩
      · have hup : Rnd.rne.up neg n rem half = true := by simp [Rnd.up, h, hn]
        obtain ⟨hle, -⟩ := nearest_upper hlo hhi hgap (heq h).ge
        simpa [hup] using ⟨hle, fun _ _ => Nat.succ_mod_two_eq_zero_iff.2 hn⟩
    · have hup : Rnd.rne.up neg n rem half = true := by simp [Rnd.up, h]
      obtain ⟨hle, htie⟩ := nearest_upper hlo hhi hgap (hgt h).le
      simpa [hup] using ⟨hle, fun ht hne => absurd ((htie ht).resolve_left hne).2 (hgt h).ne'⟩
  | rmm =>
    rcases lt_or_ge rem half with h | h
    · have hup : Rnd.rmm.up neg n rem half = false := by simp [Rnd.up, h]
      obtain ⟨hle, htie⟩ := nearest_lower hlo hhi hgap (hlt h).le
      simpa [hup] using ⟨hle, fun ht => ((htie ht).resolve_right fun hr => (hlt h).ne hr.2).le⟩
    · have hup : Rnd.rmm.up neg n rem half = true := by simp [Rnd.up, h]
      have hnear : hi - v ≤ v - lo := h.eq_or_lt.elim (fun he => (heq he.symm).ge) fun hg => (hgt hg).le
      obtain ⟨hle, htie⟩ := nearest_upper hlo hhi hgap hnear
      simpa [hup] using ⟨hle, fun ht => (htie ht).elim le_of_eq fun hr => hr.1.trans_le (hlo.trans hhi).le⟩
  | rtz => exact lower_of_gap hlo hhi hgap
  | rdn =>
    cases neg with
    | false => exact lower_of_gap hlo hhi hgap
    | true => simpa [Rnd.up, hrem, Rnd.Picks] using upper_of_gap hlo hhi hgap
  | rup =>
    cases neg with
    | false => simpa [Rnd.up, hrem, Rnd.Picks] using upper_of_gap hlo hhi hgap
    | true => exact lower_of_gap hlo hhi hgap

end

/-! ### Rounding to a multiple -/

/-- R248: what a rounding to a multiple of 2^q does: `n` units of 2^q are the last at or below the exact magnitude, the
answer is `n` or `n + 1`, the flag tells an inexact one, and the mode picks the answer from all magnitudes that are not
strictly between those neighbours. -/
structure RoundsFrom (rnd : Rnd) (neg : Bool) (v : ℚ) (q : Int) (r : Nat × Bool) (n : Nat) : Prop where
  low : magnitude n q ≤ v
  high : v < magnitude (n + 1) q
  near : r.1 = n ∨ r.1 = n + 1
  inexact : r.2 = true ↔ magnitude r.1 q ≠ v
  picks : ∀ u, u ≤ magnitude n q ∨ magnitude (n + 1) q ≤ u → rnd.Picks neg (r.1 % 2 = 0) v (magnitude r.1 q) u

theorem roundsFrom_exact (rnd : Rnd) (neg : Bool) {v : ℚ} {q : Int} {n : Nat} (hv : magnitude n q = v) :
    RoundsFrom rnd neg v q (n, false) n := by
  subst hv
  exact ⟨le_rfl, magnitude_lt_iff.2 n.lt_succ_self, .inl rfl, by simp, fun u _ => rnd.picks_self neg _ _ u⟩

theorem Rnd.up_zero (rnd : Rnd) (neg : Bool) (n : Nat) {half : Nat} (hpos : 0 < half) : rnd.up neg n 0 half = false := by
  cases rnd <;> simp [Rnd.up, hpos.ne, hpos.ne']

/-- The remainder `rem` of a division by 2^(k+1) decides by its place beside 2^k, the half of the unit. -/
theorem roundsFrom_inexact (rnd : Rnd) (neg : Bool) {n rem k : Nat} {e q : Int} (hq : q = e + (k + 1 : Nat))
    (hrem : rem ≠ 0) (hlt : rem < 2 ^ (k + 1)) :
    RoundsFrom rnd neg (magnitude (n * 2 ^ (k + 1) + rem) e) q (n + (rnd.up neg n rem (2 ^ k)).toNat, true) n := by
  have hunits (i : Nat) : magnitude i q = magnitude (i * 2 ^ (k + 1)) e := by rw [magnitude_mul_two_pow, hq]
  have hlow : magnitude n q < magnitude (n * 2 ^ (k + 1) + rem) e := by
    rw [hunits, magnitude_lt_iff]
    omega
  have hhigh : magnitude (n * 2 ^ (k + 1) + rem) e < magnitude (n + 1) q := by
    rw [hunits, magnitude_lt_iff, Nat.add_one_mul]
    omega
  have hbelow : magnitude (n * 2 ^ (k + 1) + rem) e - magnitude n q = rem * 2 ^ e := by
    rw [hunits]
    simp [magnitude, add_mul]
  have habove : magnitude (n + 1) q - magnitude n q = 2 * ((2 ^ k : Nat) * 2 ^ e) := by
    rw [hunits, hunits]
    simp only [magnitude]
    push_cast
    ring
  have hscale {a b : Nat} (h : a < b) : (a : ℚ) * 2 ^ e < b * 2 ^ e :=
    mul_lt_mul_of_pos_right (mod_cast h) (by positivity)
  have hanswer : magnitude (n + (rnd.up neg n rem (2 ^ k)).toNat) q =
      if rnd.up neg n rem (2 ^ k) then magnitude (n + 1) q else magnitude n q := by
    cases rnd.up neg n rem (2 ^ k) <;> rfl
  refine ⟨hlow.le, hhigh, ?_, ?_, fun u hgap => ?_⟩
  · cases rnd.up neg n rem (2 ^ k) <;> simp
  · simp only [hanswer, true_iff]
    split
    · exact hhigh.ne'
    · exact hlow.ne
  · simp only [hanswer]
    refine rnd.picks_up hlow hhigh hgap neg hrem (fun h => ?_) (fun h => ?_) fun h => ?_
    · linarith [hscale h]
    · subst h
      linarith
    · linarith [hscale h]

theorem roundAt_roundsFrom (rnd : Rnd) (neg : Bool) (m : Nat) (e q : Int) :
    ∃ n, RoundsFrom rnd neg (magnitude m e) q (roundAt rnd neg m e q) n := by
  unfold roundAt
  split
  next hq =>
    refine ⟨_, roundsFrom_exact rnd neg ?_⟩
    rw [magnitude_mul_two_pow, Int.toNat_of_nonneg (sub_nonneg.2 hq), add_sub_cancel]
  next hq =>
    obtain ⟨k, rfl⟩ : ∃ k : Nat, q = e + (k + 1 : Nat) := ⟨(q - e).toNat - 1, by omega⟩
    have hparts : m / 2 ^ (k + 1) * 2 ^ (k + 1) + m % 2 ^ (k + 1) = m := Nat.div_add_mod' ..
    simp only [add_sub_cancel_left, Int.toNat_natCast, Nat.add_sub_cancel]
    refine ⟨m / 2 ^ (k + 1), ?_⟩
    by_cases hrem : m % 2 ^ (k + 1) = 0
    · rw [hrem, rnd.up_zero neg _ (by positivity)]
      refine roundsFrom_exact rnd neg ?_
      rw [← magnitude_mul_two_pow, ← hparts, hrem]
      simp
    · have hround := roundsFrom_inexact rnd neg (n := m / 2 ^ (k + 1)) (e := e) rfl hrem
        (Nat.mod_lt _ (by positivity))
      rw [hparts] at hround
      rwa [bne_iff_ne.2 hrem]

/-! ### The encodings of a format -/

/-- R240: a format's widths are positive, and its finite magnitudes stand below its infinity and its NaNs. -/
structure Fmt.Sound (f : Fmt) : Prop where
  eb_pos : 0 < f.eb
  mb_pos : 0 < f.mb
  top_lt : f.top < 2 ^ f.sb
  top_inf : ∀ i, f.inf = some i → f.top < i
  top_nan : ∀ i, f.nan = some i → f.top < i
  top_exp : f.inf.isSome → f.top / 2 ^ f.mb < 2 ^ f.eb - 1

theorem Ty.fmt_sound (ty : Ty) : ty.fmt.Sound := by
  cases ty <;> constructor <;> simp [Ty.fmt, Fmt.sb]

/-- R248: the exponent of the spacing of subnormals. -/
def Fmt.low (f : Fmt) : Int := 1 - f.bias - f.mb

/-- The significand of a finite magnitude, with the hidden bit of a normal one. -/
def Fmt.sig (f : Fmt) (mag : Nat) : Nat := if mag / 2 ^ f.mb = 0 then mag else 2 ^ f.mb + mag % 2 ^ f.mb

/-- The exponent of its last place, which subnormals share with the smallest normal binade. -/
def Fmt.lastPlace (f : Fmt) (mag : Nat) : Int := f.low + (mag / 2 ^ f.mb - 1 : Nat)

section
variable {f : Fmt}

theorem Fmt.nbits_exponent (hf : f.Sound) (x : Nat) : nbits x (f.sb - 1) f.mb = x % 2 ^ f.sb / 2 ^ f.mb := by
  have heb := hf.eb_pos
  have hwidth : f.sb - 1 + 1 - f.mb = f.eb := by unfold Fmt.sb; omega
  rw [nbits, hwidth, Fmt.sb, Nat.add_comm, pow_add, Nat.mod_mul_right_div_self]

theorem Fmt.nbits_fraction (hf : f.Sound) (x : Nat) : nbits x (f.mb - 1) 0 = x % 2 ^ f.sb % 2 ^ f.mb := by
  have hmb := hf.mb_pos
  have hwidth : f.mb - 1 + 1 - 0 = f.mb := by omega
  rw [nbits, hwidth, pow_zero, Nat.div_one, Nat.mod_mod_of_dvd _ (pow_dvd_pow 2 (by unfold Fmt.sb; omega))]

theorem Fmt.sign_mag (neg : Bool) {mag : Nat} (hmag : mag < 2 ^ f.sb) : f.sign neg mag % 2 ^ f.sb = mag := by
  rw [Fmt.sign, Nat.add_mul_mod_self_right, Nat.mod_eq_of_lt hmag]

theorem Fmt.sign_testBit (neg : Bool) {mag : Nat} (hmag : mag < 2 ^ f.sb) : (f.sign neg mag).testBit f.sb = neg := by
  cases neg with
  | false => simpa [Fmt.sign] using Nat.testBit_lt_two_pow hmag
  | true => simp [Fmt.sign, Nat.add_comm mag, Nat.testBit_two_pow_add_eq, Nat.testBit_lt_two_pow hmag]

theorem Fmt.sign_even (hf : f.Sound) (neg : Bool) (k n : Nat) : f.sign neg (k * 2 ^ f.mb + n) % 2 = n % 2 := by
  have hmb : 2 ∣ 2 ^ f.mb := dvd_pow_self 2 hf.mb_pos.ne'
  have hsb : 2 ∣ 2 ^ f.sb := dvd_pow_self 2 (by have := hf.mb_pos; unfold Fmt.sb; omega)
  obtain ⟨a, ha⟩ := hmb.mul_left k
  obtain ⟨b, hb⟩ := hsb.mul_left neg.toNat
  rw [Fmt.sign, ha, hb]
  omega

/-- R240: an encoding up to the largest finite magnitude is a number with its sign. -/
theorem Fmt.val_sign (hf : f.Sound) (neg : Bool) {mag : Nat} (hmag : mag ≤ f.top) :
    f.val (f.sign neg mag) = .num neg (f.sig mag) (f.lastPlace mag) := by
  have hlt := hmag.trans_lt hf.top_lt
  have hinf : f.inf ≠ some mag := fun h => (hf.top_inf mag h).not_ge hmag
  have hnan : f.nan ≠ some mag := fun h => (hf.top_nan mag h).not_ge hmag
  have hexp : ¬ (f.inf.isSome ∧ mag / 2 ^ f.mb = 2 ^ f.eb - 1) := fun ⟨h, he⟩ =>
    (he ▸ Nat.div_le_div_right hmag).not_gt (hf.top_exp h)
  unfold Fmt.val
  simp only [Fmt.nbits_exponent hf, Fmt.nbits_fraction hf, Fmt.sign_mag neg hlt, nbit, Fmt.sign_testBit neg hlt,
    if_neg hinf, if_neg hexp, if_neg hnan]
  unfold Fmt.sig Fmt.lastPlace Fmt.low
  split
  next h => simp [h, Nat.mod_eq_of_lt (Nat.lt_of_div_eq_zero (by positivity) h)]
  next h =>
    generalize mag / 2 ^ f.mb = k at h
    simp only [FVal.num.injEq, true_and]
    omega

/-- R240: every number of a format is a significand of its width at an exponent no lower than the subnormals'. -/
theorem Fmt.num_of_val (hf : f.Sound) {y m : Nat} {neg : Bool} {e : Int} (hy : f.val y = .num neg m e) :
    m < 2 ^ (f.mb + 1) ∧ f.low ≤ e := by
  have hfrac : nbits y (f.mb - 1) 0 < 2 ^ f.mb := by rw [Fmt.nbits_fraction hf]; exact Nat.mod_lt _ (by positivity)
  rw [pow_succ]
  unfold Fmt.val at hy
  simp only at hy
  split_ifs at hy with _ _ _ hzero
  all_goals
    injection hy with _ hm he
    subst hm he
    unfold Fmt.low
    omega

/-- The magnitude `n` in units of the spacing that is `k` places above the subnormals' is encoded by `k * 2 ^ mb + n`,
also where `n` carries into the next binade. -/
theorem Fmt.magnitude_encoding {k n : Nat} (hn : n ≤ 2 ^ (f.mb + 1)) (hk : k = 0 ∨ 2 ^ f.mb ≤ n) :
    magnitude (f.sig (k * 2 ^ f.mb + n)) (f.lastPlace (k * 2 ^ f.mb + n)) = magnitude n (f.low + k) := by
  have hpos : 0 < 2 ^ f.mb := by positivity
  rw [pow_succ] at hn
  unfold Fmt.sig Fmt.lastPlace
  rw [Nat.mul_comm k, Nat.mul_add_div hpos, Nat.mul_add_mod]
  rcases lt_or_ge n (2 ^ f.mb) with hsub | hnorm
  · obtain rfl := hk.resolve_right hsub.not_ge
    simp [Nat.div_eq_of_lt hsub]
  · obtain ⟨a, rfl⟩ := Nat.exists_eq_add_of_le hnorm
    rw [Nat.add_div_left _ hpos, Nat.add_mod_left]
    rcases lt_or_ge a (2 ^ f.mb) with ha | ha
    · simp [Nat.div_eq_of_lt ha, Nat.mod_eq_of_lt ha]
    · obtain rfl : a = 2 ^ f.mb := by omega
      have hcarry := magnitude_mul_two_pow (2 ^ f.mb) 1 (f.low + k)
      rw [pow_one, Nat.mul_two] at hcarry
      rw [Nat.div_self hpos, Nat.mod_self, hcarry]
      simp [add_assoc]

/-- No number of a format stands strictly between neighbours of its spacing. -/
theorem number_gap {mb m n : Nat} {low e q : Int} (hm : m < 2 ^ (mb + 1)) (he : low ≤ e) (hn : q = low ∨ 2 ^ mb ≤ n) :
    magnitude m e ≤ magnitude n q ∨ magnitude (n + 1) q ≤ magnitude m e := by
  rcases le_or_gt q e with hq | hq
  · obtain ⟨d, rfl⟩ := Int.le.dest hq
    simp only [← magnitude_mul_two_pow, magnitude_le_iff]
    omega
  · obtain ⟨d, rfl⟩ : ∃ d : Nat, q = e + (d + 1 : Nat) := ⟨(q - e).toNat - 1, by omega⟩
    have hnorm : 2 ^ mb ≤ n := hn.resolve_left (by omega)
    left
    rw [← magnitude_mul_two_pow, magnitude_le_iff]
    calc m ≤ 2 ^ mb * 2 ^ 1 := by rw [← pow_add]; exact hm.le
      _ ≤ n * 2 ^ (d + 1) := Nat.mul_le_mul hnorm (Nat.pow_le_pow_right two_pos (by omega))

/-! ### Rounding to a format -/

/-- R248: the exponent to a multiple of whose power a magnitude rounds: the last of the format's significand, and no lower
than the subnormals' spacing. -/
def Fmt.place (f : Fmt) (m : Nat) (e : Int) : Int := max ((Nat.log2 m : Int) + e - f.mb) f.low

/-- The encoding of `n` units of 2^q. -/
def Fmt.encoding (f : Fmt) (q : Int) (n : Nat) : Nat := (q + f.mb + f.bias - 1).toNat * 2 ^ f.mb + n

theorem Fmt.encoding_low_add (k n : Nat) : f.encoding (f.low + k) n = k * 2 ^ f.mb + n := by
  have hk : (f.low + k + f.mb + f.bias - 1).toNat = k := by unfold Fmt.low; omega
  rw [Fmt.encoding, hk]

theorem Fmt.place_eq (m : Nat) (e : Int) : ∃ k : Nat, f.place m e = f.low + k :=
  ⟨(f.place m e - f.low).toNat, by unfold Fmt.place; omega⟩

theorem Fmt.round_zero (rnd : Rnd) (sat neg : Bool) (e : Int) : f.round rnd sat neg 0 e = (f.sign neg 0, 0) := rfl

/-- R248, R250: a nonzero magnitude overflows with OF set, or becomes its encoding, with UF at most beside NX. -/
theorem Fmt.round_nonzero (rnd : Rnd) (sat neg : Bool) {m : Nat} (hm : m ≠ 0) (e : Int) :
    let r := roundAt rnd neg m e (f.place m e)
    let mag := f.encoding (f.place m e) r.1
    ∃ y, f.round rnd sat neg m e = if f.top < mag then (y, flagOF + flagNX) else
      (f.sign neg mag, if r.2 then flagNX + (if mag ≠ 0 ∧ mag < 2 ^ f.mb then flagUF else 0) else 0) :=
  ⟨_, if_neg hm⟩

theorem flags_inexact (inexact : Bool) (p : Prop) [Decidable p] :
    (if inexact then flagNX + (if p then flagUF else 0) else 0).testBit 0 = inexact := by
  cases inexact with
  | false => simp
  | true => by_cases hp : p <;> simp [hp, flagNX, flagUF]

theorem Fmt.round_fits {rnd : Rnd} {sat neg : Bool} {m : Nat} {e : Int} (hm : m ≠ 0)
    (hof : (f.round rnd sat neg m e).2.testBit 2 = false) :
    let r := roundAt rnd neg m e (f.place m e)
    let mag := f.encoding (f.place m e) r.1
    mag ≤ f.top ∧ (f.round rnd sat neg m e).1 = f.sign neg mag ∧ (f.round rnd sat neg m e).2.testBit 0 = r.2 := by
  intro r mag
  obtain ⟨y, hround⟩ := f.round_nonzero rnd sat neg hm e
  rw [hround] at hof ⊢
  split at hof
  next hover => exact absurd hof (by simp [flagOF, flagNX, Nat.testBit, Nat.shiftRight_eq_div_pow])
  next hfit =>
    rw [if_neg hfit]
    exact ⟨not_lt.1 hfit, rfl, flags_inexact r.2 _⟩

/-- The units below a magnitude fill the significand, except among the subnormals, and exceed it nowhere. -/
theorem Fmt.units_bounds {rnd : Rnd} {neg : Bool} {m n : Nat} {e : Int} {r : Nat × Bool} (hm : m ≠ 0)
    (hr : RoundsFrom rnd neg (magnitude m e) (f.place m e) r n) :
    n < 2 ^ (f.mb + 1) ∧ (f.place m e = f.low ∨ 2 ^ f.mb ≤ n) := by
  obtain ⟨hleast, hmost⟩ := magnitude_log2 hm e
  constructor
  · rw [← magnitude_lt_iff (e := f.place m e), magnitude_two_pow]
    refine (hr.low.trans_lt hmost).trans_le (zpow_le_zpow_right₀ one_le_two ?_)
    unfold Fmt.place
    omega
  · refine or_iff_not_imp_left.2 fun hnorm => Nat.lt_succ_iff.1 ?_
    rw [← magnitude_lt_iff (e := f.place m e), magnitude_two_pow]
    refine ((zpow_le_zpow_right₀ one_le_two ?_).trans hleast).trans_lt hr.high
    unfold Fmt.place at hnorm ⊢
    omega

/-- Without overflow the result is the number, of the sign given, that the rounding at the format's place answers. -/
theorem Fmt.round_number (hf : f.Sound) {rnd : Rnd} {sat neg : Bool} {m n : Nat} {e : Int} (hm : m ≠ 0)
    (hof : (f.round rnd sat neg m e).2.testBit 2 = false)
    (hr : RoundsFrom rnd neg (magnitude m e) (f.place m e) (roundAt rnd neg m e (f.place m e)) n) :
    let r := roundAt rnd neg m e (f.place m e)
    ∃ mr er, f.val (f.round rnd sat neg m e).1 = .num neg mr er ∧ magnitude mr er = magnitude r.1 (f.place m e) ∧
      (f.round rnd sat neg m e).1 % 2 = r.1 % 2 := by
  intro r
  obtain ⟨hfit, henc, -⟩ := Fmt.round_fits hm hof
  obtain ⟨hwide, hnorm⟩ := Fmt.units_bounds hm hr
  obtain ⟨k, hk⟩ := f.place_eq m e
  have hnear : r.1 = n ∨ r.1 = n + 1 := hr.near
  have hnormal : k = 0 ∨ 2 ^ f.mb ≤ r.1 := hnorm.imp (fun h => by omega) fun h => by omega
  refine ⟨_, _, by rw [henc]; exact Fmt.val_sign hf neg hfit, ?_, ?_⟩
  · rw [hk, Fmt.encoding_low_add, ← hk]
    exact (Fmt.magnitude_encoding (by omega) hnormal).trans (by rw [hk])
  · rw [henc]
    exact Fmt.sign_even hf neg _ _

/-- R247, R248, R250: without overflow, rounding answers the number of the format that the mode picks. -/
theorem Fmt.round_correct (hf : f.Sound) {rnd : Rnd} {sat neg : Bool} {m : Nat} {e : Int}
    (hof : (f.round rnd sat neg m e).2.testBit 2 = false) :
    ∃ mr er, f.val (f.round rnd sat neg m e).1 = .num neg mr er ∧
      ((f.round rnd sat neg m e).2.testBit 0 = true ↔ magnitude mr er ≠ magnitude m e) ∧
      ∀ y my ey, f.val y = .num neg my ey →
        rnd.Picks neg ((f.round rnd sat neg m e).1 % 2 = 0) (magnitude m e) (magnitude mr er) (magnitude my ey) := by
  rcases eq_or_ne m 0 with rfl | hm
  · have hzero : magnitude (f.sig 0) (f.lastPlace 0) = magnitude 0 e := by simp [Fmt.sig, magnitude]
    refine ⟨_, _, Fmt.val_sign hf neg (Nat.zero_le _), ?_, fun y my ey _ => ?_⟩
    · simp [hzero, Fmt.round_zero]
    · rw [hzero]
      exact rnd.picks_self neg _ _ _
  · obtain ⟨n, hr⟩ := roundAt_roundsFrom rnd neg m e (f.place m e)
    obtain ⟨mr, er, hval, hmag, heven⟩ := Fmt.round_number hf hm hof hr
    obtain ⟨-, -, hflag⟩ := Fmt.round_fits hm hof
    obtain ⟨-, hnorm⟩ := Fmt.units_bounds hm hr
    refine ⟨mr, er, hval, ?_, fun y my ey hy => ?_⟩
    · rw [hflag, hmag]
      exact hr.inexact
    · obtain ⟨hmy, hey⟩ := Fmt.num_of_val hf hy
      rw [hmag, heven]
      exact hr.picks _ (number_gap hmy hey hnorm)

end

/-- Settles O60: no number of a format stands strictly between the neighbours of the exact value at the format's place,
and of those two the mode picks the result. -/
theorem roundingIsCorrect : Obligations.RoundingIsCorrect := by
  unfold Obligations.RoundingIsCorrect
  intro ty rnd neg m e r v hof
  exact Fmt.round_correct ty.fmt_sound hof

end Sys2Proof
end

section
/-! R267, R268, R270, R398: FENCE waits for its order, and starts one operation. -/

namespace Sys2Proof.Machine

open Sys2Proof

section
variable {s : State} {c : Issue} {rel : Bool} (hexec : c.exec ≠ 0)
include hexec

/-- R268: behind an outstanding acquire of its thread a memory operation waits. -/
theorem memory_fenced (k : Unit → Body) (hfenced : c.fenced s = true) : c.memory s rel k = .stall := by
  rw [Issue.memory, if_neg hexec, if_pos (by simp [hfenced])]

/-- R267: a release waits for the local accesses of its thread. -/
theorem memory_unreleased (k : Unit → Body) (hunreleased : c.unreleased s = true) : c.memory s true k = .stall := by
  rw [Issue.memory, if_neg hexec, if_pos (by simp [hunreleased])]

/-- R270: an acquiring fence waits for the reads of its thread, whatever else its order asks. -/
theorem fenceBody_unread (h : Head) (hunread : c.unread s = true) : fenceBody s c h rel true = .stall := by
  rw [fenceBody, Issue.memory, if_neg hexec]
  split
  · rfl
  · rw [if_pos (by simp [hunread])]

end

section
variable {i : Instr} {h : Head} {rel acq : Bool} (hi : ∀ s, exec i s = issue s h .sca [] fun c => fenceBody s c h rel acq)
include hi

/-- R398: where its order allows it and, for an acquire, no read is left, a fence starts its operation. -/
theorem fence_acts : Acts i h .sca [] rel (fun s c => acq = true → c.unread s = false)
    fun s c => c.starts s s { c.plain s h with acq := acq } := by
  refine acts_of_started (u := fun s _ => s) hi (fun s c _ hread => if_neg ?_) fun _ _ => rfl
  simpa using hread

theorem fence_waits {s : State} {c : Issue} (hc : Clear s h .sca [] c) (hstall : fenceBody s c h rel acq = .stall) :
    exec i s =
      .next (commit s { s.setThread c.th { c.r with wait := { c.r.wait with stalled := true } } with focus := none }) := by
  rw [hi, issue_clear hc, hstall, settle_stall hc]

end

/-- Settles O30: each fence starts its operation where its order allows it, and waits at its issue where it does not. -/
theorem fences : Obligations.Fences := by
  unfold Obligations.Fences
  intro h
  have hacq := exec_fenceAcq h
  have hrel := exec_fenceRel h
  have hboth := exec_fenceAcqrel h
  refine ⟨fun s c hc hp => ?_, fun s c hc hp => ?_, fun s c hc hp => ?_, fun s c hc hexec => ⟨fun hfenced => ?_,
    fun hunreleased => ?_, fun hunread => ?_⟩⟩
  · exact (fence_acts hacq s c hc hp).imp_right fun acts hexec hord hread => acts hexec hord fun _ => hread
  · exact (fence_acts hrel s c hc hp).imp_right fun acts hexec hord _ => acts hexec hord nofun
  · exact (fence_acts hboth s c hc hp).imp_right fun acts hexec hord hread => acts hexec hord fun _ => hread
  · exact ⟨fence_waits hacq hc (memory_fenced hexec _ hfenced), fence_waits hrel hc (memory_fenced hexec _ hfenced),
      fence_waits hboth hc (memory_fenced hexec _ hfenced)⟩
  · exact ⟨fence_waits hrel hc (memory_unreleased hexec _ hunreleased),
      fence_waits hboth hc (memory_unreleased hexec _ hunreleased)⟩
  · exact ⟨fence_waits hacq hc (fenceBody_unread hexec h hunread), fence_waits hboth hc (fenceBody_unread hexec h hunread)⟩

end Sys2Proof.Machine
end

section
/-! Little-endian numbers: the bytes of a number, and the number of some bytes. -/

namespace Sys2Proof.Machine

open Sys2Proof

theorem getD_leBytes (x : Nat) {n i : Nat} (hi : i < n) : (leBytes n x).getD i 0 = BitVec.ofNat 8 (x / 256 ^ i) := by
  simp [leBytes, List.getD_eq_getElem?_getD, hi]

theorem leBytes_succ (n x : Nat) : leBytes (n + 1) x = leBytes n x ++ [BitVec.ofNat 8 (x / 256 ^ n)] := by
  simp [leBytes, List.range_succ]

theorem leNat_lt (bs : List Byte) : leNat bs < 256 ^ bs.length := by
  induction bs with
  | nil => simp [leNat]
  | cons b bs ih =>
    have hb := b.isLt
    rw [leNat, List.length_cons, Nat.pow_succ]
    omega

/-- The bytes of the number of some bytes are those bytes. -/
theorem byte_leNat (bs : List Byte) (i : Nat) : BitVec.ofNat 8 (leNat bs / 256 ^ i) = bs.getD i 0 := by
  induction bs generalizing i with
  | nil => simp [leNat]
  | cons b bs ih =>
    have hb : b.toNat < 256 := b.isLt
    cases i with
    | zero =>
      refine BitVec.eq_of_toNat_eq ?_
      simp only [leNat, Nat.pow_zero, Nat.div_one, BitVec.toNat_ofNat, List.getD_cons_zero]
      omega
    | succ i =>
      rw [leNat, Nat.pow_succ', ← Nat.div_div_eq_div_mul, Nat.add_mul_div_left _ _ (by decide), Nat.div_eq_of_lt hb,
        Nat.zero_add, ih, List.getD_cons_succ]

theorem MemSt.nat_lt (m : MemSt) (isl pa n : Nat) : m.nat isl pa n < 256 ^ n := by
  simpa [MemSt.nat, MemSt.bytes] using leNat_lt (m.bytes isl pa n)

/-- A byte of a number in memory is the byte at its place. -/
theorem MemSt.byte_nat (m : MemSt) (isl pa : Nat) {n i : Nat} (hi : i < n) :
    BitVec.ofNat 8 (m.nat isl pa n / 256 ^ i) = m.byte isl (pa + i) := by
  simp [MemSt.nat, byte_leNat, MemSt.bytes, List.getD_eq_getElem?_getD, hi]

theorem MemSt.nat_data {m n : MemSt} (h : m.data = n.data) (isl pa k : Nat) : m.nat isl pa k = n.nat isl pa k := by
  simp only [MemSt.nat, MemSt.bytes, MemSt.byte_data h]

theorem w64_toNat {n : Nat} (h : n < 2 ^ 64) : (w64 n).toNat = n :=
  (BitVec.toNat_ofNat ..).trans (Nat.mod_eq_of_lt h)

end Sys2Proof.Machine
end

section
/-! R194, R195, R200: what an ordinary store and a masked write leave at a home bank. -/

namespace Sys2Proof.Machine

open Sys2Proof

/-! ### Ranges -/

theorem Wrote.of_data {s t u : State} {isl pa : Nat} {bs : List Byte} (h : Wrote s u isl pa bs)
    (ht : t.mem.data = u.mem.data) : Wrote s t isl pa bs := by
  have hbyte := MemSt.byte_data ht
  simp only [MemSt.data, Prod.mk.injEq] at ht
  obtain ⟨-, -, -, hspad, hacc⟩ := ht
  exact ⟨fun i a ha => (hbyte i a).trans (h.bytes i a ha), hspad.trans h.spads, hacc.trans h.accs⟩

theorem Wrote.nothing (s : State) (isl pa : Nat) : Wrote s s isl pa [] :=
  ⟨fun i a _ => by rw [if_neg (by simp only [List.length_nil]; omega)], rfl, rfl⟩

/-- A range that already holds some bytes. -/
theorem Wrote.same {s : State} {isl pa : Nat} {bs : List Byte}
    (h : ∀ i < bs.length, s.mem.byte isl (pa + i) = bs.getD i 0) : Wrote s s isl pa bs := by
  refine ⟨fun i a _ => ?_, rfl, rfl⟩
  split
  · next hin =>
    obtain ⟨rfl, hlow, hhigh⟩ := hin
    rw [← h (a - pa) (by omega), Nat.add_sub_cancel' hlow]
  · rfl

/-- A range is written, then the range that follows it. -/
theorem Wrote.extend {s t u : State} {isl pa : Nat} {xs ys : List Byte} (hxs : Wrote s t isl pa xs)
    (hys : Wrote t u isl (pa + xs.length) ys) : Wrote s u isl pa (xs ++ ys) := by
  refine ⟨fun i a ha => ?_, hys.spads.trans hxs.spads, hys.accs.trans hxs.accs⟩
  rw [hys.bytes i a ha, hxs.bytes i a ha, List.length_append]
  by_cases hi : i = isl
  · by_cases hhigh : pa + xs.length ≤ a ∧ a < pa + xs.length + ys.length
    · rw [if_pos ⟨hi, hhigh⟩, if_pos ⟨hi, by omega, by omega⟩, List.getD_append_right _ _ _ _ (by omega), Nat.sub_add_eq]
    · rw [if_neg fun h => hhigh h.2]
      by_cases hlow : pa ≤ a ∧ a < pa + xs.length
      · rw [if_pos ⟨hi, hlow⟩, if_pos ⟨hi, by omega, by omega⟩, List.getD_append _ _ _ _ (by omega)]
      · rw [if_neg fun h => hlow h.2, if_neg (by omega)]
  · simp [hi]

/-- The bytes of a number, as they stand once it is written. -/
theorem Wrote.number {s t : State} {isl pa n x : Nat} (h : Wrote s t isl pa (leBytes n x)) (i a : Nat) (ha : a < 2 ^ 39) :
    t.mem.byte i a = if i = isl ∧ pa ≤ a ∧ a < pa + n then BitVec.ofNat 8 (x / 256 ^ (a - pa)) else s.mem.byte i a := by
  rw [h.bytes i a ha, length_leBytes]
  split
  · next hin => rw [getD_leBytes _ (by omega)]
  · rfl

/-! ### Stores, line by line -/

/-- R196: where each part of a write, cut at the lines, writes its bytes, the whole write does. -/
theorem wrote_lineParts {isl : Nat} {f : State → Nat × List Byte → State}
    (hf : ∀ s pa bs, pa + bs.length ≤ 2 ^ 39 → Wrote s (f s (pa, bs)) isl pa bs) (n pa : Nat) (bs : List Byte) (s : State)
    (hn : bs.length < n) (hfits : pa + bs.length ≤ 2 ^ 39) : Wrote s ((lineParts n pa bs).foldl f s) isl pa bs := by
  induction n generalizing pa bs s with
  | zero => omega
  | succ n ih =>
    rw [lineParts]
    cases bs with
    | nil => exact .nothing ..
    | cons b bs =>
      generalize hline : 256 - pa % 256 = k
      have hk : 0 < k := by omega
      have htake : ((b :: bs).take k).length = min k (b :: bs).length := List.length_take
      have hdrop : ((b :: bs).drop k).length = (b :: bs).length - k := List.length_drop
      have hfirst := hf s pa ((b :: bs).take k) (by omega)
      simp only [List.isEmpty_cons, Bool.false_eq_true, if_false, List.foldl_cons]
      rcases Nat.lt_or_ge (b :: bs).length k with hshort | hlong
      · have hlast : lineParts n (pa + k) ((b :: bs).drop k) = [] := by
          rw [List.drop_eq_nil_of_le hshort.le]
          cases n <;> rfl
        rw [hlast]
        rwa [List.take_of_length_le hshort.le] at hfirst ⊢
      · have hrest := ih (pa + k) ((b :: bs).drop k) (f s (pa, (b :: bs).take k)) (by omega) (by omega)
        have hnext : pa + ((b :: bs).take k).length = pa + k := by omega
        have hwhole := hfirst.extend (hnext.symm ▸ hrest)
        rwa [List.take_append_drop, hnext] at hwhole

theorem MemSt.data_registerOwner (m : MemSt) (isl core pa : Nat) (bs : List Byte) :
    (m.registerOwner isl core pa bs).data = m.data := by
  refine foldl_keeps _ MemSt.data (fun m w => ?_) _ _
  rfl

theorem wrote_makeRoom {s t : State} {isl pa : Nat} {bs : List Byte} (h : Wrote (makeRoom isl s pa) t isl pa bs) :
    Wrote s t isl pa bs := by
  obtain ⟨hkept, hbytes⟩ := makeRoom_kept isl s pa
  refine ⟨fun i a ha => ?_, h.spads.trans hkept.spad, h.accs.trans hkept.acc⟩
  rw [h.bytes i a ha, hbytes]

/-- R194: an ordinary store takes the place of the bytes of its range, and of no other. -/
theorem wrote_storeBank (s : State) (isl core pa : Nat) (bs : List Byte) (h : pa + bs.length ≤ 2 ^ 39) :
    Wrote s (storeBank s isl core pa bs) isl pa bs := by
  refine wrote_lineParts (fun s pa bs hfits => wrote_makeRoom ?_) _ pa bs s (Nat.lt_succ_self _) h
  obtain ⟨hkept, hbytes⟩ := writeBank_kept (makeRoom isl s pa) isl pa none bs hfits
  refine Wrote.of_data ⟨hbytes, hkept.spad, hkept.acc⟩ ?_
  exact (MemSt.data_registerOwner ..).trans (MemSt.data_clearOwner ..).symm

theorem storeBank_unbanked (s : State) (isl core pa : Nat) (bs : List Byte) :
    (storeBank s isl core pa bs).unbanked = s.unbanked := by
  refine foldl_keeps _ State.unbanked (fun s x => ?_) _ _
  exact makeRoom_unbanked isl s x.1

/-! ### Masked writes -/

/-- R200: the word that a masked write leaves, where its sector is sound. -/
abbrev masked (old d m : W64) : W64 := (old &&& ~~~m) ||| (d &&& m)

theorem byte_eq_extract (x : W64) (i : Nat) : BitVec.ofNat 8 (x.toNat / 256 ^ i) = x.extractLsb' (8 * i) 8 := by
  rw [BitVec.extractLsb', Nat.shiftRight_eq_div_pow, Nat.pow_mul]

/-- R200: a byte without a bit in the mask keeps its value. -/
theorem byte_masked (old d : W64) {m : W64} {i : Nat} (hm : (m >>> (8 * i)) &&& 0xFF = 0) :
    BitVec.ofNat 8 ((masked old d m).toNat / 256 ^ i) = BitVec.ofNat 8 (old.toNat / 256 ^ i) := by
  simp only [byte_eq_extract]
  refine BitVec.eq_of_getLsbD_eq fun j hj => ?_
  have hbit : m.getLsbD (8 * i + j) = false := by
    have hff : ∀ j < 8, (0xFF#64).getLsbD j = true := by decide
    simpa [hff j hj] using congrArg (fun x : W64 => x.getLsbD j) hm
  simp only [BitVec.getLsbD_extractLsb', BitVec.getLsbD_or, BitVec.getLsbD_and, BitVec.getLsbD_not, hbit]
  by_cases hlt : 8 * i + j < 64
  · simp [hlt]
  · simp [BitVec.getLsbD_of_ge old (8 * i + j) (by omega)]

/-- R200: the write of byte `i` of a word under a mask, where the mask has a bit there. -/
def maskedByte (isl : Nat) (core : Option Nat) (pa : Nat) (m new : W64) (s : State) (i : Nat) : State :=
  if (m >>> (8 * i)) &&& 0xFF = 0 then s else bypassBank s isl core (pa + i) [BitVec.ofNat 8 (new.toNat / 256 ^ i)]

theorem subByteBank_eq (s : State) (isl : Nat) (core : Option Nat) (pa : Nat) (d m : W64) : subByteBank s isl core pa d m =
    if (s.mem.poisonedAt isl pa 8).isSome then s
    else (List.range 8).foldl (maskedByte isl core pa m (masked (w64 (s.mem.nat isl pa 8)) d m)) s := rfl

theorem maskedByte_unbanked (isl : Nat) (core : Option Nat) (pa : Nat) (m new : W64) (s : State) (i : Nat) :
    (maskedByte isl core pa m new s i).unbanked = s.unbanked := by
  unfold maskedByte
  split
  · rfl
  · exact bypassBank_unbanked ..

theorem subByteBank_unbanked (s : State) (isl : Nat) (core : Option Nat) (pa : Nat) (d m : W64) :
    (subByteBank s isl core pa d m).unbanked = s.unbanked := by
  rw [subByteBank_eq]
  split
  · rfl
  · exact foldl_keeps _ State.unbanked (maskedByte_unbanked isl core pa m _) _ _

section
variable {s : State} {isl pa : Nat} (core : Option Nat) {m new : W64} (hfits : pa + 8 ≤ 2 ^ 39)
  (hkeeps : ∀ i < 8, (m >>> (8 * i)) &&& 0xFF = 0 → s.mem.byte isl (pa + i) = BitVec.ofNat 8 (new.toNat / 256 ^ i))
include hfits hkeeps

/-- R200: the first `n` bytes of a word take the new word's, where those without a bit in the mask are the old one's. -/
theorem wrote_maskedBytes (n : Nat) (hn : n ≤ 8) :
    Wrote s ((List.range n).foldl (maskedByte isl core pa m new) s) isl pa (leBytes n new.toNat) := by
  induction n with
  | zero => exact .nothing ..
  | succ n ih =>
    have hbefore := ih (by omega)
    rw [List.range_succ, List.foldl_append, List.foldl_cons, List.foldl_nil, leBytes_succ]
    generalize (List.range n).foldl (maskedByte isl core pa m new) s = t at hbefore ⊢
    refine hbefore.extend ?_
    rw [length_leBytes]
    unfold maskedByte
    split
    · next hm =>
      refine .same fun i hi => ?_
      obtain rfl : i = 0 := by simpa using hi
      rw [Nat.add_zero, hbefore.number isl (pa + n) (by omega), if_neg (by omega), hkeeps n (by omega) hm,
        List.getD_cons_zero]
    · exact wrote_bypassBank t isl core (pa + n) _ (by simp only [List.length_singleton]; omega)

end

/-- R200: a masked write leaves its word as one step, and every other byte. -/
theorem wrote_subByteBank (s : State) (isl : Nat) (core : Option Nat) {pa : Nat} (d m : W64) (hfits : pa + 8 ≤ 2 ^ 39) :
    let old : W64 := w64 (s.mem.nat isl pa 8)
    let new : W64 := if s.mem.poisonedAt isl pa 8 = none then masked old d m else old
    Wrote s (subByteBank s isl core pa d m) isl pa (leBytes 8 new.toNat) := by
  intro old new
  have hold : ∀ i < 8, s.mem.byte isl (pa + i) = BitVec.ofNat 8 (old.toNat / 256 ^ i) := fun i hi => by
    rw [w64_toNat (s.mem.nat_lt isl pa 8), MemSt.byte_nat _ _ _ hi]
  rw [subByteBank_eq]
  cases hp : s.mem.poisonedAt isl pa 8 with
  | none =>
    simp only [new, hp, if_true]
    exact wrote_maskedBytes core hfits (fun i hi hm => (hold i hi).trans (byte_masked old d hm).symm) 8 le_rfl
  | some b =>
    simp only [new, hp, Option.isSome_some, if_true, reduceCtorEq, if_false]
    refine .same fun i hi => ?_
    rw [length_leBytes] at hi
    rw [hold i hi, getD_leBytes _ hi]

end Sys2Proof.Machine
end

section
/-! R194: what a plain load leaves of L1, and what it reads. -/

namespace Sys2Proof.Machine

open Sys2Proof

/-! ### Words -/

/-- R194: an L1 word as a miss fills it from the home bank. -/
def MemSt.filled (m : MemSt) (isl : Nat) (sealed : Bool) (w : Nat) : L1Word := ⟨w32 (m.nat isl (w * 4) 4), false, sealed⟩

/-- R194: a miss fills one word; a word the core owns stays. -/
def MemSt.fillWord (isl core : Nat) (sealed : Bool) (m : MemSt) (w : Nat) : MemSt :=
  match m.l1.get? (isl, core, w) with
  | some ⟨_, true, _⟩ => m
  | _ => { m with l1 := m.l1.set (isl, core, w) (m.filled isl sealed w) }

theorem MemSt.fillL1_eq (m : MemSt) (isl core sector : Nat) (sealed : Bool) : m.fillL1 isl core sector sealed =
    ((List.range 16).map (sector * 16 + ·)).foldl (MemSt.fillWord isl core sealed) (m.roomL1 isl core (sector / 4)) := by
  rw [List.foldl_map]
  rfl

section
variable (isl core : Nat) (sealed : Bool) (m : MemSt)

theorem MemSt.data_fillWord (w : Nat) : (m.fillWord isl core sealed w).data = m.data := by
  unfold MemSt.fillWord
  split <;> rfl

theorem MemSt.data_roomL1 (line : Nat) : (m.roomL1 isl core line).data = m.data := by
  unfold MemSt.roomL1
  split
  · rfl
  · dsimp only
    split <;> rfl

theorem MemSt.data_fillL1 (sector : Nat) : (m.fillL1 isl core sector sealed).data = m.data := by
  rw [MemSt.fillL1_eq]
  exact (foldl_keeps _ MemSt.data (MemSt.data_fillWord isl core sealed) _ _).trans (MemSt.data_roomL1 ..)

end

section
variable {isl core : Nat} {sealed : Bool} {m : MemSt}

theorem MemSt.filled_data {n : MemSt} (h : m.data = n.data) (w : Nat) : m.filled isl sealed w = n.filled isl sealed w := by
  rw [MemSt.filled, MemSt.nat_data h, MemSt.filled]

/-- R194: room for a line brings no word into L1. -/
theorem MemSt.roomL1_absent {w : Nat} (line : Nat) (h : m.l1.get? (isl, core, w) = none) :
    (m.roomL1 isl core line).l1.get? (isl, core, w) = none := by
  unfold MemSt.roomL1
  split
  · exact h
  · dsimp only
    split
    · exact h
    · rw [Tbl.get?_drop, h, ite_self]

/-- A word that is absent, or stands as a miss fills it, stands so after one more word is filled. -/
theorem MemSt.fillWord_get? {w : Nat} (h : ∀ x ∈ m.l1.get? (isl, core, w), x = m.filled isl sealed w) (v : Nat) :
    (m.fillWord isl core sealed v).l1.get? (isl, core, w) =
      if w = v then some (m.filled isl sealed w) else m.l1.get? (isl, core, w) := by
  unfold MemSt.fillWord
  rcases eq_or_ne w v with rfl | hne
  · rw [if_pos rfl]
    split
    · next hx => exact nomatch congrArg L1Word.owned (h _ hx)
    · exact Tbl.get?_set_self ..
  · rw [if_neg hne]
    split
    · rfl
    · exact Tbl.get?_set_ne _ _ _ _ (by simpa using hne.symm)

theorem MemSt.foldl_fillWord_get? {w : Nat} (ws : List Nat)
    (h : ∀ x ∈ m.l1.get? (isl, core, w), x = m.filled isl sealed w) :
    (ws.foldl (MemSt.fillWord isl core sealed) m).l1.get? (isl, core, w) =
      if w ∈ ws then some (m.filled isl sealed w) else m.l1.get? (isl, core, w) := by
  induction ws generalizing m with
  | nil => simp
  | cons v ws ih =>
    have hdata := MemSt.filled_data (isl := isl) (sealed := sealed) (MemSt.data_fillWord isl core sealed m v) w
    have hget := MemSt.fillWord_get? h v
    rw [List.foldl_cons, ih, hdata, hget]
    · by_cases hv : w = v <;> simp [hv]
    · rw [hdata, hget]
      split
      · simp
      · exact h

/-- R194: a sector that is filled holds each word that L1 did not, as its home bank does. -/
theorem MemSt.fillL1_get? {w : Nat} (h : m.l1.get? (isl, core, w) = none) :
    (m.fillL1 isl core (w / 16) sealed).l1.get? (isl, core, w) = some (m.filled isl sealed w) := by
  have habsent := MemSt.roomL1_absent (w / 16 / 4) h
  rw [MemSt.fillL1_eq, MemSt.foldl_fillWord_get? _ (by simp [habsent]), if_pos,
    MemSt.filled_data (MemSt.data_roomL1 ..)]
  exact List.mem_map.2 ⟨w % 16, List.mem_range.2 (Nat.mod_lt _ (by decide)), by omega⟩

/-- R194: a byte of a word that a miss has filled is the byte of its home bank. -/
theorem MemSt.fillL1_byte {a : Nat} (h : m.l1.get? (isl, core, a / 4) = none) :
    (m.fillL1 isl core (a / 64) sealed).l1byte isl core a = some (m.byte isl a) := by
  have hword : (w32 (m.nat isl (a / 4 * 4) 4)).toNat = m.nat isl (a / 4 * 4) 4 :=
    (BitVec.toNat_ofNat ..).trans (Nat.mod_eq_of_lt (m.nat_lt isl (a / 4 * 4) 4))
  rw [MemSt.l1byte, show a / 64 = a / 4 / 16 by omega, MemSt.fillL1_get? h, Option.map_some, MemSt.filled, hword,
    MemSt.byte_nat _ _ _ (Nat.mod_lt a (by decide)), show a / 4 * 4 + a % 4 = a by omega]

/-! ### Loads -/

theorem mem_wordsOf {pa n w : Nat} (hn : 0 < n) : w ∈ wordsOf pa n ↔ pa / 4 ≤ w ∧ w ≤ (pa + n - 1) / 4 := by
  simp only [wordsOf, List.mem_map, List.mem_range]
  constructor
  · rintro ⟨i, hi, rfl⟩
    omega
  · exact fun _ => ⟨w - pa / 4, by omega, by omega⟩

/-- R194: a load whose words L1 holds reads them, and changes nothing. -/
theorem MemSt.loadL1_hit {pa n : Nat} (h : ∀ w ∈ wordsOf pa n, (m.l1.get? (isl, core, w)).isSome = true) :
    m.loadL1 isl core pa n sealed = (m, leNat ((List.range n).map fun i => (m.l1byte isl core (pa + i)).getD 0)) := by
  have hhit : m.l1Hit isl core pa n = true := List.all_eq_true.2 h
  simp [MemSt.loadL1, hhit]

theorem MemSt.data_loadL1 (m : MemSt) (isl core pa n : Nat) (sealed : Bool) :
    (m.loadL1 isl core pa n sealed).1.data = m.data := by
  have hmem : (m.loadL1 isl core pa n sealed).1 =
      if m.l1Hit isl core pa n then m else m.fillL1 isl core (pa / 64) sealed := rfl
  rw [hmem]
  split
  · rfl
  · exact MemSt.data_fillL1 ..

/-- R194: a load within a sector of whose words L1 holds none reads the bytes of the home bank. -/
theorem MemSt.loadL1_miss {pa n : Nat} (hn : 0 < n) (hsector : ∀ i < n, (pa + i) / 64 = pa / 64)
    (h : ∀ w ∈ wordsOf pa n, m.l1.get? (isl, core, w) = none) :
    (m.loadL1 isl core pa n sealed).2 = m.nat isl pa n := by
  have hmiss : m.l1Hit isl core pa n = false :=
    List.all_eq_false.2 ⟨_, first_mem_wordsOf pa n, by simp [h _ (first_mem_wordsOf pa n)]⟩
  have hbyte : ∀ i < n, (m.fillL1 isl core (pa / 64) sealed).l1byte isl core (pa + i) = some (m.byte isl (pa + i)) := by
    intro i hi
    rw [← hsector i hi]
    exact MemSt.fillL1_byte (h _ ((mem_wordsOf hn).2 (by omega)))
  have hread : (m.loadL1 isl core pa n sealed).2 =
      leNat ((List.range n).map fun i => ((m.fillL1 isl core (pa / 64) sealed).l1byte isl core (pa + i)).getD 0) := by
    rw [MemSt.loadL1, hmiss, if_neg Bool.false_ne_true]
  rw [hread]
  refine congrArg leNat (List.map_congr_left fun i hi => ?_)
  rw [hbyte i (List.mem_range.1 hi), Option.getD_some]

/-- R386: an aligned access stays within a sector. -/
theorem aligned_in_sector {pa n : Nat} (hn : n ∈ [1, 2, 4, 8]) (ha : pa % n = 0) (i : Nat) (hi : i < n) :
    (pa + i) / 64 = pa / 64 := by
  simp only [List.mem_cons, List.not_mem_nil, or_false] at hn
  rcases hn with rfl | rfl | rfl | rfl <;> omega

end

end Sys2Proof.Machine
end

section
/-! R190, R192: what a write of a scratchpad leaves. -/

namespace Sys2Proof.Machine

open Sys2Proof

theorem spadPut_data (m : MemSt) (isl core off : Nat) (bs : List Byte) : (m.spadPut isl core off bs).data =
    ({ m with spad := m.spad.putBytes (skey isl core off) bs } : MemSt).data := MemSt.data_curePoison ..

theorem curePoison_l1 (m : MemSt) (f : Nat → Loc) (a n : Nat) : (m.curePoison f a n).l1 = m.l1 := by
  unfold MemSt.curePoison
  split
  · rfl
  · refine foldl_keeps _ MemSt.l1 (fun m sec => ?_) _ _
    unfold MemSt.cureSector
    split
    · rfl
    · dsimp only
      split <;> rfl

/-- R190: the offsets of one scratchpad from one on have keys of their own. -/
theorem skey_range {isl core a n i c off : Nat} (hcore : core < 96) (hfits : a + n ≤ 2 ^ 19) (hc : c < 96) (hoff : off < 2 ^ 19) :
    (skey isl core a ≤ skey i c off ∧ skey i c off < skey isl core a + n) ↔ (i = isl ∧ c = core ∧ a ≤ off ∧ off < a + n) := by
  unfold skey
  omega

/-- R190: a number that is written in a scratchpad takes its own bytes, and no other byte of any. -/
theorem spadPut_number (m : MemSt) {isl core a n x : Nat} (hcore : core < 96) (hfits : a + n ≤ 2 ^ 19) {i c off : Nat}
    (hc : c < 96) (hoff : off < 2 ^ 19) : (m.spadPut isl core a (leBytes n x)).spad.get (skey i c off) =
      if i = isl ∧ c = core ∧ a ≤ off ∧ off < a + n then BitVec.ofNat 8 (x / 256 ^ (off - a))
      else m.spad.get (skey i c off) := by
  have hspad := congrArg (fun d => d.2.2.2.1) (spadPut_data m isl core a (leBytes n x))
  simp only [MemSt.data] at hspad
  rw [hspad, Mem.get_putBytes, length_leBytes]
  simp only [skey_range hcore hfits hc hoff]
  split
  · next hin =>
    obtain ⟨rfl, rfl, hlow, hhigh⟩ := hin
    rw [show skey i c off - skey i c a = off - a by unfold skey; omega, getD_leBytes _ (by omega)]
  · rfl

end Sys2Proof.Machine
end

section
/-! R265: an access performs. -/

namespace Sys2Proof.Machine

open Sys2Proof

/-! ### The choice -/

/-- R265: the next choice is that an access of an operation performs, and it may. -/
structure Performs (s : State) (id k : Nat) (o : Op) (a : Access) (cs : List Choice) : Prop where
  next : s.sched = .perform id k :: cs
  named : s.op? id = some o
  plain : ∀ j, o.act ≠ .matrix j
  access : o.accs[k]? = some a
  free : o.canPerform s k = true

/-- R265: an operation whose access `k` has performed, and what it read. -/
def Op.performed (o : Op) (k : Nat) (a : Access) (v : Nat) : Op :=
  { o with accs := o.accs.set k { a with done := true, val := w64 v } }

theorem Op.performed_access {o : Op} {k : Nat} {a : Access} (h : o.accs[k]? = some a) (v : Nat) :
    (o.performed k a v).accs[k]? = some { a with done := true, val := w64 v } := by
  obtain ⟨hk, -⟩ := List.getElem?_eq_some_iff.1 h
  simp [Op.performed, hk]

/-- An access changes memory and the watches of threads alone. -/
theorem performAccess_unbanked (s : State) (o : Op) (a : Access) : (performAccess s o a).1.unbanked = s.unbanked := by
  have hglobal : (performGlobal s o a).1.unbanked = s.unbanked := by
    unfold performGlobal
    dsimp only
    split
    · split
      · rfl
      · split <;> rfl
    · rfl
    · exact storeBank_unbanked ..
    · exact bypassBank_unbanked ..
    · exact subByteBank_unbanked ..
    · exact bypassBank_unbanked ..
  unfold performAccess
  split
  · unfold performSpad
    dsimp only
    split <;> rfl
  · rfl
  · exact hglobal

/-- What an access that has performed leaves: the memory that it leads to, its operation with what it read, and the
registers as they were. -/
structure Performed (s : State) (id k : Nat) (o : Op) (a : Access) (u : State) (v : Nat) (t : State) : Prop where
  mem : t.mem = u.mem
  op : t.op? id = some (o.performed k a v)
  vreg : t.core.vreg = s.core.vreg
  sreg : t.core.sreg = s.core.sreg
  pred : t.core.pred = s.core.pred

section
variable {s : State} {id k : Nat} {o : Op} {a : Access} {cs : List Choice} (h : Performs s id k o a cs)
include h

theorem Performs.choice :
    let r := performAccess { s with sched := cs } o a
    quietChoice { s with sched := cs } (.perform id k) = some (setOp r.1 (o.performed k a r.2)) := by
  intro r
  obtain ⟨-, hnamed, hplain, haccess, hfree⟩ := h
  have hnamed' : ({ s with sched := cs } : State).op? id = some o := hnamed
  have hfree' : o.canPerform { s with sched := cs } k = true := hfree
  rw [quietChoice, performChoice, hnamed']
  dsimp only
  split
  · next hjob => exact absurd hjob (hplain _)
  · rw [if_pos hfree', perform, haccess]
    rfl

/-- R265: the step is the access alone. -/
theorem Performs.gives {P : State → Prop}
    (hP : ∀ t, let r := performAccess { s with sched := cs } o a; Performed s id k o a r.1 r.2 t → P t) : Gives (step s) P := by
  have hchoice := h.choice
  have hkept {α : Type} (f : CoreSt → α) := congrArg (fun u : State => f u.core)
    (performAccess_unbanked { s with sched := cs } o a)
  have hid : o.id = id := op?_id h.named
  generalize performAccess { s with sched := cs } o a = r at hP hchoice hkept
  have hstep : step s = .next (commit { s with sched := cs } (setOp r.1 (o.performed k a r.2))) := by
    rw [step, h.next]
    simp only [runChoice, hchoice]
  have hfound : r.1.op? o.id = some o := hid ▸ (congrArg (List.find? _) (hkept (·.ops))).trans h.named
  exact ⟨_, hstep, hP _ ⟨rfl, hid ▸ setOp_op?_self (q := o.performed k a r.2) hfound, hkept (·.vreg), hkept (·.sreg),
    hkept (·.pred)⟩⟩

end

section
variable {s u t : State} {id k v : Nat} {o : Op} {a : Access} (h : Performed s id k o a u v t)
include h

theorem Performed.value (ha : o.accs[k]? = some a) :
    (t.op? id).map (fun o => (o.accs[k]?).map fun a => (a.done, a.val)) = some (some (true, w64 v)) := by
  rw [h.op, Option.map_some, Op.performed_access ha, Option.map_some]

theorem Performed.done (ha : o.accs[k]? = some a) :
    (t.op? id).map (fun o => (o.accs[k]?).map (·.done)) = some (some true) := by
  rw [h.op, Option.map_some, Op.performed_access ha, Option.map_some]

end

/-! ### Kinds of access -/

section
variable {a : Access} (s : State) (o : Op)

theorem performAccess_global (hspace : a.space = .global) : performAccess s o a = performGlobal s o a := by
  simp [performAccess, hspace]

theorem performAccess_spad {core : Nat} (hspace : a.space = .spad core) : performAccess s o a = performSpad s o a core := by
  simp [performAccess, hspace]

/-- R194, R195: a write of global memory, through L1 or past it, takes the place of its own bytes. -/
theorem performGlobal_write {v : W64} (hkind : a.kind = .write v ∨ a.kind = .bypass v) (hfits : a.addr + a.size ≤ 2 ^ 39) :
    Wrote s (performGlobal s o a).1 o.m.isl a.addr (leBytes a.size v.toNat) := by
  have hlen : a.addr + (leBytes a.size v.toNat).length ≤ 2 ^ 39 := by rwa [length_leBytes]
  rcases hkind with hkind | hkind <;> simp only [performGlobal, hkind]
  · exact wrote_storeBank _ _ _ _ _ hlen
  · exact wrote_bypassBank _ _ _ _ _ hlen

/-- R200: a sub-byte write takes the place of its word, under its mask. -/
theorem performGlobal_sub {d m : W64} (hkind : a.kind = .sub d m) :
    (performGlobal s o a).1 = subByteBank s o.m.isl (some o.core) a.addr d m := by
  simp only [performGlobal, hkind]

/-- R194: a plain load goes through L1. -/
theorem performGlobal_load (hspace : a.space = .global) (hkind : a.kind = .read) (hacq : o.acq = false) :
    performGlobal s o a = ({ s with mem := (s.mem.loadL1 o.m.isl o.core a.addr a.size a.sealed).1 },
      (s.mem.loadL1 o.m.isl o.core a.addr a.size a.sealed).2) := by
  simp [performGlobal, hkind, hspace, hacq]

end

/-! ### Atomics -/

/-- R395: what an atomic writes of the old value, reduced to its width, and its operand. -/
def atomicNew (op : AOp) (ty : Ty) (x y cmp : Nat) : Nat :=
  match op with
  | .add => if ty = .f32 then (Ty.f32.fmt.add .rne (Ty.f32.fmt.val x) (Ty.f32.fmt.val y)).1 else x + y
  | .min => if ty.read x ≤ ty.read y then x else y
  | .max => if ty.read y ≤ ty.read x then x else y
  | .and => x &&& y
  | .or => x ||| y
  | .xor => x ^^^ y
  | .exch => y
  | .cas => if x = cmp then y else x

theorem bits_width (ty : Ty) : 256 ^ (ty.bits / 8) = 2 ^ ty.bits ∧ 2 ^ ty.bits ≤ 2 ^ 64 := by
  cases ty <;> decide

theorem atomicOp_new {op : AOp} {ty : Ty} {x : Nat} (b cmp : W64) (hx : x < 2 ^ ty.bits) :
    (atomicOp op ty (w64 x) b cmp).toNat =
      atomicNew op ty x (b.toNat % 2 ^ ty.bits) (cmp.toNat % 2 ^ ty.bits) % 2 ^ ty.bits := by
  obtain ⟨-, hwidth⟩ := bits_width ty
  have hnew : atomicOp op ty (w64 x) b cmp =
      w64 (atomicNew op ty x (b.toNat % 2 ^ ty.bits) (cmp.toNat % 2 ^ ty.bits) % 2 ^ ty.bits) := by
    simp only [atomicOp, w64_toNat (hx.trans_le hwidth), Nat.mod_eq_of_lt hx]
    rfl
  rw [hnew, w64_toNat ((Nat.mod_lt _ (Nat.two_pow_pos _)).trans_le hwidth)]

section
variable {s : State} {o : Op} {a : Access} {op : AOp} {ty : Ty} {b cmp : W64} (hkind : a.kind = .atomic op ty b cmp)
include hkind

/-- R395: an atomic returns the old value of its word. -/
theorem performGlobal_old : (performGlobal s o a).2 = s.mem.nat o.m.isl a.addr a.size := by
  simp only [performGlobal, hkind]

/-- R395: an atomic writes what its operation gives of the old value and its operand. -/
theorem performGlobal_atomic (hsize : a.size = ty.bits / 8) (hfits : a.addr + a.size ≤ 2 ^ 39) :
    Wrote s (performGlobal s o a).1 o.m.isl a.addr (leBytes a.size
      (atomicNew op ty (s.mem.nat o.m.isl a.addr a.size) (b.toNat % 2 ^ ty.bits) (cmp.toNat % 2 ^ ty.bits) % 2 ^ ty.bits)) := by
  have hold : s.mem.nat o.m.isl a.addr a.size < 2 ^ ty.bits := by
    rw [← (bits_width ty).1, hsize]
    exact MemSt.nat_lt ..
  rw [← atomicOp_new b cmp hold]
  simp only [performGlobal, Access.bytesAfter, hkind]
  exact wrote_bypassBank _ _ _ _ _ (by rwa [length_leBytes])

end

/-! ### Scratchpads -/

section
variable (s : State) (o : Op) (a : Access) (core : Nat)

/-- R190: an access of a scratchpad reads the bytes there. -/
theorem performSpad_old : (performSpad s o a core).2 = leNat (s.mem.spadBytes o.m.isl core a.addr a.size) := by
  unfold performSpad
  dsimp only
  split <;> rfl

/-- R190: an access of a scratchpad leaves memory, accumulators and L1 as they were. -/
theorem performSpad_keeps : (∀ i pa, (performSpad s o a core).1.mem.byte i pa = s.mem.byte i pa) ∧
    (performSpad s o a core).1.mem.acc = s.mem.acc ∧ (performSpad s o a core).1.mem.l1 = s.mem.l1 := by
  unfold performSpad
  dsimp only
  split
  · exact ⟨fun _ _ => rfl, rfl, rfl⟩
  · exact ⟨fun _ _ => rfl, rfl, rfl⟩
  · exact ⟨fun _ _ => spadPut_bank .., spadPut_acc .., curePoison_l1 ..⟩

end

end Sys2Proof.Machine
end

section
/-! The statement of the accesses that perform. -/

namespace Sys2Proof.Machine

open Sys2Proof

/-- Settles O26, by the kind of access and its space: each performs as the one step that its memory sees. -/
theorem accessesPerform : Obligations.AccessesPerform := by
  unfold Obligations.AccessesPerform
  refine ⟨?_, ?_, ?_, ?_, ?_⟩
  · intro s id k o a v cs hnext hnamed hplain haccess hfree hspace hkind hfits
    refine Performs.gives ⟨hnext, hnamed, hplain, haccess, hfree⟩ fun t ht => ?_
    rw [performAccess_global _ _ hspace] at ht
    have hwrote := (performGlobal_write { s with sched := cs } o hkind hfits).of_mem (s' := s) rfl ht.mem
    exact ⟨hwrote.number, fun x => congrArg (Mem.get · x) hwrote.spads, hwrote.accs, ht.done haccess, ht.vreg, ht.sreg, ht.pred⟩
  · intro s id k o a op ty b cmp cs hnext hnamed hplain haccess hfree hspace hkind hsize hfits old y new
    refine Performs.gives ⟨hnext, hnamed, hplain, haccess, hfree⟩ fun t ht => ?_
    rw [performAccess_global _ _ hspace, performGlobal_old hkind] at ht
    have hwrote := (performGlobal_atomic (s := { s with sched := cs }) (o := o) hkind hsize hfits).of_mem (s' := s) rfl ht.mem
    exact ⟨ht.value haccess, hwrote.number⟩
  · intro s id k o a cs hnext hnamed hplain haccess hfree hspace hkind hacq hsize halign
    refine Performs.gives ⟨hnext, hnamed, hplain, haccess, hfree⟩ fun t ht => ?_
    rw [performAccess_global _ _ hspace, performGlobal_load _ _ hspace hkind hacq] at ht
    have hpos : 0 < a.size := Nat.pos_of_ne_zero fun hzero => by simp [hzero] at hsize
    have hdata : t.mem.data = s.mem.data := (congrArg MemSt.data ht.mem).trans (MemSt.data_loadL1 ..)
    refine ⟨MemSt.byte_data hdata, fun x => congrArg (fun d => Mem.get d.2.2.2.1 x) hdata, fun hnone => ?_, fun hheld => ?_⟩
    · rw [ht.value haccess]
      have hmiss := MemSt.loadL1_miss (sealed := a.sealed) hpos (aligned_in_sector hsize halign) fun w hw =>
        (mem_wordsOf hpos).1 hw |>.elim (hnone w)
      exact congrArg (fun n => some (some (true, w64 n))) hmiss
    · have hhit := MemSt.loadL1_hit (sealed := a.sealed) fun w hw => (mem_wordsOf hpos).1 hw |>.elim (hheld w)
      exact ⟨(ht.value haccess).trans (congrArg (fun r => some (some (true, w64 r.2))) hhit),
        ht.mem.trans (congrArg Prod.fst hhit)⟩
  · intro s id k o a d m cs hnext hnamed hplain haccess hfree hspace hkind hfits old new
    refine Performs.gives ⟨hnext, hnamed, hplain, haccess, hfree⟩ fun t ht => ?_
    rw [performAccess_global _ _ hspace, performGlobal_sub _ _ hkind] at ht
    have hwrote := (wrote_subByteBank { s with sched := cs } o.m.isl (some o.core) d m hfits).of_mem (s' := s) rfl ht.mem
    exact ⟨hwrote.number, fun x => congrArg (Mem.get · x) hwrote.spads, hwrote.accs, ht.done haccess⟩
  · intro s id k core o a cs hnext hnamed hplain haccess hfree hspace hcore hfits old
    refine Performs.gives ⟨hnext, hnamed, hplain, haccess, hfree⟩ fun t ht => ?_
    rw [performAccess_spad _ _ hspace, performSpad_old] at ht
    obtain ⟨hbytes, hacc, hl1⟩ := performSpad_keeps { s with sched := cs } o a core
    intro writes
    refine ⟨ht.value haccess, ?_, ?_, ?_, fun hread x => ?_, fun v hwrite => ?_, fun op ty b cmp hatomic hsize => ?_⟩
    · rw [ht.mem]
      exact hbytes
    · rw [ht.mem]
      exact hacc
    · rw [ht.mem]
      exact hl1
    · rw [ht.mem, performSpad, hread]
    · intro isl c off hc hoff
      rw [ht.mem, performSpad, Access.bytesAfter, hwrite]
      exact spadPut_number s.mem hcore hfits hc hoff
    · intro isl c off hc hoff
      rw [ht.mem, performSpad, Access.bytesAfter, hatomic]
      exact spadPut_number s.mem hcore hfits hc hoff

end Sys2Proof.Machine
end
